-- ==== Sys2Proof/Word.lean ====
section
/-! DEFINITION. The word types of the QD-48 and the payload and header types that its commands and its state share. -/

namespace Sys2Proof

/-- A 64-bit register word. -/
abbrev Word := BitVec 64
/-- A hub ID, 0 to 4095 (R41). -/
abbrev HubId := BitVec 12
/-- A fabric physical address (R39). -/
abbrev Fpa := BitVec 60
/-- A host physical address (Table 02.2). -/
abbrev Hpa := BitVec 52
/-- The line field of messages: FPA[59:6] (Table 03.7). -/
abbrev LineAddr := BitVec 54
/-- The 64 bytes of a line, byte 0 in bits 7..0 (little-endian, R158). -/
abbrev LineBits := BitVec 512
/-- A traffic class TC0 to TC7. -/
abbrev Tc := BitVec 3
/-- A register origin of Table 12.2, 0 to 35. -/
abbrev Origin := Fin 36
/-- A host port HP0 to HP15. -/
abbrev HPort := Fin 16
/-- A cellar port DP0 to DP7. -/
abbrev DPort := Fin 8
/-- An Idior port IP0 to IP11. -/
abbrev IPort := Fin 12

/-- A 64-byte payload with its poison bits, one per 64-bit word (PZ, Table 03.7). -/
structure Data where
  bytes : LineBits
  pz : BitVec 8
  deriving DecidableEq, Repr

/-- The line of 64 zero bytes, not poisoned. -/
def Data.zero : Data := ⟨0, 0⟩

/-- Data with every PZ bit set (R43). -/
def Data.poison : Data := ⟨0, 0xFF⟩

/-- The protocol fields that a coherence message carries (Table 03.7, Table 08.3).
`xtra` is the XTRA field: byte mask, MSEQ, TSN, or the fields of Table 08.5. -/
structure Hdr where
  src : HubId
  inc : BitVec 8
  tc : Tc
  epoch : BitVec 16
  line : LineAddr
  rqh : HubId
  rtag : BitVec 12
  htag : BitVec 14
  tgt : Bool
  g : Bool
  d : Bool
  fw : Bool
  xtra : BitVec 64
  deriving DecidableEq, Repr

/-- The opcodes of Table 08.4. -/
inductive Opc where
  | rdS | rdX | rdO | upg | wrL | wrP | atm | fnc
  | evc | wbD | mrW | mrCtl
  | snpS | snpX | snpI | snpBc
  | datS | datF | datE | datM | fwdS | fwdX | ackD
  | gntX | ack | ackE | cmp | wbAck | fin | mrAck | rdr
  | dsReport | dsAssign | jnReq | jnAdmit | dhRpt | dhNote | dhDone | dhClear
  | tkNote | tkBack | lkSeqQ | lkSeqR | plNote | mbMsg
  | reserved (code : BitVec 6)
  deriving DecidableEq, Repr

/-- An Idior message: Table 08.3's header and up to four payload slots of 16 bytes. -/
structure Msg where
  opc : Opc
  dst : HubId
  dl : Bool
  sr : Bool
  hops : BitVec 5
  len : BitVec 3
  h : Hdr
  data : Data
  deriving DecidableEq, Repr

/-- MetaValue of CXL.mem (Table 03.8). -/
inductive MetaVal where
  | invalid | shared | any
  deriving DecidableEq, Repr

/-- The address part of a request that reaches a host port. -/
structure HostReq where
  port : HPort
  hpa : Hpa
  tag : BitVec 16
  deriving DecidableEq, Repr

/-- The write part of a `MemWr` (`full`) or `MemWrPtl` (Table 03.8, R384). -/
structure HostWr where
  full : Bool
  mask : BitVec 64
  data : Data
  mv : MetaVal
  deriving DecidableEq, Repr

/-- A host's `BIRsp` (Table 03.8). -/
inductive BiRsp where
  | rspI | rspS | rspE
  deriving DecidableEq, Repr

/-- PCIe AtomicOps (Table 09.2). -/
inductive AtomicOp where
  | fetchAdd | swap | cas
  deriving DecidableEq, Repr

/-- One step of IDE_KM on a host port (R462): a key programmed for a stream, or the stream made secure. -/
inductive IdeKm where
  | keyProg (mem : Bool)
  | setGo (mem : Bool)
  | setStop (mem : Bool)
  deriving DecidableEq, Repr

/-- What the check of a stored code word found (R382). `pos` is the first corrected bit or symbol (Table 10.3); a frame record may be
uncorrectable in both of its copies (R179). -/
inductive Ecc where
  | clean
  | corrected (pos : BitVec 6)
  | uncorrectable
  | bothCopies
  deriving DecidableEq, Repr

/-- A JTAG instruction (R421, R593): the manual gives no instruction codes. -/
inductive JtagIr where
  | bypass | idcode | sample | other
  deriving DecidableEq, Repr

/-- What arrives at an Idior receiver besides the body (R300, R301): the FEC result, the CRC and tag checks, the link header. -/
structure FlitHead where
  fecOk : Bool
  symbols : Nat
  crcOk : Bool
  tagOk : Bool
  seq : BitVec 10
  ack : BitVec 10
  cvc : BitVec 4
  ccnt : BitVec 4
  csh : Bool
  nak : Bool
  deriving DecidableEq, Repr

/-- A flit that stands alone (a beacon or a halt flit) as it arrives: the Idior port and the head (R300, R301). -/
structure FlitIn where
  port : IPort
  head : FlitHead
  deriving DecidableEq, Repr

/-- What follows in the slots of a data flit (R303): a pad slot, or the next `slots` slots of a message, which may begin or end in another flit. -/
inductive FlitPiece where
  | pad
  | part (m : Msg) (slots : Nat)
  deriving DecidableEq, Repr

/-- The slots of a data flit that a piece fills. -/
def FlitPiece.size : FlitPiece → Nat
  | .pad => 1
  | .part _ n => n

/-- The body of a time beacon (Table 08.9). -/
structure Beacon where
  txt : Word
  echo : Word
  turn : BitVec 32
  tst : BitVec 2
  hops : BitVec 5
  gm : Bool
  rid : HubId
  rknown : Bool
  rseq : BitVec 32
  rhop : BitVec 8
  rpri : BitVec 8
  rserial : Word
  deriving DecidableEq, Repr

/-- What the parameter exchange of training tells (Table 08.6, TRAIN) and how key establishment ended (R458). -/
structure PeerParams where
  serial : Word
  hub : HubId
  inc : BitVec 8
  port : BitVec 4
  spare : Bool
  authOk : Bool
  deriving DecidableEq, Repr

/-- One metadata block returned beside a granule: level 0 a counter block, 1 to 11 a tree node (R433, R442). -/
structure MetaBlock where
  level : Nat
  index : Nat
  bits : LineBits
  poisoned : Bool
  mirror : Bool
  deriving DecidableEq, Repr

/-- A granule read's response from the expanders (R389, R441): the four lines, which came back poisoned,
the check parts of a Strong set, the MAC word and the metadata read with it. -/
structure CellarResp where
  granule : BitVec 40
  lines : BitVec 2048
  poisoned : BitVec 4
  parts : BitVec 128
  mac : Word
  macPoisoned : Bool
  blocks : List MetaBlock
  late : Bool
  deriving DecidableEq, Repr

/-- An expander's corrected-error record (R394): device address and lost data. -/
structure GmerRec where
  dpa : BitVec 52
  deriving DecidableEq, Repr

/-- What a scrub read found (R409, Table 10.3): unit, KIND, ADDR and the check result. -/
structure ScrubFind where
  unit : Fin 16
  kind : BitVec 4
  addr : BitVec 48
  ecc : Ecc
  deriving DecidableEq, Repr

/-- The part of a firmware image that a staging command carries (R492). -/
structure FwPart where
  offset : Nat
  last : Bool
  verifies : Bool
  version : BitVec 16
  svn : BitVec 8
  deriving DecidableEq, Repr

/-- The twelve hub-ID straps, HUBID_EN and PROFILE as the pins stand (R584). -/
structure Straps where
  profile : Bool
  hubidEn : Bool
  hubid : HubId
  deriving DecidableEq, Repr

/-- A mailbox: HP0 to HP15, I3C (16) or fabric (17) (R484). -/
abbrev Mailbox := Fin 18

/-- The background tasks that work in squares whose TASK names them (R257, Table 06.7). -/
inductive BgKind where
  | windowSweep (p : HPort) (n : BitVec 8)
  | domainSweep
  | rangeFlush
  | hostReclaim (p : HPort)
  | mirrorCopy
  | rekey
  | keyRetire
  | sliceDrain
  | pageRetire
  | pcRetire
  | maint
  | strongRebuild (d : DPort)
  | handback
  | probeDir
  | probeHf
  deriving DecidableEq, Repr

/-- What a PCIe training has come to (Table 09.1): the rate, 1 for 16 GT/s, 2 for 32 GT/s, 3 for 64 GT/s and 0 for less, log2 of the lanes that the
peer has, and whether the peer is in FLIT mode. -/
structure PcieTrain where
  rate : BitVec 2
  width : BitVec 3
  flit : Bool
  deriving DecidableEq, Repr

/-- A host port whose link has trained, and what the training has come to. -/
structure HostTrain where
  port : HPort
  train : PcieTrain
  deriving DecidableEq, Repr

/-- How the enumeration of a cellar port's expander ended (R374): whether it trained, at what rate and width and committed, whether it
authenticated, its serial, its capacity in bytes, its CDAT read latency in ns, whether its capacity is persistent, its dirty shutdown
count, and the GPF Phase 2 duration that it advertises, in µs (R295). -/
structure ExpanderInfo where
  trained : Bool
  train : PcieTrain
  authOk : Bool
  serial : Word
  cap : Word
  latency : Nat
  persistent : Bool
  shutdownCount : BitVec 32
  gpfTime : Nat
  deriving DecidableEq, Repr

/-- A CXL.io configuration request of a host to its head (R362, R363). -/
inductive HeadCfg where
  | read (off : BitVec 12)
  | write (off : BitVec 12) (be : BitVec 4) (v : BitVec 32)
  | commitDecoder (base size : Hpa)
  | maskVector (vec : BitVec 6) (masked : Bool)
  | msixAddress (vec : BitVec 6) (addr : Word) (data : BitVec 32)
  deriving DecidableEq, Repr

/-- A CMA/SPDM message over host-port DOE or MCTP (R452, R462): a step that establishes the secured session,
one that ends it, or any other. -/
inductive SpdmMsg where
  | finish (both : Bool)
  | endSession
  | other
  deriving DecidableEq, Repr

/-- A port with a PCIe link (R378). -/
inductive PciePort where
  | host (p : HPort)
  | cellar (d : DPort)
  deriving DecidableEq, Repr

end Sys2Proof
end

