-- ==== Sys2Proof/Syntax.lean ====
section
/-! DEFINITION. The commands of the QD-48: one constructor for each row of spec/opcode_table.json, in its order,
with the values that come with the command from outside (log entry 1). Each constructor's text is the row's own. -/

namespace Sys2Proof

/-- The commands of the block. -/
inductive Instr where
  /-- A host MemRd with SnpData asks for a shared copy; the hub ensures standing at least S (RdS on I), downgrades an
    exclusive host, records the host with HX = 0, and answers MemData and Cmp-S (R101). -/
  | memrdSnpdata (r : HostReq)
  /-- A host MemRdData is served as a shared read; the host is recorded with HX = 1 when no other holder exists and
    the standing is E or M (R101). -/
  | memrddata (r : HostReq)
  /-- A host MemRd with SnpInv asks for exclusive ownership; the hub gets E or M by RdX or Upg, invalidates the other
    hosts, and answers Cmp-E (R101). -/
  | memrdSnpinv (r : HostReq)
  /-- A host MemInv or MemInvNT asks for ownership without data; a line served read-once is answered Cmp without a
    message to the home (R101). -/
  | meminv (r : HostReq) (nt : Bool)
  /-- A host read-once (SnpCur or No-Op) is served with BISnpCur to an exclusive host or RdO on I, and the host is not
    recorded (R101). -/
  | memrdSnpcur (r : HostReq)
  /-- A host MemSpecRd hint may start a cellar read of an own line and is ignored for Device-like lines (R101). -/
  | memspecrd (r : HostReq)
  /-- A host MemClnEvct clears its PV bit, releasing the standing under R83 when nothing else holds it (R101). -/
  | memclnevct (r : HostReq)
  /-- A MemWr from the exclusive host installs dirty data at the hub per the write tables and sets PV and HX as the
    MetaValue states (R101). -/
  | memwrExclusive (r : HostReq) (w : HostWr)
  /-- A MemWr or MemWrPtl from a non-holding host invalidates other hosts and either writes with E or M standing or
    sends WrL or WrP without allocating (R101). -/
  | memwrOtherHost (r : HostReq) (w : HostWr)
  /-- A host write of a snooped line arriving before its BIRsp is taken without admission as the snoop's write-back
    and completed before the BIRsp is acted on (R102). -/
  | snoopWriteBack (r : HostReq) (w : HostWr)
  /-- A host's BIRspI, BIRspS or BIRspE answers a back-invalidate snoop, updating PV and HX and releasing requests
    waiting under R139 (R102). -/
  | birsp (p : HPort) (hpa : Hpa) (rsp : BiRsp)
  /-- A host's BIConflict is answered with BIConflictAck after every Cmp already sent to that host for the line (R140)
  . -/
  | biconflict (p : HPort) (hpa : Hpa) (tag : BitVec 16)
  /-- An I/O agent's memory read is translated through the port windows and served as a read-once or per its placement
    (R367). -/
  | agentMemoryRead (r : HostReq) (lines : Nat) (tph : Option (BitVec 8))
  /-- An I/O agent's posted write is accepted and held for sending in port order unless Relaxed Ordering is set (R271)
  . -/
  | agentPostedWrite (r : HostReq) (w : HostWr) (ro : Bool) (tph : Option (BitVec 8))
  /-- Once every earlier posted write of an agent port has completed, the next waiting posted write or read is sent to
    its home (R271). -/
  | agentWriteRelease (p : HPort)
  /-- A PCIe AtomicOp from an agent is served as a home-placed atomic and its result or poison returns in the
    completion (R369). -/
  | agentAtomicop (r : HostReq) (op : AtomicOp) (size : Nat) (a b : BitVec 128)
  /-- An agent's posted write into the HP_AGIRQ page writes an agent interrupt record to its event queue instead of
    memory (R370). -/
  | agentInterruptWrite (p : HPort) (hpa : Hpa) (data : List (BitVec 8))
  /-- An agent request with a PASID prefix or an ATS translation request is completed UR and raises EV003 + 4p (R368)
  . -/
  | agentPasidAtsRequest (p : HPort) (tag : BitVec 16)
  /-- A write of HP_CFGA with GO = 1 sends one Type 0 configuration request to the agent and sets BUSY (R366). -/
  | configRequest (o : Origin) (p : HPort) (v : Word)
  /-- The agent's configuration completion clears BUSY, sets CS and, for a read, fills HP_CFGD (R366). -/
  | configCompletion (p : HPort) (cs : BitVec 3) (data : BitVec 32)
  /-- A configuration request unanswered for 10 ms ends with CS timeout and BUSY cleared (R366). -/
  | configTimeout (p : HPort)
  /-- An IDE integrity failure on a host port makes the streams insecure and declares the host dead, or in agent mode
    refuses the agent until re-keyed (R463). -/
  | hostIdeFailure (p : HPort)
  /-- An IDE_KM message over DOE in an SPDM session programs or refreshes a host port's IDE keys (R462). -/
  | ideKmMessage (p : HPort) (m : IdeKm)
  /-- The first GPF Phase 2 request on any head stops admission, flushes as R290, performs GPF toward each expander,
    and reports completion when the flush ends (R294). -/
  | gpfPhase2Request (p : HPort)
  /-- A host link going down without port reset, or failing to retrain, declares the host dead and starts its reclaim
    sweep (R145). -/
  | hostLinkDown (p : HPort)
  /-- A hot reset, or a host link reaching L0 again, resets one host port, reclaims its host's lines and counts for
    re-admission (R557). -/
  | portReset (p : HostTrain)
  /-- A Function Level Reset resets only the head's CXL.io state and does not count for re-admission (R557). -/
  | functionLevelReset (p : HPort)
  /-- The host narrows the port under L0p when L0PEN = 1 (R561). -/
  | l0pRequest (p : HPort) (width : Nat)
  /-- After L0PIDLE µs of idle egress with no timed message, the hub narrows its own transmit direction (R561). -/
  | l0pIdleNarrow (p : HPort)
  /-- The host brings a link with L1EN = 1 into L1; the hub never initiates it (R562). -/
  | l1Entry (p : HPort)
  /-- A held request is tried again for admission once budget or cells become available (R249). -/
  | admissionRetry
  /-- A cell returns to its share in the core cycle after its last reader finishes (R27). -/
  | cellFree (cell : Nat)
  /-- A hand-over from a neighbouring slice opens a tracker for the adjacent region with the same stride (R210). -/
  | handOver (p : HPort) (region : Nat) (stride : Int)
  /-- 2 µs with no write from the port returns the detector to training mode with n := 0 (R197). -/
  | ssdIdleTimeout (p : HPort)
  /-- An RdS at the home is served by the directory state as in Table 03.9 (R105). -/
  | rds (h : Hdr)
  /-- An RdX at the home is served by purge, snoops and grant as in Table 03.9 (R105). -/
  | rdx (h : Hdr)
  /-- An RdO at the home is served read-once from home data or by a holder's FwdS with G = 1 (R105). -/
  | rdo (h : Hdr)
  /-- An Upg at the home is served by GntX after invalidating other holders, or as RdX when the requester is not named
    (R105). -/
  | upg (h : Hdr)
  /-- A WrL at the home writes the full line after recalls, or with G = 1 from a non-owner is completed with Cmp and
    its data discarded (R598). -/
  | wrl (h : Hdr) (d : Data)
  /-- A WrP at the home merges its masked bytes into home or snooped data and completes with Cmp (R598). -/
  | wrp (h : Hdr) (d : Data)
  /-- An Atm at the home recalls holders and executes the atomic with home or cellar placement, answering DatS with
    the old value (R159). -/
  | atm (h : Hdr) (d : Data)
  /-- A Fnc with SCOPE HUB performs a HUB fence over writes accepted before it and answers Cmp with FC = 1 (R276). -/
  | fncHub (h : Hdr)
  /-- A Fnc with SCOPE 0b11 cleans own dirty lines, drains the merging buffer, waits for persistence and answers Cmp
    (R285). -/
  | fncHomeStep (h : Hdr)
  /-- An Evc at the home is applied at once or consumed until the snooped sender's response arrives (R133). -/
  | evc (h : Hdr)
  /-- A WbD at the home is applied and written to the cellar, or consumed while a snoop to its sender is unanswered
    (R133). -/
  | wbd (h : Hdr) (d : Data)
  /-- A buddy applies a mirror write in MSEQ order at OBASE + (LA - PBASE), holding early arrivals (R343). -/
  | mrw (h : Hdr) (d : Data)
  /-- A buddy applies a mirror control message that starts or ends a mirror copy into an entry (R345). -/
  | mrctl (h : Hdr) (start : Bool) (entry : Fin 8)
  /-- A SnpS at a hub is answered by its standing with FwdS, Ack or AckD, after any host step, or held in a Keep
    window (R109). -/
  | snps (h : Hdr)
  /-- A SnpX at a hub invalidates its hosts and forwards FwdX or answers the home, the hub going to I (R109). -/
  | snpx (h : Hdr)
  /-- A SnpI at a hub invalidates its hosts and copy and answers Ack (R109). -/
  | snpi (h : Hdr)
  /-- A SnpBc broadcast invalidates any copy at the hub and is answered Ack whether or not the line was held (R109)
  . -/
  | snpbc (h : Hdr)
  /-- A DatS at the requester is read-once service: nothing installed, merged demands served, standing I (R110). -/
  | dats (h : Hdr) (d : Data)
  /-- A DatF at the requester installs the line in F and answers merged demands (R110). -/
  | datf (h : Hdr) (d : Data)
  /-- A DatE at the requester installs the line in E and answers merged demands (R110). -/
  | date (h : Hdr) (d : Data)
  /-- A DatM at the requester installs the line in M and answers merged demands (R110). -/
  | datm (h : Hdr) (d : Data)
  /-- A FwdS at the requester gives S, or read-once service when G = 1 (R110). -/
  | fwds (h : Hdr) (d : Data)
  /-- A FwdX at the requester gives E or M by D, with G = 0 only once GntX has arrived (R110). -/
  | fwdx (h : Hdr) (d : Data)
  /-- An AckD at the home supplies the holder's dirty data for the transaction or the cellar (R137). -/
  | ackd (h : Hdr) (d : Data)
  /-- A GntX at the requester completes an upgrade or, with FW = 1, waits for the FwdX before granting (R110). -/
  | gntx (h : Hdr)
  /-- An Ack at the home counts a snoop response, removing the hub on FW = 0 and completing the transaction when all
    are held (R137). -/
  | ack (h : Hdr)
  /-- An AckE at the home waits for the sender's write-back, applies it, sends WbAck and completes the request (R134)
  . -/
  | acke (h : Hdr)
  /-- A Cmp at the requester completes its write, releasing kept data and returning a written-through line to E (R598)
  . -/
  | cmp (h : Hdr)
  /-- A Cmp with FC = 1 is matched by RTAG to an open fence as a member's answer (R123). -/
  | cmpFence (h : Hdr)
  /-- A WbAck ends an eviction in MI or CI, leaving I and releasing demands waiting for it (R132). -/
  | wback (h : Hdr)
  /-- A Fin at the home ends the transaction when every snoop response is also held (R98). -/
  | fin (h : Hdr)
  /-- An MrAck acknowledges every mirror message up to its MSEQ and completes the covered guarded writes (R344). -/
  | mrack (h : Hdr)
  /-- An Rdr from a buddy after hand-back makes the requester resend the request to the home (R352). -/
  | rdr (h : Hdr)
  /-- When a Keep window closes, snoops held on the line are handled (R126). -/
  | keepWindowClose (line : LineAddr)
  /-- 2.5 ns after a transaction ends, the oldest waiting request on the line is decided ahead of new arrivals (R120)
  . -/
  | waiterDecision (line : LineAddr)
  /-- A placement notice makes its target hub send a prefetch RdS unless it must drop it (R168). -/
  | plnote (h : Hdr)
  /-- A release that fell due while a miss register was open is decided when the register frees (R82). -/
  | releaseAfterMiss (line : LineAddr)
  /-- When a miss register frees, a waiting demand takes it in arrival order (R185). -/
  | missRegisterFree (slice : Fin 32)
  /-- When a home transaction table entry frees, a request waiting at the slice input takes it (R122). -/
  | httEntryFree (slice : Fin 32)
  /-- When a way of an all-busy set becomes non-busy, the home chooses a victim again for waiting allocations (R142)
  . -/
  | directoryWayFree (slice : Fin 32) (set : Nat)
  /-- When a host-filter way frees, a new entry waiting on its miss register is allocated (R94). -/
  | hostFilterWayFree (slice : Fin 32) (set : Nat)
  /-- When a cache way becomes a candidate, a read demand waiting for a way proceeds (R191). -/
  | cacheWayFree (line : LineAddr)
  /-- When a merging-buffer entry frees, a write waiting at the slice is decided again and sends its recall (R201). -/
  | mergingEntryFree (slice : Fin 32)
  /-- When enough eviction-table entries free, a waiting frame eviction starts its releases (R204). -/
  | evictionEntryFree (slice : Fin 32)
  /-- Once host steps, releases and dirty data capture end, the evicted way passes to its new frame (R204). -/
  | frameEvictionDone (slice : Fin 32) (set : Nat) (way : Nat)
  /-- A fetched record block enters the frame-tag cache and the request is decided again (R177). -/
  | frameTagFetchDone (slice : Fin 32) (set : Nat) (ecc : Ecc)
  /-- An HBM read delivers data into its cell, or a queued HBM write finishes and frees its cell (R23). -/
  | hbmAccessDone (pc : Nat) (ecc : Ecc)
  /-- In the cycle after a flush-pending register's fill installs, the maintenance action is applied to the line
    (R214). -/
  | flushPendingApply (line : LineAddr)
  /-- A merging-buffer entry that reaches HC_WBCTL.AGE starts to drain (R202). -/
  | mergingBufferAge (granule : Nat)
  /-- When a drain is queued to the cellar, the own line returns to E if no other entry holds its bytes (R203). -/
  | mergingDrainQueued (granule : Nat)
  /-- A cellar read response is decrypted, verified and judged, delivering data, poison or a seal halt (R441). -/
  | cellarResponse (r : CellarResp)
  /-- The expander's completion of a cellar write and its metadata makes the write persisted (R282). -/
  | cellarWriteCompletion (granule : Nat)
  /-- When a re-seal writes its counter block, the accesses waiting at the seal engines proceed (R439). -/
  | resealDone (block : Nat)
  /-- A counter block or node write-back waiting for the 2 µs spacing is written once it has passed (R436). -/
  | sealWritebackDue (level : Nat) (index : Nat)
  /-- A message waiting for an ACTIVE output port leaves when one in OUT becomes ACTIVE (R318). -/
  | messageRouteResume
  /-- A back-invalidate snoop timer expires; the snoop is resent, or after the third the host is declared dead (R144)
  . -/
  | biSnoopTimeout (p : HPort) (line : LineAddr)
  /-- A 50 µs snoop attempt expires; the home resends on another output, or after the third declares the hub dead
    (R149). -/
  | snoopTimeout (line : LineAddr) (hub : HubId)
  /-- The home resends its last response to a requester until Fin arrives (R149). -/
  | responseResendTimeout (line : LineAddr)
  /-- A snoop response kept for resending is discarded 150 µs after it was sent (R149). -/
  | responseRetentionExpiry (line : LineAddr)
  /-- 100 µs after a DhNote with no TkNote, demands for the dead home are answered with poison or completion without
    effect (R153). -/
  | deadHomeWaitExpiry (hub : HubId)
  /-- 100 µs after a DhNote, the home probes the requester of every open transaction holding a forwarding Ack but no
    Fin (R335). -/
  | probeTimer
  /-- 20 µs after its partner's DhNote the buddy sets SRV and RB on complete mirror entries and sends TkNote (R347)
  . -/
  | takeoverWaitExpiry
  /-- Unacknowledged mirror messages are resent after 50 µs, and the buddy is declared dead after the third (R346). -/
  | mirrorResendTimeout
  /-- The root receives a hub's topology report for one port (R327). -/
  | dsreport (h : Hdr) (payload : BitVec 512)
  /-- A hub receives its hub ID from the root (R327). -/
  | dsassign (h : Hdr) (payload : BitVec 512)
  /-- The root receives a hub's request to join and admits it when R157 holds (R328). -/
  | jnreq (h : Hdr) (payload : BitVec 512)
  /-- Once every reclaim for the hub's previous incarnation has ended and 1 ms has passed, the root admits a waiting
    join (R157). -/
  | joinAdmitDue (hub : HubId)
  /-- A hub records the admitted hub's incarnation in FB_INC; the joining hub takes its incarnation and the takeover
    table (R328). -/
  | jnadmit (h : Hdr) (payload : BitVec 512)
  /-- The root receives a death report and declares the first one for a hub with DhNote to every hub (R330). -/
  | dhrpt (h : Hdr) (payload : BitVec 512)
  /-- A hub receiving a dead-hub notice sets the hub's incarnation to 0, reclaims its entries and demands, and resends
    its outstanding messages (R152). -/
  | dhnote (h : Hdr) (payload : BitVec 512)
  /-- When a hub's reclaim of a dead hub ends it sends DhDone to the root (R336). -/
  | hubReclaimEnd (hub : HubId)
  /-- The root counts reclaims ended and sends DhClear when every live hub has reported (R336). -/
  | dhdone (h : Hdr) (payload : BitVec 512)
  /-- A DhClear for the partner clears RB at the serving buddy (R349). -/
  | dhclear (h : Hdr) (payload : BitVec 512)
  /-- A hub records a takeover in FB_TKO and resends waiting demands for listed ranges to the buddy (R350). -/
  | tknote (h : Hdr) (payload : BitVec 512)
  /-- A hand-back notice makes every hub clear its takeover table entry (R352). -/
  | tkback (h : Hdr) (payload : BitVec 512)
  /-- A peer asked for the last SEQ accepted on a failed link answers LkSeqR (R311). -/
  | lkseqq (h : Hdr) (payload : BitVec 512)
  /-- The answer with the last accepted SEQ makes the hub resend later messages on other outputs (R311). -/
  | lkseqr (h : Hdr) (payload : BitVec 512)
  /-- Without an LkSeqR within 50 µs, the failed link's unacknowledged flits are discarded (R311). -/
  | lkseqTimeout (p : IPort)
  /-- A fabric mailbox part is received and assembled into a command or answer (R484). -/
  | mbmsg (h : Hdr) (payload : BitVec 512)
  /-- A received data flit is checked and accepted in sequence or discarded with a NAK, and its messages go to their
    channels (R306). -/
  | dataFlit (p : IPort) (f : FlitHead) (ps : List FlitPiece)
  /-- A control flit returns credits and acknowledgements to the sender (R305). -/
  | controlFlit (p : IPort) (f : FlitHead)
  /-- A NAK makes the sender resend every flit after ACK, or retrain after RLIM NAKs of one flit (R306). -/
  | nak (p : IPort) (f : FlitHead)
  /-- When ACK does not advance for 2 µs with flits outstanding, the sender resends from the oldest (R306). -/
  | ackTimeout (p : IPort)
  /-- A receiver reports ACK at least every 64 ns (R306). -/
  | ackReportTimer (p : IPort)
  /-- A received time beacon updates link delay, offset, time state and root knowledge (R323). -/
  | beacon (p : FlitIn) (b : Beacon) (rxt : Word)
  /-- Every 1,024 ns a hub with BCN = 1 sends a beacon on every trained Idior port (R223). -/
  | beaconTimer
  /-- A received halt flit fails the port and reports the sender dead with cause HALT (R312). -/
  | haltFlit (p : FlitIn) (sender : HubId) (cause : BitVec 4)
  /-- A port in DETECT finds a signal and enters TRAIN (R308). -/
  | peerDetected (p : IPort)
  /-- Training completes with key establishment and parameter exchange, and the port becomes ACTIVE (R308). -/
  | linkTrained (p : IPort) (peer : PeerParams)
  /-- A port not trained within 200 ms enters FAILED (R308). -/
  | trainTimeout (p : IPort)
  /-- A fast retrain completes and held flits are sent (R308). -/
  | retrainDone (p : IPort)
  /-- A fast retrain not done within 20 µs becomes a full training (R308). -/
  | fastRetrainTimeout (p : IPort)
  /-- A port not ACTIVE within 1 ms of entering RETRAIN enters FAILED and starts recovery (R308). -/
  | retrainFailTimeout (p : IPort)
  /-- Loss of FEC lock makes the port retrain (R309). -/
  | fecLockLoss (p : IPort)
  /-- A lane over the corrected-symbol threshold or losing lock is spared in a retrain, or fails the port (R310). -/
  | laneFault (p : IPort) (lane : Nat) (lost : Bool)
  /-- A hub with no ACTIVE port in OUT for hub h for 150 µs declares h dead (R332). -/
  | routeLossTimeout (hub : HubId)
  /-- The root adds 1 to its root sequence every 1,024 ns (R325). -/
  | rootSequenceTick
  /-- The standby becomes root when the root sequence has not advanced for 150 µs, and declares the old root dead
    (R326). -/
  | rootSilenceTimeout
  /-- After 64 beacon periods without change, the hub whose key is best becomes root (R324). -/
  | rootElection
  /-- An accepted TIME_PPS edge disciplines the grandmaster's FT and applies an armed origin (R222). -/
  | timePpsEdge
  /-- An armed origin with no accepted edge for 2 s is withdrawn and EV275 is raised (R222). -/
  | originArmExpiry
  /-- A LOCKED hub with no beacon for 16 µs, or a grandmaster with no PPS for 2 s, enters HOLDOVER (R224). -/
  | beaconLossTimeout
  /-- A hub with no beacon and no PPS for 1 s enters UNLOCKED (R224). -/
  | holdoverTimeout
  /-- An event scheduled at FT t runs in the first core cycle whose sampled FT is at least t (R227). -/
  | scheduledEventRun
  /-- A new Board square begins, its entry governs grants and the burst count resets (R238). -/
  | squareStart (board : Fin 92)
  /-- A new round starts a new epoch's budgets, counts hold-over rounds and applies deferred retrain squares (R253)
  . -/
  | roundStart
  /-- A transfer running LD_WDOG.LIMIT cycles is discarded and the resource resets (R243). -/
  | watchdogBite (board : Fin 92)
  /-- After the 32-cycle reset the source resends the discarded message once, poisoned if it carried data (R244). -/
  | watchdogResetEnd (board : Fin 92)
  /-- An aligned 8-byte write to a doorbell slot starts a fence of the given scope and persist flag (R280). -/
  | doorbellRing (p : HPort) (slot : BitVec 12) (v : Word)
  /-- When every covered write and member answer is held, the fence sets DONE with its CODE and writes its result
    record (R281). -/
  | fenceComplete (p : HPort) (slot : BitVec 12)
  /-- A fence not complete after LIM ms completes with CODE 0b100 (R278). -/
  | fenceLimitExpiry (p : HPort) (slot : BitVec 12)
  /-- A 64-byte descriptor written to a non-busy aperture slot sets BUSY and starts an atomic (R165). -/
  | apertureDescriptor (p : HPort) (slot : BitVec 12) (d : BitVec 512)
  /-- Once every earlier write from the port has completed, the aperture atomic is sent to its home (R166). -/
  | apertureIssue (p : HPort) (slot : BitVec 12)
  /-- PORST_n low holds the device in cold reset (R553). -/
  | porstAssert
  /-- PORST_n deassertion samples the straps and runs the cold reset sequence (R553). -/
  | porstDeassert (straps : Straps)
  /-- The cold reset sequence completes and host ports serve CXL.mem and mailboxes (R553). -/
  | coldResetReady
  /-- PERST_n asserted starts a warm reset with the flush of R290 (R290). -/
  | perstAssert
  /-- When the warm or hub reset flush ends the hub reports itself dead with cause PLANNED and resets (R554). -/
  | resetFlushEnd
  /-- A flush not ended after 1 s is abandoned and the shutdown state is set dirty (R290). -/
  | flushTimeLimit
  /-- A warm or hub reset reaches ready, raises EV264 and rejoins under R157 (R554). -/
  | warmResetReady
  /-- A GPF flush not ended within its advertised time sets the shutdown state dirty (R295). -/
  | gpfTimeExpiry
  /-- A rail below its warning level but above reset level makes the hub enter Brace (R542). -/
  | railWarning (rail : Fin 5) (mv : Nat)
  /-- After 10 µs with rails above warning and PWR_WARN_n deasserted the hub leaves Brace (R545). -/
  | braceExitTimer
  /-- A rail at its reset level begins a cold reset within 100 ns (R541). -/
  | railResetLevel (rail : Fin 5) (mv : Nat)
  /-- A cold reset not started by PORST_n ends at its internal release and samples the straps (R584). -/
  | internalRelease (straps : Straps)
  /-- PWR_WARN_n asserted for 100 ns with PWEN = 1 makes the hub enter Brace (R542). -/
  | pwrWarnAssert
  /-- With PWFLUSH = 1, PWR_WARN_n asserted for PWT µs starts the flush of R294 (R547). -/
  | pwrWarnSustained
  /-- After such a flush, admission resumes once PWR_WARN_n has been deasserted for 10 µs (R547). -/
  | pwrWarnReleaseTimer
  /-- Every 10 µs the hub reads its 16 sensors and updates Tj and the thermal levels (R548). -/
  | tempSensorRead (temps : Vector (BitVec 8) 16)
  /-- The PLL monitor's detection of a lost clock raises EV263 and takes the consequence of Table 14.5 (R552). -/
  | clockLoss (domain : Fin 100)
  /-- Once TIME_REF has been stable for 1 ms, fabric time switches back to it (R552). -/
  | timeRefRestore
  /-- When the management PLL returns, Pelest restarts (R552). -/
  | managementClockReturn
  /-- Loading a JTAG instruction other than BYPASS, IDCODE or SAMPLE/PRELOAD causes seal halt (R421). -/
  | jtagInstruction (ir : JtagIr)
  /-- Firmware not serving the watchdog for 1 s restarts Pelest (R558). -/
  | pelestWatchdog
  /-- A restarted Pelest resumes mailbox service and reports hardware background commands (R488). -/
  | pelestReady
  /-- An activated image not ready within 2 s is rolled back to the previous image (R494). -/
  | fwActivateTimeout
  /-- An enabled HBM stack idle for PM_DORM.IDLE µs enters self-refresh (R563). -/
  | dormantEntry (stack : Fin 4)
  /-- The first access to a Dormant stack leaves Dormant after at most 2 µs (R563). -/
  | dormantExit (stack : Fin 4)
  /-- Load rising above 60 % starts a load-corner verification, and falling below interrupts it (R569). -/
  | loadBandChange (load : Nat)
  /-- After 2 ms of full load each record passes or fails its load-corner verification (R569). -/
  | loadVerificationEnd (failed : List (Fin 56))
  /-- A stale HBM or SerDes unit finishes retraining and Pelest removes its retraining squares (R570). -/
  | retrainingEnd (record : Fin 56) (params : BitVec 32)
  /-- A stale droop record is gathered again in place at the present band (R570). -/
  | droopRegatherDone (record : Fin 56) (params : BitVec 32)
  /-- A cellar command unanswered for CTO µs makes the hub retrain the port (R376). -/
  | cellarCommandTimeout (d : DPort)
  /-- A retrained cellar port reissues its unanswered commands (R376). -/
  | cellarRetrainDone (d : DPort)
  /-- A cellar port not retrained within 10 ms fails, and its set's writes are handled by the set type (R292). -/
  | cellarRetrainTimeout (d : DPort)
  /-- At least every 100 ms Pelest reads expander General Media Event records into the correction log (R394). -/
  | gmerPoll (d : DPort) (records : List GmerRec)
  /-- In a scrub square the scrubber reads and checks code words and handles each finding (R408). -/
  | scrubStep (f : ScrubFind)
  /-- A scheduled correct-and-write rewrites the corrected word unless a newer write was queued (R402). -/
  | correctAndWrite (unit : Fin 16) (addr : BitVec 48)
  /-- When a row copy ends, the row is mapped to the spare and a Lumber entry is added (R403). -/
  | rowSpareDone (unit : Fin 16) (addr : BitVec 48)
  /-- When a bank copy ends, the bank is mapped to its quadrant's spare bank (R412). -/
  | bankSpareDone (bank : Nat)
  /-- Every LEAK ms a bucket subtracts 1 from a non-zero level (R395). -/
  | bucketLeak (bucket : Fin 69)
  /-- A repeat-tracker WATCH entry expires after WIN hours and the word is no longer watched (R401). -/
  | watchEntryExpiry (unit : Fin 16) (addr : BitVec 48)
  /-- A background task takes one unit of work in a square whose TASK names it (R257). -/
  | backgroundWorkUnit (k : BgKind)
  /-- A background task paused for lack of cells resumes when cells are freed (R257). -/
  | backgroundResume
  /-- A window sweep ends, clears the retiring state and writes a Tally record (R53). -/
  | windowSweepEnd (p : HPort) (n : BitVec 8)
  /-- A domain sweep ends and the leaving hubs leave the broadcast sets (R61). -/
  | domainSweepEnd
  /-- A range flush after a change to Device-like ends (R77). -/
  | rangeFlushEnd
  /-- The reclaim sweep of a dead host ends (R146). -/
  | hostReclaimEnd (p : HPort)
  /-- A mirror copy ends and the buddy sets CPY when no copy into the entry remains (R345). -/
  | mirrorCopyEnd
  /-- The last block re-sealed, the entry's KS and GEN take the target slot in one cycle (R457). -/
  | rekeySweepEnd
  /-- Once the slot's ranges are flushed and persisted, the key is erased and the generation raised (R453). -/
  | keyRetireEnd
  /-- A slice with no valid entry and nothing open ends its drain and returns to service unless held (R573). -/
  | sliceDrainEnd
  /-- A seal rebuild completes and the home becomes ROOTED (R450). -/
  | rebuildEnd
  /-- The rebuild of a returned Strong-set port ends and the port serves reads again (R391). -/
  | strongRebuildEnd (d : DPort)
  /-- A maintenance operation ends, setting HC_MOPC.END and raising EV212 (R212). -/
  | maintenanceOpEnd
  /-- The last line of a retired cellar page is moved to its spare page (R413). -/
  | pageRetireEnd
  /-- A pseudo-channel retirement ends with its frames mapped to the spare region or retired (R181). -/
  | pcRetireEnd
  /-- A write of EV_TEST with GO = 1 fires a source once with CAUSE 0xFFFF (R509). -/
  | testFiring (o : Origin) (src : BitVec 9)
  /-- When HOLD µs have passed, one remembered MSI-X message is sent (R511). -/
  | msixHoldoffExpiry (src : BitVec 9)
  /-- The queue banks swap once the draining bank is empty and the filling bank holds a complete record (R518). -/
  | bankSwap (q : BitVec 13)
  /-- An aligned 8-byte read of a pop page pops one word, in level order, or waits when empty (R520). -/
  | pop (p : HPort) (q : BitVec 13) (ok : Bool)
  /-- A valid write to a pop page's POST area enters a notice record into the queue (R528). -/
  | post (p : HPort) (q : BitVec 13) (off : Nat) (bytes : List (BitVec 8))
  /-- An owner making no pop for 10 µs loses the record's remaining words and ABN is set (R520). -/
  | recordOwnershipLapse (q : BitVec 13)
  /-- A waiting pop returns EMPTY after STALL × 100 ns (R524). -/
  | popStallExpiry (q : BitVec 13)
  /-- Every 1,000 ns of FT the central reader gathers every counter into the image (R530). -/
  | counterGather
  /-- The exporter MACs and copies the next held record to its queue when the filling bank has room (R498). -/
  | tallyExport
  /-- After every 4,096 records Pelest writes a signed checkpoint (R503). -/
  | autoCheckpoint
  /-- An unlock not used within 1 µs re-arms the lock (R476). -/
  | unlockExpiry (o : Origin)
  /-- A write to a register without behaviour of its own is judged by its access codes and refusal rules and takes
    effect from the next cycle (R472). -/
  | registerWrite (o : Origin) (a : BitVec 24) (size : Nat) (v : BitVec 512)
  /-- A write of word 1 of a two-word entry is held in its staging copy until the next word-0 write (R51). -/
  | stagedWordWrite (o : Origin) (a : BitVec 24) (v : Word)
  /-- A write to a register with RSQ fields clears them only when it carries the current SEQ (R480). -/
  | statusClear (o : Origin) (a : BitVec 24) (v : Word)
  /-- A write of a block number and its key gives the origin one guarded write to that block (R476). -/
  | glUnlock (o : Origin) (block : BitVec 5) (key : BitVec 16)
  /-- A write of GO to GL_SNAP latches every counter into its holding register (R481). -/
  | snapshot (o : Origin)
  /-- HC_MOPC with OP CLEAN and GO writes back dirty lines of the line or range and keeps them (R211). -/
  | mopClean (o : Origin) (range : Bool)
  /-- HC_MOPC with OP FLUSH and GO invalidates hosts and releases every line of the line or range (R211). -/
  | mopFlush (o : Origin) (range : Bool)
  /-- A write of HC_DIESEED reseeds the die of each slice with SEED XOR k (R193). -/
  | dieReseed (o : Origin) (v : Word)
  /-- A write of DR_PROBE looks up the directory entry for a line and reports it in DR_PROBED (R115). -/
  | drProbe (o : Origin) (v : Word)
  /-- A write of HF_PROBE looks up the host-filter entry for a line and reports it in HF_PROBED (R115). -/
  | hfProbe (o : Origin) (v : Word)
  /-- A write of TB_ORIGIN on the grandmaster arms an origin for the next accepted PPS edge (R222). -/
  | originArm (o : Origin) (v : Word)
  /-- A write of 1 to TB_CTL.DISARM withdraws an armed origin (R222). -/
  | originDisarm (o : Origin)
  /-- A write of IP_CTL.RTR retrains the Idior port or recovers a FAILED port (R309). -/
  | linkRetrainRequest (o : Origin) (p : IPort)
  /-- A write of IP_CTL.EN := 1 moves a DISABLED or FAILED port to DETECT (R308). -/
  | idiorPortEnable (o : Origin) (p : IPort)
  /-- Clearing HP_CTL.EN takes the port out of service as a surprise link down (R358). -/
  | hostPortDisable (o : Origin) (p : HPort)
  /-- Writing HP_CTL.EN back to 1 starts training, counted as a port reset (R358). -/
  | hostPortEnable (o : Origin) (p : HPort)
  /-- A write of DP_CTL.EN := 1 while disabled or failed starts enumeration of the expander (R376). -/
  | cellarPortEnable (o : Origin) (d : DPort)
  /-- A write of SL_RKCTL with GO = 1 starts a sweep moving a Key Range Table entry to a target slot (R456). -/
  | rekeyStart (o : Origin) (v : Word)
  /-- A write of EQ_CTL.FLUSH empties both banks and returns FLUSHED to the waiting or next pop (R523). -/
  | queueFlush (o : Origin) (q : BitVec 13)
  /-- Setting EQ_CTL.EN takes two banks from the event-queue pool (R516). -/
  | queueEnable (o : Origin) (q : BitVec 13) (size : BitVec 4)
  /-- Clearing EQ_CTL.EN returns both banks to the pool and discards their records (R516). -/
  | queueDisable (o : Origin) (q : BitVec 13)
  /-- PC_WRAPCLR with ONE clears the WRAP bit of one counter (R531). -/
  | wrapClearOne (o : Origin) (idx : BitVec 12)
  /-- PC_WRAPCLR with ALL clears every WRAP bit (R531). -/
  | wrapClearAll (o : Origin)
  /-- A write of PC_SMPCTL steps each slice's die and resets its sampling countdown (R532). -/
  | samplingControl (o : Origin) (v : Word)
  /-- A word-0 write setting V in a host window is checked and applies the entry (R47). -/
  | windowEnable (o : Origin) (p : HPort) (n : BitVec 8) (v : Word)
  /-- Clearing V in a host window starts a window sweep of the host's lines in the range (R53). -/
  | windowDisable (o : Origin) (p : HPort) (n : BitVec 8) (v : Word)
  /-- Setting a snoop-domain membership bit takes effect for decisions in the next cycle (R60). -/
  | membershipSet (o : Origin) (hub : HubId)
  /-- Clearing a membership bit starts or restarts a domain sweep recalling the leaving hub (R61). -/
  | membershipClear (o : Origin) (hub : HubId)
  /-- A TYPE change in a valid Key Range Table entry starts a range flush, mirroring or unmirroring (R77). -/
  | keyRangeTypeChange (o : Origin) (n : BitVec 12) (type : BitVec 2)
  /-- A write to a Board square entry takes effect at once, starts a hold-over tier and recomputes budgets (R252). -/
  | squareWrite (o : Origin) (board : Fin 92) (square : Nat) (v : Word)
  /-- An accepted write of a mirror entry is sent to the buddy as its read-only FB_PMIR copy (R339). -/
  | mirrorEntryWrite (o : Origin) (n : Fin 8) (v : BitVec 128)
  /-- The CXL Identify command returns device identity (R489). -/
  | identify (mb : Mailbox) (tag : BitVec 16)
  /-- Returns the state of the background command from MB_BGST (R486). -/
  | backgroundOperationStatus (mb : Mailbox) (tag : BitVec 16)
  /-- Returns records from the head's CXL event logs (R513). -/
  | getEventRecords (mb : Mailbox) (tag : BitVec 16) (log : Fin 4)
  /-- Clears records from the head's CXL event logs (R513). -/
  | clearEventRecords (mb : Mailbox) (tag : BitVec 16) (log : Fin 4) (all : Bool) (handles : List Nat)
  /-- Returns the head's event interrupt policy (R489). -/
  | getEventInterruptPolicy (mb : Mailbox) (tag : BitVec 16)
  /-- Sets the head's event interrupt policy (R489). -/
  | setEventInterruptPolicy (mb : Mailbox) (tag : BitVec 16) (v : Word)
  /-- Returns the two firmware slots and their versions (R491). -/
  | getFwInfo (mb : Mailbox) (tag : BitVec 16)
  /-- Writes part of an image to the inactive slot, as FW_STAGE (R492). -/
  | transferFw (mb : Mailbox) (tag : BitVec 16) (part : FwPart)
  /-- Activates the staged image online or at the next cold reset (R494). -/
  | activateFw (mb : Mailbox) (tag : BitVec 16) (online : Bool)
  /-- Returns the per-head timestamp (R489). -/
  | getTimestamp (mb : Mailbox) (tag : BitVec 16)
  /-- Sets a per-head offset used only in CXL event records (R489). -/
  | setTimestamp (mb : Mailbox) (tag : BitVec 16) (t : Word)
  /-- Returns the supported logs list (R489). -/
  | getSupportedLogs (mb : Mailbox) (tag : BitVec 16)
  /-- Returns the Command Effects Log (R489). -/
  | getLog (mb : Mailbox) (tag : BitVec 16)
  /-- Reports capacity as the sum of the port's valid windows, volatile or persistent by PMEM (R363). -/
  | identifyMemoryDevice (mb : Mailbox) (tag : BitVec 16)
  /-- Returns health information (R489). -/
  | getHealthInfo (mb : Mailbox) (tag : BitVec 16)
  /-- Returns the alert configuration (R489). -/
  | getAlertConfig (mb : Mailbox) (tag : BitVec 16)
  /-- Sets the alert configuration (R489). -/
  | setAlertConfig (mb : Mailbox) (tag : BitVec 16) (v : Word)
  /-- Returns the hub's shutdown state (R296). -/
  | getShutdownState (mb : Mailbox) (tag : BitVec 16)
  /-- Sets the head's view of the shutdown state dirty or clean (R296). -/
  | setShutdownState (mb : Mailbox) (tag : BitVec 16) (dirty : Bool)
  /-- Returns lines of the home reported poisoned in the correction logs (R489). -/
  | getPoisonList (mb : Mailbox) (tag : BitVec 16)
  /-- A command opcode not implemented is answered Unsupported (R490). -/
  | unsupportedCommand (mb : Mailbox) (tag : BitVec 16) (opcode : BitVec 16)
  /-- Returns part, stepping, profile, serial, image versions and boot count (R490). -/
  | pelestInfo (mb : Mailbox) (tag : BitVec 16)
  /-- Reads 1 to 255 aligned 64-bit words under the mailbox's authority (R469). -/
  | regRead (mb : Mailbox) (tag : BitVec 16) (a : BitVec 24) (n : Nat)
  /-- Applies up to 127 address-value pairs as 64-bit writes and returns each result (R469). -/
  | regWrite (mb : Mailbox) (tag : BitVec 16) (pairs : List (BitVec 24 × Word))
  /-- Starts a hub reset after the flush of R290, reporting cause PLANNED (R554). -/
  | hubReset (mb : Mailbox) (tag : BitVec 16)
  /-- Restarts Pelest from the active image while traffic continues (R488). -/
  | pelestRestart (mb : Mailbox) (tag : BitVec 16)
  /-- Writes part of an image to the inactive slot and verifies it at the last part (R492). -/
  | fwStage (mb : Mailbox) (tag : BitVec 16) (part : FwPart)
  /-- With no image verifying, the boot ROM stages an image over I3C and resumes the cold reset when it verifies
    (R493). -/
  | bootRecoveryStage (part : FwPart)
  /-- Restarts Pelest online from the staged slot (R494). -/
  | fwActivate (mb : Mailbox) (tag : BitVec 16)
  /-- With the offline flag, makes the staged slot active at the next cold reset (R494). -/
  | fwActivateOffline (mb : Mailbox) (tag : BitVec 16)
  /-- Raises MINSV in fuses to the active image's SVN (R496). -/
  | fwCommit (mb : Mailbox) (tag : BitVec 16)
  /-- Checks the MAC chain of up to 31 exported records and returns how many verify (R501). -/
  | tallyVerify (mb : Mailbox) (tag : BitVec 16) (boot : BitVec 32) (mac : Word) (recs : List (BitVec 512))
  /-- Writes a signed Tally checkpoint now (R503). -/
  | tallyCheckpoint (mb : Mailbox) (tag : BitVec 16)
  /-- Arms a snapshot at FT T on this hub or every joined hub (R482). -/
  | snapshotAt (mb : Mailbox) (tag : BitVec 16) (t : Word) (fabric : Bool)
  /-- Writes up to 240 square entries in one cycle, at once or at a scheduled FT (R490). -/
  | boardWrite (mb : Mailbox) (tag : BitVec 16) (triples : List (Nat × Nat × Word)) (at? : Option Word)
  /-- Fills an EMPTY key slot with a generated or supplied key, optionally persisted (R452). -/
  | keyLoad (mb : Mailbox) (tag : BitVec 16) (slot : BitVec 10) (key : Option (BitVec 256)) (persist : Bool)
  /-- Makes a LOADED slot RETIRING and flushes its ranges before erasing it (R453). -/
  | keyRetire (mb : Mailbox) (tag : BitVec 16) (slot : BitVec 10)
  /-- Loads an Idior port's pre-shared key and starts a full training (R459). -/
  | linkKey (mb : Mailbox) (tag : BitVec 16) (p : IPort) (key : BitVec 256)
  /-- Discards an UNROOTED home's contents with a new tree key and makes it ROOTED (R449). -/
  | sealInit (mb : Mailbox) (tag : BitVec 16)
  /-- Adopts an UNROOTED home's contents by rebuilding its tree under a new key (R450). -/
  | sealRebuild (mb : Mailbox) (tag : BitVec 16)
  /-- Writes up to 127 route entries in one cycle, judged as FB_RT writes (R321). -/
  | routeSet (mb : Mailbox) (tag : BitVec 16) (entries : List (HubId × Word))
  /-- Sends JnReq to the root to join the fabric (R328). -/
  | fabricJoin (mb : Mailbox) (tag : BitVec 16)
  /-- Pairs the hub with a named buddy for mirroring (R338). -/
  | buddyPair (mb : Mailbox) (tag : BitVec 16) (hub : HubId)
  /-- Unpairs the hub from its buddy when no Guarded, mirror or served entry remains (R338). -/
  | buddyUnpair (mb : Mailbox) (tag : BitVec 16)
  /-- Makes a planned takeover: recalls Guarded lines, waits for MrAck, reports PLANNED and resets (R351). -/
  | takeover (mb : Mailbox) (tag : BitVec 16)
  /-- A serving buddy copies served ranges back to the partner, recalls entries and sends TkBack (R352). -/
  | takeoverHandback (mb : Mailbox) (tag : BitVec 16)
  /-- Releases a frame way's sectors and sets RET (R180). -/
  | retireFrame (mb : Mailbox) (tag : BitVec 16) (set : Nat) (way : Nat)
  /-- Retires an HBM pseudo-channel onto the spare region or by retiring its frames (R181). -/
  | retirePc (mb : Mailbox) (tag : BitVec 16) (pc : Nat)
  /-- Copies an SRAM row into a spare row and maps it (R403). -/
  | spareRow (mb : Mailbox) (tag : BitVec 16) (unit : Fin 16) (row : Nat)
  /-- Copies an SRAM bank into its quadrant's spare bank and maps it (R412). -/
  | spareBank (mb : Mailbox) (tag : BitVec 16) (bank : Nat)
  /-- Moves a 4 KiB cellar page line by line into its set's spare region (R413). -/
  | retirePage (mb : Mailbox) (tag : BitVec 16) (page : Nat)
  /-- Empties one slice for repair, serving its lines uncached while it drains, optionally holding it (R572). -/
  | sliceDrain (mb : Mailbox) (tag : BitVec 16) (slice : Fin 32) (hold : Bool)
  /-- With the release flag, returns a held slice to normal service (R573). -/
  | sliceDrainRelease (mb : Mailbox) (tag : BitVec 16) (slice : Fin 32)
  /-- PERST_n is deasserted, ending the hold of a warm reset so that ready may follow within 300 ms of the later of
    this edge and the end of the flush (R554). -/
  | perstDeassert
  /-- PWR_WARN_n is deasserted, starting the 10 µs counts that end Brace and release admission after a power-warning
    flush (R545). -/
  | pwrWarnDeassert
  /-- A monitored rail rises back above its warning level, starting or restarting the 10 µs count toward leaving Brace
    (R545). -/
  | railAboveWarning (rail : Fin 5) (mv : Nat)
  /-- A host port's link leaves L1 and returns to L0 (R562). -/
  | l1Exit (p : HPort)
  /-- Enumeration of a cellar port's expander ends; on success FAILED clears and the port returns to service, with a
    Strong-set rebuild; on failure FAILED stays set and EV067 is raised (R376). -/
  | enumerationEnd (d : DPort) (e : ExpanderInfo)
  /-- A host's CXL.io configuration request to its head, including the commit of the HDM decoder, is answered and
    applied, or answered with Configuration Request Retry Status before ready (R363). -/
  | headConfigurationRequest (p : HPort) (c : HeadCfg)
  /-- A CMA/SPDM message over host-port DOE or MCTP is answered, establishing the secured session inside which
    supplied keys and IDE_KM are accepted (R452). -/
  | spdmMessage (mb : Mailbox) (m : SpdmMsg)
  /-- A write of IP_CTL.EN := 0 takes an Idior port to DISABLED with its transmitter idle (R308). -/
  | idiorPortDisable (o : Origin) (p : IPort)
  /-- An AER message from the I/O agent on an agent-mode port raises EV003 + 4p with CAUSE 1 (R378). -/
  | agentAerMessage (p : HPort)
  /-- A host or cellar port's PCIe link enters Recovery of its own accord, holding data and raising the port's link or
    retrain event (R378). -/
  | pcieLinkRecovery (port : PciePort)
  /-- A host port's link completes Recovery and returns to L0, and held data flows again (R378). -/
  | hostLinkRecoveryEnd (p : HostTrain)
  deriving DecidableEq, Repr

end Sys2Proof
end

