-- ==== Sys2Proof/Decode.lean ====
section
/-! DEFINITION. Reading a command from a word of the opcode table: no row of the table gives its command any bits. -/

namespace Sys2Proof

/-- The command that the word spells: none, since the table numbers no bits for any row. -/
def decodeTableWord (_nbits _w : Nat) : Option Instr := none

end Sys2Proof
end

