-- ==== Sys2Proof/Config.lean ====
section
/-! DEFINITION. What this manual leaves open: opaque functions, of which Lean can prove nothing but that they are
functions (log entries 4, 6 and 7). The free values are applied to State.free, the model's own counter of the
free values taken so far. -/

namespace Sys2Proof

/-- The device entropy source (R193, R452): the n-th value drawn. A free value (log entry 4). -/
opaque Config.entropy : Nat → BitVec 256

/-- Contents of standard CXL answers that CXL 3.1 defines and this manual does not (Table 12.9). A free value. -/
opaque Config.cxlAnswer : Nat → List Word

/-- What a read of a head's configuration space answers where PCIe and CXL define it and this manual does not (R362): port, offset
and the dword last written there, 2^32 where none. A free value (log entry 4). -/
opaque Config.headConfig : Nat → Nat → Nat → BitVec 32

/-- A register or configuration value that this manual does not give: the n-th taken. A free value (log entry 4). -/
opaque Config.freeWord : Nat → Word

/-- The keystream of AES-256-GCM over one 256-byte granule under a key and an IV (R422). -/
opaque Config.gcmStream : BitVec 256 → BitVec 96 → BitVec 2048

/-- The GCM tag, truncated to 64 bits, of key, IV, additional data and ciphertext (R422, R423). -/
opaque Config.gcmTag : BitVec 256 → BitVec 96 → BitVec 128 → BitVec 2048 → BitVec 64

/-- AES-256-CMAC truncated to 64 bits over a list of words (R430, R501). -/
opaque Config.cmac : BitVec 256 → List Word → Word

/-- The Tally key derived from the device key and the boot count (R501). -/
opaque Config.tallyKey : BitVec 32 → BitVec 256

/-- Words 2 to 6 of a checkpoint's four records: digest and signature over the covered records (R503). -/
opaque Config.checkpointWords : Word → BitVec 32 → BitVec 32 → BitVec 32 → List Word

/-- The link key of a training, by port, peer serial, pre-shared key and what the ECDHE exchange of this training gives, named by a free number (R458). -/
opaque Config.linkKey : Nat → Word → BitVec 256 → Nat → BitVec 256

/-- The encrypted slots of an Idior data flit that carries these messages, under a link key and an IV (R460). -/
opaque Config.linkSlots : BitVec 256 → BitVec 96 → List Msg → List (BitVec 128)

/-- The GCM tag, truncated to 64 bits, of an Idior flit: key, IV, link header and slots as sent (R460). -/
opaque Config.linkTag : BitVec 256 → BitVec 96 → Nat → List (BitVec 128) → BitVec 64

/-- Where a head's configuration space shows the CXL device capability register, as a byte offset (log entry 96). A free value. -/
opaque Config.cxlCap : Nat → Nat

/-- Where a head's configuration space shows the GPF Phase 2 duration, as a byte offset (R295, log entry 96). A free value. -/
opaque Config.gpfCap : Nat → Nat

/-- The four check bytes of one 64-byte share in the Strong cellar code (R388). -/
opaque Config.strongPart : LineBits → BitVec 32

/-- The Strong cellar code applied to four shares, four check parts and the mask of erased shares (R389):
the corrected lines, the mask of shares it could not restore, whether it corrected or restored anything,
and whether it detected damage that it cannot correct. -/
opaque Config.strongDecode : BitVec 2048 → BitVec 128 → BitVec 4 → BitVec 2048 × BitVec 4 × Bool × Bool

/-- The three check symbols of a data line in HBM, of its bytes and PZ bits (R382, R383): the manual gives no generator (log entry 120). -/
opaque Config.dataChecks : LineBits → BitVec 8 → BitVec 48

/-- The four check symbols of a record line in HBM (R382, R383; log entry 120). -/
opaque Config.recordChecks : LineBits → BitVec 64

/-- Quagitil's default trust-anchor digest, by word (SL_LTA, R465): fixed in the part, not given by the manual. -/
opaque Config.trustAnchor : Nat → Word

end Sys2Proof
end

