-- ==== Sys2Proof/Machine/Regs.lean ====
section
/-! DEFINITION. The register map of the management window: the window offset of every register that the chapters map
(one definition a register, in the order of the blocks), the access codes of its bits and its reset value.
Rule numbers: R112 (DR, HF), R216 (HC), R263 (TB, SB, LD), R354 (IP, FB), R379 (HP, DP), R416 (EC), R465 (SL), R506 (GL, MB),
R535 (EV, EQ, PC), R576 (PM). -/

namespace Sys2Proof.Machine

/-- DR_HOMELIM: 64 bits. -/
def aDrHomelim : Nat := 0x40000
/-- DR_KEEP: 64 bits. -/
def aDrKeep : Nat := 0x40008
/-- DR_SWEEP: 64 bits. -/
def aDrSweep : Nat := 0x40010
/-- DR_PROBE: 64 bits. -/
def aDrProbe : Nat := 0x40018
/-- DR_PROBED: 64 bits. -/
def aDrProbed : Nat := 0x40020
/-- DR_OCC0: 64 bits. -/
def aDrOcc0 : Nat := 0x40028
/-- DR_OCC1: 64 bits. -/
def aDrOcc1 : Nat := 0x40030
/-- DR_BCAST: 64 bits. -/
def aDrBcast : Nat := 0x40038
/-- DR_SDOM0–DR_SDOM63: 64 bits. -/
def aDrSdom (w : Nat) : Nat := 0x40100 + 0x8 * w
/-- HF_BITO0–HF_BITO15: 64 bits. -/
def aHfBito (p : Nat) : Nat := 0x60000 + 0x8 * p
/-- HF_PROBE: 64 bits. -/
def aHfProbe : Nat := 0x60080
/-- HF_PROBED: 64 bits. -/
def aHfProbed : Nat := 0x60088
/-- HF_OCC: 64 bits. -/
def aHfOcc : Nat := 0x60090
/-- HF_DEAD: 64 bits. -/
def aHfDead : Nat := 0x60098
/-- HC_CTL: 64 bits. -/
def aHcCtl : Nat := 0x80000
/-- HC_PFCTL: 64 bits. -/
def aHcPfctl : Nat := 0x80008
/-- HC_SSD: 64 bits. -/
def aHcSsd : Nat := 0x80010
/-- HC_MRQ: 64 bits. -/
def aHcMrq : Nat := 0x80018
/-- HC_WBCTL: 64 bits. -/
def aHcWbctl : Nat := 0x80020
/-- HC_DIESEED: 64 bits. -/
def aHcDieseed : Nat := 0x80028
/-- HC_MOPA: 64 bits. -/
def aHcMopa : Nat := 0x80040
/-- HC_MOPL: 64 bits. -/
def aHcMopl : Nat := 0x80048
/-- HC_MOPC: 64 bits. -/
def aHcMopc : Nat := 0x80050
/-- HC_PCMAP: 64 bits. -/
def aHcPcmap : Nat := 0x80060
/-- HC_RETWAYS: 64 bits. -/
def aHcRetways : Nat := 0x80068
/-- HC_CNT0–HC_CNT7: 64 bits. -/
def aHcCnt (n : Nat) : Nat := 0x80080 + 0x8 * n
/-- TB_FT: 64 bits. -/
def aTbFt : Nat := 0x10000
/-- TB_CTL: 64 bits. -/
def aTbCtl : Nat := 0x10008
/-- TB_ORIGIN: 64 bits. -/
def aTbOrigin : Nat := 0x10010
/-- TB_STAT: 64 bits. -/
def aTbStat : Nat := 0x10018
/-- TB_OFFS: 64 bits. -/
def aTbOffs : Nat := 0x10020
/-- TB_LINK0–TB_LINK11: 64 bits. -/
def aTbLink (p : Nat) : Nat := 0x10040 + 0x8 * p
/-- TB_EPOCH: 64 bits. -/
def aTbEpoch : Nat := 0x100a0
/-- SB_CTL: 64 bits. -/
def aSbCtl : Nat := 0x20000
/-- SB_BURST: 64 bits. -/
def aSbBurst : Nat := 0x20008
/-- SB_LATE: 64 bits. -/
def aSbLate : Nat := 0x20010
/-- SB_SQ0–SB_SQ63 of Board b: 64 bits. -/
def aSbSq (b : Nat) (w : Nat) : Nat := 0x21000 + 0x400 * b + 0x8 * w
/-- SB_RANK0–SB_RANK31 of Board b: 64 bits. -/
def aSbRank (b : Nat) (w : Nat) : Nat := 0x21200 + 0x400 * b + 0x8 * w
/-- SB_ADM of Board b: 64 bits. -/
def aSbAdm (b : Nat) : Nat := 0x21300 + 0x400 * b
/-- SB_USED of Board b: 64 bits. -/
def aSbUsed (b : Nat) : Nat := 0x21308 + 0x400 * b
/-- SB_HELD0–SB_HELD3 of Board b: 64 bits. -/
def aSbHeld (b : Nat) (c : Nat) : Nat := 0x21310 + 0x400 * b + 0x8 * c
/-- LD_EQPOOL: 64 bits. -/
def aLdEqpool : Nat := 0xa0000
/-- LD_PROTO: 64 bits. -/
def aLdProto : Nat := 0xa0008
/-- LD_BGRES: 64 bits. -/
def aLdBgres : Nat := 0xa0010
/-- LD_TQ0–LD_TQ3: 64 bits. -/
def aLdTq (c : Nat) : Nat := 0xa0018 + 0x8 * c
/-- LD_SHARED: 64 bits. -/
def aLdShared : Nat := 0xa0038
/-- LD_CAP0–LD_CAP7: 64 bits. -/
def aLdCap (c : Nat) : Nat := 0xa0040 + 0x8 * c
/-- LD_OCC0–LD_OCC7: 64 bits. -/
def aLdOcc (c : Nat) : Nat := 0xa0080 + 0x8 * c
/-- LD_WDOG: 64 bits. -/
def aLdWdog : Nat := 0xa00c0
/-- LD_WDSTAT: 64 bits. -/
def aLdWdstat : Nat := 0xa00c8
/-- IP_CTLp: 64 bits. -/
def aIpCtl (p : Nat) : Nat := 0x140000 + 0x1000 * p
/-- IP_STATp: 64 bits. -/
def aIpStat (p : Nat) : Nat := 0x140008 + 0x1000 * p
/-- IP_PEERp: 64 bits. -/
def aIpPeer (p : Nat) : Nat := 0x140010 + 0x1000 * p
/-- IP_PSERp: 64 bits. -/
def aIpPser (p : Nat) : Nat := 0x140018 + 0x1000 * p
/-- IP_CNTp0–IP_CNTp7: 64 bits. -/
def aIpCnt (p : Nat) (n : Nat) : Nat := 0x140040 + 0x1000 * p + 0x8 * n
/-- FB_STAT: 64 bits. -/
def aFbStat : Nat := 0x160000
/-- FB_HUBID: 64 bits. -/
def aFbHubid : Nat := 0x160008
/-- FB_SERIAL: 64 bits. -/
def aFbSerial : Nat := 0x160010
/-- FB_ROOT: 64 bits. -/
def aFbRoot : Nat := 0x160018
/-- FB_RSEQ: 64 bits. -/
def aFbRseq : Nat := 0x160020
/-- FB_BUDDY: 64 bits. -/
def aFbBuddy : Nat := 0x160028
/-- FB_PORTGRP: 64 bits. -/
def aFbPortgrp : Nat := 0x160030
/-- FB_CACHE0–FB_CACHE63: 64 bits. -/
def aFbCache (w : Nat) : Nat := 0x160100 + 0x8 * w
/-- FB_MIR0–FB_MIR7: 128 bits. -/
def aFbMir (n : Nat) : Nat := 0x160400 + 0x10 * n
/-- FB_PMIR0–FB_PMIR7: 128 bits. -/
def aFbPmir (n : Nat) : Nat := 0x160480 + 0x10 * n
/-- FB_TKO0–FB_TKO63: 512 bits. -/
def aFbTko (n : Nat) : Nat := 0x160800 + 0x40 * n
/-- FB_INC0–FB_INC1023: 64 bits. -/
def aFbInc (w : Nat) : Nat := 0x162000 + 0x8 * w
/-- FB_RT0–FB_RT4095: 64 bits. -/
def aFbRt (h : Nat) : Nat := 0x168000 + 0x8 * h
/-- HP_CTLp: 64 bits. -/
def aHpCtl (p : Nat) : Nat := 0x100000 + 0x1000 * p
/-- HP_STATp: 64 bits. -/
def aHpStat (p : Nat) : Nat := 0x100008 + 0x1000 * p
/-- HP_WINSTATp0–HP_WINSTATp3: 64 bits. -/
def aHpWinstat (p : Nat) (k : Nat) : Nat := 0x100010 + 0x1000 * p + 0x8 * k
/-- HP_MGACCp: 64 bits. -/
def aHpMgacc (p : Nat) : Nat := 0x100030 + 0x1000 * p
/-- HP_PLDEFp: 64 bits. -/
def aHpPldef (p : Nat) : Nat := 0x100038 + 0x1000 * p
/-- HP_AGIRQp: 64 bits. -/
def aHpAgirq (p : Nat) : Nat := 0x100040 + 0x1000 * p
/-- HP_MBARp: 64 bits. -/
def aHpMbar (p : Nat) : Nat := 0x100048 + 0x1000 * p
/-- HP_CFGAp: 64 bits. -/
def aHpCfga (p : Nat) : Nat := 0x100050 + 0x1000 * p
/-- HP_CFGDp: 64 bits. -/
def aHpCfgd (p : Nat) : Nat := 0x100058 + 0x1000 * p
/-- HP_CNTp0–HP_CNTp7: 64 bits. -/
def aHpCnt (p : Nat) (n : Nat) : Nat := 0x100100 + 0x1000 * p + 0x8 * n
/-- HP_PLTp0–HP_PLTp255: 64 bits. -/
def aHpPlt (p : Nat) (t : Nat) : Nat := 0x100800 + 0x1000 * p + 0x8 * t
/-- HP_WINp0–HP_WINp255: 128 bits. -/
def aHpWin (p : Nat) (n : Nat) : Nat := 0x110000 + 0x1000 * p + 0x10 * n
/-- DP_ISET0–DP_ISET15: 128 bits. -/
def aDpIset (n : Nat) : Nat := 0x120000 + 0x10 * n
/-- DP_CTLd: 64 bits. -/
def aDpCtl (d : Nat) : Nat := 0x121000 + 0x100 * d
/-- DP_STATd: 64 bits. -/
def aDpStat (d : Nat) : Nat := 0x121008 + 0x100 * d
/-- DP_CAPd: 64 bits. -/
def aDpCap (d : Nat) : Nat := 0x121010 + 0x100 * d
/-- DP_EBNDd: 64 bits. -/
def aDpEbnd (d : Nat) : Nat := 0x121018 + 0x100 * d
/-- DP_DSCd: 64 bits. -/
def aDpDsc (d : Nat) : Nat := 0x121020 + 0x100 * d
/-- DP_CNTd0–DP_CNTd7: 64 bits. -/
def aDpCnt (d : Nat) (n : Nat) : Nat := 0x121040 + 0x100 * d + 0x8 * n
/-- EC_CTL: 64 bits. -/
def aEcCtl : Nat := 0xc0000
/-- EC_REPCTL: 64 bits. -/
def aEcRepctl : Nat := 0xc0008
/-- EC_SCRCTL: 64 bits. -/
def aEcScrctl : Nat := 0xc0010
/-- EC_SCRSTAT: 64 bits. -/
def aEcScrstat : Nat := 0xc0018
/-- EC_PCTH: 64 bits. -/
def aEcPcth : Nat := 0xc0020
/-- EC_BKT0–EC_BKT4: 64 bits. -/
def aEcBkt (u : Nat) : Nat := 0xc0040 + 0x8 * u
/-- EC_LBSTAT: 64 bits. -/
def aEcLbstat : Nat := 0xc0080
/-- EC_LBIDX: 64 bits. -/
def aEcLbidx : Nat := 0xc0088
/-- EC_LBENT: 128 bits. -/
def aEcLbent : Nat := 0xc0090
/-- EC_LOGSTAT0–EC_LOGSTAT15: 64 bits. -/
def aEcLogstat (u : Nat) : Nat := 0xc0100 + 0x8 * u
/-- EC_CCNT0–EC_CCNT15: 64 bits. -/
def aEcCcnt (u : Nat) : Nat := 0xc0200 + 0x8 * u
/-- EC_UCNT0–EC_UCNT15: 64 bits. -/
def aEcUcnt (u : Nat) : Nat := 0xc0280 + 0x8 * u
/-- EC_LOG of unit u, entries 0–63: 128 bits. -/
def aEcLog (u : Nat) (i : Nat) : Nat := 0xc1000 + 0x400 * u + 0x10 * i
/-- EC_WR0–EC_WR63: 256 bits. -/
def aEcWr (r : Nat) : Nat := 0xc6000 + 0x20 * r
/-- SL_CTL: 64 bits. -/
def aSlCtl : Nat := 0xe0000
/-- SL_STAT: 64 bits. -/
def aSlStat : Nat := 0xe0008
/-- SL_HALT: 64 bits. -/
def aSlHalt : Nat := 0xe0010
/-- SL_HALTFT: 64 bits. -/
def aSlHaltft : Nat := 0xe0018
/-- SL_MAJSRC: 64 bits. -/
def aSlMajsrc : Nat := 0xe0020
/-- SL_ROOT0–SL_ROOT7: 64 bits. -/
def aSlRoot (k : Nat) : Nat := 0xe0040 + 0x8 * k
/-- SL_RKCTL: 64 bits. -/
def aSlRkctl : Nat := 0xe0080
/-- SL_RKPTR: 64 bits. -/
def aSlRkptr : Nat := 0xe0088
/-- SL_LTA0–SL_LTA5: 64 bits. -/
def aSlLta (k : Nat) : Nat := 0xe00c0 + 0x8 * k
/-- SL_LPSK: 64 bits. -/
def aSlLpsk : Nat := 0xe0100
/-- SL_CNT0–SL_CNT7: 64 bits. -/
def aSlCnt (n : Nat) : Nat := 0xe0200 + 0x8 * n
/-- SL_KS0–SL_KS1023: 64 bits. -/
def aSlKs (n : Nat) : Nat := 0xe8000 + 0x8 * n
/-- SL_KRT0–SL_KRT4095: 128 bits. -/
def aSlKrt (n : Nat) : Nat := 0xf0000 + 0x10 * n
/-- GL_ID: 64 bits. -/
def aGlId : Nat := 0x0
/-- GL_STAT: 64 bits. -/
def aGlStat : Nat := 0x8
/-- GL_UNLOCK: 64 bits. -/
def aGlUnlock : Nat := 0x10
/-- GL_ORIGIN: 64 bits. -/
def aGlOrigin : Nat := 0x18
/-- GL_SNAP: 64 bits. -/
def aGlSnap : Nat := 0x20
/-- GL_SNAPFT: 64 bits. -/
def aGlSnapft : Nat := 0x28
/-- GL_SNAPAT: 64 bits. -/
def aGlSnapat : Nat := 0x30
/-- GL_SNAPST: 64 bits. -/
def aGlSnapst : Nat := 0x38
/-- GL_FW: 64 bits. -/
def aGlFw : Nat := 0x40
/-- GL_BOOT: 64 bits. -/
def aGlBoot : Nat := 0x48
/-- GL_TLYCTL: 64 bits. -/
def aGlTlyctl : Nat := 0x80
/-- GL_TLYSTAT: 64 bits. -/
def aGlTlystat : Nat := 0x88
/-- GL_TLYNUM: 64 bits. -/
def aGlTlynum : Nat := 0x90
/-- GL_TLYREF: 64 bits. -/
def aGlTlyref : Nat := 0x98
/-- GL_TLYIDX: 64 bits. -/
def aGlTlyidx : Nat := 0xa0
/-- GL_TLYREC: 512 bits. -/
def aGlTlyrec : Nat := 0xc0
/-- MB_CAPp: 64 bits. -/
def aMbCap (p : Nat) : Nat := 0x1a0000 + 0x1000 * p
/-- MB_CTLp: 64 bits. -/
def aMbCtl (p : Nat) : Nat := 0x1a0008 + 0x1000 * p
/-- MB_CMDp: 64 bits. -/
def aMbCmd (p : Nat) : Nat := 0x1a0010 + 0x1000 * p
/-- MB_STSp: 64 bits. -/
def aMbSts (p : Nat) : Nat := 0x1a0018 + 0x1000 * p
/-- MB_BGSTp: 64 bits. -/
def aMbBgst (p : Nat) : Nat := 0x1a0020 + 0x1000 * p
/-- MB_AUTHp: 64 bits. -/
def aMbAuth (p : Nat) : Nat := 0x1a0028 + 0x1000 * p
/-- MB_PAYp: 64 bits. -/
def aMbPay (p : Nat) (k : Nat) : Nat := 0x1a0800 + 0x1000 * p + 0x8 * k
/-- MB_AUTHI3C: 64 bits. -/
def aMbAuthi3c : Nat := 0x1b0000
/-- MB_AUTHFAB: 64 bits. -/
def aMbAuthfab : Nat := 0x1b0008
/-- MB_FMSRC: 64 bits. -/
def aMbFmsrc : Nat := 0x1b0010
/-- EV_RT0–EV_RT287: 64 bits. -/
def aEvRt (n : Nat) : Nat := 0x1c0000 + 0x8 * n
/-- EV_STAT0–EV_STAT5: 64 bits. -/
def aEvStat (k : Nat) : Nat := 0x1c1000 + 0x8 * k
/-- EV_TEST: 64 bits. -/
def aEvTest : Nat := 0x1c1100
/-- EQ_CTLq: 64 bits. -/
def aEqCtl (q : Nat) : Nat := 0x200000 + 0x40 * q
/-- EQ_STATq: 64 bits. -/
def aEqStat (q : Nat) : Nat := 0x200008 + 0x40 * q
/-- EQ_ACCq: 64 bits. -/
def aEqAcc (q : Nat) : Nat := 0x200010 + 0x40 * q
/-- EQ_DROPq: 64 bits. -/
def aEqDrop (q : Nat) : Nat := 0x200018 + 0x40 * q
/-- PC_IMG0–PC_IMG2559: 64 bits. -/
def aPcImg (i : Nat) : Nat := 0x300000 + 0x8 * i
/-- PC_IMGFT: 64 bits. -/
def aPcImgft : Nat := 0x305000
/-- PC_WRAPCLR: 64 bits. -/
def aPcWrapclr : Nat := 0x305008
/-- PC_SMPCTL: 64 bits. -/
def aPcSmpctl : Nat := 0x305010
/-- PC_CMAP0–PC_CMAP2559: 64 bits. -/
def aPcCmap (i : Nat) : Nat := 0x306000 + 0x8 * i
/-- PC_SLCs_n: 64 bits. -/
def aPcSlc (s : Nat) (n : Nat) : Nat := 0x310000 + 0x100 * s + 0x8 * n
/-- PM_CTL: 64 bits. -/
def aPmCtl : Nat := 0x180000
/-- PM_STAT: 64 bits. -/
def aPmStat : Nat := 0x180008
/-- PM_LASTC: 64 bits. -/
def aPmLastc : Nat := 0x180010
/-- PM_LOAD: 64 bits. -/
def aPmLoad : Nat := 0x180018
/-- PM_RAIL0–PM_RAIL4: 64 bits. -/
def aPmRail (n : Nat) : Nat := 0x180040 + 0x8 * n
/-- PM_TEMP0–PM_TEMP1: 64 bits. -/
def aPmTemp (w : Nat) : Nat := 0x180070 + 0x8 * w
/-- PM_THERM: 64 bits. -/
def aPmTherm : Nat := 0x180080
/-- PM_LPCTL: 64 bits. -/
def aPmLpctl : Nat := 0x1800c0
/-- PM_DORM: 64 bits. -/
def aPmDorm : Nat := 0x1800c8
/-- PM_DRAIN: 64 bits. -/
def aPmDrain : Nat := 0x1800d0
/-- PM_CNT0–PM_CNT7: 64 bits. -/
def aPmCnt (n : Nat) : Nat := 0x180100 + 0x8 * n
/-- PM_CAL0–PM_CAL55: 64 bits. -/
def aPmCal (n : Nat) : Nat := 0x180400 + 0x8 * n

/-- The access codes of the bits of one 64-bit word of a register, as masks (Table 12.3). A bit in none is reserved (R12). -/
structure Acc where
  ro : Nat := 0
  rw : Nat := 0
  rwg : Nat := 0
  wo : Nat := 0
  rsq : Nat := 0
  rct : Nat := 0
  deriving DecidableEq, Repr

/-- A row of the register map: `n1 * n2` registers of the words `acc`, at `base + s1 * i + s2 * j`, each word with the reset value `reset`.
`per` marks a reset value that is not one constant (regReset). -/
structure Fam where
  base : Nat
  n1 : Nat := 1
  s1 : Nat := 1
  n2 : Nat := 1
  s2 : Nat := 1
  acc : List Acc
  reset : Nat := 0
  deriving DecidableEq, Repr

/-- The registers of block GL. -/
def famsGl : List Fam := [
  ⟨aGlId, 1, 0x8, 1, 0x8, [⟨0x1ffff, 0x0, 0x0, 0x0, 0x0, 0x0⟩], 0x0⟩,
  ⟨aGlStat, 1, 0x8, 1, 0x8, [⟨0xf, 0x0, 0x0, 0x0, 0x0, 0x0⟩], 0x0⟩,
  ⟨aGlUnlock, 1, 0x8, 1, 0x8, [⟨0x0, 0x0, 0x0, 0x1fffff, 0x0, 0x0⟩], 0x0⟩,
  ⟨aGlOrigin, 1, 0x8, 1, 0x8, [⟨0xffffff0f003f, 0x0, 0x0, 0x0, 0x0, 0x0⟩], 0x0⟩,
  ⟨aGlSnap, 1, 0x8, 1, 0x8, [⟨0x0, 0x0, 0x0, 0x1, 0x0, 0x0⟩], 0x0⟩,
  ⟨aGlSnapft, 1, 0x8, 1, 0x8, [⟨0xffffffffffffffff, 0x0, 0x0, 0x0, 0x0, 0x0⟩], 0x0⟩,
  ⟨aGlSnapat, 1, 0x8, 1, 0x8, [⟨0xffffffffffffffff, 0x0, 0x0, 0x0, 0x0, 0x0⟩], 0x0⟩,
  ⟨aGlSnapst, 1, 0x8, 1, 0x8, [⟨0xffff0003, 0x0, 0x0, 0x0, 0x0, 0x0⟩], 0x0⟩,
  ⟨aGlFw, 1, 0x8, 1, 0x8, [⟨0xffffffffff0f, 0x0, 0x0, 0x0, 0x0, 0x0⟩], 0x0⟩,
  ⟨aGlBoot, 1, 0x8, 1, 0x8, [⟨0xffffffff, 0x0, 0x0, 0x0, 0x0, 0x0⟩], 0x0⟩,
  ⟨aGlTlyctl, 1, 0x8, 1, 0x8, [⟨0x0, 0x0, 0x7fff, 0x0, 0x0, 0x0⟩], 0x0⟩,
  ⟨aGlTlystat, 1, 0x8, 1, 0x8, [⟨0x3ffff, 0x0, 0x0, 0x0, 0xffff000000040000, 0x0⟩], 0x0⟩,
  ⟨aGlTlynum, 1, 0x8, 1, 0x8, [⟨0xffffffff, 0x0, 0x0, 0x0, 0x0, 0x0⟩], 0x0⟩,
  ⟨aGlTlyref, 1, 0x8, 1, 0x8, [⟨0x0, 0x0, 0x0, 0x0, 0x0, 0xffffffffffff⟩], 0x0⟩,
  ⟨aGlTlyidx, 1, 0x8, 1, 0x8, [⟨0x0, 0xffff, 0x0, 0x0, 0x0, 0x0⟩], 0x0⟩,
  ⟨aGlTlyrec, 1, 0x40, 1, 0x40, [⟨0xffffffffffffffff, 0x0, 0x0, 0x0, 0x0, 0x0⟩, ⟨0xffffffffffffffff, 0x0, 0x0, 0x0, 0x0, 0x0⟩, ⟨0xffffffffffffffff, 0x0, 0x0, 0x0, 0x0, 0x0⟩, ⟨0xffffffffffffffff, 0x0, 0x0, 0x0, 0x0, 0x0⟩, ⟨0xffffffffffffffff, 0x0, 0x0, 0x0, 0x0, 0x0⟩, ⟨0xffffffffffffffff, 0x0, 0x0, 0x0, 0x0, 0x0⟩, ⟨0xffffffffffffffff, 0x0, 0x0, 0x0, 0x0, 0x0⟩, ⟨0xffffffffffffffff, 0x0, 0x0, 0x0, 0x0, 0x0⟩], 0x0⟩]

/-- The registers of block TB. -/
def famsTb : List Fam := [
  ⟨aTbFt, 1, 0x8, 1, 0x8, [⟨0xffffffffffffffff, 0x0, 0x0, 0x0, 0x0, 0x0⟩], 0x0⟩,
  ⟨aTbCtl, 1, 0x8, 1, 0x8, [⟨0x0, 0xe, 0x1, 0x10, 0x0, 0x0⟩], 0x6⟩,
  ⟨aTbOrigin, 1, 0x8, 1, 0x8, [⟨0x0, 0x0, 0xffffffffffffffff, 0x0, 0x0, 0x0⟩], 0x0⟩,
  ⟨aTbStat, 1, 0x8, 1, 0x8, [⟨0x1fff, 0x0, 0x0, 0x0, 0xffff000000030000, 0x0⟩], 0x0⟩,
  ⟨aTbOffs, 1, 0x8, 1, 0x8, [⟨0xffffffff, 0x0, 0x0, 0x0, 0x0, 0x0⟩], 0x0⟩,
  ⟨(aTbLink 0), 12, 0x8, 1, 0x8, [⟨0xffff, 0xffff0000, 0x0, 0x0, 0x0, 0x0⟩], 0x0⟩,
  ⟨aTbEpoch, 1, 0x8, 1, 0x8, [⟨0xfffffffffffff, 0x0, 0x0, 0x0, 0x0, 0x0⟩], 0x0⟩]

/-- The registers of block SB. -/
def famsSb : List Fam := [
  ⟨aSbCtl, 1, 0x8, 1, 0x8, [⟨0x0, 0x0, 0xff, 0x0, 0x0, 0x0⟩], 0x2⟩,
  ⟨aSbBurst, 1, 0x8, 1, 0x8, [⟨0x0, 0x0, 0xfffffff0, 0x0, 0x0, 0x0⟩], 0x11111010⟩,
  ⟨aSbLate, 1, 0x8, 1, 0x8, [⟨0x0, 0x0, 0x0, 0x0, 0x0, 0xffffffffffff⟩], 0x0⟩,
  ⟨(aSbSq 0 0), 92, 0x400, 64, 0x8, [⟨0x0, 0x0, 0xffffffffffffffff, 0x0, 0x0, 0x0⟩], 0x0⟩,
  ⟨(aSbRank 0 0), 92, 0x400, 32, 0x8, [⟨0x0, 0x7777777777777777, 0x0, 0x0, 0x0, 0x0⟩], 0x4444000044440000⟩,
  ⟨(aSbAdm 0), 92, 0x400, 1, 0x8, [⟨0xffffffffffffffff, 0x0, 0x0, 0x0, 0x0, 0x0⟩], 0x1e001e001e001e0⟩,
  ⟨(aSbUsed 0), 92, 0x400, 1, 0x8, [⟨0xffffffffffffffff, 0x0, 0x0, 0x0, 0x0, 0x0⟩], 0x0⟩,
  ⟨(aSbHeld 0 0), 92, 0x400, 4, 0x8, [⟨0x0, 0x0, 0x0, 0x0, 0x0, 0xffffffffffff⟩], 0x0⟩]

/-- The registers of block DR. -/
def famsDr : List Fam := [
  ⟨aDrHomelim, 1, 0x8, 1, 0x8, [⟨0x0, 0x0, 0x1fff, 0x0, 0x0, 0x0⟩], 0x0⟩,
  ⟨aDrKeep, 1, 0x8, 1, 0x8, [⟨0x0, 0x0, 0xff, 0x0, 0x0, 0x0⟩], 0x0⟩,
  ⟨aDrSweep, 1, 0x8, 1, 0x8, [⟨0x1ffffff3ffd, 0x0, 0x0, 0x0, 0xffff000000000002, 0x0⟩], 0x0⟩,
  ⟨aDrProbe, 1, 0x8, 1, 0x8, [⟨0x3f000000000000, 0xffffffffffc0, 0x0, 0x0, 0x0, 0x0⟩], 0x0⟩,
  ⟨aDrProbed, 1, 0x8, 1, 0x8, [⟨0xffffffffffffffff, 0x0, 0x0, 0x0, 0x0, 0x0⟩], 0x0⟩,
  ⟨aDrOcc0, 1, 0x8, 1, 0x8, [⟨0x0, 0x0, 0x0, 0x0, 0x0, 0x1ffffff01ffffff⟩], 0x0⟩,
  ⟨aDrOcc1, 1, 0x8, 1, 0x8, [⟨0x0, 0x0, 0x0, 0x0, 0x0, 0x1ffffff01ffffff⟩], 0x0⟩,
  ⟨aDrBcast, 1, 0x8, 1, 0x8, [⟨0x0, 0x0, 0x0, 0x0, 0x0, 0xffffffffffff⟩], 0x0⟩,
  ⟨(aDrSdom 0), 64, 0x8, 1, 0x8, [⟨0x0, 0x0, 0xffffffffffffffff, 0x0, 0x0, 0x0⟩], 0x0⟩]

/-- The registers of block HF. -/
def famsHf : List Fam := [
  ⟨(aHfBito 0), 16, 0x8, 1, 0x8, [⟨0x0, 0x3ff, 0x0, 0x0, 0x0, 0x0⟩], 0x14⟩,
  ⟨aHfProbe, 1, 0x8, 1, 0x8, [⟨0x3000000000000000, 0xfffffffffffffc0, 0x0, 0x0, 0x0, 0x0⟩], 0x0⟩,
  ⟨aHfProbed, 1, 0x8, 1, 0x8, [⟨0xffffffffffffffff, 0x0, 0x0, 0x0, 0x0, 0x0⟩], 0x0⟩,
  ⟨aHfOcc, 1, 0x8, 1, 0x8, [⟨0x0, 0x0, 0x0, 0x0, 0x0, 0x1ffffff01ffffff⟩], 0x0⟩,
  ⟨aHfDead, 1, 0x8, 1, 0x8, [⟨0x0, 0x0, 0x0, 0x0, 0xffff00000000ffff, 0x0⟩], 0x0⟩]

/-- The registers of block HC. -/
def famsHc : List Fam := [
  ⟨aHcCtl, 1, 0x8, 1, 0x8, [⟨0x0, 0x1, 0x0, 0x0, 0x0, 0x0⟩], 0x0⟩,
  ⟨aHcPfctl, 1, 0x8, 1, 0x8, [⟨0x0, 0x3ffff, 0x0, 0x0, 0x0, 0x0⟩], 0x0⟩,
  ⟨aHcSsd, 1, 0x8, 1, 0x8, [⟨0xffff0000, 0xffff, 0x0, 0x0, 0x0, 0x0⟩], 0xffff⟩,
  ⟨aHcMrq, 1, 0x8, 1, 0x8, [⟨0x0, 0x0, 0xffffffff, 0x0, 0x0, 0x0⟩], 0x8080808⟩,
  ⟨aHcWbctl, 1, 0x8, 1, 0x8, [⟨0x0, 0xfff, 0x0, 0x0, 0x0, 0x0⟩], 0xc10⟩,
  ⟨aHcDieseed, 1, 0x8, 1, 0x8, [⟨0x0, 0xffffffff, 0x0, 0x0, 0x0, 0x0⟩], 0x0⟩,
  ⟨aHcMopa, 1, 0x8, 1, 0x8, [⟨0x0, 0xfffffffffffffc0, 0x0, 0x0, 0x0, 0x0⟩], 0x0⟩,
  ⟨aHcMopl, 1, 0x8, 1, 0x8, [⟨0x0, 0xffffffffffff, 0x0, 0x0, 0x0, 0x0⟩], 0x0⟩,
  ⟨aHcMopc, 1, 0x8, 1, 0x8, [⟨0x10, 0x7, 0x0, 0x8, 0xffff000000000020, 0x0⟩], 0x0⟩,
  ⟨aHcPcmap, 1, 0x8, 1, 0x8, [⟨0xffffff, 0x0, 0x0, 0x0, 0x0, 0x0⟩], 0x0⟩,
  ⟨aHcRetways, 1, 0x8, 1, 0x8, [⟨0x3ffffff, 0x0, 0x0, 0x0, 0x0, 0x0⟩], 0x0⟩,
  ⟨(aHcCnt 0), 8, 0x8, 1, 0x8, [⟨0x0, 0x0, 0x0, 0x0, 0x0, 0xffffffffffff⟩], 0x0⟩]

/-- The registers of block LD. -/
def famsLd : List Fam := [
  ⟨aLdEqpool, 1, 0x8, 1, 0x8, [⟨0x0, 0x0, 0x3ffff, 0x0, 0x0, 0x0⟩], 0x8000⟩,
  ⟨aLdProto, 1, 0x8, 1, 0x8, [⟨0x0, 0x0, 0x3ffff, 0x0, 0x0, 0x0⟩], 0xc000⟩,
  ⟨aLdBgres, 1, 0x8, 1, 0x8, [⟨0x0, 0x0, 0x1ffff, 0x0, 0x0, 0x0⟩], 0x2000⟩,
  ⟨(aLdTq 0), 4, 0x8, 1, 0x8, [⟨0x0, 0x0, 0x7ffff, 0x0, 0x0, 0x0⟩], 0x10000⟩,
  ⟨aLdShared, 1, 0x8, 1, 0x8, [⟨0xfffff, 0x0, 0x0, 0x0, 0x0, 0x0⟩], 0xaa000⟩,
  ⟨(aLdCap 0), 8, 0x8, 1, 0x8, [⟨0x0, 0x0, 0xfffff, 0x0, 0x0, 0x0⟩], 0xaa000⟩,
  ⟨(aLdOcc 0), 8, 0x8, 1, 0x8, [⟨0xfffff, 0x0, 0x0, 0x0, 0x0, 0x0⟩], 0x0⟩,
  ⟨aLdWdog, 1, 0x8, 1, 0x8, [⟨0x0, 0x0, 0xffff, 0x0, 0x0, 0x0⟩], 0x1000⟩,
  ⟨aLdWdstat, 1, 0x8, 1, 0x8, [⟨0x73f7f, 0x0, 0x0, 0x0, 0xffff000000000080, 0x0⟩], 0x0⟩]

/-- The registers of block EC. -/
def famsEc : List Fam := [
  ⟨aEcCtl, 1, 0x8, 1, 0x8, [⟨0x0, 0x3, 0xc, 0x0, 0x0, 0x0⟩], 0xb⟩,
  ⟨aEcRepctl, 1, 0x8, 1, 0x8, [⟨0x0, 0xff0f, 0x0, 0x0, 0x0, 0x0⟩], 0x1804⟩,
  ⟨aEcScrctl, 1, 0x8, 1, 0x8, [⟨0x0, 0xffffffff, 0x0, 0x0, 0x0, 0x0⟩], 0xa83c18⟩,
  ⟨aEcScrstat, 1, 0x8, 1, 0x8, [⟨0xffffff07, 0x0, 0x0, 0x0, 0x0, 0x0⟩], 0x0⟩,
  ⟨aEcPcth, 1, 0x8, 1, 0x8, [⟨0x0, 0xffff, 0x0, 0x0, 0x0, 0x0⟩], 0x400⟩,
  ⟨(aEcBkt 0), 5, 0x8, 1, 0x8, [⟨0xff0000000, 0x0, 0xfffffff, 0x0, 0xffff001000000000, 0x0⟩], 0x3e810⟩,
  ⟨aEcLbstat, 1, 0x8, 1, 0x8, [⟨0x1ffffff, 0x0, 0x0, 0x0, 0x0, 0x0⟩], 0x0⟩,
  ⟨aEcLbidx, 1, 0x8, 1, 0x8, [⟨0x0, 0xfff, 0x0, 0x0, 0x0, 0x0⟩], 0x0⟩,
  ⟨aEcLbent, 1, 0x10, 1, 0x10, [⟨0xffffffffffffffff, 0x0, 0x0, 0x0, 0x0, 0x0⟩, ⟨0xffffffffffffffff, 0x0, 0x0, 0x0, 0x0, 0x0⟩], 0x0⟩,
  ⟨(aEcLogstat 0), 16, 0x8, 1, 0x8, [⟨0x3f7f, 0x0, 0x0, 0x0, 0xffff000000004000, 0x0⟩], 0x0⟩,
  ⟨(aEcCcnt 0), 16, 0x8, 1, 0x8, [⟨0x0, 0x0, 0x0, 0x0, 0x0, 0xffffffffffff⟩], 0x0⟩,
  ⟨(aEcUcnt 0), 16, 0x8, 1, 0x8, [⟨0x0, 0x0, 0x0, 0x0, 0x0, 0xffffffffffff⟩], 0x0⟩,
  ⟨(aEcLog 0 0), 16, 0x400, 64, 0x10, [⟨0xffffffffffffffff, 0x0, 0x0, 0x0, 0x0, 0x0⟩, ⟨0xffffffffffffffff, 0x0, 0x0, 0x0, 0x0, 0x0⟩], 0x0⟩,
  ⟨(aEcWr 0), 64, 0x20, 1, 0x20, [⟨0x0, 0x0, 0xfffffff01, 0x0, 0x0, 0x0⟩, ⟨0x0, 0x0, 0xfffffffff, 0x0, 0x0, 0x0⟩, ⟨0x0, 0x0, 0xfffffffff, 0x0, 0x0, 0x0⟩, ⟨0xff, 0x0, 0x0, 0x0, 0xffff000000000100, 0x0⟩], 0x0⟩]

/-- The registers of block SL. -/
def famsSl : List Fam := [
  ⟨aSlCtl, 1, 0x8, 1, 0x8, [⟨0x0, 0x0, 0xffff, 0x0, 0x0, 0x0⟩], 0x0⟩,
  ⟨aSlStat, 1, 0x8, 1, 0x8, [⟨0x3fff, 0x0, 0x0, 0x0, 0x0, 0x0⟩], 0x0⟩,
  ⟨aSlHalt, 1, 0x8, 1, 0x8, [⟨0x3ffffffffffff, 0x0, 0x0, 0x0, 0x0, 0x0⟩], 0x0⟩,
  ⟨aSlHaltft, 1, 0x8, 1, 0x8, [⟨0xffffffffffffffff, 0x0, 0x0, 0x0, 0x0, 0x0⟩], 0x0⟩,
  ⟨aSlMajsrc, 1, 0x8, 1, 0x8, [⟨0xffffffffffffff, 0x0, 0x0, 0x0, 0x0, 0x0⟩], 0x0⟩,
  ⟨(aSlRoot 0), 8, 0x8, 1, 0x8, [⟨0xffffffffffffff, 0x0, 0x0, 0x0, 0x0, 0x0⟩], 0x0⟩,
  ⟨aSlRkctl, 1, 0x8, 1, 0x8, [⟨0x80000000, 0x0, 0x3fffffff, 0x40000000, 0x0, 0x0⟩], 0x0⟩,
  ⟨aSlRkptr, 1, 0x8, 1, 0x8, [⟨0x3ffffffff, 0x0, 0x0, 0x0, 0x0, 0x0⟩], 0x0⟩,
  ⟨(aSlLta 0), 6, 0x8, 1, 0x8, [⟨0x0, 0x0, 0xffffffffffffffff, 0x0, 0x0, 0x0⟩], 0x0⟩,
  ⟨aSlLpsk, 1, 0x8, 1, 0x8, [⟨0xfff, 0x0, 0x0, 0x0, 0x0, 0x0⟩], 0x0⟩,
  ⟨(aSlCnt 0), 8, 0x8, 1, 0x8, [⟨0x0, 0x0, 0x0, 0x0, 0x0, 0xffffffffffff⟩], 0x0⟩,
  ⟨(aSlKs 0), 1024, 0x8, 1, 0x8, [⟨0xfff, 0x0, 0x0, 0x0, 0x0, 0x0⟩], 0x0⟩,
  ⟨(aSlKrt 0), 4096, 0x10, 1, 0x10, [⟨0x0, 0x0, 0x7fffffffffffff, 0x0, 0x0, 0x0⟩, ⟨0x0, 0x0, 0x3ffffffff, 0x0, 0x0, 0x0⟩], 0x0⟩]

/-- The registers of block HP. -/
def famsHp : List Fam := [
  ⟨(aHpCtl 0), 16, 0x1000, 1, 0x8, [⟨0x0, 0x71, 0xe, 0x0, 0x0, 0x0⟩], 0x21⟩,
  ⟨(aHpStat 0), 16, 0x1000, 1, 0x8, [⟨0x1ff, 0x0, 0x0, 0x0, 0xffff000000000200, 0x0⟩], 0x0⟩,
  ⟨(aHpWinstat 0 0), 16, 0x1000, 4, 0x8, [⟨0xffffffffffffffff, 0x0, 0x0, 0x0, 0x0, 0x0⟩], 0x0⟩,
  ⟨(aHpMgacc 0), 16, 0x1000, 1, 0x8, [⟨0x0, 0x0, 0x3ffff0003ffff, 0x0, 0x0, 0x0⟩], 0x0⟩,
  ⟨(aHpPldef 0), 16, 0x1000, 1, 0x8, [⟨0x0, 0xffffffffffffffff, 0x0, 0x0, 0x0, 0x0⟩], 0x0⟩,
  ⟨(aHpAgirq 0), 16, 0x1000, 1, 0x8, [⟨0x0, 0xffffffffff3fff, 0x0, 0x0, 0x0, 0x0⟩], 0x0⟩,
  ⟨(aHpMbar 0), 16, 0x1000, 1, 0x8, [⟨0x0, 0x0, 0xffffffff80001, 0x0, 0x0, 0x0⟩], 0x0⟩,
  ⟨(aHpCfga 0), 16, 0x1000, 1, 0x8, [⟨0x3c000000, 0x1ffffff, 0x0, 0x2000000, 0x0, 0x0⟩], 0x0⟩,
  ⟨(aHpCfgd 0), 16, 0x1000, 1, 0x8, [⟨0x0, 0xffffffff, 0x0, 0x0, 0x0, 0x0⟩], 0x0⟩,
  ⟨(aHpCnt 0 0), 16, 0x1000, 8, 0x8, [⟨0x0, 0x0, 0x0, 0x0, 0x0, 0xffffffffffff⟩], 0x0⟩,
  ⟨(aHpPlt 0 0), 16, 0x1000, 256, 0x8, [⟨0x0, 0xffffffffffffffff, 0x0, 0x0, 0x0, 0x0⟩], 0x0⟩,
  ⟨(aHpWin 0 0), 16, 0x1000, 256, 0x10, [⟨0x0, 0x0, 0x3fffff3f1f, 0x0, 0x0, 0x0⟩, ⟨0x0, 0x0, 0x3fffffff, 0x0, 0x0, 0x0⟩], 0x0⟩]

/-- The registers of block DP. -/
def famsDp : List Fam := [
  ⟨(aDpIset 0), 16, 0x10, 1, 0x10, [⟨0x0, 0x0, 0x1fff0fff3fff, 0x0, 0x0, 0x0⟩, ⟨0x0, 0x0, 0x3fffff, 0x0, 0x0, 0x0⟩], 0x0⟩,
  ⟨(aDpCtl 0), 8, 0x100, 1, 0x8, [⟨0x0, 0x3, 0xffc, 0x0, 0x0, 0x0⟩], 0x191⟩,
  ⟨(aDpStat 0), 8, 0x100, 1, 0x8, [⟨0x3ff, 0x0, 0x0, 0x0, 0xffff000000000400, 0x0⟩], 0x0⟩,
  ⟨(aDpCap 0), 8, 0x100, 1, 0x8, [⟨0xfffffffffffff, 0x0, 0x0, 0x0, 0x0, 0x0⟩], 0x0⟩,
  ⟨(aDpEbnd 0), 8, 0x100, 1, 0x8, [⟨0x0, 0x0, 0xffff, 0x0, 0x0, 0x0⟩], 0x0⟩,
  ⟨(aDpDsc 0), 8, 0x100, 1, 0x8, [⟨0x1ffffffff, 0x0, 0x0, 0x0, 0x0, 0x0⟩], 0x0⟩,
  ⟨(aDpCnt 0 0), 8, 0x100, 8, 0x8, [⟨0x0, 0x0, 0x0, 0x0, 0x0, 0xffffffffffff⟩], 0x0⟩]

/-- The registers of block IP. -/
def famsIp : List Fam := [
  ⟨(aIpCtl 0), 12, 0x1000, 1, 0x8, [⟨0x0, 0xfff3, 0x0, 0x4, 0x0, 0x0⟩], 0x8101⟩,
  ⟨(aIpStat 0), 12, 0x1000, 1, 0x8, [⟨0x3f, 0x0, 0x0, 0x0, 0xffff000000000040, 0x0⟩], 0x0⟩,
  ⟨(aIpPeer 0), 12, 0x1000, 1, 0x8, [⟨0x1ffff, 0x0, 0x0, 0x0, 0x0, 0x0⟩], 0x0⟩,
  ⟨(aIpPser 0), 12, 0x1000, 1, 0x8, [⟨0xffffffffffffffff, 0x0, 0x0, 0x0, 0x0, 0x0⟩], 0x0⟩,
  ⟨(aIpCnt 0 0), 12, 0x1000, 8, 0x8, [⟨0x0, 0x0, 0x0, 0x0, 0x0, 0xffffffffffff⟩], 0x0⟩]

/-- The registers of block FB. -/
def famsFb : List Fam := [
  ⟨aFbStat, 1, 0x8, 1, 0x8, [⟨0xffff, 0x0, 0x0, 0x0, 0x0, 0x0⟩], 0x0⟩,
  ⟨aFbHubid, 1, 0x8, 1, 0x8, [⟨0xff7000, 0x0, 0xfff, 0x0, 0x0, 0x0⟩], 0x0⟩,
  ⟨aFbSerial, 1, 0x8, 1, 0x8, [⟨0xffffffffffffffff, 0x0, 0x0, 0x0, 0x0, 0x0⟩], 0x0⟩,
  ⟨aFbRoot, 1, 0x8, 1, 0x8, [⟨0x0, 0x0, 0x1fffff, 0x0, 0x0, 0x0⟩], 0xff⟩,
  ⟨aFbRseq, 1, 0x8, 1, 0x8, [⟨0xffffffff, 0x0, 0x0, 0x0, 0x0, 0x0⟩], 0x0⟩,
  ⟨aFbBuddy, 1, 0x8, 1, 0x8, [⟨0x7fff, 0x0, 0x0, 0x0, 0x0, 0x0⟩], 0x0⟩,
  ⟨aFbPortgrp, 1, 0x8, 1, 0x8, [⟨0x0, 0x0, 0xfffffffff, 0x0, 0x0, 0x0⟩], 0x0⟩,
  ⟨(aFbCache 0), 64, 0x8, 1, 0x8, [⟨0x0, 0x0, 0xffffffffffffffff, 0x0, 0x0, 0x0⟩], 0x0⟩,
  ⟨(aFbMir 0), 8, 0x10, 1, 0x10, [⟨0xe, 0x0, 0x1fff0fff0001, 0x0, 0x0, 0x0⟩, ⟨0x0, 0x0, 0x3ffff0fff, 0x0, 0x0, 0x0⟩], 0x0⟩,
  ⟨(aFbPmir 0), 8, 0x10, 1, 0x10, [⟨0xffffffffffffffff, 0x0, 0x0, 0x0, 0x0, 0x0⟩, ⟨0xffffffffffffffff, 0x0, 0x0, 0x0, 0x0, 0x0⟩], 0x0⟩,
  ⟨(aFbTko 0), 64, 0x40, 1, 0x40, [⟨0x1fffffff, 0x0, 0x0, 0x0, 0x0, 0x0⟩, ⟨0xffffffffffffffff, 0x0, 0x0, 0x0, 0x0, 0x0⟩, ⟨0xffffffffffffffff, 0x0, 0x0, 0x0, 0x0, 0x0⟩, ⟨0xffffffffffffffff, 0x0, 0x0, 0x0, 0x0, 0x0⟩, ⟨0xffffffffffffffff, 0x0, 0x0, 0x0, 0x0, 0x0⟩, ⟨0x0, 0x0, 0x0, 0x0, 0x0, 0x0⟩, ⟨0x0, 0x0, 0x0, 0x0, 0x0, 0x0⟩, ⟨0x0, 0x0, 0x0, 0x0, 0x0, 0x0⟩], 0x0⟩,
  ⟨(aFbInc 0), 1024, 0x8, 1, 0x8, [⟨0xffffffffffffffff, 0x0, 0x0, 0x0, 0x0, 0x0⟩], 0x0⟩,
  ⟨(aFbRt 0), 4096, 0x8, 1, 0x8, [⟨0x0, 0xffffffffffffffff, 0x0, 0x0, 0x0, 0x0⟩], 0x0⟩]

/-- The registers of block PM. -/
def famsPm : List Fam := [
  ⟨aPmCtl, 1, 0x8, 1, 0x8, [⟨0x0, 0xfff1, 0x2, 0x0, 0x0, 0x0⟩], 0x641⟩,
  ⟨aPmStat, 1, 0x8, 1, 0x8, [⟨0x1f, 0x0, 0x0, 0x0, 0xffff000000000060, 0x0⟩], 0x0⟩,
  ⟨aPmLastc, 1, 0x8, 1, 0x8, [⟨0x3f, 0x0, 0x0, 0x0, 0x0, 0x0⟩], 0x0⟩,
  ⟨aPmLoad, 1, 0x8, 1, 0x8, [⟨0x1ff, 0x0, 0x0, 0x0, 0x0, 0x0⟩], 0x0⟩,
  ⟨(aPmRail 0), 5, 0x8, 1, 0x8, [⟨0xffffffff0000, 0x1f0f, 0x0, 0x0, 0x0, 0x0⟩], 0x1008⟩,
  ⟨(aPmTemp 0), 2, 0x8, 1, 0x8, [⟨0xffffffffffffffff, 0x0, 0x0, 0x0, 0x0, 0x0⟩], 0x0⟩,
  ⟨aPmTherm, 1, 0x8, 1, 0x8, [⟨0x0, 0xf0000ff, 0xffff00, 0x0, 0x0, 0x0⟩], 0x367645f⟩,
  ⟨aPmLpctl, 1, 0x8, 1, 0x8, [⟨0x0, 0xff, 0x0, 0x0, 0x0, 0x0⟩], 0xa⟩,
  ⟨aPmDorm, 1, 0x8, 1, 0x8, [⟨0xf0000, 0xffff, 0x0, 0x0, 0x0, 0x0⟩], 0x640⟩,
  ⟨aPmDrain, 1, 0x8, 1, 0x8, [⟨0xffffffff7f, 0x0, 0x0, 0x0, 0xffff000000000080, 0x0⟩], 0x0⟩,
  ⟨(aPmCnt 0), 8, 0x8, 1, 0x8, [⟨0x0, 0x0, 0x0, 0x0, 0x0, 0xffffffffffff⟩], 0x0⟩,
  ⟨(aPmCal 0), 56, 0x8, 1, 0x8, [⟨0xffffffff03ffffff, 0x0, 0x0, 0x0, 0x0, 0x0⟩], 0x0⟩]

/-- The registers of block MB. -/
def famsMb : List Fam := [
  ⟨(aMbCap 0), 16, 0x1000, 1, 0x8, [⟨0x1f, 0x0, 0x0, 0x0, 0x0, 0x0⟩], 0xb⟩,
  ⟨(aMbCtl 0), 16, 0x1000, 1, 0x8, [⟨0x2, 0xfffffc, 0x0, 0x1, 0x0, 0x0⟩], 0x0⟩,
  ⟨(aMbCmd 0), 16, 0x1000, 1, 0x8, [⟨0x0, 0xffff001fffffffff, 0x0, 0x0, 0x0, 0x0⟩], 0x0⟩,
  ⟨(aMbSts 0), 16, 0x1000, 1, 0x8, [⟨0x1fffffffffffff, 0x0, 0x0, 0x0, 0x0, 0x0⟩], 0x0⟩,
  ⟨(aMbBgst 0), 16, 0x1000, 1, 0x8, [⟨0xffff7fffff, 0x0, 0x0, 0x0, 0xffff000000800000, 0x0⟩], 0x0⟩,
  ⟨(aMbAuth 0), 16, 0x1000, 1, 0x8, [⟨0x0, 0x0, 0xff, 0x0, 0x0, 0x0⟩], 0x0⟩,
  ⟨(aMbPay 0 0), 16, 0x1000, 256, 0x8, [⟨0x0, 0xffffffffffffffff, 0x0, 0x0, 0x0, 0x0⟩], 0x0⟩,
  ⟨aMbAuthi3c, 1, 0x8, 1, 0x8, [⟨0x0, 0x0, 0xff, 0x0, 0x0, 0x0⟩], 0xff⟩,
  ⟨aMbAuthfab, 1, 0x8, 1, 0x8, [⟨0x0, 0x0, 0xff, 0x0, 0x0, 0x0⟩], 0xff⟩,
  ⟨aMbFmsrc, 1, 0x8, 1, 0x8, [⟨0x0, 0x0, 0x1fff, 0x0, 0x0, 0x0⟩], 0x1000⟩]

/-- The registers of block EV. -/
def famsEv : List Fam := [
  ⟨(aEvRt 0), 288, 0x8, 1, 0x8, [⟨0x0, 0xfff7ffffffff, 0x0, 0x0, 0x0, 0x0⟩], 0x0⟩,
  ⟨(aEvStat 0), 6, 0x8, 1, 0x8, [⟨0x0, 0x0, 0x0, 0x0, 0xffffffffffffffff, 0x0⟩], 0x0⟩,
  ⟨aEvTest, 1, 0x8, 1, 0x8, [⟨0x0, 0x0, 0x0, 0x3ff, 0x0, 0x0⟩], 0x0⟩]

/-- The registers of block EQ. -/
def famsEq : List Fam := [
  ⟨(aEqCtl 0), 8192, 0x40, 1, 0x8, [⟨0x0, 0x7ffd, 0x0, 0x2, 0x0, 0x0⟩], 0x0⟩,
  ⟨(aEqStat 0), 8192, 0x40, 1, 0x8, [⟨0xffffffff, 0x0, 0x0, 0x0, 0xffff000f00000000, 0x0⟩], 0x0⟩,
  ⟨(aEqAcc 0), 8192, 0x40, 1, 0x8, [⟨0x0, 0xffffffff, 0x0, 0x0, 0x0, 0x0⟩], 0x1⟩,
  ⟨(aEqDrop 0), 8192, 0x40, 1, 0x8, [⟨0xffffffff, 0x0, 0x0, 0x0, 0x0, 0x0⟩], 0x0⟩]

/-- The registers of block PC. -/
def famsPc : List Fam := [
  ⟨(aPcImg 0), 2560, 0x8, 1, 0x8, [⟨0x1ffffffffffff, 0x0, 0x0, 0x0, 0x0, 0x0⟩], 0x0⟩,
  ⟨aPcImgft, 1, 0x8, 1, 0x8, [⟨0xffffffffffffffff, 0x0, 0x0, 0x0, 0x0, 0x0⟩], 0x0⟩,
  ⟨aPcWrapclr, 1, 0x8, 1, 0x8, [⟨0x0, 0x0, 0x0, 0x3fff, 0x0, 0x0⟩], 0x0⟩,
  ⟨aPcSmpctl, 1, 0x8, 1, 0x8, [⟨0x0, 0x7ffffffffff, 0x0, 0x0, 0x0, 0x0⟩], 0x7fffff80020⟩,
  ⟨(aPcCmap 0), 2560, 0x8, 1, 0x8, [⟨0x1ffffff, 0x0, 0x0, 0x0, 0x0, 0x0⟩], 0x0⟩,
  ⟨(aPcSlc 0 0), 32, 0x100, 32, 0x8, [⟨0x0, 0x0, 0x0, 0x0, 0x0, 0xffffffffffff⟩], 0x0⟩]

/-- The block of a window offset (Table 12.1), by number; none for the reserved range, the pop pages, the aperture and the doorbells. -/
def blockOf (a : Nat) : Option Nat :=
  if a < 0x10000 then some 0 else
  if a < 0x20000 then some 1 else
  if a < 0x40000 then some 2 else
  if a < 0x60000 then some 3 else
  if a < 0x80000 then some 4 else
  if a < 0xa0000 then some 5 else
  if a < 0xc0000 then some 6 else
  if a < 0xe0000 then some 7 else
  if a < 0x100000 then some 8 else
  if a < 0x120000 then some 9 else
  if a < 0x140000 then some 10 else
  if a < 0x160000 then some 11 else
  if a < 0x180000 then some 12 else
  if a < 0x1a0000 then some 13 else
  if a < 0x1c0000 then some 14 else
  if a < 0x200000 then some 15 else
  if a < 0x280000 then some 16 else
  if a < 0x300000 then none else
  if a < 0x400000 then some 17 else none

/-- The register rows of a block, by its number. -/
def famsOf (b : Nat) : List Fam :=
  match b with
  | 0 => famsGl
  | 1 => famsTb
  | 2 => famsSb
  | 3 => famsDr
  | 4 => famsHf
  | 5 => famsHc
  | 6 => famsLd
  | 7 => famsEc
  | 8 => famsSl
  | 9 => famsHp
  | 10 => famsDp
  | 11 => famsIp
  | 12 => famsFb
  | 13 => famsPm
  | 14 => famsMb
  | 15 => famsEv
  | 16 => famsEq
  | 17 => famsPc
  | _ => []

/-- The row of the register word at the 8-byte aligned offset `a`, and which word of the register it is. -/
def famAt : List Fam → Nat → Option (Fam × Nat)
  | [], _ => none
  | f :: t, a =>
    let d := a - f.base
    let j := d % f.s1
    let w := (j % f.s2) / 8
    if f.base ≤ a ∧ d / f.s1 < f.n1 ∧ j / f.s2 < f.n2 ∧ w < f.acc.length then some (f, w) else famAt t a

/-- The register word at `a`, if a chapter maps one there (else a reserved register, R468). -/
def regAt (a : Nat) : Option (Fam × Nat) :=
  (blockOf a).bind fun b => famAt (famsOf b) a

/-- The access codes of the word at `a`: all bits reserved where no chapter maps it. -/
def accAt (a : Nat) : Acc :=
  match regAt a with
  | some (f, w) => f.acc.getD w {}
  | none => {}

end Sys2Proof.Machine
end

