-- ==== Sys2Proof/Machine/Bits.lean ====
section
/-! DEFINITION. Bit fields of register words, and sparse tables: sorted lists of (key, value) in which a key that is
not listed holds the table's default. -/

namespace Sys2Proof.Machine

/-- The `n`-bit field of `w` whose lowest bit is `lo`. -/
def fld (w : Word) (lo n : Nat) : Nat := (w.toNat >>> lo) % 2 ^ n

/-- Bit `i` of `w`. -/
def bit (w : Word) (i : Nat) : Bool := w.toNat.testBit i

/-- `w` with its `n`-bit field at `lo` set to `v`. -/
def setFld (w : Word) (lo n v : Nat) : Word :=
  BitVec.ofNat 64 (w.toNat - fld w lo n * 2 ^ lo + (v % 2 ^ n) * 2 ^ lo)

/-- `w` with bit `i` set to `b`. -/
def setBit (w : Word) (i : Nat) (b : Bool) : Word := setFld w i 1 b.toNat

/-- A field of a number. -/
def nfld (w lo n : Nat) : Nat := (w >>> lo) % 2 ^ n

/-- A value that saturates at `m`. -/
def satTo (m v : Nat) : Nat := if v < m then v else m

/-- A register word from (low bit, width, value) triples. -/
def mkWord (l : List (Nat × Nat × Nat)) : Word :=
  l.foldl (fun w f => setFld w f.1 f.2.1 f.2.2) 0

/-- A sparse table: keys strictly rising; what a key that is not listed holds is given where the table is read. -/
abbrev SMap (α : Type) := List (Nat × α)

/-- What key `k` holds, if it is listed. -/
def mget {α : Type} : SMap α → Nat → Option α
  | [], _ => none
  | (k', v) :: t, k => if k' = k then some v else mget t k

/-- What key `k` holds, `d` where it is not listed. -/
def mgetD {α : Type} (d : α) (m : SMap α) (k : Nat) : α := (mget m k).getD d

/-- The table without key `k`. -/
def mdel {α : Type} : SMap α → Nat → SMap α
  | [], _ => []
  | (k', v) :: t, k => if k' = k then mdel t k else (k', v) :: mdel t k

/-- The table with `v` listed at key `k`. -/
def mset {α : Type} : SMap α → Nat → α → SMap α
  | [], k, v => [(k, v)]
  | (k', v') :: t, k, v =>
    if k < k' then (k, v) :: (k', v') :: t
    else if k' = k then (k, v) :: t
    else (k', v') :: mset t k v

/-- The table with key `k` holding `v`, where `d` is what `k` holds when it is not listed: no entry equals its default. -/
def mput {α : Type} [DecidableEq α] (d : α) (m : SMap α) (k : Nat) (v : α) : SMap α :=
  if v = d then mdel m k else mset m k v

/-- The table with key `k` changed by `f`. -/
def mupd {α : Type} [DecidableEq α] (d : α) (m : SMap α) (k : Nat) (f : α → α) : SMap α :=
  mput d m k (f (mgetD d m k))

/-- The canonical form of a table: its keys rise strictly. -/
def mwf {α : Type} : SMap α → Bool
  | [] => true
  | [_] => true
  | (k, _) :: (k', v') :: t => decide (k < k') && mwf ((k', v') :: t)

/-- The table holds no entry equal to the default of its key. -/
def mcanon {α : Type} [DecidableEq α] (d : Nat → α) (m : SMap α) : Bool :=
  mwf m && m.all fun e => decide (e.2 ≠ d e.1)

/-- The lowest number from `k` on, at most `fuel` further, that the test refuses to call taken. -/
def firstFree (taken : Nat → Bool) : Nat → Nat → Option Nat
  | 0, _ => none
  | fuel + 1, k => if taken k then firstFree taken fuel (k + 1) else some k

/-- The first entry of a list that passes the test, and the list without it. -/
def takeFirst {α : Type} (p : α → Bool) : List α → Option (α × List α)
  | [] => none
  | a :: t => if p a then some (a, t) else (takeFirst p t).map fun r => (r.1, a :: r.2)

/-- A list with its first entry that passes the test changed by `f`. -/
def updFirst {α : Type} (p : α → Bool) (f : α → α) : List α → List α
  | [] => []
  | a :: t => if p a then f a :: t else a :: updFirst p f t

/-- The one-hot sum of the numbers in a list of bit numbers. -/
def bitsOf (l : List Nat) : Nat := l.foldl (fun m i => m ||| 2 ^ i) 0

/-- How many of the low `n` bits of `m` are set. -/
def popcount : Nat → Nat → Nat
  | 0, _ => 0
  | n + 1, m => (if m.testBit n then 1 else 0) + popcount n m

/-- The set bits of `m` below `n`, in rising order. -/
def setBits (n m : Nat) : List Nat := (List.range n).filter fun i => m.testBit i

end Sys2Proof.Machine
end

