-- ==== Sys2Proof/Machine/Groups.lean ====
section
/-! DEFINITION. The groups of the block's state: the parts of State, one structure for each unit of the spec, and the
data that passes between them. All of it is plain data. A table entry that is not listed holds its zero value. -/

namespace Sys2Proof.Machine

/-- The package variants of Table 00.1. -/
inductive Variant where
  | h1 | c1
  deriving DecidableEq, Repr

/-- The standing of a hub (Table 03.1). -/
inductive St where
  | i | s | f | e | m
  deriving DecidableEq, Repr

/-- Directory states (Table 03.3). -/
inductive DSt where
  | u | p | a | x | l
  deriving DecidableEq, Repr

/-- A placement of an I/O agent's request (R167). -/
inductive Place where
  | noalloc | alloc | stash (h : HubId)
  deriving DecidableEq, Repr

/-- An atomic operation as its operands give it (Table 04.12): `op` and `size` as coded, byte offset in the line. -/
structure Atom where
  op : BitVec 4
  size : BitVec 2
  cellar : Bool
  off : BitVec 6
  a : BitVec 128
  b : BitVec 128
  deriving DecidableEq, Repr

/-- What a demand asks of the hub (Table 03.8; R184); `evict` is `MemClnEvct`. -/
inductive DKind where
  | rdS | rdData | rdX | inv | cur | spec | write | atom (a : Atom) | prefetch | evict
  deriving DecidableEq, Repr

/-- Who sent a demand: a host, an I/O agent, an aperture slot, or the hub itself. -/
inductive DSrc where
  | host | agent | slot (n : Nat) | hub
  deriving DecidableEq, Repr

/-- A demand on the hub cache (R184): a request accepted at a port, with the line it reaches, its class, the epoch it was
charged to, its Larder cells, for a write its data and the mode it met at ingress (R196), whether it has been counted as a hit or a
miss, the number of its acceptance (R274), the FT of its acceptance (R533), and the Key Range Table entry (word 0) that its own line stood under at
its home decision (R51). -/
structure Demand where
  src : DSrc
  port : Nat
  tag : BitVec 16
  hpa : Hpa
  line : LineAddr
  kind : DKind
  w : Option HostWr
  na : Bool
  place : Place
  tc : Nat
  epoch : Nat
  cells : List Nat
  counted : Bool
  id : Nat
  acc : Word := 0
  ent : Option Word := none
  deriving DecidableEq, Repr

/-- What the hub sends a host or an agent. -/
inductive HostAns where
  | memData (tag : BitVec 16) (d : Data)
  | cmp (tag : BitVec 16)
  | cmpS (tag : BitVec 16)
  | cmpE (tag : BitVec 16)
  | biSnpCur (hpa : Hpa)
  | biSnpData (hpa : Hpa)
  | biSnpInv (hpa : Hpa)
  | biConflictAck (tag : BitVec 16)
  | cplData (tag : BitVec 16) (line : LineAddr) (d : Data)
  | cplOld (tag : BitVec 16) (old : BitVec 128) (poisoned : Bool)
  | cplUr (tag : BitVec 16)
  deriving DecidableEq, Repr

/-- What the hub sends an expander, each at a device address (R65 to R67): reads and writes of line `k` of seal granule `g`, of the granule's 8-byte
MAC and its Strong check parts (4 bytes), and of metadata blocks (level 0 a counter block, 1 to 11 a tree node). Writes of less than 64 bytes are
partial ones (R390). `gpf` is Phase 1 or 2 of a Global Persistent Flush (R294). -/
inductive CellCmd where
  | rdLine (dpa g k : Nat)
  | rdMac (dpa g : Nat)
  | rdPart (dpa g k : Nat)
  | rdMeta (dpa level index : Nat)
  | wrLine (dpa g k : Nat) (bits : LineBits) (poisoned : Bool)
  | wrMac (dpa g : Nat) (mac : Word) (poisoned : Bool := false)
  | wrPart (dpa g k : Nat) (part : BitVec 32) (poisoned : Bool := false)
  | wrMeta (dpa level index : Nat) (bits : LineBits) (poisoned : Bool := false)
  | gpf (phase : Nat)
  deriving DecidableEq, Repr

/-- A command without the contents that it writes. -/
def CellCmd.place : CellCmd → CellCmd
  | .wrLine a g k _ _ => .wrLine a g k 0 false
  | .wrMac a g _ _ => .wrMac a g 0
  | .wrPart a g k _ _ => .wrPart a g k 0
  | .wrMeta a l i _ _ => .wrMeta a l i 0
  | c => c

/-- A read of granule `g`, or of a block on its path (R433). -/
def CellCmd.reads (g : Nat) : CellCmd → Bool
  | .rdLine _ h _ | .rdMac _ h | .rdPart _ h _ => h = g
  | .rdMeta _ l i => i = g / 64 / 8 ^ l
  | _ => false

/-- A write of granule `g`, or of a block on its path. -/
def CellCmd.writes (g : Nat) : CellCmd → Bool
  | .wrLine _ h _ _ _ | .wrMac _ h _ _ | .wrPart _ h _ _ _ => h = g
  | .wrMeta _ l i _ _ => i = g / 64 / 8 ^ l
  | _ => false

/-- What waits at a Board for a grant. -/
inductive Item where
  | host (a : HostAns)
  | msg (m : Msg)
  | cell (c : CellCmd)
  deriving DecidableEq, Repr

/-- A transfer that waits at a Board: its requester (input and class), the epoch its request was charged to, the Larder
cells it reads, how often the watchdog has discarded it, for a transfer to a host its line (R140), and for the background engine's the number of the
task that it works for (Table 06.7), and for a message in transit the DL with which it came (R315). -/
structure Waiter where
  input : Nat
  tc : Nat
  epoch : Nat
  item : Item
  cells : List Nat
  bites : Nat
  line : LineAddr := 0
  task : Nat := 0
  dl0 : Bool := false
  deriving DecidableEq, Repr

/-- What the block has sent: transfers granted by a Board, the sealed data flits in which messages leave on Idior (R460), and what leaves without a
Board. -/
inductive Sent where
  | xfer (board : Nat) (item : Item)
  | flit (p head : Nat) (slots : List (BitVec 128)) (tag : BitVec 64)
  | beacon (p ack : Nat) (b : Beacon)
  | control (p : Nat) (ack cvc ccnt : Nat) (csh : Bool)
  | nak (p : Nat) (ack : Nat)
  | halt (p ack : Nat) (hub : HubId) (cause : Nat)
  | msix (p vec : Nat)
  | cfg (p : Nat) (off : Nat) (wr : Bool) (data : Nat)
  | cfgAns (p : Nat) (retry : Bool) (data : Nat)
  | pop (p q : Nat) (w : Word) (poisoned : Bool)
  | mailbox (mb : Nat) (rc : Nat) (out : List Word)
  | spdm (mb : Nat) (session : Bool)
  | gpfDone (p : Nat)
  deriving DecidableEq, Repr

/-! ### The part, its flash and its pins -/

/-- The state of power and reset (R541, R553, R554): held in cold reset; released and booting; waiting for an image; ready;
flushing before a warm or hub reset; resetting until ready again. -/
inductive Phase where
  | held | cold | noImage | ready | flush (hub : Bool) | resetting (hub : Bool)
  deriving DecidableEq, Repr

/-- The part and its pins. -/
structure Part where
  variant : Variant
  profile : Bool
  straps : Straps
  latched : Straps
  serial : Word
  phase : Phase
  porstN : Bool
  perstN : Bool
  pwrWarnN : Bool
  thermtripN : Bool
  deriving DecidableEq, Repr

/-- A firmware slot that verifies: version and SVN. -/
structure Image where
  version : BitVec 16
  svn : BitVec 8
  deriving DecidableEq, Repr

/-- A root record (R447): root counters, major source and tree key. -/
structure RootRec where
  roots : List Word
  major : Word
  tree : BitVec 256
  deriving DecidableEq, Repr

/-- The boot flash and the fuses: firmware slots, the active one, an activation pending at the next cold reset, MINSV, boot count, the last
checkpointed NUM, root record, persisted keys and generations by slot, Lumber list (Table 10.8), moved pages by LA[47:12] (set, spare page)
with the serials recorded for each set, calibration records, shutdown state, dirty shutdown count and the counts read from expanders. -/
structure Flash where
  slotA : Option Image
  slotB : Option Image
  actB : Bool
  pend : Bool
  minsv : Nat
  boots : Nat
  chkNum : Option Nat
  rootRec : Option RootRec
  keys : SMap (BitVec 256)
  slots : SMap Word
  lumber : List (Word × Word)
  pages : SMap (Nat × Nat)
  serials : SMap Word
  cal : SMap Word
  dirty : Bool
  dsc : Nat
  expDsc : SMap Nat
  deriving DecidableEq, Repr

/-! ### Time -/

/-- What an event scheduled under R227 does. -/
inductive SchedAct where
  | snapshot
  | board (writes : List (Nat × Nat × Word)) (origin : Nat)
  deriving DecidableEq, Repr

/-- What a port's last beacon told of the grandmaster and of time. -/
structure BeaconInfo where
  gm : Bool
  hops : Nat
  txt : Word
  rxt : Word
  deriving DecidableEq, Repr

/-- Fabric time and its discipline (R221 to R227): when it was last slewed, when a TIME_PPS edge was last accepted, and whether the next count is
omitted (R221). The time state stands in TB_STAT. -/
structure Time where
  ft : Word
  good : Nat
  lastSlew : Option Word
  lastPps : Option Word
  lost : Bool
  links : SMap BeaconInfo
  lastTx : SMap Word
  sched : List (Word × SchedAct)
  omit_ : Bool
  deriving DecidableEq, Repr

/-! ### Events, queues and counters -/

/-- One complete record of an event queue. -/
structure QRec where
  level : Nat
  tally : Bool
  words : List Word
  deriving DecidableEq, Repr

/-- One event queue (R516 to R524): the filling and the draining bank with their gap markers, the record being read with its
owner, the pops that wait (the port, and whether its word will pass the parity check of R522), the FLUSHED word owed, EQ_STAT and EQ_DROP. -/
structure Queue where
  fill : List QRec := []
  fillGap : Option (Nat × Nat) := none
  drain : List QRec := []
  drainGap : Option (Nat × Nat) := none
  cur : Option (Nat × List Word) := none
  waiting : List (Nat × Bool) := []
  flushed : Bool := false
  stat : Word := 0
  drop : Nat := 0
  deriving DecidableEq, Repr

/-- An access of a port to the management window that is held behind a waiting pop of the port (R527): bytes written at an offset, or a pop. -/
inductive WinAcc where
  | bytes (a size v : Nat)
  | pop (q : Nat) (ok : Bool)
  deriving DecidableEq, Repr

/-- A record of a CXL event log: handle and words 0 to 3. -/
structure LogRec where
  handle : Nat
  words : List Word
  deriving DecidableEq, Repr

/-- The event side of the block: EV_STAT, the event queues, MSI-X and the CXL event logs (R509 to R524). -/
structure Rec where
  evStat : SMap Word
  queues : SMap Queue
  eqUsed : Nat
  msixMask : SMap Nat
  msixPend : SMap Nat
  msixLast : SMap Nat
  msixOwed : List Nat
  logs : SMap (List LogRec)
  logNext : SMap Nat
  logOvf : List Nat
  behind : List (Nat × WinAcc)
  deriving DecidableEq, Repr

/-- A Tally record (Table 12.11). -/
structure TlyRec where
  ft : Word
  num : Nat
  orig : Nat
  kind : Nat
  res : Nat
  boot : Nat
  target : Word
  old : Word
  new : Word
  aux : Word
  w6 : Word
  mac : Word
  deriving DecidableEq, Repr

/-- The Tally (R497 to R504). -/
structure Tly where
  store : SMap TlyRec
  next : Nat
  exported : Nat
  lost : List (Nat × Word)
  lastMac : Word
  lossStat : Word
  ref : Nat
  sinceChk : Nat
  chkFirst : Nat
  deriving DecidableEq, Repr

/-- A sampled request (R532): the demand, and what it met at its home decision. -/
structure Sample where
  d : Demand
  hit : Bool
  keep : Bool
  rcl : Bool
  ahead : Nat
  deriving DecidableEq, Repr

/-- The counters (R481, R529 to R533), keyed by window offset / 8: live values, holding registers, WRAP bits (by counter index),
the gathered image, the sampling countdowns and the samples under way. -/
structure Cnt where
  live : SMap Nat
  hold : SMap Nat
  wrap : List Nat
  image : SMap Word
  count : SMap Nat
  samples : List Sample
  deriving DecidableEq, Repr

/-! ### Larder and Boards -/

/-- A Larder cell in use: how many readers are still to come, the share it was taken from and the class it is charged to. -/
structure Cell where
  readers : Nat
  share : Nat
  tc : Nat
  deriving DecidableEq, Repr

/-- The Larder (R25 to R35) and the requests held at ingress (R22, R249). `used` counts cells by share: 0 protocol reserve,
1 background reserve, 2 shared pool, 4 + c timed quota of TCc; 8 + c the shared cells of class c, 16 + c all cells of class c. `work` says, while a
command runs, that a unit of a slice drain or a retirement is being done. -/
structure Lar where
  cells : SMap Cell
  bank : Nat
  used : SMap Nat
  held : List (Instr × Nat × Nat)
  work : Bool
  deriving DecidableEq, Repr

/-- A hold-over tier of a square (R253): the old classes, the epoch of the write and the rounds left. -/
structure Tier where
  board : Nat
  square : Nat
  tm : Nat
  epoch : Nat
  left : Nat
  deriving DecidableEq, Repr

/-- A retrain square that waits for its round (R254). -/
structure Deferred where
  board : Nat
  square : Nat
  entry : Nat
  left : Nat
  deriving DecidableEq, Repr

/-- The Boards (R232 to R257): waiting transfers, the transfer in progress, round-robin pointers (8 × Board + rank), the budget
counts ((4 × Board + class) × 2^16 + epoch), hold-over tiers, deferred squares, burst counts, watchdog resets, and the old
entries of squares that had passed when they were rewritten in this round (R255); and the budgets of the earlier epochs that still count
(SB_ADM by 2^16 × Board + epoch, R248), where they differ from now. -/
structure Brd where
  wait : SMap (List Waiter)
  run : SMap Waiter
  rr : SMap Nat
  used : SMap Nat
  tiers : List Tier
  deferred : List Deferred
  burst : SMap Nat
  biting : SMap Waiter
  heldOnce : List Nat
  olds : SMap Nat
  adms : SMap Word
  deriving DecidableEq, Repr

/-! ### The hub cache -/

/-- One way of the hub cache. On QD48-H1 a frame record (Table 05.2): `addr` is FADDR and `st` holds the states of the 64 sectors.
On QD48-C1 a line tag (Table 05.4): `addr` is LINE and `st` holds the line's state under 0. `again` says that a line in M was
written again after its write-through was sent (R200); `pf` marks sectors that a prefetch filled and no demand has hit. -/
structure Way where
  addr : Nat := 0
  st : SMap St := []
  rrpv : Nat := 0
  kslot : Nat := 0
  loc : Bool := false
  ret : Bool := false
  wtp : Bool := false
  again : Bool := false
  pf : Nat := 0
  deriving DecidableEq, Repr

/-- An access queued at an HBM controller (R23): a read of a way's line, found clean or not, with the transfers that carry its data
(Board, transfer), with the demand it serves; or a write of a way's line, in part or in full, with the
cells it frees and the class and epoch of the request that made it. -/
inductive HbmOp where
  | read (way : Nat) (line : LineAddr) (clean : Bool) (outs : List (Nat × Waiter)) (d : Option Demand)
  | write (way : Nat) (line : LineAddr) (part : Bool) (cells : List Nat) (cls : Nat × Nat)
  deriving DecidableEq, Repr

/-- A frame or line eviction under way (R204): the way, the region that takes it, and whether its releases have started. -/
structure FrameEv where
  way : Nat
  addr : Nat
  kslot : Nat
  loc : Bool
  rrpv : Nat
  tc : Nat
  epoch : Nat
  started : Bool
  deriving DecidableEq, Repr

/-- An eviction-table entry (R204): a line in MI (`dirty`) or CI, or an own line whose dirty data waits for its cellar write; the cell of its data, and
the class and epoch of its release. -/
structure EvEnt where
  line : LineAddr
  dirty : Bool
  own : Bool
  data : Data
  cells : List Nat
  tc : Nat := 7
  epoch : Nat := 0
  deriving DecidableEq, Repr

/-- Who is owed a completion once a write is persisted, and acknowledged by the buddy where it is guarded (R344, Table 02.6). -/
inductive Who where
  | demand (d : Demand)
  | txn (line : LineAddr)
  | nobody
  deriving DecidableEq, Repr

/-- A merging-buffer entry (R201). -/
structure MbEnt where
  granule : Nat
  data : BitVec 2048
  mask : BitVec 256
  pz : BitVec 32
  draining : Bool
  guarded : Bool
  owed : List Who
  deriving DecidableEq, Repr

/-- A stride tracker (R207). -/
structure Tracker where
  port : Nat
  region : Nat
  l : Nat
  d : Int
  c : Nat
  p : Option Nat
  deriving DecidableEq, Repr

/-- A sequential-store detector (R196). -/
structure Detector where
  a : Nat := 0
  n : Nat := 0
  na : Bool := false
  deriving DecidableEq, Repr

/-- A maintenance operation (R211 to R214): what it does, whether it walks by address, the first line it covers and how many, and how far its walk has
come: the position of the next line, until it is over. -/
structure Maint where
  flush : Bool
  byAddr : Bool
  base : Nat
  count : Nat
  next : Nat := 0
  ended : Bool := false
  deriving DecidableEq, Repr

/-- The hub cache of either variant (05): ways by 16 × set + way, data by 64 × way + sector, frame-tag cache contents by cache set
(most recently used first), fetches under way, dies, detectors, trackers by slice (most recently trained first), queues and tables;
pseudo-channels all of whose frames are retired, ways and a pseudo-channel being retired (R180, R181); and for each operation that waits for a
write-through (0 the maintenance operation, n + 1 fence n) the line and how many of its `Cmp`s are still to come (R200); and hand-overs of trained
streams on their way: port, region and stride (R210). While a way is being evicted
(R204), the record of the frame that takes it, and that frame's data, stand under the way's number + 2^30. -/
structure Hc where
  ways : SMap Way
  data : SMap Data
  tags : SMap (List Nat)
  fetch : List Nat
  dies : SMap Word
  ssd : SMap Detector
  trackers : SMap (List Tracker)
  hbm : SMap (List HbmOp)
  evs : List FrameEv
  evt : List EvEnt
  mbuf : List MbEnt
  maint : Option Maint
  released : List LineAddr
  retPcs : List Nat
  retWant : List Nat
  pcWant : Option Nat
  wtLeft : List (Nat × LineAddr × Nat)
  handOvers : List (Nat × Nat × Int)
  deriving DecidableEq, Repr

/-! ### Directory and host filter -/

/-- A directory entry (Table 03.4). -/
structure DirEnt where
  tag : Nat := 0
  st : DSt := .u
  busy : Bool := false
  keep : Bool := false
  fv : Bool := false
  p0 : HubId := 0
  p1 : HubId := 0
  p2 : HubId := 0
  deriving DecidableEq, Repr

/-- A host-filter entry (Table 03.5). `hst` is I where HSTATE is 0b00. -/
structure HfEnt where
  tag : Nat := 0
  pv : Nat := 0
  hx : Bool := false
  hst : St := .i
  busy : Bool := false
  deriving DecidableEq, Repr

/-! ### The home -/

/-- The answer to a snoop: `AckE`, or `Ack` or `AckD` with its flags. -/
structure SnpAns where
  e : Bool
  fw : Bool
  d : Bool
  g : Bool
  imputed : Bool
  deriving DecidableEq, Repr

/-- A snoop of an open transaction, and the outputs that its attempts have gone on, the latest last (R149). -/
structure SnpOut where
  hub : HubId
  opc : Opc
  tgt : Bool
  g : Bool
  tries : Nat
  ans : Option SnpAns
  ports : List Nat := []
  deriving DecidableEq, Repr

/-- Who a transaction serves: another hub, a demand of this hub, or the home itself (a recall for a directory way, a sweep, a flush). -/
inductive Rq where
  | remote (h : Hdr)
  | own (d : Demand)
  | recall (slice set : Nat)
  | home
  deriving DecidableEq, Repr

/-- A write-back the home consumed (R133). -/
structure WbHeld where
  hub : HubId
  dirty : Bool
  data : Data
  h : Hdr
  deriving DecidableEq, Repr

/-- A transaction of the home transaction table, open or waiting (R119, R122): who asked, with what, what has been snooped and
answered, whether a host step of the home is open, the dirty data gathered, the home data read, what has been done, and the owner that the entry
named when it was decided. `way`: the directory way recalled for it while it waits for one (R143); `turn`: it is its turn to take a way (R142);
`tries` and `ports`: how often its last response has been sent, and on which outputs (R149); `ent`: the Key Range Table entry (word 0) under which its
line stood when it was decided (R51). -/
structure Txn where
  line : LineAddr
  rq : Rq
  opc : Opc
  wr : Data
  mask : BitVec 64
  atom : Option Atom
  tc : Nat
  epoch : Nat
  share : Nat
  htag : Nat
  tsn : Nat
  snps : List SnpOut
  step : Bool
  named : Bool
  dirty : Option Data
  home : Option Data
  asked : Bool
  answered : Bool
  fin : Bool
  wbs : List WbHeld
  last : Option Msg
  cells : List Nat
  probing : Bool
  owner : Option HubId := none
  way : Option Nat := none
  turn : Bool := false
  tries : Nat := 0
  ports : List Nat := []
  ent : Option Word := none
  input : Nat := 53
  deriving DecidableEq, Repr

/-- The home (03, 04): open transactions, waiting requests, requests that found no table entry, transactions that wait for a
directory way (slice, set), serial numbers by slice, lines with an open Keep window with the snoops and host steps that it holds, responses kept for sending again, and snoops that wait for a
frame-tag fetch (R177); each snoop with the cell that its answer may fill. `now` names, while a command runs, the line whose oldest waiting request is
being decided, ahead of those that wait behind it (R120); `entering` says that a request is just passing the slice input (R118). -/
structure Home where
  opened : List Txn
  waiting : List Txn
  input : List Txn
  wayWait : List (Nat × Nat × Txn)
  tsn : SMap Nat
  keep : List LineAddr
  heldSnp : List (Opc × Hdr × List Nat)
  heldStep : List LineAddr
  kept : List (LineAddr × Nat × Nat × Msg)
  tagSnp : List (Opc × Hdr × List Nat)
  now : Option LineAddr
  entering : Bool
  deriving DecidableEq, Repr

/-! ### The requester -/

/-- What a miss register has outstanding (Table 05.6). -/
inductive MrKind where
  | rdS | rdX | rdO | upg | wr | atm | own
  deriving DecidableEq, Repr

/-- A miss register (R185, R186): its line, what it has outstanding, the demands merged on it, the standing it started from, the parts of
the completion it holds, the write or atomic it sent, and its marks (flush-pending, prefetch, gone to IM by a snoop). What waits on it for a way of
the host filter (R94): a standing (`stand`), or a fill with its standing, data and HTAG, and whether it came with data (`late`). `way`: a way of its
line's region is allocated for its fill (R187); `more`: the line was written again after its `WrL` had been sent (R597); `port`: the port whose write its
write-through carries (R283). -/
structure MissReg where
  line : LineAddr
  kind : MrKind
  dst : HubId
  tc : Nat
  epoch : Nat
  share : Nat
  demands : List Demand
  from_ : St
  viaHst : Bool
  gnt : Option Bool
  fwd : Option (Bool × Bool × Data)
  wr : Option HostWr
  owner : Bool
  toIm : Bool
  keepM : Option Data
  pf : Bool
  flush : Bool
  cells : List Nat
  dead : Bool
  fresh : Bool
  stand : Option St := none
  late : Option (St × Data × Nat × Bool) := none
  way : Bool := false
  more : Bool := false
  port : Option Nat := none
  deriving DecidableEq, Repr

/-- Why a demand waits. -/
inductive Why where
  | reg | line | way | tag | mbuf | hf | bi | atomRel | home | dev
  deriving DecidableEq, Repr

/-- A release that waits until its line's miss register frees (R82): its class and epoch, and the dirty data that a host returned for it (R597). -/
structure DueRel where
  line : LineAddr
  tc : Nat
  epoch : Nat
  data : Option Data
  deriving DecidableEq, Repr

/-- The requester's side: miss registers by 128 × slice + number, waiting demands in arrival order, and releases that wait. -/
structure Req where
  mrs : SMap MissReg
  waits : List (Why × Demand)
  due : List DueRel
  deriving DecidableEq, Repr

/-! ### Hosts -/

/-- What follows a host step, once every `BIRsp` is held. -/
inductive Cont where
  | answer (opc : Opc) (h : Hdr) (cells : List Nat)
  | homeTxn
  | redo (d : Demand)
  | release (tc epoch : Nat)
  | clean (op : Nat)
  | keep
  | drop
  deriving DecidableEq, Repr

/-- A back-invalidate snoop in progress: port, kind (0 cur, 1 data, 2 inv), attempts: 0 while it shares the answer to another step's. -/
structure BiSnp where
  port : Nat
  kind : Nat
  tries : Nat
  deriving DecidableEq, Repr

/-- A host step on a line (R104, R109): snoops still unanswered, dirty data returned with the bytes of it that are known, what follows, and the class
and epoch of the request that caused it (R245). -/
structure HostStep where
  line : LineAddr
  snps : List BiSnp
  dirty : Option Data
  known : BitVec 64
  cont : Cont
  tc : Nat
  epoch : Nat
  deriving DecidableEq, Repr

/-- The hosts' side: host steps, dead hosts with how far their re-admission has come, which side has narrowed a port (1 the host, 2 the
hub, 3 both; R561), by port MODE and AGG as its last training took them from HP_CTL[3:1] (R357), and log2 of the lanes it trained to. -/
structure Hst where
  steps : List HostStep
  reclaimed : List Nat
  portReset : List Nat
  refused : List Nat
  narrow : SMap Nat
  setting : SMap Nat
  lanes : SMap Nat
  deriving DecidableEq, Repr

/-! ### Ports, aperture and doorbells -/

/-- A head of a host port (R362, R363, R462, R489): the committed HDM decoder (base, size), the SPDM session, its IDE streams
(0 insecure, 1 keyed, 2 secure) for CXL.mem and CXL.io, what its host last set the shutdown state to (true: clean), its event interrupt
policy, timestamp offset, alert configuration, MSI-X vectors (address, data) and the other configuration dwords written. -/
structure Head where
  decoder : Option (Nat × Nat) := none
  session : Bool := false
  ideMem : Nat := 0
  ideIo : Nat := 0
  clean : Bool := false
  policy : Word := 0
  tsOff : Word := 0
  alertCfg : Word := 0
  vectors : SMap (Word × BitVec 32) := []
  config : SMap Nat := []
  deriving DecidableEq, Repr

/-- A fence under way or done (R280 to R285): its descriptor, the writes it still waits for, the members that have not answered, whether
one was declared dead, and for a persist fence how far it has come, what it still waits for (cellar writes, homes, mirror messages), and the written-homes
vectors that it read (R283). -/
structure Fence where
  slot : Option (Nat × Nat) := none
  src : HubId := 0
  rtag : Nat := 0
  scope : Nat := 0
  persist : Bool := false
  qe : Bool := false
  qn : Nat := 0
  tc : Nat := 0
  lim : Nat := 0
  tag : Nat := 0
  covered : List Nat := []
  members : List HubId := []
  dead : Bool := false
  step : Nat := 0
  cel : List Nat := []
  homes : List HubId := []
  lost : Bool := false
  code : Nat := 0
  mirs : List Nat := []
  vectors : SMap (List HubId) := []
  deriving DecidableEq, Repr

/-- The ports: the number of the next request, the writes not yet complete by number (their port), the requests that passed ingress decode and are held,
with their numbers and the detector mode they met (R196, R274), the agents' requests that
wait for earlier posted writes (demand, relaxed), heads, fences open by number with the next number, what each doorbell slot reads as
(BUSY, DONE, CODE, FTC), written-homes vectors by port, agents refused after an IDE failure,
whether a flush, a takeover or a death has stopped admission, and by the number of a fence that has ended the hubs whose answers are still to come (R278). -/
structure Ports where
  nextId : Nat
  outst : SMap Nat
  decoded : List (Instr × Nat × Bool)
  agentQ : SMap (List (Demand × Bool))
  heads : SMap Head
  fences : SMap Fence
  nextFence : Nat
  bells : SMap (Bool × Bool × Nat × Word)
  written : SMap (List HubId)
  agentOff : List Nat
  closed : Bool
  stale : SMap (List HubId)
  deriving DecidableEq, Repr


/-- An aperture slot (R164, R165): the descriptor's fields and the read layout. `waiting` says the atomic has not been sent (R166). -/
structure Slot where
  busy : Bool
  done : Bool
  code : Nat
  cmpeq : Bool
  old : BitVec 128
  waiting : Bool
  hpa : Hpa
  line : LineAddr
  tc : Nat
  id : Nat
  atom : Atom
  qe : Bool
  qn : Nat
  tag : Nat
  deriving DecidableEq, Repr

/-! ### The cellar path -/

/-- What waits for a cellar read: a home transaction, a miss register of an own line, or a unit of background work. -/
inductive CelTo where
  | txn (line : LineAddr)
  | mr (line : LineAddr)
  | mirror (n : Nat)
  | scrub
  | move
  | page
  | sweep
  | nobody
  deriving DecidableEq, Repr

/-- An access queued in the cellar path (R195): a read of a line, or a write of the bytes of `mask`; in arrival order for each granule.
A write stays until its completion makes it persisted (R282). `issued` says that commands of it have left, `written` that its granule has
been written, `covered` that its counter block has been written since. `key` is the slot and generation that the line's Key Range Table entry named when
it was decided (R51), `cells` the Larder cells of its data, and of the granule read for it (R20, R25), `drain` that a merging-buffer drain queued it (R202). -/
structure CelOp where
  id : Nat
  line : LineAddr
  wr : Option (Data × BitVec 64)
  dest : CelTo
  issued : Bool
  written : Bool
  covered : Bool := false
  key : Nat × Nat := (0, 0)
  cells : List Nat := []
  drain : Bool := false
  cls : Option (Nat × Nat) := none
  deriving DecidableEq, Repr

/-- A completion owed. -/
structure Owed where
  id : Nat
  mseq : Option Nat
  who : Who
  deriving DecidableEq, Repr

/-- A block being re-sealed (R438): the new major counter, slot and generation, the granules still to be sealed again, the slot and generation under
which they stand, and the cells of the background reserve that a rekey sweep's re-seal holds (R29). -/
structure Reseal where
  block : Nat
  major : Nat
  slot : Nat
  gen : Nat
  left : List Nat
  done : List Nat
  old : Nat × Nat := (0, 0)
  cells : List Nat := []
  tc : Nat := 7
  epoch : Nat := 0
  task : Nat := 0
  deriving DecidableEq, Repr

/-- A block of the seal cache: a counter block or a tree node, and whether it is newer than the cellar's copy. -/
structure SealBlk where
  bits : LineBits
  dirty : Bool
  deriving DecidableEq, Repr

/-- The sealing engine (11): data keys by slot, the tree key, the seal cache by level × 2^40 + index with its blocks from the least recently
used on, when each block was last written to the cellar (R436), write-backs that wait for that spacing, and blocks being re-sealed. `idle`: the Key Range Table
entries that have not been written since the hub left the fabric: they serve nothing (R337). `pins`: the blocks that stand in the pin buffer alone (R435);
`struck`: tree nodes that a memory error has struck in the seal cache and whose mirror is to be read (R443). -/
structure Seal where
  keys : SMap (BitVec 256)
  tree : BitVec 256
  cache : SMap SealBlk
  order : List Nat
  wrote : SMap Word
  due : List Nat
  reseals : List Reseal
  idle : List Nat := []
  pins : List Nat := []
  struck : List Nat := []
  deriving DecidableEq, Repr

/-- The cellar path: accesses in order, the number of the next one, completions owed, whether writes of failed ports were discarded, and the commands
that have left and are unanswered, with their port, in order (R376). -/
structure Cel where
  ops : List CelOp
  next : Nat
  owed : List Owed
  lost : Bool
  sent : List (Nat × Waiter)
  deriving DecidableEq, Repr

/-! ### Buddy pairs -/

/-- Mirroring (R343 to R352). As home: the next MSEQ, the messages sent and not acknowledged, how often they have been sent, those that wait
because 4,096 are out. As buddy: the next MSEQ to apply, early arrivals, messages applied and not persisted (with the cellar write, class and epoch), open
copies by entry; and the planned takeover (1 recalling, 2 waiting for MrAck) and the hand-back under way; whether the partner's notice has come and the
wait of R347 runs, and the entries that have been handed back (R352). -/
structure Mir where
  next : Nat
  sent : List (Nat × Msg)
  tries : Nat
  held : List Msg
  expect : Nat
  early : SMap (Msg × List Nat)
  applied : List (Nat × Option Nat × Nat × Nat)
  copies : List Nat
  planned : Nat
  back : Bool
  await : Bool := false
  gave : List Nat := []
  deriving DecidableEq, Repr

/-! ### The Idior fabric -/

/-- What a hub's `DsReport` for one port told the root (Table 08.5). -/
structure DsRep where
  serial : Word
  strap : HubId
  port : Nat
  peer : Word
  peerPort : Nat
  route : Nat
  deriving DecidableEq, Repr

/-- The fabric side of the block: for each hub declared dead, whether its lines' demands still wait for a `TkNote` (1) or no longer (2); what
the beacons of each port tell of the root (root, sequence, hops); the best root key heard and the beacon periods without change;
reclaims of this hub's own not ended; and as root: reports, IDs assigned by serial, joins that wait, and each declared death with its time
and the hubs whose reclaim has not ended. `via`: by hub the port through which its messages to the root come, and those of the root to it go (R325). -/
structure Fab where
  dead : SMap Nat
  roots : SMap (HubId × Nat × Nat)
  best : Nat
  calm : Nat
  reclaims : List HubId
  reports : List DsRep
  given : List (Word × HubId)
  joins : List HubId
  deaths : SMap (Word × List HubId)
  via : SMap Nat := []
  deriving DecidableEq, Repr

/-- A message in a receive buffer: its port, how many of its slots lie in the shared pool, and whether the sender is owed them: not where a training has
set its counts anew since (R305), nor for a message whose output is chosen again. -/
structure RxMsg where
  port : Nat
  shared : Nat
  m : Msg
  owed : Bool := true
  deriving DecidableEq, Repr

/-- An Idior link (R300 to R311): slots of the peer's buffer in use by channel (12: shared), the same of this hub's own buffer, sequence
numbers, messages of data flits sent and not acknowledged, NAKs of one flit, keys, the wire units sent under them, full training under
way within a retrain, the answer of R311 awaited, slots to be returned (pool, slots), a message that has come in part with its slots so far (R303), and by SEQ the input and
the DL with which the messages of the retry buffer came to this hub (R311, R315). -/
structure Link where
  used : SMap Nat := []
  mine : SMap Nat := []
  seq : Nat := 0
  retry : List (Nat × List Msg) := []
  expect : Nat := 0
  sinceAck : Nat := 0
  nakSent : Bool := false
  naks : Nat := 0
  nakAt : Nat := 0
  psk : Option (BitVec 256) := none
  key : Option (BitVec 256) := none
  wires : Nat := 0
  full : Bool := false
  lkWait : Bool := false
  spare : Bool := false
  owe : List (Nat × Nat) := []
  part : Option (Msg × Nat) := none
  orig : SMap (Nat × Bool) := []
  deriving DecidableEq, Repr

/-! ### Background work, protection, power, mailboxes -/

/-- A background task under way (R257): what it is, its next and last unit, an argument of its own, and whether it is paused for want of
cells. -/
structure BgTask where
  kind : BgKind
  next : Nat
  last : Nat
  arg : Nat
  paused : Bool := false
  deriving DecidableEq, Repr

/-- A code word in a repeat tracker (R401): its address, count, and in WATCH the hour at which it expires. -/
structure RepEnt where
  kind : Nat
  addr : Nat
  count : Nat
  watch : Option Nat
  deriving DecidableEq, Repr

/-- Protection of stored data (10): repeat trackers by unit, correct-and-writes scheduled and row and bank copies under way (unit or
kind, address), corrections per pseudo-channel in this hour, the page being moved with the lines moved so far, and the stacks in which
this scrub pass has found uncorrectable words. -/
structure Prot where
  reps : SMap (List RepEnt)
  fixes : List (Nat × Nat × Nat)
  rows : List (Nat × Nat × Nat)
  banks : List Nat
  pcs : SMap (Nat × Nat)
  moving : Option (Nat × Nat × Nat × Nat)
  bad : List Nat
  deriving DecidableEq, Repr

/-- Power and flushes (07, 14): heads that asked for GPF, whether a flush of R294 runs, whether PWR_WARN_n started it and holds admission, rails
below warning, stacks at the doubled refresh rate, whether the management clock is lost (`mgmtLost`) and the time reference (`altClk`), failed
verifications by record, the cause of the reset under way as GL_STAT codes it, whether a GPF flush has completed, whether something
other than PORST_n holds the device in cold reset, and whether an image was recovered over I3C
(R493), whether Tj stands above the warning level, and the entries that retraining squares replaced (512 × Board + square); how far the flush of R294
has come (0 the hub's own, 1 and 2 GPF Phase 1 and 2 toward the expanders) and whether it was cut off at its limit; and the square in which the halving
of budgets began, FT[63:3] (R250); and by cellar port the GPF Phase 2 duration that its expander advertises, in µs (R295). -/
structure Pwr where
  gpf : List Nat
  flush : Bool
  pwHold : Bool
  low : List Nat
  refresh : List Nat
  altClk : Bool
  fails : SMap Nat
  cause : Nat
  mgmtLost : Bool
  gpfDone : Bool
  hold : Bool
  recovered : Bool
  warned : Bool
  squares : SMap Nat
  gpfStep : Nat
  gpfCut : Bool
  easeSq : Option Nat
  gpfExp : SMap Nat
  deriving DecidableEq, Repr

/-- A background command of a mailbox: opcode, TAG, and the object it works on. -/
structure BgCmd where
  opc : Nat
  tag : Nat
  obj : Nat
  deriving DecidableEq, Repr

/-- The control side (12): unlocks by origin (block), the last write of each origin (result, offset), background commands by mailbox, the
status of those without a register page (mailboxes 16 and 17), secured sessions over MCTP, firmware staging (next offset), an activation
under way (the previous image's slot is B), parts of a fabric-mailbox command by source hub, and the hub whose command the fabric mailbox
runs. -/
structure Ctl where
  unlocks : SMap Nat
  last : SMap (Nat × Nat)
  bg : SMap BgCmd
  bgst : SMap Word
  session : Bool
  staged : Option Nat
  act : Option Bool
  parts : SMap (List (BitVec 512))
  src : Nat := 0
  deriving DecidableEq, Repr

end Sys2Proof.Machine
end

