-- ==== Sys2Proof/Machine/State.lean ====
section
/-! DEFINITION. The state of the block as plain data, why a step can stop, and the state after reset. -/

namespace Sys2Proof.Machine

/-- Why a step could fault. The spec names no behaviour that stops the block: memory errors poison data, integrity failures
enter seal halt, and both are next states. -/
inductive Fault where
  /-- Raised by no command: kept so that the type has a name for a stop (safe). -/
  | none
  deriving DecidableEq, Repr

/-- Why a step could be refused. -/
inductive Refusal where
  /-- Raised by exec's arm of a command that has no meaning yet (safe: the model stops). -/
  | notModelled (mnemonic : String)
  deriving DecidableEq, Repr

/-- The block. Registers without a group of their own stand in `regs`, keyed by window offset / 8; a register that is not listed
holds its reset value (regReset). `free` numbers the free values taken so far and `out` lists what the block has sent: both are
the model's own (log entries 4 and 5). `pending` holds the commands that wait, first in, first out. -/
structure State where
  part : Part
  flash : Flash
  time : Time
  regs : SMap Word
  staged : SMap Word
  ev : Rec
  tly : Tly
  cnt : Cnt
  lar : Lar
  brd : Brd
  hc : Hc
  dir : SMap DirEnt
  hf : SMap HfEnt
  home : Home
  sweep : List HubId
  req : Req
  hst : Hst
  slots : SMap Slot
  ports : Ports
  cel : Cel
  sl : Seal
  mir : Mir
  links : SMap Link
  fab : Fab
  routeWait : List (Msg × List Nat)
  rx : List RxMsg
  bg : List BgTask
  prot : Prot
  pwr : Pwr
  ctl : Ctl
  halted : Option Nat
  free : Nat
  out : List Sent
  pending : List Instr
  deriving DecidableEq, Repr

/-- The straps as the internal pulls set them (R584): profile G, no strapped hub ID. -/
def strapsOpen : Straps := ⟨true, false, 0⟩

/-- The block right after a cold reset, as the spec says: Profile G, QD48-H1, no strapped hub ID, serial 0 and an empty boot flash
but for one valid image (DESIGN CHOICE, log entry 2; dies log entry 3). The Tally holds its start record (R502). -/
def State.reset : State where
  part := ⟨.h1, true, strapsOpen, strapsOpen, 0, .ready, true, true, true, true⟩
  flash := ⟨some ⟨1, 0⟩, none, false, false, 0, 1, none, none, [], [], [], [], [], [], false, 0, []⟩
  time := ⟨0, 0, none, none, false, [], [], [], false⟩
  regs := []
  staged := []
  ev := ⟨[], [], 32, [], [], [], [], [], [], [], []⟩
  tly := ⟨[(0, ⟨0, 0, 34, 3, 0, 1, 0, BitVec.allOnes 64, 1, 0, 0, 0⟩)], 1, 0, [], 0, 0, 0, 1, 0⟩
  cnt := ⟨[], [], [], [], [], []⟩
  lar := ⟨[], 0, [], [], false⟩
  brd := ⟨[], [], [], [], [], [], [], [], [], [], []⟩
  hc := ⟨[], [], [], [], [], [], [], [], [], [], [], none, [], [], [], none, [], []⟩
  dir := []
  hf := []
  home := ⟨[], [], [], [], [], [], [], [], [], [], none, false⟩
  sweep := []
  req := ⟨[], [], []⟩
  hst := ⟨[], [], [], [], [], [], []⟩
  slots := []
  ports := ⟨0, [], [], [], [], [], 0, [], [], [], false, []⟩
  cel := ⟨[], 0, [], false, []⟩
  sl := ⟨[], 0, [], [], [], [], [], [], [], []⟩
  mir := ⟨1, [], 0, [], 1, [], [], [], 0, false, false, []⟩
  links := []
  fab := ⟨[], [], 0, 0, [], [], [], [], [], []⟩
  routeWait := []
  rx := []
  bg := []
  prot := ⟨[], [], [], [], [], none, []⟩
  pwr := ⟨[], false, false, [], [], false, [], 0, false, false, false, false, false, [], 0, false, none, []⟩
  ctl := ⟨[], [], [], [], false, none, none, [], 0⟩
  halted := none
  free := 0
  out := []
  pending := []

end Sys2Proof.Machine
end

