-- ==== Sys2Proof/Machine/Ops.lean ====
section
/-! DEFINITION. The operations that every unit uses: registers by window offset, event sources and queues (13), the Tally (12),
counters, Larder cells (01) and the Boards' waiting transfers (06). -/

namespace Sys2Proof.Machine

/-! ### Registers -/

/-- A word of SB_SQ after reset (R236): TM 0xF in every square, and in square 16k + 15 the task of k mod 6. -/
def sqReset (w : Nat) : Word :=
  if w % 2 = 0 then 0x0F0F0F0F0F0F0F0F
  else setFld 0x0F0F0F0F0F0F0F0F 60 4 ([1, 3, 4, 5, 6, 7].getD (w / 2 % 6) 0)

/-- The reset value of the register word at `a`: the map's constant, or by part and profile (Table 12.8, R216, R236, R263,
R379, R506, R535). -/
def resetWord (pt : Part) (a : Nat) : Word :=
  let c1 := pt.variant = .c1
  if a = aDrKeep then (if pt.profile then 16 else 24)
  else if a = aHcPfctl then
    (if c1 then 0x2103E else 0x2203E) + (if pt.profile then 1 else 0)
  else if a = aHcSsd then (if c1 then 0 else 0xFFFF)
  else if a = aHcMrq then (if c1 then 0x04040404 else 0x08080808)
  else if a = aHcWbctl then (if c1 then 0xC10 else 0)
  else if a = aPmDorm then (if c1 then 0 else 0x640)
  else if a = aGlTlyctl then (if pt.profile then 3 else 2)
  else if a = aFbHubid then
    if pt.latched.hubidEn then mkWord [(0, 12, pt.latched.hubid.toNat), (12, 1, 1), (13, 2, 1)] else 0
  else if a = aFbSerial then pt.serial
  else if a = aHpMgacc 0 then 0x0003FFFF0003FFFF
  else if a = aMbAuth 0 then 0xFF
  else if a = aEqCtl 0 then 0x1411
  else if aPmCal 0 ≤ a ∧ a < aPmCal 56 then
    (if a < aPmCal 16 ∧ c1 then 0 else if aPmCal 52 ≤ a then 0x1400000 else 0x400000)
  else match regAt a with
    | none => 0
    | some (f, _) =>
      if f.base = aHpMgacc 0 then 0x000040000003FFFF
      else if f.base = aMbAuth 0 then 1
      else if f.base = aEqCtl 0 then 0x1404
      else if f.base = aSbSq 0 0 then
        let b := (a - aSbSq 0 0) / 0x400
        if c1 ∧ 32 ≤ b ∧ b < 48 then 0 else sqReset ((a - aSbSq 0 0) % 0x400 / 8)
      else if f.base = aSbAdm 0 then
        let b := (a - aSbAdm 0) / 0x400
        if b < 32 ∨ 76 ≤ b then 0x01E001E001E001E0 else 0
      else if f.base = aSlLta 0 then Config.trustAnchor ((a - aSlLta 0) / 8)
      else if f.base = aSlKs 0 then 4
      else BitVec.ofNat 64 f.reset

/-- The register word at the 8-byte aligned offset `a`. -/
def rd (s : State) (a : Nat) : Word := mgetD (resetWord s.part a) s.regs (a / 8)

/-- The register word at `a` set to `v`. -/
def wr (a : Nat) (v : Word) (s : State) : State :=
  { s with regs := mput (resetWord s.part a) s.regs (a / 8) v }

/-- A field of a register set. -/
def wrFld (a lo n v : Nat) (s : State) : State := wr a (setFld (rd s a) lo n v) s

/-- A field of a register. -/
def rdFld (s : State) (a lo n : Nat) : Nat := fld (rd s a) lo n

/-- A bit of a register. -/
def rdBit (s : State) (a i : Nat) : Bool := bit (rd s a) i

/-- Status bit `i` of a word with RSQ fields set, and its SEQ advanced (R479). -/
def rsqSet (w : Word) (i : Nat) : Word := setFld (setBit w i true) 48 16 (fld w 48 16 + 1)

/-- Status bit `i` of the RSQ register at `a` set (R479). -/
def rsq (a i : Nat) (s : State) : State := wr a (rsqSet (rd s a) i) s

/-- SEQ of the RSQ register at `a`. -/
def seqOf (s : State) (a : Nat) : Nat := rdFld s a 48 16

/-- This hub's ID (FB_HUBID.ID). -/
def hubId (s : State) : HubId := BitVec.ofNat 12 (rdFld s aFbHubid 0 12)

/-- The current epoch, FT[27:12] (R248). -/
def epochNow (s : State) : Nat := fld s.time.ft 12 16

/-- QD48-H1. -/
def isH1 (s : State) : Bool := decide (s.part.variant = .h1)

/-- MODE and AGG of port `p` as they stand since its last training (R357). -/
def portSetting (s : State) (p : Nat) : Nat := mgetD 0 s.hst.setting p

/-- Port `p` is in host mode (R357). -/
def hostMode (s : State) (p : Nat) : Bool := !(portSetting s p).testBit 0

/-- The width of port `p`: 0 x4, 1 x8, 2 x16 (R357). -/
def aggOf (s : State) (p : Nat) : Nat := portSetting s p / 2 % 4

/-- Training starts: MODE and AGG of HP_CTL apply (R357). -/
def takeSetting (p : Nat) (s : State) : State :=
  { s with hst := { s.hst with setting := mput 0 s.hst.setting p (rdFld s (aHpCtl p) 1 3), lanes := mdel s.hst.lanes p } }

/-- Port `p` is a non-lead port of an aggregate (R233, R359). -/
def nonLead (s : State) (p : Nat) : Bool := (p % 2 = 1 ∧ aggOf s (p - 1) = 1) ∨ (p % 4 ≠ 0 ∧ aggOf s (p - p % 4) = 2)

/-- The port whose Board governs port `p` (R233). -/
def leadOf (s : State) (p : Nat) : Nat :=
  if p % 2 = 1 ∧ aggOf s (p - 1) = 1 then p - 1
  else if aggOf s (p - p % 4) = 2 then p - p % 4 else p

/-- A free value drawn: its number, and the state that has counted it (log entry 4). -/
def drawFree (s : State) : Nat × State := (s.free, { s with free := s.free + 1 })

/-- A loss makes the shutdown state dirty (R296): what the hosts set before it counts no more. -/
def markDirty (s : State) : State :=
  { s with flash := { s.flash with dirty := true }, ports := { s.ports with heads := s.ports.heads.map fun e => (e.1, { e.2 with clean := false }) } }

/-- Something left the block. -/
def emit (x : Sent) (s : State) : State := { s with out := s.out ++ [x] }

/-! ### Counters (R529 to R531) -/

/-- The RCT registers other than the slice counters, in ascending window offset, as (base, count, stride, count, stride). -/
def rctFams : List (Nat × Nat × Nat × Nat × Nat) :=
  ((List.range 18).flatMap famsOf).filterMap fun f =>
    if (f.acc.headD {}).rct ≠ 0 ∧ f.base ≠ aPcSlc 0 0 then some (f.base, f.n1, f.s1, f.n2, f.s2) else none

/-- Insertion into a list of register rows in ascending base. -/
def insFam (x : Nat × Nat × Nat × Nat × Nat) : List (Nat × Nat × Nat × Nat × Nat) → List (Nat × Nat × Nat × Nat × Nat)
  | [] => [x]
  | y :: t => if x.1 ≤ y.1 then x :: y :: t else y :: insFam x t

/-- The rows of rctFams in ascending base. -/
def rctRows : List (Nat × Nat × Nat × Nat × Nat) := rctFams.foldr insFam []

/-- The index of the counter at `a`, counting from `k` through the rows (R529). -/
def cntIdxIn (a : Nat) : Nat → List (Nat × Nat × Nat × Nat × Nat) → Option Nat
  | _, [] => none
  | k, (b, n1, s1, n2, s2) :: t =>
    let d := a - b
    if b ≤ a ∧ d / s1 < n1 ∧ d % s1 / s2 < n2 then some (k + n2 * (d / s1) + d % s1 / s2)
    else cntIdxIn a (k + n1 * n2) t

/-- The index of the counter at window offset `a` (R529). -/
def cntIdx (a : Nat) : Option Nat :=
  if aPcSlc 0 0 ≤ a ∧ a < aPcSlc 32 0 then some (32 * ((a - aPcSlc 0 0) / 0x100) + (a - aPcSlc 0 0) % 0x100 / 8)
  else cntIdxIn a 1024 rctRows

/-- The window offset of counter `i`, counting from `k` through the rows. -/
def cntAddrIn (i : Nat) : Nat → List (Nat × Nat × Nat × Nat × Nat) → Option Nat
  | _, [] => none
  | k, (b, n1, s1, n2, s2) :: t =>
    if i < k + n1 * n2 then some (b + s1 * ((i - k) / n2) + s2 * ((i - k) % n2)) else cntAddrIn i (k + n1 * n2) t

/-- The window offset of counter `i` (PC_CMAP). -/
def cntAddr (i : Nat) : Option Nat :=
  if i < 1024 then some (aPcSlc (i / 32) (i % 32)) else cntAddrIn i 1024 rctRows

/-- The live value of the counter at `a`. -/
def cntLive (s : State) (a : Nat) : Nat := mgetD 0 s.cnt.live (a / 8)

/-- The live value of the counter or gauge at `a` set. -/
def cntSet (a v : Nat) (s : State) : State :=
  { s with cnt := { s.cnt with live := mput 0 s.cnt.live (a / 8) v } }

/-! ### Objects of events (Table 13.6) -/

/-- An object of an event record: its kind and its encoding. -/
abbrev Obj := Nat × Nat

/-- No object. -/
def oNone : Obj := (0, 0)
/-- A line. -/
def oLine (l : LineAddr) : Obj := (1, l.toNat)
/-- A port: kind 0 HP, 1 DP, 2 IP. -/
def oPort (k n : Nat) : Obj := (2, k + 4 * n)
/-- A hub. -/
def oHub (h : HubId) : Obj := (3, h.toNat)
/-- A register. -/
def oReg (a : Nat) : Obj := (4, a)
/-- A queue or counter. -/
def oNum (n : Nat) : Obj := (5, n)
/-- A key slot. -/
def oKey (n : Nat) : Obj := (6, n)
/-- A table entry. -/
def oEnt (table unit idx : Nat) : Obj := (7, table + 16 * unit + 65536 * idx)
/-- A range: base unit LA[47:14], log2 of the size in bytes, tree level. -/
def oRange (base sz lvl : Nat) : Obj := (8, base + sz * 2 ^ 34 + lvl * 2 ^ 40)
/-- A plain number. -/
def oVal (n : Nat) : Obj := (9, n)

/-! ### Event queues (R514 to R525) -/

/-- The words of a bank that records may use (R517). -/
def bankWords (ctl : Word) : Nat := 8 * 2 ^ fld ctl 2 4 - 1

/-- The words that the records of a bank hold. -/
def recWords (l : List QRec) : Nat := l.foldl (fun n r => n + r.words.length) 0

/-- A length word (Table 13.3). -/
def lenWord (type nw pri info : Nat) (ft : Word) : Word :=
  mkWord [(0, 4, type), (4, 4, nw), (8, 2, pri), (16, 16, info), (32, 32, ft.toNat % 2 ^ 32)]

/-- A record entered into a queue (R516, R517, R521): the queue after, and whether a gap marker was opened. -/
def qAdd (ctl : Word) (ft : Word) (r : QRec) (q : Queue) : Queue × Bool :=
  if ¬bit ctl 0 then ({ q with drop := satTo (2 ^ 32 - 1) (q.drop + 1) }, false)
  else if recWords q.fill + r.words.length ≤ bankWords ctl then ({ q with fill := q.fill ++ [r] }, false)
  else
    let q := { q with drop := satTo (2 ^ 32 - 1) (q.drop + 1) }
    match q.fillGap with
    | some (t, n) => ({ q with fillGap := some (t, satTo 65535 (n + 1)) }, false)
    | none => ({ q with fillGap := some (ft.toNat % 2 ^ 32, 1), stat := rsqSet q.stat 32 }, true)

/-- Queue `q` of the state. -/
def queue (s : State) (q : Nat) : Queue := mgetD {} s.ev.queues q

/-- Queue `q` replaced. -/
def setQueue (q : Nat) (v : Queue) (s : State) : State :=
  { s with ev := { s.ev with queues := mput {} s.ev.queues q v } }

/-- A pop of port `p` waits, or accesses of its are still held behind one (R527). -/
def popWaits (s : State) (p : Nat) : Bool := (s.ev.queues.any fun e => e.2.waiting.any fun x => x.1 = p) || s.ev.behind.any fun x => x.1 = p

/-- An access of port `p` to the management window held behind a waiting pop of the port (R288, R527). -/
def holdAccess (p : Nat) (x : WinAcc) (s : State) : State := { s with ev := { s.ev with behind := s.ev.behind ++ [(p, x)] } }

/-- A reserved event source on this part (R6, R508, Tables 05.11, 10.6, 13.2, 13.9 and 14.12). -/
def reservedSource (s : State) (n : Nat) : Bool :=
  (288 ≤ n) || (205 ≤ n && n ≤ 207) || (217 ≤ n && n ≤ 223) || (251 ≤ n && n ≤ 255) || (269 ≤ n && n ≤ 271)
    || (!isH1 s && 144 ≤ n && n ≤ 175) || n = 184 || n = 188

/-- A source that does not fire: a reserved one (R508), one of a non-lead port (R360), and any in seal halt (Table 11.7). -/
def evReserved (s : State) (n : Nat) : Bool := s.halted.isSome || reservedSource s n || (n < 64 && nonLead s (n / 4))

/-- The part of a firing that needs no queue: EV_STAT, MSI-X and the CXL event log (R509, R511, R513). -/
def fireStat (n : Nat) (w1 w2 w3 : Word) (len : Word) (s : State) : State :=
  let rt := rd s (aEvRt n)
  let k := n / 48
  let e := s.ev
  let e := { e with evStat := mput 0 e.evStat k (rsqSet (mgetD 0 e.evStat k) (n % 48)) }
  let vp := fld rt 17 4
  let vec := fld rt 21 6
  let send := bit rt 16 && hostMode s vp && !nonLead s vp
  let due := decide (fld rt 36 12 = 0) ||
    match mget e.msixLast n with
    | none => true
    | some t => decide (s.time.ft.toNat ≥ t + 1000 * fld rt 36 12)
  let masked := (mgetD 0 e.msixMask vp).testBit vec
  let e := if send = false then e
    else if !due then { e with msixOwed := if n ∈ e.msixOwed then e.msixOwed else e.msixOwed ++ [n] }
    else if masked then { e with msixPend := mput 0 e.msixPend vp (mgetD 0 e.msixPend vp ||| 2 ^ vec) }
    else { e with msixLast := mset e.msixLast n s.time.ft.toNat }
  let o := if send && due && !masked then s.out ++ [.msix vp vec] else s.out
  let cp := fld rt 29 4
  let key := 4 * cp + fld rt 33 2
  let e := if !(bit rt 28 && hostMode s cp && !nonLead s cp) then e
    else if (mgetD [] e.logs key).length < 64 then
      let h := mgetD 1 e.logNext key
      { e with logs := mset e.logs key (mgetD [] e.logs key ++ [⟨h, [len, w1, w2, w3]⟩]), logNext := mset e.logNext key (h + 1) }
    else { e with logOvf := if key ∈ e.logOvf then e.logOvf else e.logOvf ++ [key] }
  { s with ev := e, out := o }

/-- The words of an event record (Tables 13.3 and 13.5). -/
def evWords (s : State) (n cause : Nat) (o1 o2 : Obj) (seq : Nat) : List Word :=
  [lenWord 0 4 (rdFld s (aEvRt n) 14 2) n s.time.ft,
   mkWord [(0, 60, o1.2), (60, 4, o1.1)],
   mkWord [(0, 60, o2.2), (60, 4, o2.1)],
   mkWord [(0, 16, cause), (16, 16, seq), (32, 12, (hubId s).toNat)]]

/-- A firing whose record enters no queue (the last case of R521). -/
def fireNoQ (n cause : Nat) (o1 o2 : Obj) (seq : Nat) (s : State) : State :=
  if evReserved s n then s else
    match evWords s n cause o1 o2 seq with
    | [l, a, b, c] => fireStat n a b c l s
    | _ => s

/-- A record entered into queue `q`, and whether that opened a gap marker. -/
def enterRaw (q : Nat) (r : QRec) (s : State) : State × Bool :=
  let x := qAdd (rd s (aEqCtl q)) s.time.ft r (queue s q)
  (setQueue q x.1 s, x.2)

/-- EV245 for the gap marker opened in queue `q` (R521): its record never enters the queue that it is about. -/
def fireGap (q : Nat) (s : State) : State :=
  let seq := fld (queue s q).stat 48 16
  let rt := rd s (aEvRt 245)
  let w := evWords s 245 0 (oNum q) oNone seq
  let s := fireNoQ 245 0 (oNum q) oNone seq s
  let t := fld rt 1 13
  if bit rt 0 && decide (t ≠ q) then
    let x := enterRaw t ⟨fld rt 14 2, false, w⟩ s
    if x.2 then fireNoQ 245 0 (oNum t) oNone (fld (queue x.1 t).stat 48 16) x.1 else x.1
  else s

/-- A record entered into queue `q`, with EV245 if a gap marker opened; the queues are frozen in seal halt (Table 11.7). -/
def enter (q : Nat) (r : QRec) (s : State) : State :=
  if s.halted.isSome then s else
  let x := enterRaw q r s
  if x.2 then fireGap q x.1 else x.1

/-- A source fires (R509): `seq` is the SEQ of the status register of the event's own block, 0 where there is none. -/
def fireSeq (n cause : Nat) (o1 o2 : Obj) (seq : Nat) (s : State) : State :=
  if evReserved s n then s else
    let rt := rd s (aEvRt n)
    let w := evWords s n cause o1 o2 seq
    let s := fireNoQ n cause o1 o2 seq s
    if bit rt 0 then enter (fld rt 1 13) ⟨fld rt 14 2, false, w⟩ s else s

/-- A source fires with its CAUSE and first object. -/
def fire (n cause : Nat) (o1 : Obj) (s : State) : State := fireSeq n cause o1 oNone 0 s

/-- A record other than an event record entered into queue `q` at the queue's level (R525). -/
def post (q type info : Nat) (words : List Word) (s : State) : State :=
  let lvl := rdFld s (aEqCtl q) 6 2
  enter q ⟨lvl, false, lenWord type (words.length + 1) lvl info s.time.ft :: words⟩ s

/-- The counter at `a` counts `n` more; a wrap past 2^48 - 1 sets its WRAP bit and fires EV248 if that was clear (R531). -/
def count (a n : Nat) (s : State) : State :=
  if s.halted.isSome then s else
  let v := cntLive s a + n
  let s := cntSet a (v % 2 ^ 48) s
  if v < 2 ^ 48 then s else
    match cntIdx a with
    | none => s
    | some i => if i ∈ s.cnt.wrap then s else
        fire 248 0 (oNum i) { s with cnt := { s.cnt with wrap := s.cnt.wrap ++ [i] } }

/-! ### The Tally (R497 to R504) -/

/-- The records held: written, not exported and not lost. -/
def tlyHeld (t : Tly) : Nat := t.next - t.exported - t.lost.length

/-- The oldest held record that is not lost, from `n` on. -/
def tlyOldest (lost : List (Nat × Word)) : Nat → Nat → Nat
  | 0, n => n
  | k + 1, n => if lost.any (fun x => x.1 = n) then tlyOldest lost k (n + 1) else n

/-- The Tally is full for one more record: every place is held, or only the last 1,024 are free and loss is chosen (R499). -/
def tlyFull (s : State) : Bool := decide (65536 ≤ tlyHeld s.tly) || (decide (64512 ≤ tlyHeld s.tly) && rdBit s aGlTlyctl 0)

/-- The oldest record held is lost where the Tally is full (R499). -/
def tlyLose (s : State) : State :=
  if !tlyFull s then s
  else
    let o := tlyOldest s.tly.lost s.tly.lost.length s.tly.exported
    let s := { s with tly := { s.tly with lost := s.tly.lost ++ [(o, s.time.ft)], lossStat := rsqSet s.tly.lossStat 18 } }
    fireSeq 282 1 (oVal o) oNone (fld s.tly.lossStat 48 16) s

/-- A record stored under the next number. -/
def tlyPut (orig kind res : Nat) (target old new aux : Word) (s : State) : State :=
  let t := s.tly
  let target := if orig = 33 then setFld target 32 12 s.ctl.src else target
  let r : TlyRec := ⟨s.time.ft, t.next, orig, kind, res, s.flash.boots % 65536, target, old, new, aux, 0, 0⟩
  { s with tly := { t with store := mset t.store (t.next % 65536) r, next := t.next + 1, sinceChk := t.sinceChk + 1 } }

/-- A Tally record (R497): none in seal halt; reaching the threshold raises EV282; an overwritten record is lost (R499). -/
def tally (orig kind res : Nat) (target old new aux : Word) (s : State) : State :=
  if s.halted.isSome then s else
    let full := tlyFull s
    let s := tlyPut orig kind res target old new aux (tlyLose s)
    if tlyHeld s.tly = 64512 ∧ full = false then fireSeq 282 0 oNone oNone (fld s.tly.lossStat 48 16) s else s

/-- An autonomous change recorded in the Tally: the changed register or 0, the event source, old and new value, the object. -/
def tallyAuto (orig a src : Nat) (old new : Word) (o : Obj) (s : State) : State :=
  tally orig 2 0 (mkWord [(0, 24, a), (48, 16, src)]) old new (mkWord [(0, 60, o.2), (60, 4, o.1)]) s

/-! ### Larder cells (R25 to R35) -/

/-- The limit of a share (Table 01.7). -/
def shareLimit (s : State) (sh : Nat) : Nat :=
  if sh = 0 then rdFld s aLdProto 0 18 else if sh = 1 then rdFld s aLdBgres 0 17
  else if sh = 2 then rdFld s aLdShared 0 20 else rdFld s (aLdTq (sh - 4)) 0 19

/-- Cells counted under a key of Lar.used. -/
def larUsed (s : State) (k : Nat) : Nat := mgetD 0 s.lar.used k

/-- The share from which the next cell of class `tc` comes (R32): its timed quota, then the shared pool up to its cap. -/
def pickShare (s : State) (tc : Nat) : Option Nat :=
  if tc < 4 ∧ larUsed s (4 + tc) < shareLimit s (4 + tc) then some (4 + tc)
  else if larUsed s 2 < shareLimit s 2 ∧ larUsed s (8 + tc) < rdFld s (aLdCap tc) 0 20 then some 2 else none

/-- The cell that the allocator takes: the lowest free one of the next bank in rotation that has one (R26; which of a bank's
free cells is taken is a DESIGN CHOICE, log entry 8). -/
def pickCell (l : Lar) : Nat → Nat → Option Nat
  | 0, _ => none
  | k + 1, b =>
    match firstFree (fun i => (mget l.cells (4096 * b + i)).isSome) 4096 0 with
    | some i => some (4096 * b + i)
    | none => pickCell l k ((b + 1) % 256)

/-- The counts of Lar.used changed for a cell of share `sh` and class `tc`: by +1 or -1. -/
def larCount (sh tc : Nat) (up : Bool) (u : SMap Nat) : SMap Nat :=
  let f := fun (u : SMap Nat) k => mupd 0 u k fun n => if up then n + 1 else n - 1
  let u := f u sh
  let u := if sh = 2 then f u (8 + tc) else u
  f u (16 + tc)

/-- One cell taken from share `sh` for class `tc`, with `n` readers. -/
def takeCellFrom (sh tc n : Nat) (s : State) : Option (Nat × State) :=
  (pickCell s.lar 256 s.lar.bank).map fun c =>
    (c, { s with lar := { s.lar with cells := mset s.lar.cells c ⟨n, sh, tc⟩, bank := (c / 4096 + 1) % 256,
                                     used := larCount sh tc true s.lar.used } })

/-- `k` cells for class `tc`: none, with the state unchanged, where the class cannot take them all (R33). -/
def takeCells (tc n : Nat) : Nat → State → Option (List Nat × State)
  | 0, s => some ([], s)
  | k + 1, s => (pickShare s tc).bind fun sh => (takeCellFrom sh tc n s).bind fun x =>
      (takeCells tc n k x.2).map fun y => (x.1 :: y.1, y.2)

/-- A cell of the protocol reserve, if it has one left (R32, Table 01.8). -/
def takeProto (tc n : Nat) (s : State) : Option (Nat × State) :=
  if larUsed s 0 < shareLimit s 0 then takeCellFrom 0 tc n s else none

/-- `n` cells of share `sh` for class `tc`, one reader each, if it has them all: 0 the protocol reserve, 1 the background reserve (R29). -/
def takeFrom (sh tc : Nat) : Nat → State → Option (List Nat × State)
  | 0, s => some ([], s)
  | n + 1, s =>
    if larUsed s sh < shareLimit s sh then (takeCellFrom sh tc 1 s).bind fun x => (takeFrom sh tc n x.2).map fun y => (x.1 :: y.1, y.2) else none

/-- `n` cells of the background reserve, if it has them (R29). -/
def takeBg (n : Nat) (s : State) : Option (List Nat × State) := takeFrom 1 7 n s

/-- The cells of a granule that a request's write has read, or of one that it has sealed again (R25): from the shares of its class, else from the
protocol reserve (DESIGN CHOICE, log entry 112). -/
def takeWork (tc n : Nat) (s : State) : Option (List Nat × State) := (takeCells tc 1 n s).orElse fun _ => takeFrom 0 tc n s

/-- The share of a write-back that the hub cache starts itself: the protocol reserve (R32), in a unit of a slice drain or a retirement the background
reserve (Table 01.7). -/
def backShare (s : State) : Nat := if s.lar.work then 1 else 0

/-- `f` is a unit of a slice drain or a retirement. -/
def inWork (f : State → State) (s : State) : State :=
  let t := f { s with lar := { s.lar with work := true } }
  { t with lar := { t.lar with work := s.lar.work } }

/-- The readers of a cell changed by `f`. -/
def cellReaders (f : Nat → Nat) (m : SMap Cell) (c : Nat) : SMap Cell :=
  match mget m c with
  | some x => mset m c { x with readers := f x.readers }
  | none => m

/-- One reader of each of these cells has finished (R27). -/
def doneReading (cs : List Nat) (s : State) : State :=
  { s with lar := { s.lar with cells := cs.foldl (cellReaders (· - 1)) s.lar.cells } }

/-- One more reader of each of these cells (R27). -/
def moreReaders (cs : List Nat) (s : State) : State :=
  { s with lar := { s.lar with cells := cs.foldl (cellReaders fun n => satTo 15 (n + 1)) s.lar.cells } }

/-- A cell returned to its share (R27, R32). -/
def freeCell (c : Nat) (s : State) : State :=
  match mget s.lar.cells c with
  | none => s
  | some x => { s with lar := { s.lar with cells := mdel s.lar.cells c, used := larCount x.share x.tc false s.lar.used } }

/-! ### Boards: what waits for a grant -/

/-- The Board of host port `p`'s egress (Table 06.3, R233). -/
def hostBoard (s : State) (p : Nat) : Nat := 76 + leadOf s p

/-- A transfer waits at Board `b` from now on. -/
def enqueue (b : Nat) (w : Waiter) (s : State) : State :=
  { s with brd := { s.brd with wait := mset s.brd.wait b (mgetD [] s.brd.wait b ++ [w]) } }

/-- The quadrant switch that carries what slice `k` issues (Table 06.5). -/
def sliceInput (k : Nat) : Nat := 36 + k / 8

/-- An answer or snoop to host port `p`, issued by slice `k`, for line `l`. -/
def toHost (p k tc epoch : Nat) (cells : List Nat) (l : LineAddr) (a : HostAns) (s : State) : State :=
  enqueue (hostBoard s p) ⟨sliceInput k, tc, epoch, .host a, cells, 0, l, 0, false⟩ s

/-- A port station's own best-effort answer to its host or agent (Table 06.5). -/
def portAnswer (p : Nat) (a : HostAns) (s : State) : State := enqueue (hostBoard s p) ⟨p, 7, epochNow s, .host a, [], 0, 0, 0, false⟩ s

/-! ### Time -/

/-- One cycle of fabric time: a nanosecond, unless a slew omits this count (R221); counted in PM_CNT1 while the device is in Brace. -/
def tick (s : State) : State :=
  let s := if rdBit s aPmStat 0 then count (aPmCnt 1) 1 s else s
  if s.time.omit_ then { s with time := { s.time with omit_ := false } } else { s with time := { s.time with ft := s.time.ft + 1 } }

/-! ### Seal halt and readiness -/

/-- The block runs: out of reset and not in seal halt (R445, R553). -/
def running (s : State) : Bool :=
  s.halted.isNone && match s.part.phase with
    | .ready | .flush _ => true
    | _ => false

/-- Nothing but what the seal halt and reset allow runs in them (R445): the state stays as it is. -/
def live (s : State) (f : State → State) : Host.Outcome State Fault Refusal :=
  if running s then .next (f s) else .next s

/-- The result of a command that runs in every phase. -/
def always (s : State) (f : State → State) : Host.Outcome State Fault Refusal := .next (f s)

end Sys2Proof.Machine
end

