-- ==== Sys2Proof/Machine/Lines.lean ====
section
/-! DEFINITION. Where a line lives: slice, sets and tags (R14, R88, R92, R172, R182), the entry of each table for it, its standing
(R79), the dies (R192), cache victims (R191), and own addresses: populated, keyed, typed (R42, R70 to R77). -/

namespace Sys2Proof.Machine

/-! ### Addresses -/

/-- The line of an FPA. -/
def lineOf (fpa : Nat) : LineAddr := BitVec.ofNat 54 (fpa / 64)

/-- FPA[59:48]: the home of a line (R39). -/
def homeOf (l : LineAddr) : HubId := BitVec.ofNat 12 (l.toNat / 2 ^ 42)

/-- LA[47:6] of a line. -/
def laOf (l : LineAddr) : Nat := l.toNat % 2 ^ 42

/-- The own line at LA[47:6] = `la`. -/
def ownLine (s : State) (la : Nat) : LineAddr := BitVec.ofNat 54 ((hubId s).toNat * 2 ^ 42 + la)

/-- XOR of the low `k` fields of 5 bits of `n`. -/
def xor5 : Nat → Nat → Nat
  | 0, _ => 0
  | k + 1, n => (n % 32) ^^^ xor5 k (n / 32)

/-- The slice of a line (R14). -/
def sliceOf (l : LineAddr) : Nat := xor5 10 (l.toNat / 64)

/-- The set of the directory and of the host filter within its slice (R88, R92), from LA or FPA[59:6]. -/
def tabSet (n : Nat) : Nat := ((n / 2 ^ 11 % 512) * 64 + n % 64) ^^^ (n / 2 ^ 20 % 2 ^ 15)

/-- Key of way `w` of the line's directory set. -/
def dirKey (l : LineAddr) (w : Nat) : Nat := (sliceOf l * 32768 + tabSet (laOf l)) * 16 + w

/-- The tag of the line's directory entry: LA[47:26]. -/
def dirTag (l : LineAddr) : Nat := laOf l / 2 ^ 20

/-- Key of way `w` of the line's host-filter set. -/
def hfKey (l : LineAddr) (w : Nat) : Nat := (sliceOf l * 32768 + tabSet l.toNat) * 16 + w

/-- The tag of the line's host-filter entry: FPA[59:26]. -/
def hfTag (l : LineAddr) : Nat := l.toNat / 2 ^ 20

/-- The cache set of a line, counted over all slices (R172, R182). -/
def cacheSet (s : State) (l : LineAddr) : Nat :=
  let n := l.toNat
  if isH1 s then
    65536 * sliceOf l + ((n / 2 ^ 11 % 65536) ^^^ (n / 2 ^ 27 % 65536) ^^^ (n / 2 ^ 43))
  else
    let g := (n / 2 ^ 11 % 4096) ^^^ (n / 2 ^ 23 % 4096) ^^^ (n / 2 ^ 35 % 4096) ^^^ (n / 2 ^ 47)
    7168 * sliceOf l + 64 * (g % 112) + n % 64

/-- The region that one way holds: a 4 KiB frame on QD48-H1, a line on QD48-C1. -/
def regionOf (s : State) (l : LineAddr) : Nat := if isH1 s then l.toNat / 64 else l.toNat

/-- The sector of a line in its way. -/
def sectorOf (s : State) (l : LineAddr) : Nat := if isH1 s then l.toNat % 64 else 0

/-- The line of sector `k` of region `r`. -/
def lineAt (s : State) (r k : Nat) : LineAddr := BitVec.ofNat 54 (if isH1 s then 64 * r + k else r)

/-- The line is homed on this hub. -/
def isOwn (s : State) (l : LineAddr) : Bool := homeOf l = hubId s

/-! ### Cache ways -/

/-- Way `k` (16 × set + way); every way of a retired pseudo-channel has RET (R181). -/
def getWay (s : State) (k : Nat) : Way :=
  let w := mgetD {} s.hc.ways k
  if s.hc.retPcs.contains (k / 16 % 128) then { w with ret := true } else w

/-- Way `k` replaced. -/
def setWay (k : Nat) (w : Way) (s : State) : State :=
  { s with hc := { s.hc with ways := mput {} s.hc.ways k w } }

/-- An open miss register of the region. -/
def regionOpen (s : State) (r : Nat) : Bool := s.req.mrs.any fun e => regionOf s e.2.line = r

/-- A way is being allocated for the region: an open miss register of it fills one (R187). -/
def regionFills (s : State) (r : Nat) : Bool := s.req.mrs.any fun e => e.2.way && regionOf s e.2.line = r

/-- The first way of a set, from way `w` on, that holds the region or is being allocated for it (R180, R187). -/
def findWayIn (s : State) (set r : Nat) : Nat → Nat → Option Nat
  | 0, _ => none
  | k + 1, w =>
    let x := getWay s (16 * set + w)
    if !x.ret && x.addr = r && (!x.st.isEmpty || ((mget s.hc.ways (16 * set + w)).isSome && regionFills s r)) then some (16 * set + w)
    else findWayIn s set r k (w + 1)

/-- Where the record of the frame that takes way `k` stands until the eviction of `k` is done (R204). -/
def nextWay (k : Nat) : Nat := k + 2 ^ 30

/-- The way that holds the line's region, or takes it once its eviction is done. -/
def findWay (s : State) (l : LineAddr) : Option Nat :=
  (findWayIn s (cacheSet s l) (regionOf s l) 16 0).orElse fun _ =>
    (s.hc.evs.find? fun e => e.addr = regionOf s l).map fun e => nextWay e.way

/-- The line's state in the cache (Table 05.3). -/
def cacheSt (s : State) (l : LineAddr) : St :=
  match findWay s l with
  | none => .i
  | some k => mgetD .i (getWay s k).st (sectorOf s l)

/-- The cache's copy of a line. -/
def cacheData (s : State) (l : LineAddr) : Data :=
  match findWay s l with
  | none => Data.zero
  | some k => mgetD Data.zero s.hc.data (64 * k + sectorOf s l)

/-! ### What HBM stores (R173, R174, R383) -/

/-- The code of a sector's or line's state (Table 05.3). -/
def stCode : St → Nat
  | .i => 0
  | .s => 1
  | .f => 2
  | .e => 3
  | .m => 4

/-- A frame record as it is stored (Table 05.2). -/
def frameRecord (w : Way) : BitVec 256 :=
  BitVec.ofNat 256 (w.addr % 2 ^ 48 + (w.st.foldl (fun n e => n + stCode e.2 * 2 ^ (3 * e.1)) 0) * 2 ^ 48 + w.rrpv % 16 * 2 ^ 240 +
    w.kslot % 1024 * 2 ^ 244 + w.loc.toNat * 2 ^ 254 + w.ret.toNat * 2 ^ 255)

/-- The side band of a data line: its three check symbols, the PZ bits of its eight words, zeros (R383). -/
def dataSideBand (d : Data) : BitVec 64 := BitVec.ofNat 64 ((Config.dataChecks d.bytes d.pz).toNat + d.pz.toNat * 2 ^ 48)

/-- A sector of way `k` as HBM stores it: 64 bytes and the side band. -/
def hbmDataLine (s : State) (k sector : Nat) : LineBits × BitVec 64 :=
  let d := mgetD Data.zero s.hc.data (64 * k + sector)
  (d.bytes, dataSideBand d)

/-- Line `i` of the record block of set `t` as HBM stores it, primary and duplicate alike: the records of ways 2i and 2i + 1, and the side band of four
check symbols. -/
def hbmRecordLine (s : State) (t i : Nat) : LineBits × BitVec 64 :=
  let b := BitVec.ofNat 512 ((frameRecord (getWay s (16 * t + 2 * i))).toNat + (frameRecord (getWay s (16 * t + 2 * i + 1))).toNat * 2 ^ 256)
  (b, Config.recordChecks b)

/-- The line's state set in way `k`; I drops its data. -/
def setWaySt (k : Nat) (l : LineAddr) (st : St) (s : State) : State :=
  let w := getWay s k
  let sec := sectorOf s l
  let pf := if st = .i && w.pf.testBit sec then w.pf ^^^ 2 ^ sec else w.pf
  let w := { w with st := mput .i w.st sec st, wtp := w.wtp && st ≠ .i, again := w.again && st ≠ .i, pf := pf }
  let s := setWay k w s
  if st = .i then { s with hc := { s.hc with data := mdel s.hc.data (64 * k + sec) } } else s

/-- The line's state set where the cache holds it. -/
def setCacheSt (l : LineAddr) (st : St) (s : State) : State :=
  match findWay s l with
  | none => s
  | some k => setWaySt k l st s

/-- The location of a sector of way `k` in correction logs (KIND 0x1 of Table 10.3). -/
def wayLoc (s : State) (k sector : Nat) : Nat :=
  if isH1 s then k + sector * 2 ^ 25 else k / 16 / 7168 + k / 16 % 7168 * 2 ^ 5 + k % 16 * 2 ^ 18

/-- A code word of the unit is written: it is no longer counted, and a correct-and-write of it is dropped (R401, R402). -/
def unwatch (unit addr : Nat) (s : State) : State :=
  if s.prot.fixes.isEmpty && (mgetD [] s.prot.reps unit).isEmpty then s
  else
    let l := (mgetD [] s.prot.reps unit).filter fun e => !(decide (e.addr = addr) && e.watch.isNone)
    { s with prot := { s.prot with fixes := s.prot.fixes.filter (fun x => !(x.1 = unit && x.2.2 = addr)), reps := mput [] s.prot.reps unit l } }

/-- The line's data set where the cache holds it. -/
def setCacheData (l : LineAddr) (d : Data) (s : State) : State :=
  match findWay s l with
  | none => s
  | some k => unwatch 6 (wayLoc s k (sectorOf s l)) { s with hc := { s.hc with data := mput Data.zero s.hc.data (64 * k + sectorOf s l) d } }

/-- A demand has touched the line: RRPV 0 (Table 05.7), and a prefetched sector is counted when first hit (HC_CNT4). -/
def touchWay (l : LineAddr) (s : State) : State :=
  match findWay s l with
  | none => s
  | some k =>
    let w := getWay s k
    let hit := w.pf.testBit (sectorOf s l)
    let s := setWay k { w with rrpv := 0, pf := if hit then w.pf ^^^ 2 ^ sectorOf s l else w.pf } s
    if hit then count (aHcCnt 4) 1 s else s

/-- A demand fills or writes a sector of a frame that the cache already holds: RRPV 0 (Table 05.7). -/
def renewWay (l : LineAddr) (s : State) : State :=
  match findWay s l with
  | none => s
  | some k => setWay k { getWay s k with rrpv := 0 } s

/-- The fill of a prefetch marks its sector, to be counted when a demand first hits it (HC_CNT4). -/
def markPrefetched (l : LineAddr) (s : State) : State :=
  match findWay s l with
  | none => s
  | some k =>
    let w := getWay s k
    let sec := sectorOf s l
    if mgetD .i w.st sec ≠ .i && !w.pf.testBit sec then setWay k { w with pf := w.pf ^^^ 2 ^ sec } s else s

/-! ### Host filter -/

/-- The first of the ways from `w` on of the line's host-filter set that holds it. -/
def hfFindIn (s : State) (l : LineAddr) : Nat → Nat → Option Nat
  | 0, _ => none
  | k + 1, w =>
    match mget s.hf (hfKey l w) with
    | some e => if e.tag = hfTag l then some (hfKey l w) else hfFindIn s l k (w + 1)
    | none => hfFindIn s l k (w + 1)

/-- The host-filter entry of a line; an empty one where it has none. -/
def hfGet (s : State) (l : LineAddr) : HfEnt :=
  match hfFindIn s l 16 0 with
  | some k => mgetD {} s.hf k
  | none => { tag := hfTag l }

/-- The first free way of the line's host-filter set. -/
def hfFree (s : State) (l : LineAddr) : Nat → Nat → Option Nat
  | 0, _ => none
  | k + 1, w => if (mget s.hf (hfKey l w)).isNone then some (hfKey l w) else hfFree s l k (w + 1)

/-- The line's host-filter entry written (R93): it exists while PV or HSTATE is non-zero. A new entry takes the first free way; every
caller that may add one has made room for it in the same decision (R94). -/
def hfPut (l : LineAddr) (e : HfEnt) (s : State) : State :=
  let e := if e.pv = 0 ∧ e.hst = .i then ({} : HfEnt) else { e with tag := hfTag l, hx := e.hx && popcount 16 e.pv = 1 }
  match hfFindIn s l 16 0 with
  | some k => { s with hf := mput {} s.hf k e }
  | none =>
    if e = {} then s else
      match hfFree s l 16 0 with
      | some k => count (aPcSlc (sliceOf l) 10) 1 { s with hf := mput {} s.hf k e }
      | none => s

/-- There is room in the host filter for the line. -/
def hfRoom (s : State) (l : LineAddr) : Bool := (hfFindIn s l 16 0).isSome || (hfFree s l 16 0).isSome

/-- A host recorded for the line (R93). -/
def hfRecord (l : LineAddr) (p : Nat) (hx : Bool) (s : State) : State :=
  let e := hfGet s l
  hfPut l { e with pv := e.pv ||| 2 ^ p, hx := hx } s

/-- A host's bit cleared. -/
def hfClear (l : LineAddr) (p : Nat) (s : State) : State :=
  let e := hfGet s l
  hfPut l { e with pv := e.pv &&& (65535 - 2 ^ p), hx := e.hx && !e.pv.testBit p } s

/-- HSTATE set. -/
def hfSetSt (l : LineAddr) (st : St) (s : State) : State := hfPut l { hfGet s l with hst := st } s

/-- The hosts recorded for the line. -/
def hostsOf (s : State) (l : LineAddr) : List Nat := setBits 16 (hfGet s l).pv

/-- The open miss register of a line, with its number. -/
def mrOf (s : State) (l : LineAddr) : Option (Nat × MissReg) := s.req.mrs.find? fun e => e.2.line = l

/-- Dirty data of a release that waits for the line's miss register to free (R82, R597). -/
def dueData (s : State) (l : LineAddr) : Option Data := s.req.due.findSome? fun x => if x.line = l then x.data else none

/-- A standing M whose data is kept in a cell: with a miss register (R597, R598), or for a release that waits (R82). -/
def heldM (s : State) (l : LineAddr) : Option Data := (dueData s l).orElse fun _ => (mrOf s l).bind fun m => m.2.keepM

/-- A standing that waits on the line's miss register for a way of the host filter (R94). -/
def heldSt (s : State) (l : LineAddr) : Option St := (mrOf s l).bind fun m => m.2.stand

/-- The line's standing at this hub (R79): in the cache, M with its data in a cell, on its miss register, or in HSTATE. -/
def standing (s : State) (l : LineAddr) : St :=
  if cacheSt s l ≠ .i then cacheSt s l else if (heldM s l).isSome then .m else (heldSt s l).getD (hfGet s l).hst

/-- A standing that may supply ownership: E or M. -/
def ownedSt (st : St) : Bool := st = .e || st = .m

/-! ### Directory -/

/-- The first of the ways from `w` on of the line's directory set that holds it. -/
def dirFindIn (s : State) (l : LineAddr) : Nat → Nat → Option Nat
  | 0, _ => none
  | k + 1, w =>
    match mget s.dir (dirKey l w) with
    | some e => if e.tag = dirTag l then some (dirKey l w) else dirFindIn s l k (w + 1)
    | none => dirFindIn s l k (w + 1)

/-- The mirror entry that holds own LA[47:6] = `la` as a copy of a partner's line (Table 08.11), if one is enabled. -/
def mirOwn (s : State) (la : Nat) : Option Nat :=
  (List.range 8).find? fun n =>
    let w := rd s (aFbMir n)
    let o := rdFld s (aFbMir n + 8) 0 12
    bit w 0 && decide (o ≤ la / 2 ^ 30) && decide (la / 2 ^ 30 < o + fld w 32 13)

/-- The mirror entry in service (SRV) that covers the partner's LA[47:6] = `la`. -/
def mirServed (s : State) (la : Nat) : Option Nat :=
  (List.range 8).find? fun n =>
    let w := rd s (aFbMir n)
    bit w 0 && bit w 1 && decide (fld w 16 12 ≤ la / 2 ^ 30) && decide (la / 2 ^ 30 < fld w 16 12 + fld w 32 13)

/-- The own line at which mirror entry `n` keeps the partner's LA[47:6] = `la`: OBASE + (LA - PBASE) (R343). -/
def mirLine (s : State) (n la : Nat) : LineAddr :=
  ownLine s (rdFld s (aFbMir n + 8) 0 12 * 2 ^ 30 + (la - rdFld s (aFbMir n) 16 12 * 2 ^ 30))

/-- The partner's hub ID (FB_BUDDY). -/
def buddy (s : State) : HubId := BitVec.ofNat 12 (rdFld s aFbBuddy 3 12)

/-- The line as this hub keeps it: a line of a served range under its mirror address (R348). -/
def inLine (s : State) (l : LineAddr) : LineAddr :=
  if homeOf l = hubId s || homeOf l ≠ buddy s then l
  else match mirServed s (laOf l) with
    | some n => mirLine s n (laOf l)
    | none => l

/-- The line as other hubs and hosts know it: the partner's address of a served line (R348). -/
def outLine (s : State) (l : LineAddr) : LineAddr :=
  if homeOf l ≠ hubId s then l
  else match mirOwn s (laOf l) with
    | none => l
    | some n => if rdBit s (aFbMir n) 1 then
        BitVec.ofNat 54 ((buddy s).toNat * 2 ^ 42 + rdFld s (aFbMir n) 16 12 * 2 ^ 30 + (laOf l - rdFld s (aFbMir n + 8) 0 12 * 2 ^ 30)) else l

/-- A line with no entry is in A with FV = 0 while its served range is rebuilding (R349). -/
def rebuilding (s : State) (l : LineAddr) : Bool :=
  match mirOwn s (laOf l) with
  | some n => rdBit s (aFbMir n) 1 && rdBit s (aFbMir n) 2
  | none => false

/-- The directory entry of an own line; state U with empty pointers where it has none (R86, R89), or A (R349). -/
def dirGet (s : State) (l : LineAddr) : DirEnt :=
  let h := hubId s
  match dirFindIn s l 16 0 with
  | some k => mgetD {} s.dir k
  | none => { tag := dirTag l, st := if rebuilding s l then .a else .u, p0 := h, p1 := h, p2 := h }

/-- A way that a recall frees for an allocation that waits is kept for it (R143). -/
def dirKept (s : State) (k : Nat) : Bool := (s.home.wayWait.any fun x => x.2.2.way = some k) || s.home.waiting.any fun t => t.way = some k

/-- The first free way of the line's directory set that is kept for no other allocation. -/
def dirFree (s : State) (l : LineAddr) : Nat → Nat → Option Nat
  | 0, _ => none
  | k + 1, w => if (mget s.dir (dirKey l w)).isNone && !dirKept s (dirKey l w) then some (dirKey l w) else dirFree s l k (w + 1)

/-- There is a way for the line's entry. -/
def dirRoom (s : State) (l : LineAddr) : Bool := (dirFindIn s l 16 0).isSome || (dirFree s l 16 0).isSome

/-- The line's entry written: KEEP is set by every decision that touches the entry (Table 03.4). U frees the way (R86), which an open
transaction keeps until it ends (R119, R142). -/
def dirPut (l : LineAddr) (e : DirEnt) (s : State) : State :=
  match dirFindIn s l 16 0 with
  | some k => if e.st = .u ∧ e.busy = false then { s with dir := mdel s.dir k }
              else { s with dir := mset s.dir k { e with tag := dirTag l, keep := true } }
  | none =>
    if e.st = .u then s else
      match dirFree s l 16 0 with
      | some k => count (aPcSlc (sliceOf l) 4) 1 { s with dir := mset s.dir k { e with tag := dirTag l, keep := true } }
      | none => s

/-- BUSY of the line's directory entry (R119); an entry left in U is freed with its transaction (R86). -/
def setBusy (l : LineAddr) (b : Bool) (s : State) : State :=
  if (dirFindIn s l 16 0).isNone then s else dirPut l { dirGet s l with busy := b } s

/-- A decision reads the line's entry: KEEP is set (Table 03.4). -/
def dirKeep (l : LineAddr) (s : State) : State :=
  match dirFindIn s l 16 0 with
  | some k => { s with dir := mset s.dir k { mgetD {} s.dir k with keep := true } }
  | none => s

/-- The hubs that an entry's pointers name (R89). -/
def ptrs (s : State) (e : DirEnt) : List HubId :=
  let h := hubId s
  match e.st with
  | .p => [e.p0, e.p1, e.p2].filter (· ≠ h)
  | .a => if e.fv then [e.p0] else []
  | .x => [e.p0]
  | _ => []

/-- The F holder of an entry. -/
def fHolder (e : DirEnt) : Option HubId := if (e.st = .p ∨ e.st = .a) ∧ e.fv = true then some e.p0 else none

/-- The entry after an `Evc` from `h` is applied to it (Table 03.9). -/
def dirEvc (s : State) (h : HubId) (e : DirEnt) : DirEnt :=
  let me := hubId s
  let none_ : DirEnt := { e with st := .u, fv := false, p0 := me, p1 := me, p2 := me }
  match e.st with
  | .p =>
    let fv := e.fv && e.p0 ≠ h
    let e' := { e with fv := fv, p0 := if e.p0 = h then me else e.p0, p1 := if e.p1 = h then me else e.p1,
                       p2 := if e.p2 = h then me else e.p2 }
    if e'.p0 = me ∧ e'.p1 = me ∧ e'.p2 = me then none_ else e'
  | .a => if e.fv = true ∧ e.p0 = h then { e with fv := false, p0 := me } else e
  | .x => if e.p0 = h then none_ else e
  | _ => e

/-- A sharer added to an entry in P: a fourth takes it to A (R106). -/
def dirAdd (s : State) (h : HubId) (e : DirEnt) : DirEnt :=
  let me := hubId s
  if e.p0 = me ∧ e.fv = false then { e with p0 := h }
  else if e.p1 = me then { e with p1 := h } else if e.p2 = me then { e with p2 := h }
  else { e with st := .a, p0 := if e.fv then e.p0 else me, p1 := me, p2 := me }

/-- An entry in P or A with FV = 0 that names `h` as its F holder (Table 03.9, R106). -/
def dirAddF (s : State) (h : HubId) (e : DirEnt) : DirEnt :=
  let me := hubId s
  if e.st = .a then { e with fv := true, p0 := h }
  else
    let e' := if e.p0 = me then e else dirAdd s e.p0 { e with p0 := h, fv := true }
    { e' with p0 := h, fv := true }

/-- An entry in X that names `h`. -/
def dirOwner (s : State) (h : HubId) (e : DirEnt) : DirEnt :=
  { e with st := .x, fv := false, p0 := h, p1 := hubId s, p2 := hubId s }

/-- An entry in P whose F holder is `h`. -/
def dirP (s : State) (h : HubId) (e : DirEnt) : DirEnt :=
  { e with st := .p, fv := true, p0 := h, p1 := hubId s, p2 := hubId s }

/-- The entry as U. -/
def dirU (s : State) (e : DirEnt) : DirEnt :=
  { e with st := .u, fv := false, p0 := hubId s, p1 := hubId s, p2 := hubId s }

/-! ### Dies (R192) -/

/-- One step of the die. -/
def dieStep (d : Word) : Word :=
  let v := d.toNat % 2 ^ 32
  let w := v * 2 % 2 ^ 32
  BitVec.ofNat 64 (if v.testBit 31 then w ^^^ 0x00400007 else w)

/-- The die of slice `k` (its state after reset: DESIGN CHOICE, log entry 3). -/
def die (s : State) (k : Nat) : Word := mgetD 1 s.hc.dies k

/-- A choice among `n` candidates by the die of slice `k`. -/
def draw (k n : Nat) (s : State) : Nat × State :=
  let d := dieStep (die s k)
  (fld d 0 16 % n, { s with hc := { s.hc with dies := mput 1 s.hc.dies k d } })

/-! ### Interleave sets -/

/-- Entry `n` of the interleave sets covers LA (in units of 64 GiB) when enabled (Table 02.3). -/
def setCovers (s : State) (n la64 : Nat) : Bool :=
  let w := rd s (aDpIset n)
  bit w 0 && decide (fld w 16 12 ≤ la64) && decide (la64 < fld w 16 12 + fld w 32 13)

/-- A Standard interleave set with a cellar port FAILED: every access to it is handled as R43 handles an unpopulated address (R292). -/
def setFailed (s : State) (n : Nat) : Bool :=
  let w := rd s (aDpIset n)
  !bit w 1 && (setBits 8 (fld w 6 8)).any fun d => rdBit s (aDpStat d) 9

/-- Some cellar port is FAILED (R292). -/
def anyFailed (s : State) : Bool := (List.range 8).any fun d => rdBit s (aDpStat d) 9

/-- The line's set is a Standard one with a failed cellar port (R292). -/
def inFailedSet (s : State) (l : LineAddr) : Bool :=
  anyFailed s && (List.range 16).any fun n => setCovers s n (laOf l / 2 ^ 30) && setFailed s n

/-- An own line whose data stays in the hub cache while its set has failed (Table 07.4). -/
def keptDirty (s : State) (l : LineAddr) : Bool := isOwn s l && inFailedSet s l

/-! ### Victims (R191) -/

/-- A host step of a maintenance operation: the back-invalidation of a CLEAN, or of a release. -/
def maintains (x : HostStep) : Bool :=
  match x.cont with
  | .clean _ | .release _ _ => true
  | _ => false

/-- A way is busy: one of its sectors has an open miss register, a maintenance operation acts on it, or it is being evicted (R191). -/
def wayBusy (s : State) (k : Nat) : Bool :=
  let w := getWay s k
  (!w.st.isEmpty && regionOpen s w.addr) || ((mget s.hc.ways k).isSome && regionFills s w.addr)
    || (!w.st.isEmpty && s.hst.steps.any fun x => maintains x && regionOf s x.line = w.addr)
    || s.hc.evs.any (fun e => e.way = k)

/-- The way holds dirty data that its failed set has it keep (Table 07.4). -/
def wayKept (s : State) (k : Nat) : Bool :=
  anyFailed s && (getWay s k).st.any fun e => e.2 = .m && keptDirty s (lineAt s (getWay s k).addr e.1)

/-- The candidates of a set: neither retired nor busy, and no holder of data that must stay; on QD48-C1 without lines in M while another remains (R191). -/
def candidates (s : State) (set : Nat) : List Nat :=
  let c := ((List.range 16).map (16 * set + ·)).filter fun k =>
    !(getWay s k).ret && !wayBusy s k && !wayKept s k && !s.hc.retWant.contains k && s.hc.pcWant ≠ some (k / 16 % 128)
  if isH1 s then c else
    let c' := c.filter fun k => mgetD .i (getWay s k).st 0 ≠ .m
    if c'.isEmpty then c else c'

/-- The victim way of a set, if it has a candidate: the lowest way without a valid sector, else one the die takes among those
aged to 15. -/
def victim (slice set : Nat) (s : State) : Option (Nat × State) :=
  let c := candidates s set
  if c.isEmpty then none else
    match c.find? (fun k => (getWay s k).st.isEmpty) with
    | some k => some (k, s)
    | none =>
      let m := c.foldl (fun m k => max m (getWay s k).rrpv) 0
      let s := c.foldl (fun s k => setWay k { getWay s k with rrpv := (getWay s k).rrpv + (15 - m) } s) s
      let t := c.filter fun k => (getWay s k).rrpv = 15
      let x := draw slice t.length s
      some (t.getD x.1 0, x.2)

/-- No way can be allocated for the line (R597): NOALLOC, every way retired, or no candidate. -/
def noWay (s : State) (l : LineAddr) : Bool :=
  rdBit s aHcCtl 0 || (candidates s (cacheSet s l)).isEmpty

/-! ### Own addresses -/

/-- An own local address LA[47:6] is populated (R42, R292). -/
def populated (s : State) (la : Nat) : Bool :=
  let u := la / 2 ^ 30
  decide (u < rdFld s aDrHomelim 0 13) && (List.range 16).any fun n => setCovers s n u && !setFailed s n

/-- The interleave set that covers LA[47:6] = `la`. -/
def isetOf (s : State) (la : Nat) : Option Nat := (List.range 16).find? fun n => setCovers s n (la / 2 ^ 30)

/-- The valid Key Range Table entries, as (index, word 0, LAST), from the registers written (an unwritten entry is not valid). -/
def krtValid (s : State) : List (Nat × Word × Nat) :=
  s.regs.filterMap fun e =>
    let a := 8 * e.1
    if aSlKrt 0 ≤ a ∧ a < aSlKrt 4096 ∧ a % 16 = 0 ∧ bit e.2 0 = true then
      some ((a - aSlKrt 0) / 16, e.2, rdFld s (a + 8) 0 34) else none

/-- The key range that covers unit LA[47:14]: a Key Range Table entry, or the range of an enabled mirror entry as a Normal one with that
entry's slot and generation (R339), numbered from 4096. An entry idle since the hub left the fabric covers nothing (R337, DEDUCED, log entry 117). -/
def krtOf (s : State) (unit : Nat) : Option (Nat × Word) :=
  match (krtValid s).find? fun e => decide (e.1 ∉ s.sl.idle) && decide (fld e.2.1 21 34 ≤ unit) && decide (unit ≤ e.2.2) with
  | some e => some (e.1, e.2.1)
  | none => (mirOwn s (unit * 256)).map fun n =>
      (4096 + n, mkWord [(0, 1, 1), (3, 10, rdFld s (aFbMir n + 8) 16 10), (13, 8, rdFld s (aFbMir n + 8) 26 8)])

/-- The type of an own line: 0 Normal, 1 Guarded, 2 Device-like (R75). -/
def typeOf (s : State) (l : LineAddr) : Nat :=
  match krtOf s (laOf l / 256) with
  | some (_, w) => fld w 1 2
  | none => 0

/-- An own Device-like line. -/
def isDevice (s : State) (l : LineAddr) : Bool := isOwn s l && typeOf s l = 2

/-- An own Guarded line. -/
def isGuarded (s : State) (l : LineAddr) : Bool := isOwn s l && typeOf s l = 1

/-- The slot that an entry names holds a key of the generation it expects (R72). -/
def keyed (s : State) (w : Word) : Bool :=
  let k := rd s (aSlKs (fld w 3 10))
  (fld k 0 2 = 1 || fld k 0 2 = 2) && fld k 2 8 = fld w 13 8

/-- The slot and generation that the line's entry names now (R51). -/
def keyNow (s : State) (la : Nat) : Nat × Nat :=
  match krtOf s (la / 256) with
  | some (_, w) => (fld w 3 10, fld w 13 8)
  | none => (0, 0)

/-- The slot and generation that a Key Range Table entry names. -/
def entKey (w : Word) : Nat × Nat := (fld w 3 10, fld w 13 8)

/-- The type of an own line under the entry of its request's home decision, else under its entry now (R51, R75). -/
def typeIn (s : State) (l : LineAddr) (ent : Option Word) : Nat :=
  match ent with
  | some w => fld w 1 2
  | none => typeOf s l

/-- The entry that governs an own line: that of its request's home decision, else its entry now (R51). -/
def entIn (s : State) (l : LineAddr) (ent : Option Word) : Option Word :=
  ent.orElse fun _ => (krtOf s (laOf l / 256)).map (·.2)

/-- Why an own line is answered as in R43, as (source, CAUSE): unpopulated, without a key range, the home not ROOTED, or its slot not
holding the expected generation (R42, R71, R72, R448). -/
def refusedOwn (s : State) (l : LineAddr) : Option (Nat × Nat) :=
  if !isOwn s l then some (192, 2)
  else if !populated s (laOf l) then some (192, 0)
  else if rdFld s aSlStat 0 2 ≠ 2 then some (192, 2)
  else match krtOf s (laOf l / 256) with
    | none => some (192, 2)
    | some (_, w) => if keyed s w then none else some (228, 0)

/-- The key slot of an own line is RETIRING (R454). -/
def retiring (s : State) (l : LineAddr) : Bool :=
  match krtOf s (laOf l / 256) with
  | none => false
  | some (_, w) => rdFld s (aSlKs (fld w 3 10)) 0 2 = 2

/-- The slice of the line drains or is held (R572): PM_DRAIN. -/
def draining (s : State) (l : LineAddr) : Bool :=
  (rdBit s aPmDrain 0 || rdBit s aPmDrain 6) && rdFld s aPmDrain 1 5 = sliceOf l

/-- An own address of a mirror's copy, reached through this hub's own FPAs: no request reaches it (R340). -/
def mirrorNative (s : State) (l : LineAddr) : Bool := isOwn s l && (mirOwn s (laOf l)).isSome

/-- A takeover table entry covers the line (R350): the buddy that serves it. -/
def tkoBuddy (s : State) (l : LineAddr) : Option HubId :=
  ((List.range 64).find? fun n =>
    let w := rd s (aFbTko n)
    bit w 0 && decide (fld w 1 12 = (homeOf l).toNat) && (List.range (fld w 25 4)).any fun k =>
      let r := rdFld s (aFbTko n + 8 * (k / 2 + 1)) (32 * (k % 2)) 32
      decide (nfld r 0 12 ≤ laOf l / 2 ^ 30) && decide (laOf l / 2 ^ 30 < nfld r 0 12 + nfld r 12 13)).map fun n =>
        BitVec.ofNat 12 (rdFld s (aFbTko n) 13 12)

/-- The hub that serves a line: its home, or the buddy that took its range over (R350). -/
def homeTarget (s : State) (l : LineAddr) : HubId := (tkoBuddy s l).getD (homeOf l)

/-- Where the death of hub `h` stands for demands on its lines: 0 not dead, 1 they wait, 2 they no longer do (R153, R350). -/
def deadWait (s : State) (h : HubId) : Nat := mgetD 0 s.fab.dead h.toNat

/-- The hub may cache lines homed on `h` (R56): its own bit always reads 1. -/
def mayCache (s : State) (h : HubId) : Bool :=
  h = hubId s || rdBit s (aFbCache (h.toNat / 64)) (h.toNat % 64)

/-- Hub `h` is a member of this home's snoop domain (R55): the own bit always reads 1. -/
def member (s : State) (h : HubId) : Bool :=
  h = hubId s || rdBit s (aDrSdom (h.toNat / 64)) (h.toNat % 64)

/-- The members of the snoop domain other than the home, from the membership words that are not zero. -/
def members (s : State) : List HubId :=
  (s.regs.flatMap fun e =>
    let a := 8 * e.1
    if aDrSdom 0 ≤ a ∧ a < aDrSdom 64 then (setBits 64 e.2.toNat).map fun b => BitVec.ofNat 12 (8 * (a - aDrSdom 0) + b) else []).filter
      fun h => h ≠ hubId s

end Sys2Proof.Machine
end

