-- ==== Sys2Proof/Machine/Send.lean ====
section
/-! DEFINITION. Sending Idior messages (R302, R313 to R320): the header, the virtual channel, the output port, and waiting
for one. -/

namespace Sys2Proof.Machine

/-- The message class of an opcode (Table 08.4, R313): REQ 0, SNP 1, RSP 2, DAT 3, WB 4, MGT 5. -/
def classOf : Opc → Nat
  | .rdS | .rdX | .rdO | .upg | .wrL | .wrP | .atm | .fnc => 0
  | .snpS | .snpX | .snpI | .snpBc => 1
  | .gntX | .ack | .ackE | .cmp | .wbAck | .fin | .mrAck | .rdr => 2
  | .datS | .datF | .datE | .datM | .fwdS | .fwdX | .ackD => 3
  | .evc | .wbD | .mrW | .mrCtl => 4
  | _ => 5

/-- The payload slots of a coherence message (Table 08.4). MGT messages carry their own LEN. -/
def lenOf : Opc → Nat
  | .wrL | .wrP | .atm | .wbD | .mrW | .datS | .datF | .datE | .datM | .fwdS | .fwdX | .ackD => 4
  | _ => 0

/-- The virtual channel of a message (R313). -/
def channelOf (m : Msg) : Nat := 2 * classOf m.opc + m.dl.toNat

/-- The slots a message fills: its header and its payload. -/
def slotsOf (m : Msg) : Nat := 2 + m.len.toNat

/-- Idior port `p` is ACTIVE (Table 08.6). -/
def portActive (s : State) (p : Nat) : Bool := rdFld s (aIpStat p) 0 3 = 3

/-- Link `p`. -/
def link (s : State) (p : Nat) : Link := mgetD {} s.links p

/-- Link `p` replaced. -/
def setLink (p : Nat) (k : Link) (s : State) : State := { s with links := mput {} s.links p k }

/-- The last data flit that port `p` received in order and without error, as it reports it (R306, Table 08.2). -/
def lastGood (k : Link) : Nat := (k.expect + 1023) % 1024

/-- The credits that port `p` holds for channel `c`, reserved and shared (R305). -/
def credits (s : State) (p c : Nat) : Nat :=
  let u := (link s p).used
  (128 - mgetD 0 u c) + (1536 - mgetD 0 u 12)

/-- The route entry for hub `h`. -/
def route (s : State) (h : HubId) : Word := rd s (aFbRt h.toNat)

/-- The port of a list with the most credits for channel `c`; the lowest number on ties (R318). -/
def mostCredits (s : State) (c : Nat) : List Nat → Option Nat
  | [] => none
  | p :: t =>
    match mostCredits s c t with
    | none => some p
    | some q => if credits s q c > credits s p c then some q else some p

/-- The output port of a message for hub `h` on channel `c` (R318). -/
def outPort (s : State) (h : HubId) (c : Nat) : Option Nat :=
  let e := route s h
  let ps := (setBits 12 (fld e 0 12)).filter (portActive s)
  if bit e 24 then mostCredits s c ps else ps.head?

/-- A message queued at the egress of port `p` (R315: the dateline bit by the route entry's DLM, for a message of this hub). -/
def egress (p input : Nat) (cells : List Nat) (m : Msg) (s : State) : State :=
  let dl := m.dl || bit (route s m.dst) (12 + p)
  let m := if m.sr then m else { m with h := { m.h with line := outLine s m.h.line } }
  enqueue (56 + p) ⟨input, m.h.tc.toNat, m.h.epoch.toNat, .msg { m with dl := dl }, cells, 0, 0, 0, false⟩ s

/-- A message leaves, or waits for an ACTIVE output (R318); one that waits for a route of its own raises EV192 once (R44). -/
def dispatch (input : Nat) (cells : List Nat) (m : Msg) (s : State) : State :=
  match outPort s m.dst (channelOf m) with
  | some p => egress p input cells m s
  | none =>
    let s := { s with routeWait := s.routeWait ++ [(m, cells)] }
    if fld (route s m.dst) 0 12 = 0 then fire 192 1 (oLine m.h.line) s else s

/-- There is a route to hub `h` (R44). -/
def hasRoute (s : State) (h : HubId) : Bool := decide (fld (route s h) 0 12 ≠ 0)

/-- A header of this hub. -/
def mkHdr (s : State) (line : LineAddr) (tc epoch : Nat) (rqh : HubId) (rtag htag : Nat) : Hdr where
  src := hubId s
  inc := BitVec.ofNat 8 (rdFld s aFbHubid 16 8)
  tc := BitVec.ofNat 3 tc
  epoch := BitVec.ofNat 16 epoch
  line := line
  rqh := rqh
  rtag := BitVec.ofNat 12 rtag
  htag := BitVec.ofNat 14 htag
  tgt := false
  g := false
  d := false
  fw := false
  xtra := 0

/-- A message of this hub to hub `dst`, issued by the slice of its line. -/
def send (opc : Opc) (dst : HubId) (h : Hdr) (d : Data) (cells : List Nat) (s : State) : State :=
  dispatch (sliceInput (sliceOf h.line)) cells
    { opc := opc, dst := dst, dl := false, sr := false, hops := 0, len := BitVec.ofNat 3 (lenOf opc), h := h, data := d } s

/-- A cell of the protocol reserve, as a list: for a write-back that the hub cache starts itself (R32, Table 01.7), or for a response that waits at egress
(R314); none while the share is full. -/
def protoCell (tc : Nat) (s : State) : List Nat × State :=
  (takeFrom (backShare s) tc 1 s).getD ([], s)

/-- A header-only message that is queued in the protocol reserve (R314, Table 01.7): the responses that RSP, DAT and WB messages cause, and `Evc`. -/
def queuedInReserve (opc : Opc) : Bool := opc = .fin || opc = .wbAck || opc = .evc

/-- A message without payload; `caused` says that a message which the hub takes without waiting has caused it (R314). -/
def send0 (opc : Opc) (dst : HubId) (h : Hdr) (s : State) (caused : Bool := false) : State :=
  if caused || queuedInReserve opc then
    let x := protoCell h.tc.toNat s
    send opc dst h Data.zero x.1 x.2
  else send opc dst h Data.zero [] s

end Sys2Proof.Machine
end

