-- ==== Sys2Proof/Machine/Cache.lean ====
section
/-! DEFINITION. The operations of the hub cache and of the hosts' side that the flows of 03 to 05 share: host steps, miss registers,
evictions and releases, cellar accesses, installs, and answers to demands. -/

namespace Sys2Proof.Machine

/-! ### Windows (R46) -/

/-- Window `n` of port `p` matches the host address. -/
def winHit (w0 : Word) (hpa : Nat) : Bool :=
  let sz := fld w0 8 6
  bit w0 0 && decide (hpa / 2 ^ sz = fld w0 16 22 * 2 ^ 30 / 2 ^ sz)

/-- The valid window of port `p` that the host address matches: word 0 and word 1. -/
def winOf (s : State) (p : Nat) (hpa : Hpa) : Option (Word × Word) :=
  ((List.range 256).find? fun n => winHit (rd s (aHpWin p n)) hpa.toNat).map fun n => (rd s (aHpWin p n), rd s (aHpWin p n + 8))

/-- The FPA that a host address reaches through a window (R46). -/
def winFpa (w0 w1 : Word) (hpa : Nat) : Nat :=
  let sz := fld w0 8 6
  fld w1 0 30 * 2 ^ 30 + hpa % 2 ^ sz

/-- The host address of a line in the window of two words, where the window covers the line. -/
def hpaIn (w0 w1 : Word) (l : LineAddr) : Option Hpa :=
  if l.toNat * 64 / 2 ^ fld w0 8 6 = fld w1 0 30 * 2 ^ 30 / 2 ^ fld w0 8 6 then
    some (BitVec.ofNat 52 (fld w0 16 22 * 2 ^ 30 + l.toNat * 64 % 2 ^ fld w0 8 6))
  else none

/-- The host address under which port `p`'s host holds a line: from its valid window that covers the line, else from a retiring one (R53; which of the
two where both cover it: DESIGN CHOICE, log entry 104). -/
def hpaOf (s : State) (p : Nat) (l0 : LineAddr) : Option Hpa :=
  let l := outLine s l0
  match (List.range 256).findSome? fun n => if rdBit s (aHpWin p n) 0 then hpaIn (rd s (aHpWin p n)) (rd s (aHpWin p n + 8)) l else none with
  | some h => some h
  | none => s.bg.findSome? fun t => match t.kind with
    | .windowSweep q _ => if q.val = p then hpaIn (BitVec.ofNat 64 t.arg) (BitVec.ofNat 64 (t.arg / 2 ^ 64)) l else none
    | _ => none

/-! ### Host steps (R102, R104, R109) -/

/-- The host on port `p` has been declared dead and is not re-admitted (R146, R148). -/
def hostDead (s : State) (p : Nat) : Bool := p ∈ s.hst.refused

/-- A back-invalidate snoop to port `p` is in progress for the line (R139). -/
def biTo (s : State) (l : LineAddr) (p : Nat) : Bool :=
  s.hst.steps.any fun x => x.line = l && x.snps.any fun b => b.port = p

/-- A host step on the line is open. -/
def stepOn (s : State) (l : LineAddr) : Bool := s.hst.steps.any fun x => x.line = l

/-- The snoop message of a kind: 0 cur, 1 data, 2 inv. -/
def biMsg (kind : Nat) (hpa : Hpa) : HostAns :=
  if kind = 0 then .biSnpCur hpa else if kind = 1 then .biSnpData hpa else .biSnpInv hpa

/-- A back-invalidate snoop sent to port `p`'s host, in the class of the request that caused it (R245), and counted. -/
def sendBi (l : LineAddr) (kind p tc epoch : Nat) (hpa : Hpa) (s : State) : State :=
  count (aHpCnt p 2) 1 (count (aPcSlc (sliceOf l) 12) 1 (toHost p (sliceOf l) tc epoch [] l (biMsg kind hpa) s))

/-- One host of a step: a dead host, or one that no window covers, counts as answered `BIRspI` (R53, R146); where a snoop to it for
the line is in progress the step shares its answer, and snoops the host again if that answer is not enough; any other is sent the snoop. -/
def snoopHost (l : LineAddr) (kind p tc epoch : Nat) (s : State) : State × List BiSnp :=
  if hostDead s p then (hfClear l p s, [])
  else match hpaOf s p l with
    | none => (fire 194 5 (oLine l) (hfClear l p s), [])
    | some hpa => if biTo s l p then (s, [⟨p, kind, 0⟩]) else (sendBi l kind p tc epoch hpa s, [⟨p, kind, 1⟩])

/-- The snoops of a step sent to a list of hosts. -/
def snoopHosts (l : LineAddr) (kind tc epoch : Nat) : List Nat → State → State × List BiSnp
  | [], s => (s, [])
  | p :: t, s =>
    let x := snoopHost l kind p tc epoch s
    let y := snoopHosts l kind tc epoch t x.1
    (y.1, x.2 ++ y.2)

/-- Every byte of a line. -/
def fullMask : BitVec 64 := BitVec.allOnes 64

/-- The hosts of a list are snooped for the line in the class `tc` of the request that asks for it; with none left to answer `k` follows at
once, else the step stays open with its continuation and the dirty data that it starts with, the line's host-filter entry busy (Table 03.5). -/
def withHosts (l : LineAddr) (kind : Nat) (hosts : List Nat) (tc epoch : Nat) (c : Cont) (k : State → State) (s : State)
    (dirty : Option Data := none) : State :=
  let x := snoopHosts l kind tc epoch hosts s
  if x.2.isEmpty then k x.1
  else
    let s := hfPut l { hfGet x.1 l with busy := true } x.1
    { s with hst := { s.hst with steps := s.hst.steps ++ [⟨l, x.2, dirty, fullMask, c, tc, epoch⟩] } }

/-- The exclusive host of the line, as a list. -/
def exclHost (s : State) (l : LineAddr) : List Nat := if (hfGet s l).hx then hostsOf s l else []

/-! ### Cellar accesses (R195) -/

/-- A cellar write is stored poisoned or lost: the persist fences that wait for it, that cover the write which it completes, or that are cleaning, end with
CODE 2 (Table 07.3); a fence that cleans cannot tell whose data a dirty line holds (R282). -/
def lostWrite (id : Nat) (s : State) : State :=
  let whose := s.cel.owed.filterMap fun w => match w.who with
    | .demand d => if w.id = id then some d.id else none
    | _ => none
  let mine := fun (f : Fence) => f.persist && (decide (id ∈ f.cel) || decide (f.step = 1 ∨ f.step = 2) || whose.any fun i => i ∈ f.covered)
  { s with ports := { s.ports with fences := s.ports.fences.map fun e => (e.1, if mine e.2 then { e.2 with lost := true } else e.2) } }

/-- A read of an own line queued in the cellar path under the entry `ent` of its request's home decision, else under its entry now (R51), with the cells
that it holds. -/
def cellarRead (l : LineAddr) (dest : CelTo) (s : State) (cells : List Nat := []) (ent : Option Word := none) : State :=
  let key := match ent with
    | some w => entKey w
    | none => keyNow s (laOf l)
  let op : CelOp := ⟨s.cel.next, l, none, dest, false, false, false, key, cells, false, none⟩
  { s with cel := { s.cel with ops := s.cel.ops ++ [op], next := s.cel.next + 1 } }

/-- A write of the masked bytes of an own line queued in the cellar path, its data in `cells` until its granule is written (R25, R33). A write whose home
decision is made goes under the entry of that decision, `ent` (R51); other data to a range whose entry was cleared or whose slot holds no key of that
generation is discarded with an event (R72, R74), and so is data to an unpopulated address (R43), where a failed set makes the shutdown state dirty (R292).
A correct-and-write of its granule is dropped (R402). `cls` is the class and epoch of the request that the write serves. -/
def cellarPut (l : LineAddr) (d : Data) (mask : BitVec 64) (s : State) (cells : List Nat := []) (ent : Option Word := none)
    (drain : Bool := false) (cls : Option (Nat × Nat) := none) : State :=
  let n := s.cel.next
  let s := { s with cel := { s.cel with next := n + 1 } }
  if !populated s (laOf l) then
    let s := fire 192 0 (oLine l) (doneReading cells s)
    if inFailedSet s l then { markDirty (lostWrite n s) with cel := { s.cel with lost := true } } else s
  else match entIn s l ent with
  | none => fire 192 3 (oLine l) (doneReading cells s)
  | some w =>
    if ent.isNone && !keyed s w then fire 228 0 (oLine l) (doneReading cells s)
    else
    let fixes := s.prot.fixes.filter fun x => !(decide (8 ≤ x.1) && x.2.2 / 4 = laOf l / 4)
    let op : CelOp := ⟨n, l, some (d, mask), .nobody, false, false, false, entKey w, cells, drain, cls⟩
    { s with cel := { s.cel with ops := s.cel.ops ++ [op] }, prot := { s.prot with fixes := fixes } }

/-- A merging-buffer entry without its older bytes that a newer write of the line replaces (R201). -/
def mbWithout (l : LineAddr) (mask : BitVec 64) (e : MbEnt) : MbEnt :=
  if e.granule ≠ l.toNat / 4 then e
  else { e with mask := BitVec.ofNat 256 (e.mask.toNat ^^^ (e.mask.toNat &&& (mask.toNat <<< (64 * (l.toNat % 4))))) }

/-- Entries of the merging buffer for lines of the set start to drain. -/
def drainOf (p : LineAddr → Bool) (s : State) : State :=
  let f := fun (e : MbEnt) => if p (BitVec.ofNat 54 (4 * e.granule)) then { e with draining := true } else e
  { s with hc := { s.hc with mbuf := s.hc.mbuf.map f } }

/-- A write of an own line that goes past the merging buffer: bytes that wait there for the line are older, and must not follow it. -/
def cellarWrite (l : LineAddr) (d : Data) (mask : BitVec 64) (s : State) (cells : List Nat := []) (ent : Option Word := none)
    (cls : Option (Nat × Nat) := none) : State :=
  cellarPut l d mask { s with hc := { s.hc with mbuf := s.hc.mbuf.map (mbWithout l mask) } } cells ent false cls

/-- A write-back of an own line that the hub cache starts itself, its data in a cell of the protocol reserve (R32, R204), in class `tc`. -/
def cellarBack (l : LineAddr) (d : Data) (tc epoch : Nat) (s : State) : State :=
  let x := protoCell tc s
  cellarWrite l d fullMask x.2 x.1 none (some (tc, epoch))

/-- The bit mask of a byte mask over `n` bytes. -/
def maskBits : Nat → Nat → Nat
  | 0, _ => 0
  | n + 1, m => maskBits n m ||| (if m.testBit n then 255 <<< (8 * n) else 0)

/-- The PZ bits of words that the byte mask does not cover in full. -/
def pzKeep (mask : BitVec 64) : Nat := bitsOf ((List.range 8).filter fun k => nfld mask.toNat (8 * k) 8 ≠ 255)

/-- Masked bytes laid over a line (R404 to R406: a word that the mask covers in full takes the new word's poison; any other word
keeps its poison and takes the new data's too where bytes of it are written). -/
def mergeData (old new : Data) (mask : BitVec 64) : Data :=
  let m := maskBits 64 mask.toNat
  let touched := bitsOf ((List.range 8).filter fun k => nfld mask.toNat (8 * k) 8 ≠ 0)
  ⟨BitVec.ofNat 512 ((old.bytes.toNat ^^^ (old.bytes.toNat &&& m)) ||| (new.bytes.toNat &&& m)),
   BitVec.ofNat 8 ((old.pz.toNat &&& pzKeep mask) ||| (new.pz.toNat &&& touched))⟩

/-- A line of which only the masked bytes are known: every word not covered in full counts as poisoned (log entry 10). -/
def knownPart (d : Data) (known : BitVec 64) : Data := mergeData Data.poison d known

/-! ### Miss registers (R185) -/

/-- Miss registers per slice (R13). -/
def mrCount (s : State) : Nat := if isH1 s then 128 else 64

/-- The registers of a slice. -/
def mrsOf (s : State) (k : Nat) : List MissReg := (s.req.mrs.filter fun e => e.1 / 128 = k).map (·.2)

/-- The register that a demand takes in slice `k`: its number and its share (4: shared); class `tc`, prefetch or not (Table 05.5). -/
def mrPick (s : State) (k tc : Nat) (pf : Bool) : Option (Nat × Nat) :=
  let l := mrsOf s k
  let own := fun c => rdFld s aHcMrq (8 * c) 8
  let heldBy := fun sh => (l.filter fun m => m.share = sh).length
  let shared := mrCount s - (own 0 + own 1 + own 2 + own 3)
  let share :=
    if !pf && decide (tc < 4) && decide (heldBy tc < own tc) then some tc
    else if heldBy 4 < shared ∧ (!pf ∨ (l.filter fun m => m.pf).length < rdFld s aHcPfctl 8 8) then some 4 else none
  share.bind fun sh => (firstFree (fun i => (mget s.req.mrs (128 * k + i)).isSome) (mrCount s) 0).map fun i => (128 * k + i, sh)

/-- Miss register `n` written. -/
def mrPut (n : Nat) (m : MissReg) (s : State) : State := { s with req := { s.req with mrs := mset s.req.mrs n m } }

/-- Miss register `n` freed. -/
def mrFree (n : Nat) (s : State) : State := { s with req := { s.req with mrs := mdel s.req.mrs n } }

/-- A demand waits, to be decided again. -/
def wait (w : Why) (d : Demand) (s : State) : State := { s with req := { s.req with waits := s.req.waits ++ [(w, { d with ent := none })] } }

/-! ### Releases (R83, R84, R204 to R206) -/

/-- An entry of the eviction table for the line. -/
def evOf (s : State) (l : LineAddr) : Option EvEnt := s.hc.evt.find? fun e => e.line = l

/-- The line has neither a cache state nor an HSTATE, nor data kept for a release that waits. -/
def dropLine (l : LineAddr) (s : State) : State :=
  let s := hfSetSt l .i (setCacheSt l .i s)
  { s with req := { s.req with due := s.req.due.map fun x => if x.line = l then { x with data := none } else x } }

/-- A line that its hub keeps dirty data of. -/
def dirtyHere (s : State) (l : LineAddr) : Bool := standing s l = .m

/-- The share of the write-backs that the hub cache starts itself has `n` cells left (R32, Table 01.7). -/
def protoRoom (s : State) (n : Nat) : Bool := decide (larUsed s (backShare s) + n ≤ shareLimit s (backShare s))

/-- Entries that the eviction table of a slice can still take (R204). -/
def evRoom (s : State) (k : Nat) : Nat :=
  (if isH1 s then 256 else 128) - (s.hc.evt.filter fun e => sliceOf e.line = k).length

/-- A release of the line can go: no miss register is open for it (R82), dirty data finds a cell of the protocol reserve (R32, R206), and a message of
the release an entry of the eviction table (R204). -/
def releaseReady (s : State) (l : LineAddr) (dirty : Bool) : Bool :=
  let dirty := dirty || dirtyHere s l
  (mrOf s l).isNone && (!dirty || protoRoom s 1) &&
    (isOwn s l || (!dirty && decide (standing s l = .i)) || decide (evRoom s (sliceOf l) ≠ 0))

/-- A line given up (R83): own dirty data goes to the cellar, and stays in the hub cache while its set has failed (Table 07.4); a remote standing is released by `Evc`, or by `WbD` with the data in a cell of the
protocol reserve, which the eviction-table entry names and keeps until `WbAck` (R204, R206, R333). `dirty` is what a host returned (R94, R597). Nothing happens at standing I without such data. -/
def releaseNow (l : LineAddr) (tc epoch : Nat) (dirty : Option Data) (s : State) : State :=
  let st := standing s l
  let data := (dirty.orElse fun _ => heldM s l).getD (cacheData s l)
  let isM := st = .m || dirty.isSome
  if isM && keptDirty s l && cacheSt s l ≠ .i then setCacheData l data (setCacheSt l .m s)
  else
  let s := dropLine l s
  if isOwn s l then (if isM then cellarBack l data tc epoch s else s)
  else if st = .i && !isM then s
  else
    let k := sliceOf l
    let x := if isM then protoCell tc s else ([], s)
    let s := { x.2 with hc := { x.2.hc with evt := x.2.hc.evt ++ [⟨l, isM, false, if isM then data else Data.zero, x.1, tc, epoch⟩] } }
    let h := mkHdr s l tc epoch (hubId s) 0 0
    if isM then count (aPcSlc k 17) 1 (send .wbD (homeTarget s l) h data x.1 (moreReaders x.1 s))
    else count (aPcSlc k 18) 1 (send0 .evc (homeTarget s l) h s)

/-- A release that falls due: it waits while it cannot go, and keeps the dirty data that a host returned for it. -/
def release (l : LineAddr) (tc epoch : Nat) (dirty : Option Data) (s : State) : State :=
  if !releaseReady s l dirty.isSome then
    let present := decide (cacheSt s l ≠ .i)
    let s := match dirty with
      | some d => if present then setCacheData l d (setCacheSt l .m s) else hfSetSt l .i s
      | none => s
    { s with req := { s.req with due := s.req.due ++ [⟨l, tc, epoch, if present then none else dirty⟩] } }
  else releaseNow l tc epoch dirty s

/-- Every named host is sent `BISnpInv`, then the line is released. -/
def releaseHosts (l : LineAddr) (tc epoch : Nat) (s : State) (dirty : Option Data := none) : State :=
  withHosts l 2 (hostsOf s l) tc epoch (.release tc epoch) (release l tc epoch dirty) s dirty

/-- The valid lines of a way. -/
def wayLines (s : State) (k : Nat) : List LineAddr :=
  let w := getWay s k
  w.st.map fun e => lineAt s w.addr e.1

/-- One valid line of an evicted way given up (R84). -/
def evictLine (tc epoch : Nat) (s : State) (l : LineAddr) : State :=
  let st := cacheSt s l
  if (hfGet s l).pv = 0 then release l tc epoch none s
  else match st, isOwn s l with
    | .s, false => hfSetSt l .s (setCacheSt l .i s)
    | .e, _ => hfSetSt l .e (setCacheSt l .i s)
    | .m, true => let d := cacheData s l
                  if keptDirty s l then s else hfSetSt l .e (setCacheSt l .i (cellarBack l d tc epoch s))
    | .i, _ => s
    | _, _ => releaseHosts l tc epoch s

/-- The record that a way takes when it is allocated (R187, Table 05.7). -/
def newWay (e : FrameEv) : Way := { addr := e.addr, rrpv := e.rrpv, kslot := e.kslot, loc := e.loc }

/-- The data of the frame that takes way `k` under the way's own number. -/
def moveData (k : Nat) (m : SMap Data) : SMap Data :=
  (List.range 64).foldl (fun m i =>
    let d := mgetD Data.zero m (64 * nextWay k + i)
    if d = Data.zero then m else mput Data.zero (mdel m (64 * nextWay k + i)) (64 * k + i) d) m

/-- The evicted way passes to its new frame, with what that frame has taken up meanwhile, once its sectors are released and their host steps
have ended (R204). -/
def frameDone (k : Nat) (s : State) : State :=
  match s.hc.evs.find? (fun e => e.way = k) with
  | none => s
  | some e =>
    if e.started && (getWay s k).st.isEmpty && !s.hst.steps.any (fun x => regionOf s x.line = (getWay s k).addr) then
      let w := mgetD (newWay e) s.hc.ways (nextWay k)
      { s with hc := { s.hc with evs := s.hc.evs.filter (fun x => x.way ≠ k), ways := mput {} (mdel s.hc.ways (nextWay k)) k w,
                                 data := moveData k s.hc.data } }
    else s

/-- The eviction table and the protocol reserve have room for the releases of a way's lines (R204, R206). -/
def evictRoom (s : State) (k : Nat) : Bool :=
  let ls := wayLines s k
  decide (ls.length ≤ evRoom s (k / 16 / (if isH1 s then 65536 else 7168))) &&
    protoRoom s (ls.filter fun l => cacheSt s l = .m).length

/-- An eviction starts its releases when there is room for them (R204); the record of the frame that takes the way stands beside it. -/
def startEvict (e : FrameEv) (s : State) : State :=
  let ls := wayLines s e.way
  let k := e.way / 16 / (if isH1 s then 65536 else 7168)
  let s := if (mget s.hc.ways (nextWay e.way)).isSome then s else setWay (nextWay e.way) (newWay e) s
  if !evictRoom s e.way then
    count (aPcSlc k 27) 1 { s with hc := { s.hc with evs := s.hc.evs ++ [{ e with started := false }] } }
  else
    let s := { s with hc := { s.hc with evs := s.hc.evs ++ [{ e with started := true }] } }
    frameDone e.way (ls.foldl (evictLine e.tc e.epoch) s)

/-- The key slot of the entry that covers an own region (R175). -/
def kslotFor (s : State) (l : LineAddr) : Nat :=
  if isOwn s l then match krtOf s (laOf l / 256) with
    | some (_, w) => fld w 3 10
    | none => 0
  else 0

/-- Every way of the line's set is retired. -/
def allRetired (s : State) (l : LineAddr) : Bool := (List.range 16).all fun w => (getWay s (16 * cacheSet s l + w)).ret

/-- A way allocated for the line's region in the decision of a miss (R187): false where the set has no candidate. A write takes none whose victim's
eviction cannot start at once (`write`; R191). -/
def allocWay (l : LineAddr) (tc epoch : Nat) (pf : Bool) (s : State) (write : Bool := false) : Bool × State :=
  if (findWay s l).isSome then (true, s)
  else if rdBit s aHcCtl 0 then (true, s)
  else match victim (sliceOf l) (cacheSet s l) s with
    | none => (allRetired s l, s)
    | some (k, s) =>
      let e : FrameEv := ⟨k, regionOf s l, kslotFor s l, isOwn s l, if pf then 15 else 14, tc, epoch, true⟩
      if (getWay s k).st.isEmpty then (true, setWay k (newWay e) s)
      else if write && !evictRoom s k then (false, s)
      else (true, startEvict e (count (aHcCnt 5) 1 s))

/-- An HBM access queued at the channel group that holds way `k` (R173); on QD48-C1 the SRAM stack answers in the decision. -/
def hbmQueue (k : Nat) (op : HbmOp) (s : State) : State :=
  let t := k / 16
  let g := t % 128
  { s with hc := { s.hc with hbm := mset s.hc.hbm g (mgetD [] s.hc.hbm g ++ [op]) } }

/-- The line's standing and data placed in its way, where it has one (R188): the install is complete once its write is queued, in the class and epoch
`cls` of its request. -/
def installWay (l : LineAddr) (st : St) (d : Data) (cells : List Nat) (cls : Nat × Nat) (s : State) (part : Bool := false) : State :=
  match findWay s l with
  | none => s
  | some k =>
    let s := setCacheData l d (setWaySt k l st (hfSetSt l .i s))
    if isH1 s then hbmQueue k (.write k l part cells cls) s else doneReading cells s

/-- The line has a way to be placed in. -/
def hasWay (s : State) (l : LineAddr) : Bool := (findWay s l).isSome && !rdBit s aHcCtl 0 || cacheSt s l ≠ .i

/-- A fill takes its place (R188, R597): in its way; without one E and S stay in HSTATE, F as S. Standing M without a way stays with
the miss register (false). -/
def install (l : LineAddr) (st : St) (d : Data) (cells : List Nat) (cls : Nat × Nat) (s : State) : Bool × State :=
  if hasWay s l then (true, installWay l st d cells cls s)
  else match st with
    | .m => (false, s)
    | .f => (true, doneReading cells (hfSetSt l .s s))
    | st => (true, doneReading cells (hfSetSt l st s))

/-! ### Answers to demands -/

/-- Transfers that carry data read from the cache: on QD48-H1 they wait for the HBM access (R23), on QD48-C1 they go at once. -/
def fromCache (l : LineAddr) (outs : List (Nat × Waiter)) (d : Option Demand) (s : State) : State :=
  match findWay s l with
  | some k =>
    let fromHbm := fun (o : Nat × Waiter) => (o.1, { o.2 with input := 48 + k / 16 % 4 })
    if isH1 s then hbmQueue k (.read k l (cacheSt s l ≠ .m) (outs.map fromHbm) d) s else outs.foldl (fun s o => enqueue o.1 o.2 s) s
  | none => outs.foldl (fun s o => enqueue o.1 o.2 s) s

/-- OP of a sample (Table 13.8). -/
def sampleOp (d : Demand) : Nat :=
  match d.kind with
  | .rdS | .rdData => 0
  | .rdX | .inv => 1
  | .write => if d.w.any (fun w => w.full) then 3 else 4
  | .atom _ => 5
  | _ => 2

/-- The sample record of a request (Table 13.8): its latency fields are times, which the model does not keep: free values (log entry 53). -/
def sampleWords (s : State) (x : Sample) (pz : Bool) : List Word :=
  let d := x.d
  let f := fun (i k : Nat) => fld (Config.freeWord (s.free + i)) (20 * k) 20
  let total := (List.range 7).foldl (fun n i => n + f (i / 3) (i % 3)) 0
  let rtag := match mrOf s d.line with
    | some (n, _) => n
    | none => 0
  [mkWord [(0, 16, d.tag.toNat), (16, 12, rtag), (28, 4, d.port), (32, 3, d.tc), (35, 4, sampleOp d), (39, 1, x.hit.toNat), (40, 1, 1),
           (41, 1, pz.toNat), (42, 1, x.keep.toNat), (43, 1, x.rcl.toNat)],
   BitVec.ofNat 64 ((outLine s d.line).toNat * 64), d.acc,
   mkWord [(0, 20, f 0 0), (20, 20, f 0 1), (40, 20, f 0 2)], mkWord [(0, 20, f 1 0), (20, 20, f 1 1), (40, 20, f 1 2)],
   mkWord [(0, 20, f 2 0), (20, 20, satTo (2 ^ 20 - 1) total), (40, 12, (homeOf d.line).toNat)], mkWord [(0, 16, x.ahead)], 0]

/-- A sampled request has its last response (R533): its record goes to PC_SMPCTL.QN. -/
def sampleDone (d : Demand) (pz : Bool) (s : State) : State :=
  match takeFirst (fun (x : Sample) => x.d.src = d.src && x.d.port = d.port && x.d.tag = d.tag && x.d.line = d.line) s.cnt.samples with
  | none => s
  | some (x, rest) =>
    let w := sampleWords s x pz
    let q := rdFld s aPcSmpctl 6 13
    let s' := post q 2 (sliceOf d.line) w { s with free := s.free + 3, cnt := { s.cnt with samples := rest } }
    if (queue s' q).drop = (queue s q).drop then s' else fire 249 0 (oNum q) s'

/-- The same request: its port, tag, line and number. -/
def sameDemand (x d : Demand) : Bool := x.src = d.src && x.port = d.port && x.tag = d.tag && x.line = d.line && x.id = d.id

/-- The transaction that a demand of this hub's own ports has opened on its line. -/
def ownTxn (s : State) (d : Demand) : Option Txn :=
  s.home.opened.find? fun t => t.line = d.line && match t.rq with
    | .own x => sameDemand x d
    | _ => false

/-- A demand of this hub's own ports has its response: the transaction that it opened ends (R98). -/
def ownDone (d : Demand) (s : State) : State :=
  if (ownTxn s d).isNone then s
  else setBusy d.line false { s with home := { s.home with opened := s.home.opened.filter fun x => x.line ≠ d.line } }

/-- A completion of a CXL request without data. -/
def answerHost (d : Demand) (a : HostAns) (s : State) : State :=
  toHost d.port (sliceOf d.line) d.tc d.epoch d.cells d.line a (ownDone d (sampleDone d false s))

/-- Which completion a host read draws, with the host recorded (Table 03.8): HX where the standing allows it. -/
def recordRead (d : Demand) (s : State) : Bool × State :=
  let l := d.line
  match d.kind with
  | .rdS => (false, hfRecord l d.port false s)
  | .rdData =>
    let sole := (hfGet s l).pv &&& (65535 - 2 ^ d.port) = 0
    let x := ownedSt (standing s l) && sole && (!isOwn s l || (dirGet s l).st = .u)
    (x, hfRecord l d.port x s)
  | .rdX | .inv => (true, hfRecord l d.port true s)
  | _ => (false, s)

/-- A Keep window opens on the line (R125), unless the window's length is 0. -/
def openKeep (l : LineAddr) (s : State) : State :=
  if rdFld s aDrKeep 0 8 = 0 ∨ l ∈ s.home.keep then s else { s with home := { s.home with keep := s.home.keep ++ [l] } }

/-- The old value of an atomic's field (R158). -/
def atomOld (a : Atom) (d : Data) : BitVec 128 :=
  BitVec.ofNat 128 (d.bytes.toNat / 2 ^ (8 * a.off.toNat) % 2 ^ (32 * 2 ^ a.size.toNat))

/-- The old value of an atomic's field and the line after it (R158, Table 04.11); none where a word it reads is poisoned. -/
def atomApply (a : Atom) (d : Data) : Option (BitVec 128 × Data) :=
  let n := 4 * 2 ^ a.size.toNat
  let sh := 8 * a.off.toNat
  let m := 2 ^ (8 * n)
  let old := (atomOld a d).toNat
  let x := a.a.toNat % m
  let new := match a.op.toNat with
    | 0 => (old + x) % m
    | 1 => x
    | 2 => if old = x then a.b.toNat % m else old
    | 3 => old &&& x
    | 4 => old ||| x
    | 5 => old ^^^ x
    | _ => old
  let words := bitsOf ((List.range 8).filter fun k => a.off.toNat / 8 ≤ k ∧ 8 * k < a.off.toNat + n)
  if d.pz.toNat &&& words ≠ 0 then none
  else some (BitVec.ofNat 128 old, ⟨BitVec.ofNat 512 (d.bytes.toNat - old * 2 ^ sh + new * 2 ^ sh), d.pz⟩)

/-- The aperture slot's result (R165): DONE, CODE, CMPEQ and OLD, and the result record where the descriptor asked for one. -/
def slotDone (p n code : Nat) (old : BitVec 128) (s : State) : State :=
  let key := 4096 * p + n
  match mget s.slots key with
  | none => s
  | some x =>
    let eq := code = 0 ∧ x.atom.op = 2 ∧ old.toNat = x.atom.a.toNat % 2 ^ (32 * 2 ^ x.atom.size.toNat)
    let y := { x with busy := false, done := true, code := code, cmpeq := decide eq, old := old, waiting := false }
    let s := { s with slots := mset s.slots key y }
    if y.qe then post y.qn 3 (n + 4096 * p) [mkWord [(0, 43, y.tag), (43, 3, code), (46, 1, y.cmpeq.toNat)],
      BitVec.ofNat 64 old.toNat, BitVec.ofNat 64 (old.toNat / 2 ^ 64)] s
    else s

/-- A fence of another hub that waits for no write any more is answered (R276): `Cmp` with FC = 1, zero in LINE. -/
def answerFence (f : Fence) (s : State) : State :=
  let h := mkHdr s 0 f.tc (epochNow s) f.src f.rtag 0
  send0 .cmp f.src { h with xtra := 8 } s

/-- Write number `id` has completed (R166, R271, R274): it is no longer outstanding, and fences no longer wait for it; a persist fence that covers it
watches the cellar writes `cel` that carry its data (Table 07.3). -/
def numberDone (id : Nat) (s : State) (cel : List Nat := []) : State :=
  if (mget s.ports.outst id).isNone then s
  else
    let watch := fun (f : Fence) => if f.persist ∧ id ∈ f.covered then { f with cel := f.cel ++ cel } else f
    let fs := s.ports.fences.map fun e => (e.1, { watch e.2 with covered := e.2.covered.filter (· ≠ id) })
    let ended := fun (e : Nat × Fence) => e.2.slot.isNone && !e.2.persist && e.2.covered.isEmpty
    let s := { s with ports := { s.ports with outst := mdel s.ports.outst id, fences := fs.filter fun e => !ended e } }
    (fs.filter ended).foldl (fun s e => answerFence e.2 s) s

/-- A write of a port has completed; the cellar writes of its line that are queued carry its data. -/
def writeDone (d : Demand) (s : State) : State := numberDone d.id s ((s.cel.ops.filter fun o => o.wr.isSome && o.line = d.line).map fun o => o.id)

/-- An atomic's result to whoever asked (R161, R162, R165, Table 09.2). -/
def answerAtom (d : Demand) (code : Nat) (old : BitVec 128) (s : State) : State :=
  match d.src with
  | .slot n => writeDone d (slotDone d.port n code old (doneReading d.cells (ownDone d (sampleDone d (code ≠ 0) s))))
  | _ => writeDone d (answerHost d (.cplOld d.tag old (code ≠ 0)) s)

/-- A read served with data and the completion its grant draws; `cache` says the data is read from the hub cache. Hosts are
recorded only where `rec` (read-once service records none), and a dead host never (R146). -/
def answerRead (d : Demand) (data : Data) (cache rec : Bool) (s : State) : State :=
  let b := hostBoard s d.port
  let w := fun a => (b, (⟨sliceInput (sliceOf d.line), d.tc, d.epoch, .host a, [], 0, d.line, 0, false⟩ : Waiter))
  let x := if rec && d.src = .host && !hostDead s d.port then recordRead d s else (false, s)
  let s := ownDone d (sampleDone d (data.pz ≠ 0) x.2)
  let s := if x.1 && isOwn s d.line then openKeep d.line s else s
  let outs := match d.src, d.kind with
    | .host, .inv => [w (if rec then .cmpE d.tag else .cmp d.tag)]
    | .host, .rdX => [w (.memData d.tag data), w (if rec then .cmpE d.tag else .cmp d.tag)]
    | .host, .rdData => [w (.memData d.tag data), w (if !rec then .cmp d.tag else if x.1 then .cmpE d.tag else .cmpS d.tag)]
    | .host, .rdS => [w (.memData d.tag data), w (if rec then .cmpS d.tag else .cmp d.tag)]
    | .host, .cur => [w (.memData d.tag data), w (.cmp d.tag)]
    | .agent, .rdS | .agent, .cur => [w (.cplData d.tag d.line data)]
    | _, _ => []
  let s := if outs.isEmpty then doneReading d.cells s else s
  let outs := match outs with
    | o :: t => (o.1, { o.2 with cells := d.cells }) :: t
    | [] => []
  if cache && d.kind ≠ .inv then fromCache d.line outs (some d) s else outs.foldl (fun s o => enqueue o.1 o.2 s) s

/-- The host's bit after its own write completes, by the MetaValue (Table 03.8): only for the host that held the line exclusive. -/
def writeMeta (d : Demand) (s : State) : State :=
  let e := hfGet s d.line
  if d.src = .host ∧ e.hx = true ∧ e.pv.testBit d.port then
    match (d.w.map fun w => w.mv : Option MetaVal) with
    | some .any => if isOwn s d.line then openKeep d.line s else s
    | some .shared => hfRecord d.line d.port false s
    | _ => hfClear d.line d.port s
  else s

/-- A write completed toward the port that sent it: `Cmp` for a host; a posted write of an agent only counts down. -/
def answerWrite (d : Demand) (s : State) : State :=
  let s := ownDone d (writeDone d s)
  match d.src with
  | .host => answerHost { d with cells := [] } (.cmp d.tag) s
  | _ => s

/-! ### Own-line writes (R99, Tables 05.8 and 05.9) -/

/-- A completion owed for the write just queued (Table 02.6, R344). -/
def owe (w : Who) (s : State) : State :=
  { s with cel := { s.cel with owed := s.cel.owed ++ [⟨s.cel.next - 1, none, w⟩] } }

/-- In Brace no best-effort write enters the merging buffer: it goes to the cellar past it (R293). -/
def braceHolds (s : State) (tc : Nat) : Bool := rdBit s aPmStat 0 && decide (4 ≤ tc)

/-- The merging buffer has room for a write to the line's granule (R201). -/
def mbufRoom (s : State) (l : LineAddr) : Bool :=
  let g := l.toNat / 4
  s.hc.mbuf.any (fun e => e.granule = g && !e.draining) ||
    decide ((s.hc.mbuf.filter fun e => sliceOf (BitVec.ofNat 54 (4 * e.granule)) = sliceOf l).length < 16)

/-- The poison bits of a granule's words that a write of line `k` leaves: all but those of the words it covers in full. -/
def pzOther (k : Nat) (mask : BitVec 64) : Nat := 2 ^ 32 - 1 - ((255 - pzKeep mask) <<< (8 * k))

/-- Bytes merged into a merging-buffer entry. -/
def mbMerge (l : LineAddr) (d : Data) (mask : BitVec 64) (e : MbEnt) : MbEnt :=
  let k := l.toNat % 4
  let m := maskBits 64 mask.toNat <<< (512 * k)
  let x := d.bytes.toNat <<< (512 * k)
  { e with data := BitVec.ofNat 2048 ((e.data.toNat ^^^ (e.data.toNat &&& m)) ||| (x &&& m)),
           mask := e.mask ||| BitVec.ofNat 256 (mask.toNat <<< (64 * k)),
           pz := BitVec.ofNat 32 ((e.pz.toNat &&& (pzOther k mask)) ||| (d.pz.toNat <<< (8 * k))) }

/-- The oldest open entry of a slice starts to drain when the slice holds HIWM open entries (R202). -/
def mbHigh (k : Nat) (s : State) : State :=
  let mine := fun (e : MbEnt) => decide (sliceOf (BitVec.ofNat 54 (4 * e.granule)) = k) && !e.draining
  if (s.hc.mbuf.filter mine).length < rdFld s aHcWbctl 8 4 then s
  else { s with hc := { s.hc with mbuf := updFirst mine (fun e => { e with draining := true }) s.hc.mbuf } }

/-- Bytes accepted by the merging buffer (R201, R202); a Guarded line's entry drains at once and owes the completion. Bytes that come from no write's
home decision and find no entry go to the cellar past the buffer, and a present line is then E (log entry 91); so do a best-effort atomic's result in
Brace (`past`, R293). -/
def mbAccept (l : LineAddr) (d : Data) (mask : BitVec 64) (guarded : Option Who) (s : State) (ent : Option Word := none) (past : Bool := false) :
    State :=
  let g := l.toNat / 4
  if past || !mbufRoom s l then
    let s := cellarWrite l d mask (if cacheSt s l = .m then setCacheSt l .e s else s) [] ent
    match guarded with
    | some w => owe w s
    | none => s
  else
  let put := fun (e : MbEnt) =>
    let e := mbMerge l d mask e
    let full := e.mask = BitVec.allOnes 256
    { e with draining := e.draining || full || guarded.isSome, guarded := e.guarded || guarded.isSome, owed := e.owed ++ guarded.toList }
  let isOpen := fun (e : MbEnt) => decide (e.granule = g) && !e.draining
  let m := if s.hc.mbuf.any isOpen then updFirst isOpen put s.hc.mbuf
    else s.hc.mbuf ++ [put ⟨g, 0, 0, 0, false, false, []⟩]
  mbHigh (sliceOf l) { s with hc := { s.hc with mbuf := m } }

/-- The way of the line's region, perhaps allocated in this decision and without a valid sector yet. -/
def placeWay (s : State) (l : LineAddr) : Option Nat :=
  (findWay s l).orElse fun _ =>
    (s.hc.ways.find? fun e => e.2.addr = regionOf s l && !(getWay s e.1).ret && e.1 / 16 = cacheSet s l).map (·.1)

/-- A way is ready for the line in this decision, allocated if need be (R191): false where the write takes the no-allocate handling, which
HC_CTL.NOALLOC gives every write. `write` is false for an atomic, which takes a way whose eviction has yet to start (R159). -/
def wayReady (l : LineAddr) (tc epoch : Nat) (s : State) (write : Bool := true) : Bool × State :=
  if rdBit s aHcCtl 0 then (false, s)
  else if cacheSt s l ≠ .i then (true, touchWay l s)
  else
    let x := allocWay l tc epoch false (renewWay l s) write
    (x.1 && (placeWay x.2 l).isSome, x.2)

/-- The line placed in its way, allocated in this decision and perhaps with no valid sector yet. -/
def placeLine (l : LineAddr) (st : St) (d : Data) (cells : List Nat) (cls : Nat × Nat) (s : State) : State :=
  match placeWay s l with
  | none => s
  | some k =>
    let s := setWaySt k l st (hfSetSt l .i s)
    let s := { s with hc := { s.hc with data := mput Data.zero s.hc.data (64 * k + sectorOf s l) d } }
    if isH1 s then hbmQueue k (.write k l false cells cls) s else doneReading cells s

/-- A full line or the masked bytes of an own line written by the own-line write path for its type: true when the write is complete
in this decision; otherwise its completion is owed to `who`. `alloc` is false in no-allocate mode; `ent` is the Key Range Table entry of its home
decision (R51). A copy of a line that has become Device-like is written to the cellar with the write and invalidated (R77). -/
def ownWrite (l : LineAddr) (d : Data) (mask : BitVec 64) (full alloc : Bool) (tc epoch : Nat) (cells : List Nat) (who : Who) (s : State)
    (ent : Option Word := none) : Bool × State :=
  let ty := typeIn s l ent
  let present := cacheSt s l ≠ .i
  let e := dirGet s l
  let s := if full && e.st = .l then dirPut l (dirU s e) s else s
  if ty = 2 then
    if present then (false, owe who (cellarWrite l (mergeData (cacheData s l) d mask) fullMask (setCacheSt l .i s) cells ent (some (tc, epoch))))
    else (false, owe who (cellarWrite l d mask s cells ent (some (tc, epoch))))
  else if isH1 s then
    if ty = 1 then
      let s := if present then touchWay l (setCacheSt l .e (setCacheData l (mergeData (cacheData s l) d mask) s)) else s
      let x := if full && alloc && !present then wayReady l tc epoch s else (false, s)
      let s := if x.1 then placeLine l .e d [] (tc, epoch) x.2 else x.2
      (false, owe who (cellarWrite l d mask s cells ent (some (tc, epoch))))
    else if full then
      let x := if alloc then wayReady l tc epoch s else (false, s)
      if x.1 then (true, placeLine l .m d cells (tc, epoch) x.2)
      else (true, setCacheSt l .i (cellarWrite l d fullMask x.2 cells ent (some (tc, epoch))))
    else if present then (true, touchWay l (installWay l .m (mergeData (cacheData s l) d mask) cells (tc, epoch) s true))
    else (true, cellarWrite l d mask s cells ent (some (tc, epoch)))
  else
    let s := if present then touchWay l (setCacheSt l .m (setCacheData l (mergeData (cacheData s l) d mask) s)) else s
    let x := if full && alloc && !present then wayReady l tc epoch s else (false, s)
    let s := if x.1 then placeLine l .m d [] (tc, epoch) x.2 else x.2
    if braceHolds s tc then
      let s := if cacheSt s l ≠ .i then cellarWrite l (cacheData s l) fullMask (setCacheSt l .e s) cells ent (some (tc, epoch)) else cellarWrite l d mask s cells ent (some (tc, epoch))
      if ty = 1 then (false, owe who s) else (true, s)
    else if ty = 1 then (false, doneReading cells (mbAccept l d mask (some who) s ent))
    else (true, doneReading cells (mbAccept l d mask none s ent))

/-- An atomic's result stored (R159, R160): true when it is complete in this decision, else its completion is owed to `who`. Home
placement leaves the line in the home hub cache; without a way, and for a Device-like line, it is done in the cellar path. -/
def atomStore (l : LineAddr) (a : Atom) (new : Data) (tc epoch : Nat) (who : Who) (s : State) (ent : Option Word := none) : Bool × State :=
  let ty := typeIn s l ent
  let slc := sliceOf l
  let x := if a.cellar || ty = 2 || draining s l || retiring s l then (false, s) else wayReady l tc epoch s false
  if !x.1 then
    let s := count (aPcSlc slc 20) 1 (cellarWrite l new fullMask (setCacheSt l .i x.2) [] ent (some (tc, epoch)))
    if ty = 0 then (true, s) else (false, owe who s)
  else
    let s := count (aPcSlc slc 19) 1 x.2
    if isH1 s then
      if ty = 0 then (true, placeLine l .m new [] (tc, epoch) s)
      else (false, owe who (cellarWrite l new fullMask (placeLine l .e new [] (tc, epoch) s) [] ent (some (tc, epoch))))
    else
      let s := mbAccept l new fullMask (if ty = 1 then some who else none) (placeLine l .m new [] (tc, epoch) s) ent (braceHolds s tc)
      (ty = 0, s)

/-- A demand answered as in R43: reads with poison on every word, writes and atomics without effect; the event is `src`, `cause`. -/
def answerDead (d : Demand) (code : Nat) (s : State) : State :=
  match d.kind with
  | .write => answerWrite d (doneReading d.cells s)
  | .atom _ => answerAtom d code 0 s
  | .inv | .evict => answerHost d (.cmp d.tag) s
  | .spec | .prefetch => s
  | _ => answerRead d Data.poison false false s

end Sys2Proof.Machine
end

