-- ==== Sys2Proof/Machine/Home.lean ====
section
/-! DEFINITION. The home (03 Tables 03.9 and 03.10, 04): the home transaction table, line blocking, decisions, snoops and their answers,
completion, directory recalls, and serving the home's own hosts. -/

namespace Sys2Proof.Machine

/-! ### The table -/

/-- The open transaction of a line (R119). -/
def txnOf (s : State) (l : LineAddr) : Option Txn := s.home.opened.find? fun t => t.line = l

/-- An atomic. -/
def isAtom (d : Demand) : Bool := match d.kind with | .atom _ => true | _ => false

/-- A completion is owed for an atomic of this hub's own ports on the line (R158, R160). -/
def owedAtom (s : State) (l : LineAddr) : Bool :=
  let mine := fun (w : Who) => match w with
    | .demand d => isAtom d && decide (d.line = l)
    | _ => false
  (s.cel.owed.any fun o => mine o.who) || s.hc.mbuf.any fun e => e.owed.any mine

/-- The completion of the line's transaction is owed (Table 02.6): its write is performed. -/
def owedTxn (s : State) (l : LineAddr) : Bool :=
  let mine := fun (w : Who) => decide (w = .txn l)
  (s.cel.owed.any fun o => mine o.who) || s.hc.mbuf.any fun e => e.owed.any mine

/-- The line is blocked (R119, R158): a transaction is open, or a host step, a cellar read or an unfinished atomic of the home's own for it. -/
def blocked (s : State) (l : LineAddr) : Bool :=
  (txnOf s l).isSome || (isOwn s l && (stepOn s l || ((mrOf s l).any fun m => m.2.kind = .own) || owedAtom s l))

/-- A transaction not yet opened. -/
def newTxn (l : LineAddr) (rq : Rq) (opc : Opc) (tc epoch : Nat) : Txn :=
  ⟨l, rq, opc, Data.zero, fullMask, none, tc, epoch, 0, 0, 0, [], false, false, none, none, false, false, false, [], none, [], false, none, none,
   false, 0, [], none, 53⟩

/-- The line's oldest waiting request, or a demand that its register has served first, is being decided: `f` puts it ahead of those that wait behind
it (R120, R186). -/
def asNow (l : LineAddr) (f : State → State) (s : State) : State :=
  let n := s.home.now
  let s := f { s with home := { s.home with now := some l } }
  { s with home := { s.home with now := n } }

/-- A request passes the slice input by `f`: those that still wait there are behind it (R118). -/
def asEntering (f : State → State) (s : State) : State :=
  let n := s.home.entering
  let s := f { s with home := { s.home with entering := true } }
  { s with home := { s.home with entering := n } }

/-- A request for the line goes behind others: the line is blocked, or older requests for it wait (R118 to R120). -/
def behind (s : State) (l : LineAddr) : Bool :=
  blocked s l || (decide (s.home.now ≠ some l) &&
    ((s.home.waiting.any fun t => t.line = l) || (!s.home.entering && s.home.input.any fun t => t.line = l)))

/-- A request waits in the home transaction table for its line (R119), behind the others. -/
def waitPut (t : Txn) (s : State) : State :=
  let w := s.home.waiting
  { s with home := { s.home with waiting := if s.home.now = some t.line then t :: w else w ++ [t] } }

/-- A request waits at the slice input (R122, R201); one that came from there keeps its place. -/
def inputPut (t : Txn) (s : State) : State :=
  let w := s.home.input
  { s with home := { s.home with input := if s.home.entering || decide (s.home.now = some t.line) then t :: w else w ++ [t] } }

/-- All entries of the table in slice `k`, open or waiting (R122). -/
def httOf (s : State) (k : Nat) : List Txn :=
  (s.home.opened ++ s.home.waiting ++ s.home.wayWait.map (·.2.2)).filter fun t => sliceOf t.line = k

/-- The share of slice `k` that gives the entry (Table 04.1): 0 to 3 timed, 4 shared, 5 home-opened. -/
def httPick (s : State) (k : Nat) (t : Txn) : Option Nat :=
  let l := httOf s k
  let heldBy := fun sh => (l.filter fun x => x.share = sh).length
  let homeOpened := match t.rq with | .recall _ _ | .home => true | _ => false
  if homeOpened && decide (heldBy 5 < 32) then some 5
  else if !homeOpened && decide (t.tc < 4) && decide (heldBy t.tc < 24) then some t.tc
  else if heldBy 4 < 384 then some 4 else none

/-- The share of the table that gives a request its entry as it passes the slice input: none where it must wait there, for want of an entry or
behind requests of its class that do (R122, log entry 92). -/
def httEnter (s : State) (t : Txn) : Option Nat :=
  let k := sliceOf t.line
  if decide (s.home.now ≠ some t.line) && !s.home.entering && s.home.input.any (fun x => sliceOf x.line = k && x.tc = t.tc) then none
  else httPick s k t

/-- The lowest table entry of the slice that is not in use, as HTAG. -/
def httTag (s : State) (k : Nat) : Nat :=
  512 * k + ((firstFree (fun i => (httOf s k).any fun x => x.htag = 512 * k + i) 512 0).getD 0)

/-- The open transaction of its line replaced. -/
def setTxn (t : Txn) (s : State) : State :=
  { s with home := { s.home with opened := updFirst (fun x => x.line = t.line) (fun _ => t) s.home.opened } }

/-- A transaction opened: its serial number taken (R149), the line busy. -/
def openTxn (t : Txn) (s : State) : Txn × State :=
  let k := sliceOf t.line
  let n := mgetD 0 s.home.tsn k + 1
  let t := { t with tsn := n % 2 ^ 32, htag := httTag s k, turn := false, way := none }
  let s := { s with home := { s.home with tsn := mset s.home.tsn k (n % 2 ^ 32), opened := s.home.opened ++ [t] } }
  (t, setBusy t.line true s)

/-! ### Snoops -/

/-- The incarnation this hub accepts of hub `h` (R156): 0 while it is dead or not joined. -/
def incOf (s : State) (h : HubId) : Nat := rdFld s (aFbInc (h.toNat / 4)) (16 * (h.toNat % 4)) 8

/-- Hub `h` is live. -/
def hubLive (s : State) (h : HubId) : Bool := decide (incOf s h ≠ 0)

/-- The broadcast set (R105): the domain without the home, the requester and Fh, and every hub under a domain sweep. -/
def bcastSet (s : State) (rq : Option HubId) (e : DirEnt) : List HubId :=
  ((members s ++ s.sweep.filter fun h => !member s h).filter fun h =>
    hubLive s h && some h ≠ rq && some h ≠ fHolder e).eraseDups

/-- The header of a snoop of transaction `t`. -/
def snpHdr (s : State) (t : Txn) (x : SnpOut) : Hdr :=
  let r := match t.rq with | .remote h => (h.rqh, h.rtag.toNat) | _ => (hubId s, 0)
  let h := mkHdr s t.line t.tc t.epoch r.1 r.2 t.htag
  { h with tgt := x.tgt, g := x.g, xtra := BitVec.ofNat 64 t.tsn }

/-- One snoop sent. -/
def sendSnoop (t : Txn) (s : State) (x : SnpOut) : State :=
  let s := count (aPcSlc (sliceOf t.line) 6) 1 s
  let s := if x.opc = .snpBc then count aDrBcast 1 s else s
  send0 x.opc x.hub (snpHdr s t x) s

/-- The snoops of a transaction sent in one decision (R100); hubs that are not live are left out (R152). -/
def sendSnoops (l : List (HubId × Opc × Bool × Bool)) (t : Txn) (s : State) : Txn × State :=
  let xs : List SnpOut := (l.filter fun x => hubLive s x.1).map fun x =>
    ⟨x.1, x.2.1, x.2.2.1, x.2.2.2, 1, none, (outPort s x.1 (2 * classOf x.2.1)).toList⟩
  let t := { t with snps := t.snps ++ xs }
  (t, setTxn t (xs.foldl (sendSnoop t) s))

/-- Every snoop is answered, each `AckE` with its write-back held (R98, R134). -/
def allAnswered (t : Txn) : Bool :=
  t.snps.all fun x => match x.ans with
    | none => false
    | some a => !a.e || a.imputed || t.wbs.any fun w => w.hub = x.hub

/-! ### Writing poison and the L state -/

/-- The cellar copy of an own line written poisoned and logged (R146, R152, R335): CAUSE 0 when an entry is set to L, 1 otherwise. -/
def poisonLine (l : LineAddr) (cause : Nat) (s : State) : State :=
  fire 196 cause (oLine l) (cellarWrite l Data.poison fullMask (setCacheSt l .i s))

/-- The line's entry set to L, the cellar copy poisoned (Tables 04.9 and 04.10). -/
def makeL (l : LineAddr) (s : State) : State :=
  let e := dirGet s l
  dirPut l { dirU s e with st := .l } (poisonLine l 0 s)

/-! ### Replies of the home -/

/-- A reply to the requester of a transaction: data read from the home hub cache waits for its HBM access; the reply is kept for
resending until `Fin` (R149). A response without data that snoop answers have caused is queued in the protocol reserve (R314). -/
def reply (t : Txn) (opc : Opc) (fw cached : Bool) (d : Data) (s : State) : State :=
  match t.rq with
  | .remote q =>
    let h := { mkHdr s t.line t.tc t.epoch q.rqh q.rtag.toNat t.htag with fw := fw }
    let m : Msg := { opc := opc, dst := q.rqh, dl := false, sr := false, hops := 0, len := BitVec.ofNat 3 (lenOf opc), h := h, data := d }
    let out := outPort s m.dst (channelOf m)
    let s := setTxn { t with last := some m, answered := true, cells := [], tries := 1, ports := out.toList } s
    let head := lenOf opc = 0 && t.cells.isEmpty && !t.snps.isEmpty
    let x := if head then protoCell t.tc s else (t.cells, s)
    let s := x.2
    match cached, out with
    | true, some p =>
      let m := { m with dl := bit (route s m.dst) (12 + p), h := { m.h with line := outLine s t.line } }
      fromCache t.line [(56 + p, ⟨sliceInput (sliceOf t.line), t.tc, t.epoch, .msg m, x.1, 0, 0, 0, false⟩)] none s
    | _, _ => dispatch (sliceInput (sliceOf t.line)) x.1 m s
  | _ => setTxn { t with answered := true } s

/-- Home data of a line, if it is at hand: dirty data gathered, data read, or the home hub-cache copy (R99). The flag says it is read
from the hub cache. -/
def homeData (s : State) (t : Txn) : Option (Data × Bool) :=
  match t.dirty, t.home with
  | some d, _ => some (d, false)
  | none, some d => some (d, false)
  | none, none => if cacheSt s t.line ≠ .i then some (cacheData s t.line, true) else none

/-- Home data asked of the cellar. -/
def askCellar (t : Txn) (s : State) : State :=
  if t.asked then s else cellarRead t.line (.txn t.line) (setTxn { t with asked := true } s) [] t.ent

/-- Dirty data gathered by a transaction that passes it on to nobody goes to the cellar (R99). -/
def spill (t : Txn) (s : State) : State :=
  match t.dirty with
  | some d => cellarWrite t.line d fullMask s [] t.ent
  | none => s

/-! ### Ending a transaction (R98, R120) -/

/-- A directory entry that names a dead hub reclaimed (Table 04.10): an owner's line is lost, any other pointer is emptied. -/
def reclaimEntry (h : HubId) (l : LineAddr) (s : State) : State :=
  let e := dirGet s l
  if e.st = .x ∧ e.p0 = h then makeL l s else if h ∈ ptrs s e then dirPut l { dirEvc s h e with busy := e.busy } s else s

/-- A transaction ended: the line unblocked, its table entry freed; an entry in U frees its way (R86). What it recorded for a requester that
has died meanwhile is reclaimed (Table 04.10). -/
def endTxn (t : Txn) (s : State) : State :=
  let s := doneReading t.cells { s with home := { s.home with opened := s.home.opened.filter fun x => x.line ≠ t.line,
                                                              heldStep := s.home.heldStep.filter (· ≠ t.line) } }
  let s := match t.rq with
    | .remote h => if hubLive s h.rqh then s else reclaimEntry h.rqh t.line s
    | _ => s
  setBusy t.line false s

/-- The transaction ends once it is answered, `Fin` is held and every snoop is answered. -/
def checkEnd (l : LineAddr) (s : State) : State :=
  match txnOf s l with
  | none => s
  | some t => if t.answered && t.fin && !t.step && allAnswered t then endTxn t s else s

/-! ### Directory ways (R141 to R143) -/

/-- The ways of the line's directory set, in order. -/
def dirWays (s : State) (l : LineAddr) : List (Nat × DirEnt) :=
  (List.range 16).filterMap fun w => (mget s.dir (dirKey l w)).map fun e => (dirKey l w, e)

/-- The line of an entry at key `k`: its LA from tag, set and slice (R88). -/
def dirLine (s : State) (k : Nat) (e : DirEnt) : LineAddr :=
  let sl := k / 16 / 32768
  let x := (k / 16 % 32768) ^^^ (e.tag % 2 ^ 15)
  let base := e.tag * 2 ^ 20 + x / 64 * 2 ^ 11 + x % 64
  let try_ := ownLine s base
  ownLine s (base + (sl ^^^ sliceOf try_) * 64)

/-- The scan of R141 from way `w`: the first non-busy way with KEEP = 0, clearing KEEP of the others it passes; after a full circuit the
first non-busy way passed. -/
def dirScan : Nat → List (Nat × DirEnt) → Option Nat → SMap DirEnt → Option Nat × SMap DirEnt
  | 0, _, first, m => (first, m)
  | _, [], first, m => (first, m)
  | n + 1, (k, e) :: t, first, m =>
    if e.busy then dirScan n t first m
    else if e.keep then dirScan n t (first.orElse fun _ => some k) (mset m k { e with keep := false })
    else (some k, m)

/-- What R141 finds in the full set of a line: a way in L, freed at once; a victim to recall; or nothing, every way busy. -/
inductive DirVictim where
  | freed | recall (k : Nat) | busy
  deriving DecidableEq, Repr

/-- The victim of the line's directory set (R141). -/
def dirVictim (l : LineAddr) (s : State) : DirVictim × State :=
  let ws := dirWays s l
  match ws.find? fun e => !e.2.busy && e.2.st = .l with
  | some (k, _) => (.freed, { s with dir := mdel s.dir k })
  | none =>
    if ws.all fun e => e.2.busy then (.busy, s) else
      let x := draw (sliceOf l) 16 s
      let r := dirScan 16 (ws.drop x.1 ++ ws.take x.1) none x.2.dir
      match r.1 with
      | some k => (.recall k, { x.2 with dir := r.2 })
      | none => (.busy, x.2)

/-- The snoops that take every remote copy of a line away (R111, Table 03.10): `SnpX` with TGT 1 to an owner. -/
def recallSnoops (s : State) (e : DirEnt) (rq : Option HubId) : List (HubId × Opc × Bool × Bool) :=
  match e.st with
  | .p => (ptrs s e).map fun h => (h, .snpI, false, false)
  | .a => (bcastSet s rq e).map (fun h => (h, .snpBc, false, false)) ++ (ptrs s e).map fun h => (h, .snpI, false, false)
  | .x => [(e.p0, .snpX, true, false)]
  | _ => []

/-- A recall opened on the victim line (R111, R143), in the class of the request that caused it; `sh` gives its table entry. -/
def openRecall (k sh : Nat) (for_ : Txn) (s : State) : State :=
  let e := mgetD {} s.dir k
  let l := dirLine s k e
  let t := { newTxn l (.recall (sliceOf l) (k / 16 % 32768)) .snpI for_.tc for_.epoch with
             share := sh, owner := if e.st = DSt.x then some e.p0 else none }
  let x := openTxn t (count (aPcSlc (sliceOf l) 5) 1 s)
  (sendSnoops (recallSnoops s e none) x.1 x.2).2

/-- A way for the line's entry: true when there is one now. Otherwise the transaction waits for a way: behind the allocations of the set that found
every way busy, or until the recall opened for it ends, or, with every way busy or no table entry for a recall, until the home chooses again
(R141 to R143). -/
def dirMakeRoom (t : Txn) (s : State) : Bool × State :=
  let l := t.line
  let set := tabSet (laOf l)
  let waitFor := fun (t : Txn) (s : State) => { s with home := { s.home with wayWait := s.home.wayWait ++ [(sliceOf l, set, t)] } }
  let ahead := !t.turn && s.home.wayWait.any fun x => x.1 = sliceOf l && x.2.1 = set && x.2.2.way.isNone
  if (dirFindIn s l 16 0).isSome then (true, s)
  else if ahead then (false, count (aPcSlc (sliceOf l) 9) 1 (waitFor t s))
  else if (dirFree s l 16 0).isSome then (true, s)
  else match (dirWays s l).find? fun e => !e.2.busy && e.2.st = .l with
  | some (k, _) => (true, { s with dir := mdel s.dir k })
  | none => match httPick s (sliceOf l) (newTxn l .home .snpI t.tc t.epoch) with
    | none => (false, count (aPcSlc (sliceOf l) 9) 1 (waitFor { t with turn := false, way := none } s))
    | some sh =>
      let x := dirVictim l s
      match x.1 with
      | .freed => (true, x.2)
      | .recall k => (false, openRecall k sh t (waitFor { t with turn := false, way := some k } x.2))
      | .busy => (false, count (aPcSlc (sliceOf l) 9) 1 (waitFor { t with turn := false, way := none } x.2))

/-- Which allocation waiting in a directory set goes on now (R142, R143): the first whose recall has ended; else, where a way is free or not busy
and kept for nobody, the first in arrival order that has no recall under way. -/
def nextAlloc (s : State) (k set : Nat) : Option (Nat × Nat × Txn) :=
  let ws := s.home.wayWait.filter fun x => x.1 = k && x.2.1 = set
  let ended := fun (w : Nat) => match mget s.dir w with
    | none => true
    | some e => !e.busy
  match ws.find? fun x => x.2.2.way.any ended with
  | some x => some x
  | none => match ws.find? fun x => x.2.2.way.isNone with
    | none => none
    | some w => if dirRoom s w.2.2.line || (dirWays s w.2.2.line).any (fun e => !e.2.busy) then some w else none

/-! ### Completion -/

/-- The entry after the answers of a transaction are applied (R134, R137): write-backs of `AckE`, hubs that answered TGT 0 with FW = 0. -/
def applyAnswers (t : Txn) (s : State) : Txn × State :=
  t.snps.foldl (fun (ts : Txn × State) x =>
    let t := ts.1
    let s := ts.2
    match x.ans with
    | none => (t, s)
    | some a =>
      if a.e then
        match t.wbs.find? fun w => w.hub = x.hub with
        | none =>
          if ((dirGet s t.line).st = .x ∧ (dirGet s t.line).p0 = x.hub) ∨ t.owner = some x.hub then (t, makeL t.line s)
          else (t, dirPut t.line (dirEvc s x.hub (dirGet s t.line)) s)
        | some w =>
          let s := dirPut t.line (dirEvc s x.hub (dirGet s t.line)) s
          let s := if hubLive s w.hub then send0 .wbAck w.hub (mkHdr s t.line t.tc t.epoch w.hub w.h.rtag.toNat 0) s else s
          ({ t with wbs := t.wbs.filter (fun y => y.hub ≠ w.hub), dirty := if w.dirty then some w.data else t.dirty }, s)
      else if !x.tgt && !a.fw && (x.opc = .snpS || x.opc = .snpX) then
        let s := dirPut t.line (dirEvc s x.hub (dirGet s t.line)) s
        (t, if a.g || a.imputed then s else fire 194 1 (oLine t.line) s)
      else (t, s)) (t, s)

/-- A TGT 0 holder forwarded to the requester. -/
def forwarded (t : Txn) : Bool := t.snps.any fun x => !x.tgt && match x.ans with | some a => a.fw | none => false

/-- A grant of the home's data to `RdS` with nothing left to snoop (Table 03.9 rows U, P and A with FV = 0). The requester may stand in the
entry since its decision: it counts as not yet recorded (R134, R137). -/
def grantRdS (t : Txn) (h : Hdr) (d : Data) (cached : Bool) (s : State) : State :=
  let e := dirGet s t.line
  let s := if cached then s else match t.dirty with
    | some x => cellarWrite t.line x fullMask s [] t.ent
    | none => s
  let e' := dirEvc s h.rqh e
  match e'.st with
  | .u =>
    if cacheSt s t.line = .i ∧ (hfGet s t.line).pv = 0 then
      reply t .datE false cached d (dirPut t.line { dirOwner s h.rqh e' with busy := true } s)
    else reply t .datF false cached d (dirPut t.line { dirP s h.rqh e' with busy := true } s)
  | _ => reply t .datF false cached d (dirPut t.line { dirAddF s h.rqh e' with busy := true } s)

/-- A grant of ownership with the home's data (`DatM` when dirty data was found, else `DatE`); the entry names the requester. -/
def grantX (t : Txn) (h : Hdr) (d : Data) (cached : Bool) (s : State) : State :=
  let e := dirGet s t.line
  let opc := if t.dirty.isSome then .datM else .datE
  reply t opc false cached d (dirPut t.line { dirOwner s h.rqh e with busy := true } s)

/-- A write of an own line of class `tc` needs a merging-buffer entry and finds none (R201); in Brace a best-effort one needs none (R293). -/
def mbufWait (s : State) (l : LineAddr) (tc : Nat) : Bool :=
  !isH1 s && decide (typeOf s l ≠ 2) && !mbufRoom s l && !braceHolds s tc

/-- A write or atomic of another hub waits for a merging-buffer entry (R201). An atomic done with cellar placement goes past the buffer (R159). -/
def waitsMbuf (s : State) (t : Txn) : Bool :=
  (t.opc = .wrL || t.opc = .wrP || (t.opc = .atm && !t.atom.any fun a => a.cellar)) && isOwn s t.line && mbufWait s t.line t.tc

/-- A write or atomic of this hub's own ports waits for a merging-buffer entry (R201). -/
def mbufHolds (s : State) (d : Demand) : Bool :=
  (match d.kind with
    | .write => true
    | .atom a => !a.cellar
    | _ => false) && mbufWait s d.line d.tc

/-- The hub that a transaction serves. -/
def rqHub (t : Txn) : Option HubId := match t.rq with
  | .remote h => some h.rqh
  | _ => none

/-- A remote write or atomic performed (R99, R135, R159, R161): completed now, or owed until both cellars hold it. On QD48-C1 it waits while the
slice's merging buffer has no entry for it (R201). -/
def performWrite (t : Txn) (s : State) : State :=
  let l := t.line
  let owner := decide ((dirGet s l).st = DSt.x) && decide (some (dirGet s l).p0 = rqHub t)
  if waitsMbuf s t then setTxn t s else
  match t.atom with
  | none =>
    let full := decide (t.opc = .wrL)
    let lost := decide ((dirGet s l).st = DSt.l)
    let merged := if full then none else t.dirty.map fun d => mergeData d t.wr t.mask
    let s := setTxn { t with dirty := none, cells := [] } s
    let x := match merged with
      | some d => ownWrite l d fullMask true true t.tc t.epoch t.cells (.txn l) s t.ent
      | none =>
        if !full && lost then (true, cellarWrite l t.wr t.mask s t.cells t.ent)
        else ownWrite l t.wr t.mask full true t.tc t.epoch t.cells (.txn l) s t.ent
    let s := x.2
    let s := if owner || (lost && !full) then s else dirPut l (dirU s (dirGet s l)) s
    if x.1 then reply { t with dirty := none, cells := [] } .cmp false false Data.zero s else s
  | some a =>
    match homeData s t with
    | none => s
    | some (d, _) =>
      let e := dirGet s l
      let lost := decide (e.st = DSt.l)
      let s := doneReading (t.cells.take 1) s
      let t := { t with cells := t.cells.drop 1 }
      match (if lost then none else atomApply a d) with
      | none =>
        let s := match t.dirty with
          | some x => cellarWrite l x fullMask s [] t.ent
          | none => s
        let out : Data := ⟨BitVec.ofNat 512 (atomOld a d).toNat, 0xFF⟩
        reply { t with dirty := none } .datS false false out (if lost then s else dirPut l (dirU s e) s)
      | some (old, new) =>
        let s := dirPut l (dirU s e) s
        let out : Data := ⟨BitVec.ofNat 512 old.toNat, 0⟩
        let t := { t with dirty := none, home := some out }
        let x := atomStore l a new t.tc t.epoch (.txn l) s t.ent
        if x.1 then reply t .datS false false out x.2 else setTxn t x.2

/-- What a transaction of another hub does once its snoops are answered and its host step is over: it completes toward its requester, or
first asks the cellar for home data (Table 03.9, R97, R134, R137). -/
def completeRemote (t : Txn) (h : Hdr) (s : State) : State :=
  let l := t.line
  let x := applyAnswers t s
  let t := { x.1 with snps := x.1.snps.map fun y => match y.ans with
    | some a => { y with ans := some { a with e := false, imputed := a.imputed || !a.fw } }
    | none => y }
  let fwd := forwarded x.1
  let s := setTxn t x.2
  let e := dirGet s l
  let served := setTxn { t with answered := true, dirty := none, cells := [] } (doneReading t.cells (spill t s))
  let needData := fun (k : Data → Bool → State) =>
    if e.st = .l then k Data.poison false
    else match homeData s t with
      | some (d, c) => k d c
      | none => askCellar t s
  match t.opc with
  | .rdS =>
    if fwd then served
    else if e.st = .l then reply t .datS false false Data.poison s
    else needData fun d c => grantRdS t h d c s
  | .rdO =>
    if fwd then served
    else if e.st = .l then reply t .datS false false Data.poison s
    else needData fun d c => reply { t with dirty := none } .datS false c d (spill t s)
  | .rdX | .upg =>
    let owner := t.snps.any fun y => y.opc = .snpX && y.g
    let grant := fun (fw : Bool) =>
      reply { t with dirty := none } .gntX fw false Data.zero (dirPut l { dirOwner s h.rqh e with busy := true } (spill t s))
    if fwd && owner then served
    else if fwd then grant true
    else if t.named then grant false
    else if e.st = .l then reply t .datE false false Data.poison (dirPut l { dirOwner s h.rqh e with busy := true } s)
    else needData fun d c => grantX t h d c s
  | .atm => if (homeData s t).isNone then askCellar t s else performWrite t s
  | _ => performWrite t s

/-- An own demand served once its transaction has taken every copy it had to (Table 03.10): from the dirty data gathered, which also
goes to the cellar, or as the demand itself decides. -/
def localNext (t : Txn) (d : Demand) (s : State) : Txn × State :=
  let x := applyAnswers t s
  let t := x.1
  let s := x.2
  let e := dirGet s t.line
  let read := match d.kind with | .rdS | .rdData | .cur | .prefetch => true | _ => false
  let s := if e.st = .l then s
    else if read then (if e.st = .x then dirPut t.line (dirP s e.p0 e) s else s)
    else dirPut t.line (dirU s e) s
  (t, s)

/-- The snooped hub `h` took no part any more: the recall's end (R111, R143). -/
def recallEnd (t : Txn) (s : State) : State :=
  let x := applyAnswers t s
  let s := spill x.1 x.2
  let e := dirGet s t.line
  let s := if e.st = .l then s
    else if t.opc = .snpBc then dirPut t.line { t.snps.foldl (fun e x => dirEvc s x.hub e) e with busy := true } s
    else dirPut t.line (dirU s e) s
  endTxn t s

/-! ### Deciding a remote request (Table 03.9) -/

/-- The requester is outside the domain, or the line is never cached or grants no standing now: served as `RdO` (R59, R107, R454, R572). -/
def asRdO (s : State) (l : LineAddr) (rqh : HubId) : Bool := !member s rqh || isDevice s l || retiring s l || draining s l

/-- The host step of the home for a request (R104): 0 none, 1 downgrade, 2 downgrade for `RdO`, 3 purge. -/
def localStep (st : DSt) (opc : Opc) : Nat :=
  match opc with
  | .rdS => if st = .u then 1 else 0
  | .rdO => if st = .u then 2 else 0
  | .rdX | .upg | .wrL | .wrP | .atm => if st = .x then 0 else 3
  | _ => 0

/-- The snoops of a decision (Table 03.9), with whether the requester is named for an `Upg`. -/
def planSnoops (s : State) (e : DirEnt) (opc : Opc) (rq : HubId) : List (HubId × Opc × Bool × Bool) × Bool :=
  let others := (ptrs s e).filter (· ≠ rq)
  let inv := fun (keepF : Bool) => others.map fun h =>
    if keepF && some h = fHolder e then (h, Opc.snpX, false, false) else (h, Opc.snpI, false, false)
  match e.st, opc with
  | .p, .rdS | .a, .rdS => (match fHolder e with | some f => [(f, .snpS, false, false)] | none => [], false)
  | .p, .rdX => (inv true, false)
  | .p, .upg => if rq ∈ ptrs s e then (inv false, true) else (inv true, false)
  | .p, .wrL | .p, .wrP | .p, .atm => ((ptrs s e).map fun h => (h, .snpI, false, false), false)
  | .a, .rdX | .a, .upg =>
    let b := (bcastSet s (some rq) e).map fun h => (h, Opc.snpBc, false, false)
    if opc = .upg ∧ fHolder e = some rq then (b, true)
    else (b ++ (match fHolder e with | some f => [(f, .snpX, false, false)] | none => []), false)
  | .a, .wrL | .a, .wrP | .a, .atm =>
    ((bcastSet s (some rq) e).map (fun h => (h, Opc.snpBc, false, false)) ++ (ptrs s e).map fun h => (h, .snpI, false, false), false)
  | .x, .rdS => ([(e.p0, .snpS, false, false)], false)
  | .x, .rdO => (if e.p0 = rq then [] else [(e.p0, .snpS, false, true)], false)
  | .x, .rdX | .x, .upg => ([(e.p0, .snpX, false, true)], false)
  | .x, .wrL => (if e.p0 = rq then [] else [(e.p0, .snpI, false, false)], false)
  | .x, .wrP | .x, .atm => (if e.p0 = rq then [] else [(e.p0, .snpX, true, false)], false)
  | _, _ => ([], false)

/-- The entry that a decision sets at once (Table 03.9): a requester is recorded in the decision that serves it (R130), so that a grant to a line
in U has its entry, naming the requester, from then on (R90). -/
def planNext (s : State) (e : DirEnt) (opc : Opc) (rq : HubId) : DirEnt :=
  match e.st, opc with
  | .u, .rdS | .u, .rdX | .u, .upg => dirOwner s rq e
  | .p, .rdS | .a, .rdS => if e.fv then (if e.st = .p then dirAdd s rq e else e) else e
  | .x, .rdS => dirAdd s rq (dirP s e.p0 e)
  | .x, .rdO => if e.p0 = rq then e else dirP s e.p0 e
  | .x, .rdX | .x, .upg => { e with p0 := rq }
  | _, _ => e

/-- The transaction's host step is over (R104): a purge makes hosts' dirty data and the home's own dirty copy dirty home data, and drops the copies; dirty
data that a downgrade draws is a write by that host (R597), and home data. -/
def finishStep (l : LineAddr) (dirty : Option Data) (s : State) : State :=
  match txnOf s l with
  | none => s
  | some t =>
    let k := match t.opc with
      | .rdS | .rdO => 1
      | _ => 3
    if k = 3 then
      let t := if dirty.isSome then { t with dirty := dirty }
        else if cacheSt s l = .m then { t with dirty := some (cacheData s l) }
        else if cacheSt s l = .e then { t with home := some (cacheData s l) } else t
      setTxn { t with step := false } (dropLine l s)
    else
      match dirty with
      | some d =>
        let s := (ownWrite l d fullMask true true t.tc t.epoch [] .nobody s t.ent).2
        setTxn { t with step := false, home := if cacheSt s l = .i then some d else t.home } s
      | none => setTxn { t with step := false } s

/-- A read or ownership request of a hub that has died ends without a grant; what has been gathered goes to the cellar, and the requester leaves the
entry (Table 04.10): a line forwarded to it is lost with it. -/
def deadEnd (t : Txn) (h : Hdr) (s : State) : State :=
  let x := applyAnswers t s
  let s := spill x.1 x.2
  let e := dirGet s t.line
  let s := if e.st = .x ∧ e.p0 = h.rqh ∧ forwarded x.1 = false then dirPut t.line { dirU s e with busy := true } s else s
  endTxn x.1 s

/-- The transaction's progress: with its step over and its snoops answered it completes. -/
def tryTxn (l : LineAddr) (s : State) : State :=
  match txnOf s l with
  | none => s
  | some t =>
    if t.step || !allAnswered t || owedTxn s l then s
    else if t.answered then checkEnd l s
    else match t.rq with
      | .remote h =>
        if !hubLive s h.rqh && (t.opc = .rdS || t.opc = .rdO || t.opc = .rdX || t.opc = .upg) then deadEnd t h s
        else checkEnd l (completeRemote t h s)
      | .recall _ _ => recallEnd t s
      | .home => recallEnd t s
      | .own _ => s

/-- The home's host step for a transaction: the line's Keep window delays it (R126). -/
def startStep (l : LineAddr) (s : State) : State :=
  match txnOf s l with
  | none => s
  | some t =>
    let hosts := match t.opc with
      | .rdS | .rdO => exclHost s l
      | _ => hostsOf s l
    let kind := if t.opc = .rdO then 0 else if t.opc = .rdS then 1 else 2
    withHosts l kind hosts t.tc t.epoch .homeTxn (finishStep l none) s

/-- A request of another hub decided (Table 03.9). -/
def decideRemote (t : Txn) (h : Hdr) (s : State) : State :=
  let l := t.line
  let k := sliceOf l
  match (if mirrorNative s h.line then some (192, 2) else refusedOwn s l) with
  | some (src, cause) =>
    let x := openTxn t (fire src cause (oLine l) s)
    match t.opc with
    | .wrL | .wrP => reply { x.1 with cells := [] } .cmp false false Data.zero (doneReading t.cells x.2)
    | _ => reply x.1 .datS false false Data.poison x.2
  | none =>
    let outside := !member s h.rqh
    let turn := asRdO s l h.rqh && (t.opc = .rdS || t.opc = .rdX || t.opc = .upg)
    let s := if turn && outside then fire 193 0 (oLine l) s else s
    let e := dirGet s l
    let s := count (aPcSlc k 0) 1 (if e.st = .u then s else count (aPcSlc k 3) 1 s)
    let again := (t.opc = .rdS || t.opc = .rdX || (t.opc = .upg && e.st = .x)) && h.rqh ∈ ptrs s e
    let t := { t with opc := if turn then Opc.rdO else t.opc, ent := entIn s l none }
    let s := if !again then s
      else if e.st = .x then makeL l (fire 194 2 (oLine l) s)
      else dirPut l (dirEvc s h.rqh e) (fire 194 2 (oLine l) s)
    let e := dirGet s l
    let bad := match t.atom with
      | some a => decide (a.op.toNat > 5) || a.size = 3 || decide (a.off.toNat % (4 * 2 ^ a.size.toNat) ≠ 0)
      | none => false
    if bad then
      let x := openTxn t (fire 194 4 (oLine l) s)
      reply x.1 .datS false false Data.poison x.2
    else if (t.opc = .wrL || t.opc = .wrP) && h.g && !(e.st = .x && e.p0 = h.rqh) then
      let x := openTxn t s
      reply { x.1 with cells := [] } .cmp false false Data.zero (doneReading t.cells x.2)
    else
      let absent := (dirFindIn s l 16 0).isNone
      let grants := (t.opc = .rdS || t.opc = .rdX || t.opc = .upg) && absent
      let room := if grants then dirMakeRoom t s else (true, s)
      if !room.1 then room.2
      else
        let x := openTxn t room.2
        let plan := planSnoops x.2 e t.opc h.rqh
        let t := { x.1 with named := plan.2, owner := if e.st = DSt.x then some e.p0 else none }
        let s := if absent && !grants then x.2 else dirPut l { planNext x.2 e t.opc h.rqh with busy := true } x.2
        let stepKind := localStep e.st t.opc
        let t := { t with step := decide (stepKind ≠ 0) }
        let y := sendSnoops plan.1 t s
        let s := setTxn y.1 y.2
        let s := if stepKind = 0 then s
          else if l ∈ s.home.keep then { s with home := { s.home with heldStep := s.home.heldStep ++ [l] } }
          else startStep l s
        tryTxn l s

/-! ### The frame-tag cache (R176, R177) -/

/-- The frame-tag cache set of a cache set (R176): 4,096 a slice, by the index's low 12 bits. -/
def tagIdx (set : Nat) : Nat := set / 65536 * 4096 + set % 4096

/-- QD48-H1: the frame-tag cache does not hold the block of this cache set. -/
def tagMiss (s : State) (set : Nat) : Bool := isH1 s && !(mgetD [] s.hc.tags (tagIdx set)).contains set

/-- The block of a cache set used: the most recently used of its four ways (R177). -/
def tagUse (set : Nat) (s : State) : State :=
  if !isH1 s then s
  else { s with hc := { s.hc with tags := mset s.hc.tags (tagIdx set) ((set :: (mgetD [] s.hc.tags (tagIdx set)).filter (· ≠ set)).take 4) } }

/-- A request met a frame-tag miss: the block is fetched (R177). It is counted also where the fetch is under way (DESIGN CHOICE, log entry 107). -/
def tagFetch (set : Nat) (s : State) : State :=
  count (aHcCnt 2) 1 { s with hc := { s.hc with fetch := if set ∈ s.hc.fetch then s.hc.fetch else s.hc.fetch ++ [set] } }

/-- A request of another hub at the slice input: one that finds no table entry, or a write that finds no merging-buffer entry (R201), waits there; one
for a line that others wait for, or whose set's record block is fetched (R177), waits in the table. -/
def homeEnter (t : Txn) (h : Hdr) (s : State) : State :=
  let k := sliceOf t.line
  match httEnter s t with
  | none => count (aPcSlc k 26) 1 (inputPut t s)
  | some sh =>
    let c := cacheSet s t.line
    if behind s t.line then count (aPcSlc k 8) 1 (waitPut { t with share := sh } s)
    else if waitsMbuf s t then count (aPcSlc k 30) 1 (inputPut t s)
    else if tagMiss s c then tagFetch c (waitPut { t with share := sh } s)
    else decideRemote { t with share := sh } h (tagUse c s)

/-- A request of another hub arrives at its slice (R118 to R124): a copy of one held is discarded. -/
def homeReq (t : Txn) (h : Hdr) (s : State) : State :=
  let k := sliceOf t.line
  let same := fun (x : Txn) => x.line = t.line && match x.rq with
    | .remote y => y.rqh = h.rqh && y.rtag = h.rtag
    | _ => false
  if (s.home.opened ++ s.home.waiting ++ s.home.input ++ s.home.wayWait.map (·.2.2)).any same then
    count (aPcSlc k 29) 1 (doneReading t.cells s)
  else homeEnter t h (count (aPcSlc k 1) 1 s)

/-! ### Local demands at the home (Table 03.10) -/

/-- The snoops that a demand of the home's own port needs first; none where it can be served at once. -/
def localSnoops (s : State) (d : Demand) : List (HubId × Opc × Bool × Bool) :=
  let e := dirGet s d.line
  match d.kind with
  | .rdS | .rdData | .cur => if e.st = .x then [(e.p0, .snpS, true, false)] else []
  | .spec | .prefetch => []
  | _ => recallSnoops s e none

/-- A local transaction opened for a demand, its snoops sent. -/
def openLocal (d : Demand) (s : State) : State :=
  let k := sliceOf d.line
  let t := { newTxn d.line (.own d) .fnc d.tc d.epoch with ent := d.ent }
  match httEnter s t with
  | none => count (aPcSlc k 26) 1 (inputPut t s)
  | some sh =>
    let e := dirGet s d.line
    let x := openTxn { t with share := sh, owner := if e.st = DSt.x then some e.p0 else none } s
    (sendSnoops (localSnoops s d) x.1 x.2).2

/-- A demand of the home's own port waits behind a blocked line (R119). -/
def waitLocal (d : Demand) (s : State) : State :=
  let k := sliceOf d.line
  let t := newTxn d.line (.own d) .fnc d.tc d.epoch
  match httEnter s t with
  | none => count (aPcSlc k 26) 1 (inputPut t s)
  | some sh => count (aPcSlc k 8) 1 (waitPut { t with share := sh } s)

end Sys2Proof.Machine
end

