-- ==== Sys2Proof/Machine/Demand.lean ====
section
/-! DEFINITION. Demands (05 R184 to R214, 03 Table 03.8, 04): hits, misses, miss registers and their messages, fills, completions,
stride trackers, and what hosts' answers let go on. -/

namespace Sys2Proof.Machine

/-! ### Requests (R82, R95) -/

/-- The request message of a miss register. -/
def reqOpc (k : MrKind) (full : Bool) : Opc :=
  match k with
  | .rdS => .rdS
  | .rdX => .rdX
  | .rdO => .rdO
  | .upg => .upg
  | .wr => if full then .wrL else .wrP
  | .atm => .atm
  | .own => .reserved 0

/-- The payload of an `Atm` (Table 04.12). -/
def atomPayload (a : Atom) : Data :=
  ⟨BitVec.ofNat 512 (a.op.toNat + a.size.toNat * 16 + a.cellar.toNat * 64 + a.off.toNat * 256 + a.a.toNat * 2 ^ 128 + a.b.toNat * 2 ^ 256), 0⟩

/-- The request of miss register `n` sent to the hub that serves its line (R352 sends it again to the home), with the cells that it reads. -/
def sendMr (n : Nat) (m : MissReg) (s : State) (cells : List Nat := []) : State :=
  let h := mkHdr s m.line m.tc m.epoch (hubId s) n 0
  let full := match m.wr with
    | some w => w.full
    | none => m.keepM.isSome
  match m.kind with
  | .own => s
  | .wr =>
    let data := match m.wr with
      | some w => w.data
      | none => m.keepM.getD (cacheData s m.line)
    let mask := match m.wr with
      | some w => w.mask
      | none => fullMask
    let full := full || m.wr.isNone
    let h := { h with g := m.owner, xtra := if full then 0 else mask }
    send (reqOpc .wr full) m.dst h data cells s
  | .atm =>
    match m.demands.head? with
    | some d => match d.kind with
      | .atom a => send .atm m.dst h (atomPayload a) cells s
      | _ => s
    | none => s
  | k => send0 (reqOpc k full) m.dst h s

/-- The demand carries data of its own. -/
def isWrite (d : Demand) : Bool := match d.kind with | .write => true | _ => false

/-- A fill of this register reads its cell once more than its demands do: for the install (R27). -/
def installs (k : MrKind) (d : Demand) : Bool :=
  match k with
  | .rdS | .rdX | .upg => d.kind ≠ .prefetch
  | .own => d.kind ≠ .prefetch && d.kind ≠ .cur && !isAtom d
  | .rdO => d.kind ≠ .cur && d.kind ≠ .prefetch
  | _ => false

/-- A demand fills a miss register of its line, but reserves no cell for that: a write that asks for ownership (R33). -/
def noFillCell (k : MrKind) (d : Demand) : Bool := isWrite d && decide (k ≠ .wr)

/-- A fresh miss register for a demand: its fill cell is the cell that the demand reserved (R27, R33), or `fc`. -/
def newMr (l : LineAddr) (k : MrKind) (d : Demand) (dst : HubId) (share : Nat) (st : St) (fc : List Nat) (cached : Bool) : MissReg :=
  { line := l, kind := k, dst := dst, tc := d.tc, epoch := d.epoch, share := share, demands := [d], from_ := st, viaHst := false,
    gnt := none, fwd := none, wr := none, owner := false, toIm := false, keepM := none, pf := decide (d.kind = .prefetch),
    flush := false, cells := if noFillCell k d then fc else d.cells, dead := false, fresh := false, way := decide (k = .upg) && cached,
    port := if d.port < 16 then some d.port else none }

/-- Of a register's cells, those that its request reads (an atomic's operands, the data of a write without standing) and those that the register
keeps: the fill cell, or the data of a write with Ow = Rq until its `Cmp` (R598). -/
def splitCells (m : MissReg) : List Nat × List Nat :=
  match m.kind with
  | .wr => if m.owner then ([], m.cells) else (m.cells, [])
  | .atm => (m.cells.take 1, m.cells.drop 1)
  | _ => ([], m.cells)

/-- A port's demand needs a new request to a home for which the route table gives no output (R44). -/
def noRoute (s : State) (d : Demand) : Bool := d.src ≠ .hub && !isOwn s d.line && !hasRoute s (homeTarget s d.line)

/-- That demand answered as in R43. -/
def answerNoRoute (d : Demand) (s : State) : State := answerDead d 2 (fire 192 1 (oLine d.line) s)

/-- Home `h` enters the written-homes vector of port `p`, and the target set of the persist fences that cover one of the writes `ids` and have not come to
their homes (R283, R284, DEDUCED, log entry 108). -/
def noteHome (p : Nat) (ids : List Nat) (h : HubId) (s : State) : State :=
  let covers := fun (f : Fence) => f.persist && decide (f.step < 2) && (ids.any fun i => i ∈ f.covered) && decide (h ∉ f.homes)
  let hit := fun (f : Fence) => if covers f then { f with homes := f.homes ++ [h] } else f
  { s with ports := { s.ports with written := mupd [] s.ports.written p (fun l => if h ∈ l then l else l ++ [h]),
                                   fences := s.ports.fences.map fun e => (e.1, hit e.2) } }

/-- A write, write-through or atomic of a port is sent to another hub (R283). -/
def noteSent (d : Demand) (h : HubId) (s : State) : State := if d.src = .hub then s else noteHome d.port [d.id] h s

/-- The write or atomic of a register is sent to another hub than before (R283). -/
def noteAgain (m : MissReg) (s : State) : State :=
  match (if m.kind = .wr ∨ m.kind = .atm then m.port else none) with
  | some p => noteHome p (m.demands.map fun d => d.id) m.dst s
  | none => s

/-- A miss register opened for a demand and its request sent; with none free the demand waits in arrival order (R185), and with no route to the home
it is answered as in R43 (R44). The fill cell of a write that asks for ownership is taken here, from its class; the write waits while the class has none
(DESIGN CHOICE, log entry 112). `f` completes the register. -/
def openMr (k : MrKind) (d : Demand) (f : MissReg → MissReg) (s : State) : State :=
  let l := d.line
  let pf := decide (d.kind = .prefetch)
  if noRoute s d then answerNoRoute d s
  else match mrPick s (sliceOf l) d.tc pf with
  | none => count (aPcSlc (sliceOf l) 16) 1 (wait .reg d s)
  | some (n, sh) => match (if noFillCell k d then takeCells d.tc 1 1 s else some ([], s)) with
  | none => wait .reg d s
  | some (fc, s) =>
    let m := f (newMr l k d (homeTarget s l) sh (standing s l) fc (decide (cacheSt s l ≠ .i)))
    let c := splitCells m
    let m := { m with cells := c.2 }
    let s := if installs k d then moreReaders c.2 s else s
    let s := count (aPcSlc (sliceOf l) 14) 1 (mrPut n m s)
    if k = .own then cellarRead l (.mr l) s [] d.ent
    else sendMr n m (if k = .wr ∨ k = .atm then noteSent d m.dst s else s) c.1

/-- As openMr, for a fill that takes a way: the way is allocated in the same decision (R187); a demand without a candidate waits (R191). -/
def openFill (k : MrKind) (d : Demand) (s : State) : State :=
  let pf := decide (d.kind = .prefetch)
  if noRoute s d || (mrPick s (sliceOf d.line) d.tc pf).isNone then openMr k d id s
  else
    let fresh := decide ((findWay s d.line).isNone)
    let x := allocWay d.line d.tc d.epoch pf s
    let way := (placeWay x.2 d.line).isSome && !rdBit s aHcCtl 0
    if x.1 then openMr k d (fun m => { m with fresh := fresh, way := way }) x.2 else wait .way d s

/-! ### Room in the host filter (R94) -/

/-- The line of a host-filter entry at key `k`: tag, set and slice (R92). -/
def hfLine (k : Nat) (e : HfEnt) : LineAddr :=
  let x := (k / 16 % 32768) ^^^ (e.tag % 2 ^ 15)
  let base := e.tag * 2 ^ 20 + x / 64 * 2 ^ 11 + x % 64
  BitVec.ofNat 54 (base + ((k / 16 / 32768) ^^^ sliceOf (BitVec.ofNat 54 base)) * 64)

/-- A host-filter entry that a host step keeps busy (Table 03.5), or whose line is already being released: no victim. -/
def hfHeld (s : State) (k : Nat) : Bool :=
  match mget s.hf k with
  | some e => e.busy || stepOn s (hfLine k e) || s.req.due.any fun x => x.line = hfLine k e
  | none => true

/-- Ways of the line's host-filter set that are in use. -/
def hfLeaving (s : State) (l : LineAddr) : Nat := (List.range 16).countP fun w => (mget s.hf (hfKey l w)).isSome && hfHeld s (hfKey l w)

/-- The register of an own atomic. -/
def atomFill (m : MissReg) : Bool := m.kind = .own && m.demands.any isAtom

/-- The register waits for a way of the host filter: with a fill, or a standing. An own atomic's waits for a merging-buffer entry (R201). -/
def awaitsHf (m : MissReg) : Bool := m.stand.isSome || (m.late.isSome && !atomFill m)

/-- A new entry of the line's host-filter set already waits for a way: on its miss register, or with a demand that met its line present (R94). -/
def hfAwaited (s : State) (l : LineAddr) : Bool :=
  let mine := fun (x : LineAddr) => decide (x ≠ l) && decide (sliceOf x = sliceOf l) && decide (tabSet x.toNat = tabSet l.toNat)
  decide (s.home.now ≠ some l) && ((s.req.waits.any fun x => x.1 = .hf && mine x.2.line) || s.req.mrs.any fun e => awaitsHf e.2 && mine e.2.line)

/-- Room for the line's host-filter entry: true where there is some, or where the victim leaves at once; else the victim's hosts have been
sent `BISnpInv`, or every way is busy, or older new entries of the set wait. -/
def hfMakeRoom (l : LineAddr) (tc epoch : Nat) (s : State) : Bool × State :=
  if (hfFindIn s l 16 0).isSome then (true, s)
  else if hfAwaited s l then (false, s)
  else if hfRoom s l then (true, s)
  else
    let c := ((List.range 16).map (hfKey l)).filter fun k => !hfHeld s k
    if c.isEmpty then (false, s)
    else
      let x := draw (sliceOf l) c.length s
      let k := c.getD x.1 0
      let v := hfLine k (mgetD {} x.2.hf k)
      let s := count (aPcSlc (sliceOf l) 11) 1 x.2
      let s := if (hfGet s v).hst = .i then withHosts v 2 (hostsOf s v) tc epoch .drop id s else releaseHosts v tc epoch s
      (hfRoom s l, s)

/-- Miss register `n` has nothing more to wait for but a place in HSTATE for its line's standing (R597): it frees when the host filter has room, and
keeps the standing until then (R94). -/
def standHst (n : Nat) (m : MissReg) (st : St) (s : State) : State :=
  let x := hfMakeRoom m.line m.tc m.epoch s
  if x.1 then hfSetSt m.line st (mrFree n x.2)
  else mrPut n { m with kind := .wr, demands := [], keepM := none, owner := false, wr := none, cells := [], stand := some st } x.2

/-! ### Hosts that a demand must reach first (Table 03.8) -/

/-- The hosts to snoop for a demand, with the kind of snoop. -/
def hostsFor (s : State) (d : Demand) : List Nat × Nat :=
  let mine := fun p => decide (p ≠ d.port) || d.src ≠ .host
  match d.kind with
  | .rdS | .rdData => ((exclHost s d.line).filter mine, 1)
  | .cur => ((exclHost s d.line).filter mine, 0)
  | .rdX | .inv | .write => ((hostsOf s d.line).filter mine, 2)
  | .atom _ => (hostsOf s d.line, 2)
  | .spec | .prefetch | .evict => ([], 0)

/-- Hosts are snooped for a demand, then `k` goes on. -/
def afterHosts (d : Demand) (k : State → State) (s : State) : State :=
  let x := hostsFor s d
  if x.1.isEmpty then k s else withHosts d.line x.2 x.1 d.tc d.epoch (.redo d) k s

/-! ### Reads answered -/

/-- A demand records its host: its line then needs a host-filter entry. -/
def records (d : Demand) : Bool :=
  d.src = .host && match d.kind with
    | .rdS | .rdData | .rdX | .inv => true
    | _ => false

/-- The demand asks for a read whose host would be recorded: room is made in the host filter first. -/
def withRoom (d : Demand) (k : State → State) (s : State) : State :=
  if !records d then k s
  else
    let x := hfMakeRoom d.line d.tc d.epoch s
    if x.1 then k x.2 else wait .hf d x.2

/-- A fill has its place: a demand's fill of a frame that stood already renews it, a prefetch's leaves it and marks its sector (Table 05.7). -/
def filled (m : MissReg) (s : State) : State :=
  if m.pf then markPrefetched m.line s else if m.fresh then s else renewWay m.line s

/-- A read-once that hits in the cache (R110, Table 05.7). -/
def hitOnce (d : Demand) (s : State) : State :=
  let s := touchWay d.line s
  answerRead d (cacheData s d.line) true false s

/-- A read that hits in the cache (R23, Table 05.7). -/
def hitRead (d : Demand) (s : State) : State :=
  let s := touchWay d.line s
  answerRead d (cacheData s d.line) true true s

/-! ### After a write (R167, Table 04.13) -/

/-- The prefetches and stash reads of the line's slice hold as many registers as they may (Table 05.5). -/
def pfCapped (s : State) (l : LineAddr) : Bool :=
  decide (rdFld s aHcPfctl 8 8 ≤ ((mrsOf s (sliceOf l)).filter fun m => m.pf).length)

/-- The prefetch `d` opens its register in a cell of its class, which it keeps where it waits for a way, and a tracker's is counted (HC_CNT3). With no
cell it waits (R35). -/
def pfOpen (k : MrKind) (d : Demand) (f : MissReg → MissReg) (s : State) : State :=
  match (if d.cells.isEmpty then takeCells d.tc 1 1 s else some (d.cells, s)) with
  | none => wait .reg d s
  | some (cs, s) =>
    let n := s.req.mrs.length
    let d := { d with cells := cs }
    let s := if k = .rdO then openMr k d f s else openFill k d s
    if decide (d.place = .noalloc) && decide (n < s.req.mrs.length) then count (aHcCnt 3) 1 s else s

/-- A local read transaction opened for a prefetch of an own line that another hub owns (Table 03.10). -/
def pfOwned (d : Demand) (s : State) : State :=
  let e := dirGet s d.line
  let t := { newTxn d.line (.own d) .fnc d.tc d.epoch with owner := some e.p0 }
  match httEnter s t with
  | none => inputPut t s
  | some sh =>
    let x := openTxn { t with share := sh } s
    (sendSnoops [(e.p0, .snpS, true, false)] x.1 x.2).2

/-- A prefetch of a tracker (`place` NOALLOC) or a stash read (ALLOC) decided (R168, R209): skipped where the sector is present or open, the slice's
cap is reached, or the cache accepts none, and its cell, if it has one, is then free; a stash read also where the hub holds the line or has no free
register. A line in the eviction table, or blocked at its home, makes it wait as a demand does; so does the want of a register. -/
def prefetchNow (d : Demand) (s : State) : State :=
  let l := d.line
  let stash := decide (d.place = .alloc)
  let closed := rdBit s aHcCtl 0 || rdFld s aPmStat 0 3 ≠ 0
  let reg := (mrPick s (sliceOf l) d.tc true).isSome
  let skip := doneReading d.cells s
  if closed || cacheSt s l ≠ .i || (mrOf s l).isSome || pfCapped s l || !mayCache s (homeOf l) then skip
  else if stash && (standing s l ≠ .i || !reg) then skip
  else if (evOf s l).isSome then wait .line d s
  else if isOwn s l then
    if (refusedOwn s l).isSome || isDevice s l || retiring s l || draining s l || (dirGet s l).st = .l then skip
    else if behind s l then
      let t := newTxn l (.own d) .fnc d.tc d.epoch
      match httEnter s t with
      | none => inputPut t s
      | some sh => waitPut { t with share := sh } s
    else if !reg then wait .reg d s
    else if (dirGet s l).st = .x then pfOwned d s
    else pfOpen .own d id s
  else if deadWait s (homeOf l) ≠ 0 && (tkoBuddy s l).isNone || !hasRoute s (homeTarget s l) then skip
  else if !reg then wait .reg d s
  else if standing s l ≠ .i then pfOpen .rdO d (fun m => { m with viaHst := true }) s
  else pfOpen .rdS d id s

/-- A prefetch, or a stash read, of a line for port `port`, decided once its set's record block is at hand (R177, R184). -/
def prefetch (l : LineAddr) (tc epoch port : Nat) (stash : Bool) (s : State) : State :=
  let d : Demand := ⟨.hub, port, 0, 0, l, .prefetch, none, false, if stash then .alloc else .noalloc, tc, epoch, [], true, 0, 0, none⟩
  let c := cacheSet s l
  if tagMiss s c then tagFetch c (wait .tag d s) else prefetchNow d (tagUse c s)

/-- An agent's write has its `Cmp`: its placement acts (Table 04.13). -/
def placeAfter (d : Demand) (s : State) : State :=
  if d.src ≠ .agent || isDevice s d.line then s
  else match d.place with
    | .noalloc => s
    | .alloc => prefetch d.line d.tc d.epoch d.port true s
    | .stash h =>
      if h = hubId s then prefetch d.line d.tc d.epoch d.port true s
      else
        let hd := mkHdr s d.line d.tc d.epoch (hubId s) 0 0
        send0 .plNote h hd s

/-- A write is complete: the host's bit by its MetaValue, its completion, and what its placement asks. An own line that hosts still hold
keeps E in HSTATE (R81). -/
def finishWrite (d : Demand) (s : State) : State :=
  let s := writeMeta d s
  let s := if isOwn s d.line && standing s d.line = .i && (hfGet s d.line).pv ≠ 0 then hfSetSt d.line .e s else s
  placeAfter d (answerWrite d s)

/-! ### Demands on own lines -/

/-- A read of an own line that nothing on another hub or host stands in the way of. -/
def ownReadNow (d : Demand) (s : State) : State :=
  let l := d.line
  if (dirGet s l).st = .l then answerRead d Data.poison false false s
  else match d.kind with
    | .inv => withRoom d (fun s => answerRead d Data.zero false true (if standing s l = .i then hfSetSt l .e s else s)) s
    | .cur => if cacheSt s l ≠ .i then hitOnce d s else openMr .own d id s
    | _ => if cacheSt s l ≠ .i then withRoom d (hitRead d) s else openFill .own d s

/-- A line that grants nothing now is read once (R57, Table 02.6, R454, R572). -/
def readOnceOnly (s : State) (l : LineAddr) : Bool :=
  !mayCache s (homeOf l) || isDevice s l || (isOwn s l && retiring s l) || draining s l

/-- The demand as it is served: a read of a line that grants nothing is a read-once (R101). -/
def asServed (s : State) (d : Demand) : Demand :=
  match d.kind with
  | .rdS | .rdData | .rdX => if readOnceOnly s d.line then { d with kind := .cur } else d
  | _ => d

/-- An own write decided (R99, R194, R199). -/
def ownWriteNow (d : Demand) (w : HostWr) (s : State) : State :=
  let alloc := !d.na && d.src = .host && !retiring s d.line && !draining s d.line
  let lost := (dirGet s d.line).st = .l && !w.full
  let x := if lost then (true, cellarWrite d.line w.data w.mask s d.cells d.ent)
    else ownWrite d.line w.data w.mask w.full alloc d.tc d.epoch d.cells (.demand d) s d.ent
  if x.1 then finishWrite d x.2 else x.2

/-- An own atomic performed on the line's data (R159, R161). Poison leaves memory unchanged; dirty data gathered for it (`dirty`) is then stored. -/
def ownAtomNow (d : Demand) (a : Atom) (data : Data) (dirty : Bool) (s : State) : State :=
  match (if (dirGet s d.line).st = .l then none else atomApply a data) with
  | none => answerAtom d 1 (atomOld a data) (if dirty then cellarWrite d.line data fullMask s [] d.ent else s)
  | some (old, new) =>
    let x := atomStore d.line a new d.tc d.epoch (.demand { d with tag := d.tag, w := some ⟨false, 0, ⟨BitVec.ofNat 512 old.toNat, 0⟩, .invalid⟩ }) s d.ent
    if x.1 then answerAtom d 0 old x.2 else x.2

/-- A request passes its slice's sampling countdown at its home decision (R532). -/
def sampleStep (d : Demand) (hit : Bool) (s : State) : State :=
  let c := rd s aPcSmpctl
  if !bit c 0 || d.src = .hub || !isOwn s d.line || !bit c (19 + d.port) || !bit c (35 + d.tc) then s
  else
    let k := sliceOf d.line
    let n := mgetD 0 s.cnt.count k
    if n > 1 then { s with cnt := { s.cnt with count := mput 0 s.cnt.count k (n - 1) } }
    else
      let rcl := match txnOf s d.line with
        | some t => (match t.rq with | .recall _ _ => true | _ => false)
        | none => false
      let ahead := ((s.home.opened ++ s.home.waiting).filter fun t => t.line = d.line).length
      let x : Sample := ⟨d, hit, decide (d.line ∈ s.home.keep), rcl, ahead⟩
      count (aPcSlc k 31) 1 { s with cnt := { s.cnt with count := mput 0 s.cnt.count k (2 ^ fld c 1 5), samples := s.cnt.samples ++ [x] } }

/-- A demand counted once as a hit or a miss (HC_CNT0, HC_CNT1): it hits where the line's standing, and the data it needs, are here. -/
def classify (merged : Bool) (d : Demand) (s : State) : Demand × State :=
  if d.counted || d.src = .hub then (d, s)
  else
    let present := decide (cacheSt s d.line ≠ .i)
    let hit := !merged && match d.kind with
      | .rdS | .rdData | .cur => present
      | .atom _ => present && isOwn s d.line
      | .rdX => present && ownedSt (standing s d.line)
      | .inv => ownedSt (standing s d.line)
      | .write => if isOwn s d.line then present else ownedSt (standing s d.line)
      | .spec | .prefetch | .evict => false
    ({ d with counted := true }, sampleStep d hit (count (aHcCnt (if hit then 0 else 1)) 1 s))

/-- A demand on an own line that is not blocked and has no remote copy in its way (Table 03.10). -/
def ownNow (d : Demand) (s : State) : State :=
  match d.kind with
  | .write => match d.w with
    | some w => if mbufHolds s d then count (aPcSlc (sliceOf d.line) 30) 1 (wait .mbuf d s) else afterHosts d (ownWriteNow d w) s
    | none => s
  | .atom a =>
    if mbufHolds s d then count (aPcSlc (sliceOf d.line) 30) 1 (wait .mbuf d s)
    else afterHosts d (fun s => if cacheSt s d.line ≠ .i then ownAtomNow d a (cacheData s d.line) false s else openMr .own d id s) s
  | _ => afterHosts d (ownReadNow d) s

/-- A demand of this hub's own port that is decided and not yet answered: a host step, a cellar read or a completion is to come for it. -/
def underWay (s : State) (d : Demand) : Bool :=
  let mine := fun (w : Who) => match w with
    | .demand x => sameDemand x d
    | _ => false
  (s.hst.steps.any fun x => match x.cont with | .redo y => sameDemand y d | _ => false) ||
    (s.req.mrs.any fun e => e.2.kind = .own && e.2.demands.any fun x => sameDemand x d) ||
    (s.cel.owed.any fun o => mine o.who) || s.hc.mbuf.any fun e => e.owed.any mine

/-- A demand that its decision has not answered is a transaction of the line from that decision on: it holds a table entry of share `sh` and blocks the
line until its response is issued (R98, R119, R122, R158). -/
def openPending (sh : Nat) (d : Demand) (s : State) : State :=
  if underWay s d then (openTxn { newTxn d.line (.own d) .fnc d.tc d.epoch with share := sh, ent := d.ent } s).2 else s

/-- The data `data` that an own transaction has gathered serves its demand, and goes to the cellar unless the demand's own write merges with it or
replaces it (R99, R135). The demand waits, with the data still in the transaction, for room in the host filter or in the merging buffer. -/
def serveGathered (t : Txn) (d : Demand) (data : Data) (s : State) : State :=
  let l := d.line
  let taken := setTxn { t with dirty := none }
  let stored := fun (s : State) => cellarWrite l data fullMask (taken s) [] t.ent
  match d.kind with
  | .write => match d.w with
    | some w =>
      if mbufHolds s d then count (aPcSlc (sliceOf l) 30) 1 (wait .mbuf d s)
      else if w.full then ownNow d (taken s)
      else ownNow { d with w := some { w with full := true, mask := fullMask, data := mergeData data w.data w.mask } } (taken s)
    | none => s
  | .atom a => if mbufHolds s d then count (aPcSlc (sliceOf l) 30) 1 (wait .mbuf d s) else ownAtomNow d a data true (taken s)
  | .inv => ownNow d (stored s)
  | .cur => answerRead d data false false (stored s)
  | .prefetch | .spec | .evict => stored s
  | _ => withRoom d (fun s =>
      let y := allocWay l d.tc d.epoch false (stored s)
      let s := if !rdBit y.2 aHcCtl 0 && (placeWay y.2 l).isSome then placeLine l .e data [] (d.tc, d.epoch) y.2 else hfSetSt l .e y.2
      answerRead d data false true s) s

/-- An own transaction whose snoops are answered serves its demand with the dirty data gathered, or as the line stands (Table 03.10). It stays open until
the demand has its response (R98), also while that waits for a register, a way, a merging-buffer entry or the host filter. -/
def finishOwn (t0 : Txn) (d0 : Demand) (s : State) : State :=
  let x := localNext t0 d0 s
  let t := { x.1 with snps := [] }
  let d := { d0 with ent := t.ent }
  if d.kind = .prefetch then prefetchNow d (endTxn t (spill t x.2))
  else match t.dirty with
  | none => ownNow d (setTxn t x.2)
  | some data => afterHosts d (serveGathered t d data) (setTxn t x.2)

/-- A demand on an own line. -/
def ownDemand (d0 : Demand) (s : State) : State :=
  let l := d0.line
  let d := asServed s d0
  let now := { d with ent := entIn s l none }
  match refusedOwn s l with
  | some (src, cause) => match d.kind with
    | .spec | .prefetch => s
    | _ => answerDead d 2 (fire src cause (oLine l) s)
  | none =>
    match d.kind with
    | .prefetch | .evict => s
    | .spec => if isDevice s l || cacheSt s l ≠ .i || blocked s l then s else cellarRead l .nobody s
    | _ =>
      let first := decide (s.home.now = some l)
      if d.kind = .inv && readOnceOnly s l then answerHost d (.cmp d.tag) s
      else if !first && s.req.waits.any (fun x => x.1 = .mbuf && x.2.line = l) then wait .mbuf d s
      else if behind s l then waitLocal d s
      else if mbufHolds s d then count (aPcSlc (sliceOf l) 30) 1 (wait .mbuf d s)
      else if !(localSnoops s d).isEmpty then
        let s := openLocal now s
        match ownTxn s now with
        | some t => if t.snps.isEmpty then finishOwn t now s else s
        | none => s
      else
        let t := newTxn l (.own d) .fnc d.tc d.epoch
        match httEnter s t with
        | none => count (aPcSlc (sliceOf l) 26) 1 (inputPut t s)
        | some sh => openPending sh now (ownNow now (dirKeep l s))

/-! ### Demands on lines of other hubs -/

/-- `WrL` or `WrP` for a demand; `owner`: Ow = Rq, with the standing M and the write's data kept until `Cmp` (R598); words that a partial write
does not cover in full count as poisoned there (log entry 10). -/
def sendWrite (d : Demand) (w : HostWr) (owner : Bool) (s : State) : State :=
  let data := if w.full then w.data else knownPart w.data w.mask
  openMr .wr d (fun m => { m with wr := some w, owner := owner, cells := d.cells, keepM := if owner then some data else none }) s

/-- The write-through of a line in M on QD48-C1 is sent, its data in a cell of the protocol reserve until `Cmp` (R32, R200, R598): `d` is a demand of the
hub itself. Without a register or a cell it waits as demands do, with WTP set; a line that has left M needs none. -/
def sendThrough (d : Demand) (s : State) : State :=
  match findWay s d.line with
  | none => s
  | some k =>
    if cacheSt s d.line ≠ .m then setWay k { getWay s k with wtp := false, again := false } s
    else
      let x := protoCell d.tc s
      let s' := setWay k { getWay s k with wtp := true, again := false } (if x.1.isEmpty then s else x.2)
      if x.1.isEmpty || (mrPick s (sliceOf d.line) d.tc false).isNone then
        wait .reg d (setWay k { getWay s k with wtp := true, again := false } s)
      else openMr .wr { d with cells := x.1 } (fun m => { m with owner := true, demands := [] }) s'

/-- A remote line in M on QD48-C1 is written through, or marked as written again while a write-through is in flight or waits (R200). -/
def writeThrough (l : LineAddr) (d : Demand) (s : State) : State :=
  match findWay s l with
  | none => s
  | some k =>
    let s := noteSent d (homeTarget s l) s
    if (getWay s k).wtp then setWay k { getWay s k with again := true } s
    else sendThrough { d with src := .hub, kind := .write, w := none, cells := [], place := .noalloc, counted := true } s

/-- A write to a remote line held E or M (Tables 05.8 and 05.9). -/
def ownerWrite (d : Demand) (w : HostWr) (s : State) : State :=
  let l := d.line
  let present := decide (cacheSt s l ≠ .i)
  let ready := (mrPick s (sliceOf l) d.tc false).isSome
  let through := (findWay s l).any fun k => (getWay s k).wtp
  let noalloc := d.na || d.src ≠ .host
  let owner := fun (s : State) =>
    if noRoute s d then answerNoRoute d s
    else if ready then sendWrite d w true (hfSetSt l .i (setCacheSt l .i s)) else sendWrite d w true s
  if isH1 s then
    if w.full then
      if noalloc then owner s
      else
        let x := wayReady l d.tc d.epoch s
        if x.1 then finishWrite d (placeLine l .m w.data d.cells (d.tc, d.epoch) x.2) else owner x.2
    else if present then
      finishWrite d (touchWay l (installWay l .m (mergeData (cacheData s l) w.data w.mask) d.cells (d.tc, d.epoch) s true))
    else if noRoute s d then answerNoRoute d s
    else sendWrite d w true (if ready then hfSetSt l .i s else s)
  else if noRoute s d && !through then answerNoRoute d s
  else if !(ready && protoRoom s 1) && !through then wait .reg d s
  else if present then
    finishWrite d (writeThrough l d (touchWay l (installWay l .m (mergeData (cacheData s l) w.data w.mask) d.cells (d.tc, d.epoch) s)))
  else if w.full && !noalloc then
    let x := wayReady l d.tc d.epoch s
    if x.1 then finishWrite d (writeThrough l d (placeLine l .m w.data d.cells (d.tc, d.epoch) x.2)) else owner x.2
  else if w.full then owner s
  else if noRoute s d then answerNoRoute d s
  else sendWrite d w true (hfSetSt l .i s)

/-- A write to a remote line decided. An agent's write goes to the home without standing (R167). -/
def remoteWriteNow (d : Demand) (w : HostWr) (s : State) : State :=
  match standing s d.line with
  | .i => sendWrite d w false s
  | .e | .m => ownerWrite d w s
  | _ => if d.src = .agent || draining s d.line then sendWrite d w false s else openMr .upg d id s

/-- A read of a remote line decided. A standing held in HSTATE is read by `RdO` and kept (R597). -/
def remoteReadNow (d : Demand) (s : State) : State :=
  let l := d.line
  let st := standing s l
  let present := decide (cacheSt s l ≠ .i)
  match d.kind with
  | .cur => if present then hitOnce d s else openMr .rdO d (fun m => { m with viaHst := true }) s
  | .rdX =>
    if ownedSt st then (if present then withRoom d (hitRead d) s else openMr .rdO d (fun m => { m with viaHst := true }) s)
    else if st = .i then openFill .rdX d s
    else openMr .upg d id s
  | .inv =>
    if ownedSt st then withRoom d (fun s => answerRead d Data.zero false true s) s
    else if st = .i then openFill .rdX d s else openMr .upg d id s
  | _ =>
    if present then withRoom d (hitRead d) s
    else if st = .i then openFill .rdS d s
    else openMr .rdO d (fun m => { m with viaHst := true }) s

/-- A demand on a line of another hub. -/
def remoteDemand (d0 : Demand) (s : State) : State :=
  let l := d0.line
  let d := asServed s d0
  let held := decide (standing s l ≠ .i) || !(hostsOf s l).isEmpty
  match d.kind with
  | .spec | .prefetch | .evict => s
  | _ =>
    let taken := (tkoBuddy s l).isSome
    if isWrite d && d.w.isNone then sendThrough d s else
    if !taken && deadWait s (homeOf l) = 1 then wait .home d s
    else if !taken && deadWait s (homeOf l) = 2 then answerDead d 5 (fire 203 0 (oLine l) s)
    else if (standing s l = .i || isAtom d) && noRoute s d then answerNoRoute d s
    else if (isAtom d || !mayCache s (homeOf l)) && held then releaseHosts l d.tc d.epoch (wait .atomRel d s)
    else if !mayCache s (homeOf l) then
      match d.kind with
      | .inv => answerHost d (.cmp d.tag) s
      | .write => match d.w with
        | some w => sendWrite d w false s
        | none => s
      | .atom _ => openMr .atm d id s
      | _ => openMr .rdO d id s
    else match d.kind with
      | .write => match d.w with
        | some w => afterHosts d (remoteWriteNow d w) s
        | none => s
      | .atom _ => openMr .atm d id s
      | _ => afterHosts d (remoteReadNow d) s

/-! ### Merging (R186, Table 05.6) -/

/-- A later demand may merge on the register. -/
def mergesOn (m : MissReg) (d : Demand) : Bool :=
  match m.kind, d.kind with
  | .rdS, .atom _ => m.pf
  | _, .atom _ | _, .spec | _, .prefetch | _, .evict => false
  | .rdS, _ | .rdX, _ | .upg, _ => true
  | .rdO, .cur => true
  | .own, .write => false
  | .own, _ => !(m.demands.any fun x => isAtom x)
  | _, _ => false

/-- The register's demand register again after a prefetch: it moves to the demand's share when that has room (Table 05.6). -/
def unprefetch (s : State) (d : Demand) (m : MissReg) : MissReg :=
  if !m.pf then m
  else
    let room := d.tc < 4 && decide (((mrsOf s (sliceOf d.line)).filter fun x => x.share = d.tc).length < rdFld s aHcMrq (8 * d.tc) 8)
    { m with pf := false, share := if room then d.tc else m.share }

/-! ### Stride trackers (R207 to R210) -/

/-- One training of a tracker by sector `x` (R208). -/
def trainOn (x : Nat) (t : Tracker) : Tracker :=
  let d : Int := (x : Int) - t.l
  if d = 0 then t
  else if d = t.d then { t with l := x, c := satTo 3 (t.c + 1) }
  else if t.c > 0 then { t with l := x, c := t.c - 1 }
  else { t with l := x, d := d }

/-- The sectors a trained tracker asks for, in order, within the region (R208): those beyond P in the stride's direction. -/
def wanted (x : Nat) (d : Int) (p : Option Nat) : Nat → Nat → List Nat
  | 0, _ => []
  | k + 1, i =>
    let n : Int := x + (i : Int) * d
    if n < 0 ∨ n > 63 then []
    else
      let m := n.toNat
      let beyond := match p with
        | none => true
        | some q => if d > 0 then decide (m > q) else decide (m < q)
      if beyond then m :: wanted x d (some m) k (i + 1) else wanted x d p k (i + 1)

/-- A tracker placed first in its slice's list, which holds the most recently trained first and at most 64. -/
def putTracker (k : Nat) (t : Tracker) (s : State) : State :=
  let rest := (mgetD [] s.hc.trackers k).filter fun x => !(x.port = t.port && x.region = t.region)
  { s with hc := { s.hc with trackers := mset s.hc.trackers k ((t :: rest).take 64) } }

/-- A trained stream's next sector lies outside its region: the hand-over to the adjacent region in the stride's direction is on its way (R210). -/
def sendHandOver (p region : Nat) (d : Int) (s : State) : State :=
  let to_ := (if d > 0 then region + 1 else region - 1, d)
  if d.natAbs > 8 ∨ (d < 0 ∧ region = 0) ∨ (p, to_) ∈ s.hc.handOvers then s
  else { s with hc := { s.hc with handOvers := s.hc.handOvers ++ [(p, to_)] } }

/-- A read at sector `x` of its region trains its stream's tracker, or takes one, and may issue prefetches in class HC_PFCTL.TC (R208, R209), or a
hand-over (R210). A tracker newly taken starts with D = 0, C = 0 and no P, and with HC_PFCTL.EN = 0 a trained stream sends no hand-over either
(DESIGN CHOICE, log entry 114). -/
def train (p : Nat) (l : LineAddr) (s : State) : State :=
  let region := l.toNat / 64
  let x := l.toNat % 64
  let k := sliceOf l
  match (mgetD [] s.hc.trackers k).find? (fun t => t.port = p && t.region = region) with
  | none => putTracker k ⟨p, region, x, 0, 0, none⟩ s
  | some t =>
    let t' := trainOn x t
    if t'.l = t.l ∧ x = t.l then s
    else
      let go := rdBit s aHcPfctl 0 && decide (t'.c ≥ rdFld s aHcPfctl 16 2) && t'.d ≠ 0
      let degree := rdFld s aHcPfctl 4 4 + 1
      let w := if go then wanted x t'.d t'.p degree 1 else []
      let s := putTracker k { t' with p := (w.getLast?).orElse fun _ => t'.p } s
      let s := w.foldl (fun s n => prefetch (BitVec.ofNat 54 (64 * region + n)) (rdFld s aHcPfctl 1 3) (epochNow s) p false s) s
      let last : Int := x + (degree : Int) * t'.d
      if go && (decide (last < 0) || decide (last > 63)) then sendHandOver p region t'.d s else s

/-- A hand-over opens a tracker of the adjacent region in the stride's direction, at the nearer edge sector (R210). -/
def handOver (p region : Nat) (d : Int) (s : State) : State :=
  if d = 0 ∨ d.natAbs > 8 then s
  else putTracker (sliceOf (BitVec.ofNat 54 (64 * region)))
    ⟨p, region, if d > 0 then 0 else 63, d, rdFld s aHcPfctl 16 2, none⟩ s

/-- A host's or an agent's read, which may train a tracker (R208). -/
def isRead (d : Demand) : Bool := (match d.kind with | .rdS | .rdData | .rdX => true | _ => false) && d.src ≠ .hub

/-- The demand trains (R208) at its first decision: a read that hits in the hub cache, or one of an own line that allocates in it, and is not read once
nor turned away (log entry 89). A miss on another hub's line trains when its fill is installed, since its home may serve it read-once. -/
def trains (s : State) (d : Demand) : Bool :=
  let l := d.line
  isRead d && !d.counted && !readOnceOnly s l &&
    ((cacheSt s l ≠ .i && (isOwn s l || d.kind ≠ .rdX || ownedSt (standing s l))) || (!rdBit s aHcCtl 0 && !allRetired s l && isOwn s l)) &&
    (if isOwn s l then (refusedOwn s l).isNone && (dirGet s l).st ≠ .l else (tkoBuddy s l).isSome || deadWait s (homeOf l) = 0)

/-- The demand's decision made, then its training. -/
def thenTrain (d : Demand) (before after : State) : State := if trains before d then train d.port d.line after else after

/-! ### The decision of a demand -/

/-- A clean eviction served (R83, R101): the host's bit goes, and a standing that nothing else holds goes with it. -/
def cleanEvict (d : Demand) (s : State) : State :=
  let s := hfClear d.line d.port s
  let s := if (hfGet s d.line).pv = 0 && cacheSt s d.line = .i && (hfGet s d.line).hst ≠ .i then release d.line d.tc d.epoch none s else s
  answerHost { d with cells := [] } (.cmp d.tag) s

/-- An older demand for the line waits at the slice (R185, R186): later ones do not pass it. -/
def demandAhead (s : State) (l : LineAddr) : Bool :=
  decide (s.home.now ≠ some l) && s.req.waits.any fun x => (x.1 = .line || x.1 = .reg || x.1 = .way || x.1 = .hf) && x.2.line = l

/-- A demand merges on miss register `n` (R186): its fill cell gains a reader (R27). A read that merges on the cellar read of read-once demands takes a
way as a miss does (R187, R189), and waits for one where its set has no candidate. -/
def mergeOn (n : Nat) (m : MissReg) (d : Demand) (s : State) : State :=
  let fills := fun (x : Demand) => installs m.kind x
  let first := m.kind = .own && fills d && !(m.demands.any fun x => fills x || decide (x.kind = .prefetch))
  let x := if first then allocWay d.line d.tc d.epoch false s else (true, s)
  if !x.1 then wait .way d x.2
  else
    let s := moreReaders m.cells (if first then moreReaders m.cells x.2 else x.2)
    let way := m.way || (first && (placeWay s d.line).isSome && !rdBit s aHcCtl 0)
    count (aPcSlc (sliceOf d.line) 15) 1 (mrPut n { unprefetch s d m with demands := m.demands ++ [d], way := way } s)

/-- A demand waits for a transition of its line: a miss (R184). -/
def waitLine (d : Demand) (s : State) : State :=
  let x := classify true d s
  wait .line x.1 x.2

/-- A demand (R184): it goes on in the transaction that it opened, waits for a back-invalidate snoop of its own host (R139) or for a frame-tag fetch
(R177), merges, waits for its line, or is decided. -/
def demand (d0 : Demand) (s : State) : State :=
  let d := { d0 with line := inLine s d0.line }
  let l := d.line
  let passive := d.kind = .spec
  if d.src = .host && biTo s l d.port then (if passive then s else wait .bi d s)
  else if d.kind = .evict then cleanEvict d s
  else match ownTxn s d with
  | some t => if !t.step && allAnswered t then finishOwn t d s else s
  | none =>
  if !passive && tagMiss s (cacheSet s l) then tagFetch (cacheSet s l) (wait .tag d s)
  else if d.kind = .prefetch then prefetchNow d (tagUse (cacheSet s l) s)
  else
    let s := if passive then s else tagUse (cacheSet s l) s
    let wt := (findWay s l).any fun k => (getWay s k).wtp
    match (if wt then none else mrOf s l) with
    | some (n, m) =>
      let as := asServed s d
      if passive then s
      else if mergesOn m as && decide (m.demands.length < 8) && m.late.isNone && m.stand.isNone && !demandAhead s l && !isDevice s l then
        let x := classify true as s
        thenTrain d s (mergeOn n m x.1 x.2)
      else waitLine d s
    | none =>
      if (evOf s l).isSome || (!passive && demandAhead s l) then (if passive then s else waitLine d s)
      else
        let x := if passive then (d, s) else classify false d s
        let y := if passive then x.2 else count (aPcSlc (sliceOf l) 0) 1 x.2
        thenTrain d s (if isOwn s l then ownDemand x.1 (if passive then y else count (aPcSlc (sliceOf l) 2) 1 y) else remoteDemand x.1 y)

/-! ### Serving what a register holds -/

/-- The maintenance action of a flush-pending register falls due once its fill has installed (R214). -/
def flushDue (m : MissReg) (s : State) : State :=
  if m.flush then { s with hc := { s.hc with released := s.hc.released ++ [m.line] } } else s

/-- The ownership a merged demand needs. -/
def needsOwner (d : Demand) : Bool :=
  match d.kind with
  | .rdX | .inv => true
  | .write => d.src ≠ .agent
  | _ => false

/-- The cells with which a merged demand is answered: the fill cell, where there is one; its own is then freed unused (R27). -/
def fromFill (fc : List Nat) (d : Demand) (s : State) : Demand × State :=
  if fc.isEmpty || d.cells = fc then (d, s)
  else if isWrite d then (d, doneReading fc s) else ({ d with cells := fc }, doneReading d.cells s)

/-- A merged demand is not answered from the fill cell: it keeps the cell that it reserved (R27). -/
def offFill (fc : List Nat) (d : Demand) (s : State) : State := if fc.isEmpty || d.cells = fc then s else doneReading fc s

/-- One merged demand served from the fill's data in the cells `fc`, after the host step its predecessors make necessary, for which it keeps its own cell.
A read of another hub's line that allocated in the cache trains (R208). -/
def serveFill (data : Data) (fc : List Nat) (way : Bool) (s : State) (d : Demand) : State :=
  let s := if way && isRead d && !isOwn s d.line && cacheSt s d.line ≠ .i then train d.port d.line s else s
  if d.src = .host && biTo s d.line d.port then wait .bi d (offFill fc d s)
  else match d.kind with
    | .write | .atom _ => wait .line d (offFill fc d s)
    | .spec | .prefetch | .evict => (fromFill fc d s).2
    | k =>
      if (k = .rdX || k = .inv) && !ownedSt (standing s d.line) then wait .line d (offFill fc d s)
      else if (hostsFor s d).1.isEmpty then
        let x := fromFill fc d s
        answerRead x.1 data false (k ≠ .cur) x.2
      else afterHosts d (answerRead d data false (k ≠ .cur)) (offFill fc d s)

/-- Demands that were merged on a register and are not served by it are decided again in their order, ahead of later demands for the line (R186). -/
def decideMerged (l : LineAddr) : List Demand → State → State
  | [], s => s
  | d :: t, s =>
    let old := s.req.waits
    let s := asNow l (demand d) { s with req := { s.req with waits := [] } }
    let stuck := s.req.waits.any fun x => x.2.line = l
    let more := if stuck then t.map fun x => (Why.line, x) else []
    let s := { s with req := { s.req with waits := s.req.waits ++ more ++ old } }
    if stuck then s
    else if blocked s l then t.reverse.foldl (fun s d => asNow l (demand d) s) s
    else decideMerged l t s

/-- The merged demands `ds` leave the fill cell, keep their own, and are decided again. -/
def again (fc : List Nat) (l : LineAddr) (ds : List Demand) (s : State) : State :=
  decideMerged l ds (ds.foldl (fun s d => offFill fc d s) s)

/-- `Fin` for miss register `n` (R97). -/
def sendFin (n : Nat) (m : MissReg) (htag : Nat) (s : State) : State :=
  send0 .fin m.dst (mkHdr s m.line m.tc m.epoch (hubId s) n htag) s

/-- The registers of a fill that meets a full host-filter set keep it (R94): its hosts cannot be recorded, or its standing not placed in HSTATE. -/
def fillRoom (m : MissReg) (st : St) (s : State) : Bool × State :=
  if m.demands.any records || (!hasWay s m.line && st ≠ .m) then hfMakeRoom m.line m.tc m.epoch s else (true, s)

/-- A fill that gives a standing, once the host filter has room for what it records: installed, its demands answered in order, `Fin`, the Keep window
(R125), and what must follow: `Upg` from the first merged demand that needs ownership on, the write-through of an M that no way holds or that
QD48-C1 does not keep, which carries the merged write that asked for it (Table 05.9) and holds the fill cell until `Cmp` (R598); a merged write, and what
follows it, is decided again. `payload` says that data came for it. -/
def fillNow (n : Nat) (m : MissReg) (st : St) (data : Data) (htag : Nat) (payload : Bool) (s : State) : State :=
  let l := m.line
  let wt := decide (st = .m) && !isH1 s && hasWay s l
  let s := if wt then moreReaders m.cells s else s
  let x := install l st data (if payload then m.cells else []) (m.tc, m.epoch) s
  let s := filled m x.2
  let s := if payload then s else doneReading m.cells s
  let held := !x.1
  let s := mrPut n { m with keepM := if held then some data else none, demands := [], late := none } s
  let owned := ownedSt st
  let ready := fun (d : Demand) => !isWrite d && !isAtom d && (owned || !needsOwner d)
  let rest := m.demands.dropWhile ready
  let s := (m.demands.takeWhile ready).foldl (serveFill data m.cells m.way) s
  let s := sendFin n m htag s
  let now := standing s l
  let s := if now = .e || now = .m || now = .f then openKeep l s else s
  let again := again m.cells l rest
  if !owned && (rest.head?.any needsOwner) then
    let m' := { m with kind := MrKind.upg, demands := rest, from_ := st, gnt := none, fwd := none, flush := false, late := none }
    sendMr n m' (mrPut n m' (moreReaders m.cells (flushDue m s)))
  else if wt && rest.head?.any isWrite then
    let s := again (flushDue m (mrFree n (doneReading m.cells s)))
    if (findWay s l).any fun k => (getWay s k).wtp then s
    else sendThrough ⟨.hub, m.port.getD 16, 0, 0, l, .write, none, false, .noalloc, m.tc, m.epoch, [], true, 0, 0, none⟩ s
  else if held || wt then
    let s := match findWay s l with
      | some k => if held then s else setWay k { getWay s k with wtp := true, again := false } s
      | none => s
    let m' := { m with kind := MrKind.wr, demands := [], owner := true, keepM := if held then some data else none, gnt := none,
                       fwd := none, flush := false, late := none, way := false }
    let s := (m.port.toList).foldl (fun s p => noteHome p [] m.dst s) s
    again (sendMr n m' (mrPut n m' (flushDue m s)))
  else again (flushDue m (mrFree n s))

/-- A fill that gives a standing: at once, or kept with its register until the host filter has room (R94). -/
def fill (n : Nat) (m : MissReg) (st : St) (data : Data) (htag : Nat) (payload : Bool) (s : State) : State :=
  let x := fillRoom m st s
  if x.1 then fillNow n m st data htag payload x.2
  else mrPut n { m with late := some (st, data, htag, payload) } x.2

/-- Read-once service (R110): nothing installed, copies dropped, the merged demands served with the data, writes sent on as at standing I. The read of
R597 keeps the standing that the hub still has, and installs the line in it. -/
def readOnce (n : Nat) (m : MissReg) (data : Data) (htag : Nat) (s : State) : State :=
  let l := m.line
  let s := if m.kind = .rdX || m.kind = .upg then fire 193 1 (oLine l) s else s
  let st := standing s l
  let kept := m.kind = .rdO && m.viaHst && m.from_ ≠ .i && !m.toIm && st ≠ .i
  let data := if !kept then data else if cacheSt s l ≠ .i then cacheData s l else (heldM s l).getD data
  let s := if kept then s else withHosts l 2 (hostsOf s l) m.tc m.epoch .drop id (dropLine l s)
  let isW := fun (d : Demand) => isWrite d || isAtom d
  let short := fun (d : Demand) => kept && needsOwner d && !ownedSt st
  let reads := m.demands.filter fun d => !isW d && !short d
  let placed := kept && cacheSt s l = .i && (heldM s l).isNone && mayCache s (homeOf l)
  let stood := (findWay s l).isSome
  let y := if placed then allocWay l m.tc m.epoch m.pf s else (false, s)
  let into := placed && (placeWay y.2 l).isSome && !rdBit y.2 aHcCtl 0
  let extra := m.demands.head?.any (installs m.kind)
  let s := if into then filled { m with fresh := !stood } (placeLine l st data (if extra then m.cells else []) (m.tc, m.epoch) y.2)
    else if extra then doneReading m.cells y.2 else y.2
  let s := reads.foldl (fun s d0 =>
    let x := fromFill m.cells d0 s
    let s := if into && isRead x.1 then train x.1.port l x.2 else x.2
    match x.1.kind with
    | .inv => if kept then answerRead x.1 data false true s else answerHost x.1 (.cmp x.1.tag) s
    | .spec | .prefetch | .evict => doneReading x.1.cells s
    | k => answerRead x.1 data false (kept && k ≠ .cur) s) s
  let s := sendFin n m htag (flushDue m s)
  let s := mrFree n s
  let s := again m.cells l (m.demands.filter fun d => !isW d && short d) s
  (m.demands.filter isW).foldl (fun s d =>
    let s := offFill m.cells d s
    match d.w with
    | some w => if (mrOf s l).isSome then wait .line d s else sendWrite d w false s
    | none => wait .line d s) s

/-- The data of an own line's cellar read reaches its register (R189): an atomic is performed on it, read-once demands install nothing,
and any other demand has the line installed in E, once the host filter has room for it; from the first demand with a recall to make on they are decided
again. An atomic whose result goes through the merging buffer waits for an entry there (R159, R201). -/
def ownFill (n : Nat) (m : MissReg) (data : Data) (s : State) : State :=
  let l := m.line
  match m.demands.find? isAtom with
  | some d => match d.kind with
    | .atom a =>
      if mbufHolds s d then mrPut n { m with late := some (.e, data, 0, true) } s
      else ownAtomNow d a data false (flushDue m (mrFree n s))
    | _ => mrFree n s
  | none =>
    let install_ := m.demands.any fun d => d.kind ≠ .cur
    let x := if install_ then fillRoom m .e s else (true, s)
    if !x.1 then mrPut n { m with late := some (.e, data, 0, true) } x.2
    else
      let s := if install_ then filled m (install l .e data m.cells (m.tc, m.epoch) x.2).2 else x.2
      let direct := fun (d : Demand) => (localSnoops s d).isEmpty
      let ds := m.demands.takeWhile direct
      let s := ds.foldl (serveFill data m.cells false) s
      again m.cells l (m.demands.drop ds.length) (flushDue m (mrFree n s))

/-- The miss register that a message of the home answers, by LINE and RTAG (R123). -/
def mrFor (s : State) (h : Hdr) : Option MissReg :=
  match mget s.req.mrs h.rtag.toNat with
  | some m => if m.line = inLine s h.line && m.kind ≠ .own && !m.dead then some m else none
  | none => none

/-- A message that matches no register: discarded, with a `Fin` for it to the line's home (R123). -/
def strayFin (h : Hdr) (s : State) : State :=
  let s := count (aPcSlc (sliceOf (inLine s h.line)) 28) 1 s
  send0 .fin (homeTarget s h.line) (mkHdr s (inLine s h.line) h.tc.toNat h.epoch.toNat (hubId s) h.rtag.toNat h.htag.toNat) s

/-- What a register holds of its completion takes effect once it holds all of it (R97, R110). -/
def tryGrant (n : Nat) (m : MissReg) (htag : Nat) (s : State) : State :=
  match m.fwd, m.gnt with
  | some (d, true, data), _ => fill n m (if d then .m else .e) data htag true s
  | some (d, false, data), some true =>
    let st : St := if d || (m.kind = .upg && !m.toIm) then .m else .e
    fill n m st data htag true s
  | none, some false =>
    let l := m.line
    if cacheSt s l ≠ .i then
      let s := setCacheSt l .m s
      fill n m .m (cacheData s l) htag false s
    else
      let s := openKeep l (sendFin n m htag s)
      let s := standHst n m .e (flushDue m (doneReading m.cells s))
      again m.cells l m.demands s
  | _, _ => mrPut n m s

/-- Data that the home or a holder sends a register (R110): `st` none is read-once service. -/
def onData (h : Hdr) (d : Data) (st : Option St) (s : State) : State :=
  match mrFor s h with
  | none => strayFin h s
  | some m =>
    let n := h.rtag.toNat
    match st, m.kind with
    | none, .atm =>
      let s := match m.demands.head? with
        | some x => answerAtom { x with cells := m.cells } (if d.pz = 0 then 0 else 1) (BitVec.ofNat 128 d.bytes.toNat) s
        | none => doneReading m.cells s
      mrFree n (sendFin n m h.htag.toNat s)
    | none, _ => readOnce n m d h.htag.toNat s
    | some _, .rdO => readOnce n m d h.htag.toNat s
    | some st, _ => fill n m st d h.htag.toNat true s

/-- `FwdX` at the requester. -/
def onFwdX (h : Hdr) (d : Data) (s : State) : State :=
  match mrFor s h with
  | none => strayFin h s
  | some m => tryGrant h.rtag.toNat { m with fwd := some (h.d, h.g, d) } h.htag.toNat s

/-- `GntX` at the requester. -/
def onGntX (h : Hdr) (s : State) : State :=
  match mrFor s h with
  | none => strayFin h s
  | some m => tryGrant h.rtag.toNat { m with gnt := some h.fw } h.htag.toNat s

/-- The register is a write that carries the line held in M: its write-through, or a cleaning write. -/
def carries (m : MissReg) : Bool := m.kind = .wr && m.owner && (m.wr.isNone || m.keepM.isSome)

/-- Operations that wait for a write-through of the line have one `Cmp` less to wait for (R200). -/
def wtCmp (l : LineAddr) (s : State) : State :=
  let f := fun (x : Nat × LineAddr × Nat) =>
    if x.2.1 = l ∧ x.2.2 ≠ 0 then (if x.2.2 = 1 then none else some (x.1, l, x.2.2 - 1)) else some x
  { s with hc := { s.hc with wtLeft := s.hc.wtLeft.filterMap f } }

/-- `Cmp` at the requester of a write (R200, R598). -/
def onCmp (h : Hdr) (s : State) : State :=
  match mrFor s h with
  | none => strayFin h s
  | some m =>
    if m.kind ≠ .wr then strayFin h s
    else
      let n := h.rtag.toNat
      let l := m.line
      let again := (findWay s l).any fun k => (getWay s k).again
      let s := doneReading m.cells s
      let s := sendFin n m h.htag.toNat s
      let s := if carries m then wtCmp l s else s
      if m.owner && !m.toIm && m.wr.isNone && m.keepM.isNone && again && cacheSt s l = .m then
        let s := match findWay s l with
          | some k => setWay k { getWay s k with again := false } s
          | none => s
        sendMr n { m with cells := [] } (noteAgain m s)
      else if m.more && m.owner && !m.toIm && m.keepM.isSome then
        let m' := { m with demands := [], wr := none, more := false }
        m.demands.foldl (fun s d => finishWrite d s) (sendMr n m' (noteAgain m' (mrPut n m' (moreReaders m.cells s))))
      else
        let held := m.owner && !m.toIm
        let s := if held && decide (cacheSt s l = .m) && m.more then mrFree n s
          else if held && decide (cacheSt s l = .m) then
            let s := setCacheSt l .e (mrFree n s)
            match findWay s l with
            | some k => setWay k { getWay s k with wtp := false, again := false } s
            | none => s
          else match (if held && m.keepM.isSome then some .e else m.stand) with
            | some st => standHst n m st s
            | none => mrFree n s
        flushDue m (m.demands.foldl (fun s d => finishWrite d s) s)

/-! ### Waiting demands -/

/-- The demand that has just begun to wait stands before those of its line that came after it. -/
def waitsFirst (d : Demand) (s : State) : State :=
  match s.req.waits.getLast? with
  | none => s
  | some x => if x.2.src = d.src && x.2.port = d.port && x.2.tag = d.tag && x.2.line = inLine s d.line then
      { s with req := { s.req with waits := x :: s.req.waits.dropLast } } else s

/-- The first waiting demand of a slice that passes the test is decided again. -/
def retry (p : Why → Demand → Bool) (s : State) : State :=
  match takeFirst (fun x => p x.1 x.2) s.req.waits with
  | none => s
  | some ((_, d), rest) => waitsFirst d (asNow (inLine s d.line) (demand d) { s with req := { s.req with waits := rest } })

/-- Every waiting demand that passes the test is decided again, in arrival order; one whose line an older demand still waits for stays behind that. -/
def retryAll (p : Why → Demand → Bool) (s : State) : State :=
  let go := fun (s : State) (x : Why × Demand) =>
    let old := s.req.waits.any fun y => y.2.line = x.2.line && (y.1 = .line || y.1 = .reg || y.1 = .way || y.1 = .hf)
    if !p x.1 x.2 then { s with req := { s.req with waits := s.req.waits ++ [x] } }
    else if old then { s with req := { s.req with waits := s.req.waits ++ [(.line, x.2)] } }
    else asNow (inLine s x.2.line) (demand x.2) s
  s.req.waits.foldl go { s with req := { s.req with waits := [] } }

/-- The next new entry of a host-filter set goes on (R94): a register's fill or standing first, else the oldest demand that waits. -/
def nextHf (mine : LineAddr → Bool) (s : State) : State :=
  match s.req.mrs.find? fun e => awaitsHf e.2 && mine e.2.line with
  | some (n, m) => asNow m.line (fun s =>
      match m.late, m.stand with
      | some (st, data, htag, payload), _ =>
        let m := { m with late := none }
        if m.kind = .own then ownFill n m data s else fill n m st data htag payload s
      | none, some st => standHst n m st s
      | none, none => s) s
  | none => retry (fun w d => w = .hf && mine d.line) s

end Sys2Proof.Machine
end

