-- ==== Sys2Proof/Machine/Budget.lean ====
section
/-! DEFINITION. The Boards' squares and arbitration (06 R228 to R240) and the budgets of the timed classes (R247, R248). -/

namespace Sys2Proof.Machine

/-! ### Budgets (R247, R248) -/

/-- The byte of square `q` of Board `b` (Table 06.4). -/
def square (s : State) (b q : Nat) : Nat := rdFld s (aSbSq b (q / 8)) (8 * (q % 8)) 8

/-- Transfers of Board `b` in a square: K (Table 06.3, R233), or K′ in the guard band (R568, Table 14.10). -/
def boardK (s : State) (b : Nat) : Nat :=
  let agg := aggOf s (b - 76)
  let k := if b < 56 then 16 else if b < 68 then 3 else if b < 76 then 8 else if agg = 1 then 8 else if agg = 2 then 16 else 4
  if rdBit s aPmStat 3 && !(56 ≤ b && b < 68) then k - 1 else k

/-- The square that FT names (R228). -/
def squareNow (s : State) : Nat := fld s.time.ft 3 9

/-- The rank of a requester at Board `b` (SB_RANK). -/
def rankOf (s : State) (b i : Nat) : Nat := rdFld s (aSbRank b (i / 16)) (4 * (i % 16)) 3

/-- Epoch `e` is not later than epoch `f`, over 16 bits; at a difference of 32,768 it is taken as earlier (R230). -/
def epochUpTo (e f : Nat) : Bool := decide ((f + 65536 - e % 65536) % 65536 ≤ 32768)

/-- A requester of class `tc` whose head carries epoch `e` is in the hold-over tier of the square (R253). -/
def inTier (s : State) (b q tc e : Nat) : Bool :=
  s.brd.tiers.any fun t => t.board = b && t.square = q && t.tm.testBit tc && epochUpTo e t.epoch

/-- Of some requester indices the one granted, with its rank: the lowest rank, round robin within it from the rank's pointer (R238, R240). -/
def pick (s : State) (b : Nat) (l : List Nat) : Option (Nat × Nat) :=
  let k := l.foldl (fun m i => min m (rankOf s b i)) 8
  let t := l.filter fun i => rankOf s b i = k
  let r := mgetD 0 s.brd.rr (8 * b + k)
  let up := t.filter fun i => r ≤ i
  let low := fun (l : List Nat) => l.foldl min 512
  if t.isEmpty then none else some (if up.isEmpty then low t else low up, k)

/-- The requester that Board `b` grants in square `q` among some, each as (index, class, epoch of its head), with its rank: the hold-over tier, then
the classes of TM, then all (R238 steps 3 to 5). -/
def arbitrateAmong (s : State) (b q : Nat) (l : List (Nat × Nat × Nat)) : Option (Nat × Nat) :=
  let e := square s b q
  let tier := l.filter fun x => inTier s b q x.2.1 x.2.2
  let tm := l.filter fun x => x.2.1 < 4 && e.testBit x.2.1
  pick s b ((if !tier.isEmpty then tier else if !tm.isEmpty then tm else l).map (·.1))

/-- The requester has its grant: the rank's pointer moves past it (R238). -/
def granted (b : Nat) (x : Nat × Nat) (s : State) : State :=
  { s with brd := { s.brd with rr := mput 0 s.brd.rr (8 * b + x.2) ((x.1 + 1) % 512) } }

/-- 12 times what square `sq` gives class `c`, before the Board's weight (R247): every popcount divides 12. -/
def sqShare (k c sq : Nat) : Nat :=
  if sq.testBit c && decide (sq / 16 % 8 = 0) then 12 * k / popcount 4 (sq % 16) else 0

/-- The budget of class `c` on Board `b` from the entries that `entry` gives (R247). -/
def budgetOf (s : State) (b c : Nat) (entry : Nat → Nat) : Nat :=
  let w := if b < 32 then 4 else 1
  ((List.range 512).foldl (fun n q => n + sqShare (boardK s b) c (entry q)) 0) / (12 * w)

/-- The budgets of a Board for epoch `e`: those it shows, or for an earlier epoch those that epoch ended with, where they have changed since (R248). -/
def admOf (s : State) (b e : Nat) : Word := if e = epochNow s then rd s (aSbAdm b) else (mget s.brd.adms (65536 * b + e)).getD (rd s (aSbAdm b))

/-- SB_ADM of a Board replaced; the seven epochs before this one keep the budgets they had (R248). -/
def setAdm (b : Nat) (v : Word) (s : State) : State :=
  if v = rd s (aSbAdm b) then s
  else
    let es := (List.range 7).map fun k => (epochNow s + 65535 - k) % 65536
    let kept := es.foldl (fun m e => mset m (65536 * b + e) (admOf s b e)) (s.brd.adms.filter fun x => x.1 / 65536 ≠ b)
    wr (aSbAdm b) v { s with brd := { s.brd with adms := kept } }

/-- SB_ADM of a slice-input or host-egress Board recomputed (R255): squares that had passed when they were rewritten in this round count
as they were. Other Boards have no budget. -/
def recompute (b : Nat) (s : State) : State :=
  if (32 ≤ b ∧ b < 76) ∨ 92 ≤ b then s
  else
    let entry := fun q => (mget s.brd.olds (512 * b + q)).getD (square s b q)
    setAdm b (mkWord ((List.range 4).map fun c => (16 * c, 16, budgetOf s b c entry))) s

/-- The device is in Brace (PM_STAT). -/
def inBrace (s : State) : Bool := rdBit s aPmStat 0

/-- Best-effort requests, prefetches and stash reads are held: in Brace or at a thermal step (R543, Table 14.4). -/
def easing (s : State) : Bool := rdFld s aPmStat 0 3 ≠ 0

/-- Budgets are halved: in Brace or at thermal step 2, from the square after the one in which that began (R250, R549). -/
def halved (s : State) : Bool := (inBrace s || rdBit s aPmStat 2) && decide (s.pwr.easeSq ≠ some (s.time.ft.toNat / 8))

/-- The halving of budgets begins, unless it holds already. -/
def easeFrom (s : State) : State :=
  if inBrace s || rdBit s aPmStat 2 then s else { s with pwr := { s.pwr with easeSq := some (s.time.ft.toNat / 8) } }

/-- The budget of timed class `c` on Board `b` for epoch `e` (R250). -/
def budget (s : State) (b c e : Nat) : Nat :=
  let a := fld (admOf s b e) (16 * c) 16
  if halved s then a / 2 else a

/-- Key of a Board's count for a class and an epoch. -/
def usedKey (b c e : Nat) : Nat := (4 * b + c) * 65536 + e

/-- What a Board has charged to a class and an epoch (SB_USED). -/
def used (s : State) (b c e : Nat) : Nat := mgetD 0 s.brd.used (usedKey b c e)

/-- One more request charged. -/
def charge (b c e : Nat) (s : State) : State :=
  { s with brd := { s.brd with used := mput 0 s.brd.used (usedKey b c e) (used s b c e + 1) } }

/-- The epoch that a request over Idior is charged to (R248), and whether it comes late. -/
def accountEpoch (now e : Nat) : Nat × Bool :=
  let d := (now + 65536 - e) % 65536
  if d ≤ 7 then (e, false) else if d ≥ 32769 then (now, false) else (now, true)

/-- EV242: a timed class held for want of cells, once a class in each round. -/
def heldForCells (c : Nat) (s : State) : State :=
  if (1000 + c) ∈ s.brd.heldOnce then s
  else fire 242 0 (oVal c) { s with brd := { s.brd with heldOnce := s.brd.heldOnce ++ [1000 + c] } }

/-- The Board that refuses a timed request for want of budget, if one does: the slice input, then its host port's egress. -/
def refusingBoard (s : State) (slice tc e : Nat) (port : Option Nat) : Option Nat :=
  if used s slice tc e + 1 > budget s slice tc e then some slice
  else match port with
    | none => none
    | some p => let b := hostBoard s p
                if used s b tc e + 1 > budget s b tc e then some b else none

end Sys2Proof.Machine
end

