-- ==== Sys2Proof/Machine/Snoop.lean ====
section
/-! DEFINITION. Snoops at a hub (Tables 03.11 and 04.2, R126, R149, R597), host steps coming to their end (R102, R139, R144), the answers
and write-backs that reach a home (R133 to R137, R334), and own transactions coming to theirs. -/

namespace Sys2Proof.Machine

/-! ### Answers to snoops -/

/-- A message of this hub that carries data read from the hub cache (R23), or waits for a route. -/
def sendCached (cached : Bool) (opc : Opc) (dst : HubId) (h : Hdr) (d : Data) (cells : List Nat) (s : State) : State :=
  let m : Msg := { opc := opc, dst := dst, dl := false, sr := false, hops := 0, len := BitVec.ofNat 3 (lenOf opc), h := h, data := d }
  match cached, outPort s dst (channelOf m) with
  | true, some p =>
    let m := { m with dl := bit (route s dst) (12 + p), h := { h with line := outLine s h.line } }
    fromCache h.line [(56 + p, ⟨sliceInput (sliceOf h.line), h.tc.toNat, h.epoch.toNat, .msg m, cells, 0, 0, 0, false⟩)] none s
  | _, _ => dispatch (sliceInput (sliceOf h.line)) cells m s

/-- A response to snoop `q`, kept for sending again (R149); its data in the cells of the protocol reserve that the snoop took (R29). -/
def respond (cached : Bool) (opc : Opc) (dst : HubId) (q : Hdr) (d : Data) (fw dd g : Bool) (cells : List Nat) (s : State) : State :=
  let h := { mkHdr s q.line q.tc.toNat q.epoch.toNat q.rqh q.rtag.toNat q.htag.toNat with fw := fw, d := dd, g := g, xtra := q.xtra }
  let m : Msg := { opc := opc, dst := dst, dl := false, sr := false, hops := 0, len := BitVec.ofNat 3 (lenOf opc), h := h, data := d }
  let s := { s with home := { s.home with kept := s.home.kept ++ [(q.line, q.htag.toNat, q.xtra.toNat, m)] } }
  sendCached cached opc dst h d cells s

/-- `Ack` to the home. -/
def respondAck (q : Hdr) (fw d g : Bool) (s : State) : State := respond false .ack q.src q Data.zero fw d g [] s

/-- The line's open register after this hub lost its ownership (`all`: the whole standing) to a snoop: `Upg` goes to IM (R131), a kept M is
gone (R598), a standing read by `RdO` is no longer held; a register that only kept a standing frees with it (R94). -/
def loseReg (l : LineAddr) (all : Bool) (s : State) : State :=
  match mrOf s l with
  | none => s
  | some (n, m) =>
    match m.kind with
    | .upg => if all then mrPut n { m with toIm := true } s else s
    | .wr =>
      if m.stand.isSome ∧ all = true then (if m.owner || m.wr.isSome then mrPut n { m with stand := none } s else mrFree n s)
      else if m.owner then mrPut n { m with toIm := true, keepM := none } s else s
    | .rdO => if all && m.from_ ≠ .i then mrPut n { m with toIm := true } s else s
    | _ => s

/-- The write-through marks of the line's way cleared; nothing waits for its write-through any more (R200). -/
def clearWtp (l : LineAddr) (s0 : State) : State :=
  let s := { s0 with hc := { s0.hc with wtLeft := s0.hc.wtLeft.filter fun x => x.2.1 ≠ l } }
  match findWay s l with
  | some k => if isH1 s then s else setWay k { getWay s k with wtp := false, again := false } s
  | none => s

/-- The line lost to a snoop: standing I. -/
def loseLine (l : LineAddr) (s : State) : State := loseReg l true (dropLine l (clearWtp l s))

/-- Standing S without a copy: in HSTATE, or where that has no room on the line's miss register (R94, R597); with neither it is given up by `Evc`
(R83). -/
def toHstS (l : LineAddr) (tc epoch : Nat) (s : State) : State :=
  match mrOf s l with
  | none =>
    let x := hfMakeRoom l tc epoch s
    if x.1 then hfSetSt l .s x.2
    else
      let s := { x.2 with hc := { x.2.hc with evt := x.2.hc.evt ++ [⟨l, false, false, Data.zero, [], tc, epoch⟩] } }
      count (aPcSlc (sliceOf l) 18) 1 (send0 .evc (homeTarget s l) (mkHdr s l tc epoch (hubId s) 0 0) s)
  | some (n, m) =>
    if m.stand.isSome then mrPut n { m with stand := some .s } s
    else
      let x := hfMakeRoom l tc epoch s
      if x.1 then hfSetSt l .s x.2 else mrPut n { m with stand := some .s } x.2

/-- The line goes to F: S without a copy where no way holds it (R597). -/
def toF (l : LineAddr) (st : St) (tc epoch : Nat) (s : State) : State :=
  if st = .s then s
  else if cacheSt s l ≠ .i then loseReg l false (clearWtp l (setCacheSt l .f s))
  else
    let s := clearWtp l { s with req := { s.req with due := s.req.due.map fun x => if x.line = l then { x with data := none } else x } }
    toHstS l tc epoch (loseReg l false s)

/-- A snoop answered once its host step is over (Table 03.11, R597, Table 04.2 for SM); `dirty` is what a host returned, and `cells` what the
snoop took from the protocol reserve for its answer's data. -/
def answerSnoop (opc : Opc) (q : Hdr) (cells : List Nat) (dirty : Option Data) (s : State) : State :=
  let l := q.line
  let s := match dirty with
    | some d => if cacheSt s l ≠ .i then setCacheData l d (setCacheSt l .m s) else s
    | none => s
  let st := standing s l
  let cached := decide (cacheSt s l ≠ .i)
  let kept := (heldM s l).isSome
  let isM := st = .m || dirty.isSome
  let data := if cached then cacheData s l else dirty.getD ((heldM s l).getD Data.zero)
  let noCopy := !cached && !kept && st ≠ .i
  let sm := (mrOf s l).any fun m => m.2.kind = .upg && !m.2.toIm
  let ack := fun (fw g : Bool) (s : State) => doneReading cells (respondAck q fw false g s)
  let toF_ := toF l st q.tc.toNat q.epoch.toNat
  match opc with
  | .snpS =>
    if st = .i then ack false false s
    else if noCopy && !q.tgt then
      let s := loseLine l s
      match dirty with
      | some d => respond false .ackD q.src q d false false true cells s
      | none => ack false true s
    else if q.tgt then
      if isM then toF_ (respond cached .ackD q.src q data false false false cells s) else toF_ (ack false false s)
    else
      let s := if isM then moreReaders cells s else s
      let s := respond cached .fwdS q.rqh q data false false q.g cells s
      let s := if isM then respond cached .ackD q.src q data true false false cells s else respondAck q true false false s
      toF_ s
  | .snpX =>
    if st = .i then ack false false s
    else if noCopy && !q.tgt then
      let s := loseLine l s
      match dirty with
      | some d => respond false .ackD q.src q d false false true cells s
      | none => ack false true s
    else if q.tgt then
      if isM then loseLine l (respond cached .ackD q.src q data false false false cells s) else loseLine l (ack false false s)
    else
      let s := respond cached .fwdX q.rqh q data false (isM && !sm) q.g cells s
      loseLine l (respondAck q true false false s)
  | _ => ack false false (loseLine l s)

/-- The host step of a snoop (Table 03.11): hosts and kind of back-invalidate snoop. -/
def snoopHostsFor (s : State) (opc : Opc) (q : Hdr) : List Nat × Nat :=
  let l := q.line
  let noCopy := cacheSt s l = .i && (heldM s l).isNone && standing s l ≠ .i
  match opc with
  | .snpS => if noCopy && !q.tgt then (hostsOf s l, 2) else (exclHost s l, 1)
  | _ => (hostsOf s l, 2)

/-- The probe of R335: `SnpX` with TGT 1 that names this hub and the line's open register. -/
def isProbe (s : State) (q : Hdr) : Bool :=
  q.tgt && q.rqh = hubId s && (match mget s.req.mrs q.rtag.toNat with
    | some m => m.line = q.line && m.kind ≠ .own && m.kind ≠ .wr
    | none => false)

/-- A snoop handled: in MI and CI, IS and IM by Table 04.2; otherwise after the host step. -/
def handleSnoop (opc : Opc) (q : Hdr) (cells : List Nat) (s : State) : State :=
  let l := q.line
  let free := doneReading cells
  if (evOf s l).isSome then
    free (if opc = .snpBc then respondAck q false false false s else respond false .ackE q.src q Data.zero false false false [] s)
  else if opc = .snpX && isProbe s q then free (respondAck q false true false s)
  else
    let inIm := (mrOf s l).any fun m => match m.2.kind with
      | .rdS | .rdX => true
      | .rdO => m.2.from_ = .i || m.2.toIm
      | .upg => m.2.toIm
      | _ => false
    if inIm then
      free (if opc = .snpBc then respondAck q false false false s else respondAck q false true false (fire 194 0 (oLine l) s))
    else
      let x := snoopHostsFor s opc q
      withHosts l x.2 x.1 q.tc.toNat q.epoch.toNat (.answer opc q cells) (answerSnoop opc q cells none) s

/-- A snoop arrives (R109, R126, R149): a copy of one still handled is discarded, one already answered draws its responses again, one that
meets an open Keep window waits, except `SnpS` in F, and one whose set's record block is not at hand waits for its fetch (R177). -/
def onSnoop (opc : Opc) (h : Hdr) (cells : List Nat) (s : State) : State :=
  let q := { h with line := inLine s h.line }
  let l := q.line
  let same := fun (x : Hdr) => x.line = l && x.htag = q.htag && x.xtra = q.xtra && x.src = q.src
  let handling := (s.home.heldSnp ++ s.home.tagSnp).any (fun x => same x.2.1) || s.hst.steps.any fun x => match x.cont with
    | .answer _ y _ => same y
    | _ => false
  let c := cacheSet s l
  if handling then doneReading cells s
  else
    let again := s.home.kept.filter fun x => x.1 = l && x.2.1 = q.htag.toNat && x.2.2.1 = q.xtra.toNat
    if !again.isEmpty then again.foldl (fun s x => dispatch (sliceInput (sliceOf l)) [] x.2.2.2 s) (doneReading cells s)
    else if tagMiss s c then tagFetch c { s with home := { s.home with tagSnp := s.home.tagSnp ++ [(opc, q, cells)] } }
    else if l ∈ s.home.keep && !(opc = .snpS && standing s l = .f) then
      count (aPcSlc (sliceOf l) 7) 1 { s with home := { s.home with heldSnp := s.home.heldSnp ++ [(opc, q, cells)] } }
    else handleSnoop opc q cells (tagUse c s)

/-! ### The end of host steps -/

/-- Dirty data that a host returned for a remote line that no way holds and for which no new request can be sent now: the register that already carries the
line in M takes it up, and its `WrL` goes once more; else it is kept as standing M for the release of the line (R82, R83). -/
def absorbHeld (l : LineAddr) (d : Data) (known : BitVec 64) (tc epoch : Nat) (s : State) : State :=
  match mrOf s l with
  | some (n, m) =>
    if m.kind = .wr && m.owner && !m.toIm then
      let new := match m.keepM with
        | some x => mergeData x d known
        | none => knownPart d known
      mrPut n { m with keepM := some new, more := true } (hfSetSt l .i s)
    else { hfSetSt l .i s with req := { s.req with due := s.req.due ++ [⟨l, tc, epoch, some (knownPart d known)⟩] } }
  | none => releaseHosts l tc epoch s (some (knownPart d known))

/-- Dirty data that a host returned where the line keeps its standing: a write by that host (R597), of the bytes that are known. -/
def absorb (l : LineAddr) (dirty : Option Data) (known : BitVec 64) (tc epoch : Nat) (s : State) : State :=
  match dirty with
  | none => s
  | some d =>
    let w : HostWr := ⟨decide (known = fullMask), known, d, .any⟩
    let dm : Demand := ⟨.hub, 16, 0, 0, l, .write, some w, false, .noalloc, tc, epoch, [], true, 0, 0, none⟩
    let ready := (mrOf s l).isNone && (mrPick s (sliceOf l) tc false).isSome
    if isOwn s l then (ownWrite l d fullMask true true tc epoch [] .nobody s).2
    else if cacheSt s l ≠ .i then
      let s := setCacheData l d (setCacheSt l .m s)
      if !isH1 s then writeThrough l dm s
      else match mrOf s l with
        | some (n, m) => if m.kind = .wr && m.owner then mrPut n { m with more := true } s else s
        | none => s
    else if (mrOf s l).isSome then absorbHeld l d known tc epoch s
    else if !w.full then if !ready then absorbHeld l d known tc epoch s else openMr .wr dm (fun m => { m with owner := true, wr := some w, keepM := some (knownPart d known), demands := [] }) (hfSetSt l .i s)
    else
      let x := wayReady l tc epoch s
      if x.1 then
        let s := placeLine l .m d [] (tc, epoch) x.2
        if isH1 s then s else writeThrough l dm s
      else if !ready then absorbHeld l d known tc epoch x.2
      else openMr .wr dm (fun m => { m with owner := true, keepM := some d, demands := [] }) (hfSetSt l .i x.2)

/-- Operation `op` waits for the line's next write-throughs: `n` more of their `Cmp`s (R200); 0: its write has yet to be sent. -/
def awaitWt (op : Nat) (l : LineAddr) (n : Nat) (s : State) : State :=
  if s.hc.wtLeft.any (fun x => x.1 = op && x.2.1 = l && x.2.2 ≠ 0) then s
  else { s with hc := { s.hc with wtLeft := s.hc.wtLeft.filter (fun x => !(x.1 = op && x.2.1 = l)) ++ [(op, l, n)] } }

/-- The class in which operation `op` sends its cleaning writes: that of the fence's doorbell (R284), or TC7. -/
def opTc (s : State) (op : Nat) : Nat := if op = 0 then 7 else ((mget s.ports.fences (op - 1)).map fun f => f.tc).getD 7

/-- A cleaning write of operation `op` is admitted, with its cell (R284): like a request in the class of the fence's doorbell, or for a maintenance
operation in a cell of the protocol reserve (R32). -/
def admitClean (op : Nat) (l : LineAddr) (s : State) : Option (List Nat) × State :=
  let tc := opTc s op
  let b := sliceOf l
  let e := epochNow s
  let held := fun (x : Option (List Nat × State)) (no : State) => match x with
    | some (cs, s) => (some cs, s)
    | none => (none, no)
  if op = 0 then held (takeFrom (backShare s) tc 1 s) s
  else if tc < 4 then match refusingBoard s b tc e none with
    | some b => (none, count (aSbHeld b tc) 1 s)
    | none => held ((takeCells tc 1 1 s).map fun x => (x.1, charge b tc e x.2)) (heldForCells tc s)
  else if easing s then (none, s) else held (takeCells tc 1 1 s) s

/-- A line that operation `op` cleans cannot be persisted, as its cellar port does not take it: a persist fence ends with CODE 2 (Table 07.3, R292). -/
def notPersisted (op : Nat) (s : State) : State :=
  let hit := fun (e : Nat × Fence) => if e.1 + 1 = op then (e.1, { e.2 with lost := true }) else e
  { s with ports := { s.ports with fences := s.ports.fences.map hit } }

/-- CLEAN of a line for operation `op` (Table 05.10): own dirty data to the cellar, remote dirty data to the home by `WrL` with Ow = Rq, or by
the write-through that carries every write made so far (R200); with another register open on the line, or none to be had, its write has yet to
be sent. -/
def cleanNow (op : Nat) (l : LineAddr) (s : State) : State :=
  if standing s l ≠ .m then s
  else if isOwn s l then
    if !isH1 s then drainOf (fun x => x.toNat / 4 = l.toNat / 4) s
    else if cacheSt s l ≠ .m then s
    else if keptDirty s l then notPersisted op s
    else match admitClean op l s with
      | (some cs, s) => setCacheSt l .e (cellarWrite l (cacheData s l) fullMask s cs none (some (opTc s op, epochNow s)))
      | (none, s) => awaitWt op l 0 s
  else if (mrOf s l).any fun m => carries m.2 then
    awaitWt op l (if (findWay s l).any fun k => (getWay s k).again then 2 else 1) s
  else if !isH1 s then awaitWt op l 1 s
  else if (mrOf s l).isSome || (mrPick s (sliceOf l) (opTc s op) false).isNone then awaitWt op l 0 s
  else match admitClean op l s with
  | (none, s) => awaitWt op l 0 s
  | (some cs, s) =>
    let dm : Demand := ⟨.hub, 16, 0, 0, l, .write, none, false, .noalloc, opTc s op, epochNow s, cs, true, 0, 0, none⟩
    openMr .wr dm (fun m => { m with owner := true, demands := [] }) (awaitWt op l 1 s)

/-- Operation `op` has lines whose cleaning has not ended: a write not yet sent of a line still in M, a `Cmp` still to come, or a host step. -/
def cleanBusy (s : State) (op : Nat) : Bool :=
  s.hc.wtLeft.any (fun x => x.1 = op && (x.2.2 ≠ 0 || standing s x.2.1 = .m)) || s.hst.steps.any fun x => x.cont = .clean op

/-- The longest-waiting cleaning write of slice `k` is tried again. -/
def cleanAgain (k : Nat) (s : State) : State :=
  match takeFirst (fun (x : Nat × LineAddr × Nat) => x.2.2 = 0 && sliceOf x.2.1 = k) s.hc.wtLeft with
  | none => s
  | some (x, rest) => cleanNow x.1 x.2.1 { s with hc := { s.hc with wtLeft := rest } }

/-- Every waiting cleaning write is tried again (R249). -/
def cleanRetry (s : State) : State :=
  (s.hc.wtLeft.filter fun x => x.2.2 = 0).foldl (fun s x => cleanNow x.1 x.2.1 { s with hc := { s.hc with wtLeft := s.hc.wtLeft.filter (· ≠ x) } }) s

/-- A transaction of the line goes on if it can. -/
def progress (l : LineAddr) (s : State) : State :=
  match txnOf s l with
  | none => s
  | some t => match t.rq with
    | .own d => if !t.step && !t.snps.isEmpty && allAnswered t then finishOwn t d s else s
    | _ => tryTxn l s

/-- A demand goes on after its host step. A read-once leaves an exclusive host its copy, so it is not decided from the start again, which would
snoop that host once more; it is served, unless its line has been taken up meanwhile. -/
def redo (d : Demand) (s : State) : State :=
  let l := d.line
  let own := isOwn s l
  let mine := (ownTxn s d).isSome
  let once := decide ((asServed s d).kind = DKind.cur)
  let free := (mrOf s l).isNone && (evOf s l).isNone && (mine || (!blocked s l && (!own || (refusedOwn s l).isNone)))
  if !once || !free then asNow l (demand d) s
  else if mine then ownReadNow { d with kind := .cur } s
  else if own then (if (localSnoops s { d with kind := .cur }).isEmpty then ownReadNow { d with kind := .cur } s else asNow l (demand d) s)
  else if (standing s l = .i && noRoute s d) || !mayCache s (homeOf l) then asNow l (demand d) s
  else remoteReadNow { d with kind := .cur } s

/-- What follows a host step; dirty data that a host held for a dead home is lost, and logged (R153). -/
def runStep (x : HostStep) (s : State) : State :=
  let l := x.line
  let s := hfPut l { hfGet s l with busy := stepOn s l } s
  let whole := x.dirty.map fun d => knownPart d x.known
  match x.cont with
  | .answer opc q cells => answerSnoop opc q cells whole s
  | .homeTxn => progress l (finishStep l whole s)
  | .redo d => redo d (absorb l x.dirty x.known x.tc x.epoch s)
  | .release tc epoch =>
    let s := release l tc epoch whole s
    s.hc.evs.foldl (fun s e => frameDone e.way s) s
  | .clean op => cleanNow op l (absorb l x.dirty x.known x.tc x.epoch s)
  | .keep => absorb l x.dirty x.known x.tc x.epoch s
  | .drop =>
    if !isOwn s l && decide (deadWait s (homeOf l) ≠ 0) then dropLine l (if x.dirty.isSome then fire 196 2 (oLine l) s else s)
    else if cacheSt s l ≠ .i || (heldM s l).isSome || (heldSt s l).isSome then absorb l x.dirty x.known x.tc x.epoch s
    else if standing s l ≠ .i then release l x.tc x.epoch whole s
    else dropLine l s

/-- The steps of a line that have no snoop left run, in the order they began. The first one takes up the dirty data that a host has returned: what
others of the line hold of it is older from then on. -/
def runSteps (l : LineAddr) : Nat → State → State
  | 0, s => s
  | n + 1, s =>
    match takeFirst (fun (x : HostStep) => x.line = l && x.snps.isEmpty) s.hst.steps with
    | none => s
    | some (x, rest) =>
      let rest := if x.dirty.isNone then rest else rest.map fun y => if y.line = l then { y with dirty := none, known := fullMask } else y
      runSteps l n (runStep x { s with hst := { s.hst with steps := rest } })

/-- The answer satisfies a snoop of this kind: the host keeps no more than the snoop leaves it. -/
def biEnough (kind : Nat) (r : BiRsp) : Bool :=
  match r with
  | .rspI => true
  | .rspS => decide (kind ≤ 1)
  | .rspE => decide (kind = 0)

/-- A step after port `p`'s host has answered `r` to the snoop in progress: a snoop that shared the answer stays where that answer is not enough. -/
def stepAfter (l : LineAddr) (p : Nat) (r : BiRsp) (x : HostStep) : HostStep :=
  if x.line ≠ l then x else { x with snps := x.snps.filter fun b => b.port ≠ p || (b.tries = 0 && !biEnough b.kind r) }

/-- The strongest of the snoops to port `p`'s host that still wait for an answer of their own is sent (R80, R109). -/
def snoopAgain (l : LineAddr) (p : Nat) (s : State) : State :=
  let mine := s.hst.steps.filter fun x => x.line = l && x.snps.any fun b => b.port = p
  match mine.head? with
  | none => s
  | some x =>
    let kind := mine.foldl (fun k y => y.snps.foldl (fun k b => if b.port = p then max k b.kind else k) k) 0
    let strong := fun (y : HostStep) => y.line = l && y.snps.any fun b => b.port = p && b.kind = kind
    let mark := fun (y : HostStep) => { y with snps := y.snps.map fun b => if b.port = p then { b with tries := 1 } else b }
    let s := { s with hst := { s.hst with steps := updFirst strong mark s.hst.steps } }
    match hpaOf s p l with
    | some hpa => sendBi l kind p x.tc x.epoch hpa s
    | none => { s with hst := { s.hst with steps := s.hst.steps.map (stepAfter l p .rspI) } }

/-- Port `p`'s host has answered for the line: the snoop leaves every step that its answer satisfies, the host's bits change (R102), the steps go
on, and once no snoop to it is left the host's requests that waited are served (R139). -/
def hostAnswered (p : Nat) (l : LineAddr) (r : BiRsp) (s : State) : State :=
  let s := match r with
    | .rspI => hfClear l p s
    | .rspS => let e := hfGet s l
               if e.pv.testBit p then hfPut l { e with hx := false } s else s
    | .rspE => s
  let s := snoopAgain l p { s with hst := { s.hst with steps := s.hst.steps.map (stepAfter l p r) } }
  let s := runSteps l s.hst.steps.length s
  if biTo s l p then s else retryAll (fun w d => w = .bi && d.line = l && d.port = p) s

/-- The step that waits for port `p`'s host on the line it holds at `hpa`. -/
def stepFor (s : State) (p : Nat) (hpa : Hpa) : Option HostStep :=
  s.hst.steps.find? fun x => x.snps.any (fun b => b.port = p) && hpaOf s p x.line = some hpa

/-- Dirty data held by the steps of a line that wait for port `p`'s host. -/
def holdDirty (l : LineAddr) (p : Nat) (d : Data) (known : BitVec 64) (x : HostStep) : HostStep :=
  if x.line = l ∧ x.snps.any (fun b => b.port = p) = true then { x with dirty := some d, known := known } else x

/-- A host's write-back of a snooped line (R102): its data is the newest. A partial one is laid over what the hub holds; with no copy here, it is
a partial write of an own line, and of a remote line the words that it does not cover in full count as poisoned (log entry 10). -/
def writeBack (x : HostStep) (p : Nat) (tag : BitVec 16) (w : HostWr) (s : State) : State :=
  let l := x.line
  let base := match x.dirty with
    | some d => some (d, x.known)
    | none => if cacheSt s l ≠ .i then some (cacheData s l, fullMask) else (heldM s l).map fun d => (d, fullMask)
  let put := fun (d : Data) (m : BitVec 64) (s : State) => { s with hst := { s.hst with steps := s.hst.steps.map (holdDirty l p d m) } }
  let s := if w.full then put w.data fullMask s
    else match base with
      | some (d, m) => put (mergeData d w.data w.mask) (m ||| w.mask) s
      | none => if isOwn s l then cellarWrite l w.data w.mask s else put w.data w.mask s
  toHost p (sliceOf l) x.tc x.epoch [] l (.cmp tag) s

/-! ### Answers at the home -/

/-- What a probe's answer tells of a transaction whose requester was forwarded the line (R335): `Ack` with D = 1 says that the forward was lost
and the home supplies the data itself; any other answer stands for the `Fin`, with the entry in U. -/
def probeAnswered (t0 : Txn) (lostFwd : Bool) (data : Option Data) (s : State) : State :=
  let l := t0.line
  let t := { t0 with probing := false, snps := t0.snps.filter fun x => !(x.opc = .snpX && x.tgt) }
  if !lostFwd then
    let s := match data with
      | some d => cellarWrite l d fullMask s
      | none => s
    endTxn t (dirPut l (dirU s (dirGet s l)) s)
  else if !t.answered then
    let gone := fun (x : SnpOut) => match x.ans with
      | some a => if !x.tgt && a.fw then { x with ans := some { a with fw := false, imputed := true } } else x
      | none => x
    progress l (setTxn { t with snps := t.snps.map gone } s)
  else match t.rq with
    | .remote h =>
      let e := dirGet s l
      if t.opc = .rdS || t.opc = .rdO then
        progress l (setTxn { t with opc := .rdO, answered := false, snps := [] } (dirPut l { dirEvc s h.rqh e with busy := true } s))
      else if t.owner.isSome then reply { t with snps := [] } .datE false false Data.poison (poisonLine l 1 s)
      else progress l (setTxn { t with answered := false, named := false, snps := [], last := none } s)
    | _ => s

/-- A snoop response counted (R98, R149): one that matches no snoop still open is discarded. -/
def onAnswer (h : Hdr) (e : Bool) (data : Option Data) (s : State) : State :=
  let l := inLine s h.line
  match txnOf s l with
  | none => s
  | some t =>
    let mine := fun (x : SnpOut) => x.hub = h.src && x.ans.isNone && decide (h.xtra.toNat % 2 ^ 32 = t.tsn)
    let probe := t.probing && t.snps.any fun x => mine x && x.opc = .snpX && x.tgt
    if !t.snps.any mine then s
    else if probe then probeAnswered t (h.d && data.isNone) data s
    else
      let a : SnpAns := ⟨e, h.fw, h.d, h.g, false⟩
      let t := { t with snps := updFirst mine (fun x => { x with ans := some a }) t.snps,
                        dirty := match data with | some d => some d | none => t.dirty }
      progress l (setTxn t s)

/-- A write-back at the home (R133, R334): consumed while the sender's snoop is unanswered or answered `AckE`, else applied at once. -/
def onWriteBack (h : Hdr) (data : Option Data) (s : State) : State :=
  let l := inLine s h.line
  let ack := fun (s : State) => send0 .wbAck h.src (mkHdr s l h.tc.toNat h.epoch.toNat h.src h.rtag.toNat 0) s
  let apply := fun (s : State) =>
    let e := dirGet s l
    let named := match data with
      | some _ => e.st = .x && e.p0 = h.src
      | none => h.src ∈ ptrs s e || e.st = .a
    if !named then ack (fire 194 3 (oLine l) s)
    else
      let s := match data with
        | some d => cellarWrite l d fullMask s
        | none => s
      ack (dirPut l { dirEvc s h.src e with busy := e.busy } s)
  match txnOf s l with
  | none => apply s
  | some t =>
    let holds := t.snps.any fun x => x.hub = h.src && x.opc ≠ .snpBc && match x.ans with
      | none => true
      | some a => a.e && !t.wbs.any fun w => w.hub = h.src
    if holds && !t.wbs.any (fun w => w.hub = h.src) then
      let t := { t with wbs := t.wbs ++ [⟨h.src, data.isSome, data.getD Data.zero, h⟩] }
      let early := data.isNone && t.snps.any fun x => x.hub = h.src && !x.tgt && (x.opc = .snpS || x.opc = .snpX)
      let s := setTxn t s
      let s := if early && cacheSt s l = .i && isOwn s l then askCellar t s else s
      progress l s
    else apply s

/-- `Fin` at the home (R98, R123). -/
def onFin (h : Hdr) (s : State) : State :=
  let l := inLine s h.line
  match txnOf s l with
  | none => s
  | some t => match t.rq with
    | .remote q =>
      if q.rqh = h.rqh then checkEnd l (setTxn { t with fin := true, last := none } s) else s
    | _ => s

/-- Home data that the cellar read of a transaction returned. -/
def onHomeData (l : LineAddr) (d : Data) (s : State) : State :=
  match txnOf s l with
  | none => s
  | some t => progress l (setTxn { t with home := if t.home.isNone then some d else t.home, asked := true } s)

/-- An own line that a dead host held exclusive while no hub did is lost: its entry is set to L once its set has a way (R146). -/
def loseToHost (t : Txn) (s : State) : State :=
  if !(hfGet s t.line).hx then s
  else
    let x := dirMakeRoom t s
    if x.1 then makeL t.line (dropLine t.line ((hostsOf s t.line).foldl (fun s p => hfClear t.line p s) x.2)) else x.2

/-- A waiting request of the home is decided: another hub's, a demand of this hub's own, or the loss of a line to a dead host. -/
def decideTxn (t : Txn) (s : State) : State :=
  match t.rq with
  | .remote h => decideRemote t h s
  | .own d => demand d s
  | .home => loseToHost t s
  | .recall _ _ => s

end Sys2Proof.Machine
end

