-- ==== Sys2Proof/Machine/Admission.lean ====
section
/-! DEFINITION. Acceptance of requests (01 R22 to R35, 06 R245 to R250): cells, holding; and the sequential-store detector (R196), which sees
what is accepted. -/

namespace Sys2Proof.Machine

/-! ### Acceptance -/

/-- Admission is open: the block is ready and no flush, takeover or death has stopped it (R290, R294, R331). -/
def admitting (s : State) : Bool := s.part.phase = .ready && !s.ports.closed

/-- A request held at ingress, behind those of its input and class (R249). -/
def hold (i : Instr) (input tc : Nat) (s : State) : State :=
  let s := if input < 16 then count (aHpCnt input 1) 1 s else s
  { s with lar := { s.lar with held := s.lar.held ++ [(i, input, tc)] } }

/-- EV276: a request held at a slice input of the home under R251, once a Board and class in each round. -/
def heldAtHome (b c : Nat) (s : State) : State :=
  if (4 * b + c) ∈ s.brd.heldOnce then s
  else fireSeq 276 0 (oVal b) (oVal c) 0 { s with brd := { s.brd with heldOnce := s.brd.heldOnce ++ [4 * b + c] } }

/-- The home accepts no new request for the line: a Guarded line in a planned takeover (R351), a served line that is handed back (R352). -/
def leaving (s : State) (l : LineAddr) : Bool :=
  (s.mir.planned ≠ 0 && isGuarded s l) ||
    (s.bg.any (fun t => t.kind = .handback && t.arg = 1) && isOwn s l && (mirOwn s (laOf l)).isSome)

/-- A request of class `tc` for a line is accepted (R246, R33) and goes on by `k` with the epoch it is charged to and its cells, or is held.
`input`: host port 0 to 15, or 24 and up for the Idior ports (Table 06.5); `flit`: the epoch that an Idior flit carries; a request charged under the late
rule is counted as it is charged (R248). EV276 tells of requests that come over Idior, whose home holds them (R251, DESIGN CHOICE, log entry 98). -/
def admission (i : Instr) (input tc : Nat) (line : LineAddr) (ncells : Nat) (flit : Option Nat) (k : Nat → List Nat → State → State)
    (s : State) : State :=
  let slice := sliceOf line
  let port := if input < 16 then some input else none
  let now := epochNow s
  let x := match flit with
    | some e => accountEpoch now e
    | none => (now, false)
  let e := x.1
  if !admitting s || s.lar.held.any (fun h => h.2 = (input, tc)) || leaving s line then hold i input tc s
  else if tc < 4 then
    match refusingBoard s slice tc e port with
    | some b =>
      let s := count (aSbHeld b tc) 1 s
      hold i input tc (if flit.isSome then heldAtHome b tc s else s)
    | none =>
      match takeCells tc 1 ncells s with
      | none => hold i input tc (heldForCells tc s)
      | some (cs, s) =>
        let s := charge slice tc e (if x.2 then fireSeq 277 0 (oVal slice) (oVal tc) 0 (count aSbLate 1 s) else s)
        let s := match port with
          | some p => charge (hostBoard s p) tc e s
          | none => s
        k e cs (count (aPcSlc slice (21 + tc)) 1 s)
  else if easing s then hold i input tc s
  else
    match takeCells tc 1 ncells s with
    | none => hold i input tc s
    | some (cs, s) => k e cs (count (aPcSlc slice 25) 1 s)

/-! ### The sequential-store detector (R196 to R198) -/

/-- The detector of port `p` acts on a write: the mode the write meets, and the detector after it. -/
def detect (on full : Bool) (a : Nat) (x : Detector) : Bool × Detector :=
  if !on then (false, { })
  else if x.na then
    if full && a = x.a + 1 then (true, { x with a := a }) else (false, ⟨a, if full then 1 else 0, false⟩)
  else
    let n := if !full then 0 else if a = x.a + 1 && a / 64 = x.a / 64 then x.n + 1 else 1
    if n = 16 then (false, ⟨a, n, true⟩) else (false, ⟨a, n, false⟩)

/-- A detector replaced, with its bit of HC_SSD.NA. -/
def setDetector (p : Nat) (x : Detector) (s : State) : State :=
  wrFld aHcSsd (16 + p) 1 x.na.toNat { s with hc := { s.hc with ssd := mput {} s.hc.ssd p x } }

/-- A host-mode write passes the detector of its port. -/
def passDetector (p : Nat) (full : Bool) (l : LineAddr) (s : State) : Bool × State :=
  if !isH1 s then (false, s)
  else
    let x := detect (rdBit s aHcSsd p) full l.toNat (mgetD {} s.hc.ssd p)
    (x.1, setDetector p x.2 s)

end Sys2Proof.Machine
end

