-- ==== Sys2Proof/Machine/Host.lean ====
section
/-! DEFINITION. Host ports in host mode (03 Table 03.8, 09): requests and their refusal, back-invalidate answers, dead hosts, and the
commands of that family. -/

namespace Sys2Proof.Machine

/-! ### Requests -/

/-- The head of port `p`. -/
def head (s : State) (p : Nat) : Head := mgetD {} s.ports.heads p

/-- The head of port `p` replaced. -/
def setHead (p : Nat) (h : Head) (s : State) : State :=
  { s with ports := { s.ports with heads := mput {} s.ports.heads p h } }

/-- Port `p` takes requests at all: enabled, the lead of its port, and the block out of reset. -/
def portServes (s : State) (p : Nat) : Bool :=
  let lead := leadOf s p
  lead = p && rdBit s (aHpCtl p) 0 && (match s.part.phase with | .ready | .flush _ => true | _ => false)

/-- A refusal at port `p` (R49, R50, R363, R462): EV001 + 4p with its CAUSE, counted (HP_CNT4). -/
def refuseAt (p cause : Nat) (o : Obj) (s : State) : State := fire (1 + 4 * p) cause o (count (aHpCnt p 4) 1 s)

/-- Why a host request is refused before it is accepted: the CAUSE of EV001 + 4p. -/
def hostRefusal (s : State) (p : Nat) (hpa : Hpa) : Option Nat :=
  if hostDead s p then some 0
  else if rdBit s aSlCtl p && !rdBit s (aHpStat p) 8 then some 9
  else match (head s p).decoder with
    | none => some 1
    | some (base, size) =>
      if hpa.toNat < base ∨ base + size ≤ hpa.toNat then some 1
      else if (winOf s p hpa).isNone then some 0 else none

/-- The answer to a request that its port refuses (R43, R49): data with poison on every word, or the completion alone. -/
def refusedAnswer (p : Nat) (tag : BitVec 16) (kind : DKind) (s : State) : State :=
  match kind with
  | .spec | .prefetch => s
  | .inv | .evict | .write | .atom _ => portAnswer p (.cmp tag) s
  | _ => portAnswer p (.cmp tag) (portAnswer p (.memData tag Data.poison) s)

/-- A host demand, with the line and class of its window. -/
def hostDemand (r : HostReq) (w0 w1 : Word) (kind : DKind) (w : Option HostWr) : Demand :=
  ⟨.host, r.port, r.tag, r.hpa, lineOf (winFpa w0 w1 r.hpa.toNat), kind, w, false, .noalloc, fld w0 2 3, 0, [], false, 0, 0, none⟩

/-- An address of a mirror's copy is unkeyed for everyone (R71, R340): the demand is answered as in R43. -/
def demandIn (d : Demand) (s : State) : State :=
  if mirrorNative s d.line then
    match d.kind with
    | .spec | .prefetch => s
    | _ => answerDead d 2 (fire 192 2 (oLine d.line) s)
  else demand d s

/-- The demands of this hub's own ports that are accepted and not yet answered, without those that wait to be decided. -/
def demandsOpen (s : State) : List Demand :=
  let ofWho := fun (w : Who) => match w with
    | .demand d => [d]
    | _ => []
  s.req.mrs.flatMap (fun e => e.2.demands) ++ s.cel.owed.flatMap (fun o => ofWho o.who) ++ s.hc.mbuf.flatMap (fun e => e.owed.flatMap ofWho) ++
    (s.hst.steps.flatMap fun x => match x.cont with | .redo d => [d] | _ => []) ++
    (s.home.opened ++ s.home.waiting ++ s.home.input).flatMap fun t => match t.rq with | .own d => [d] | _ => []

/-- A Device-like access of a port is under way (R287). -/
def devBusy (s : State) (p : Nat) : Bool :=
  let mine := fun (d : Demand) => decide (d.port = p) && isDevice s d.line
  (demandsOpen s).any mine || s.req.waits.any fun x => decide (x.1 ≠ .dev) && mine x.2

/-- An accepted demand goes to its slice; accesses of a port to Device-like lines go one after another (R287). -/
def issue (d0 : Demand) (s : State) : State :=
  let d := { d0 with line := inLine s d0.line }
  if isDevice s d.line && d.kind ≠ .spec && (devBusy s d.port || s.req.waits.any fun x => x.1 = .dev && x.2.port = d.port) then
    wait .dev d s
  else demandIn d0 s

/-- The first passage of a request that comes back from being held: its number and detector mode. -/
def passage (i : Instr) (s : State) : Option (Instr × Nat × Bool) :=
  (s.ports.decoded.filter fun x => x.1 = i)[(s.lar.held.filter fun x => x.1 = i).length]?

/-- A request passes ingress decode: the number it takes, and the detector mode it meets (R196, R274), or those of its first passage where it comes
back from being held. A write is outstanding from then on, until it completes. -/
def arrive (i : Instr) (p : Nat) (write : Bool) (mode : State → Bool × State) (s : State) : Nat × Bool × State :=
  match passage i s with
  | some x => (x.2.1, x.2.2, s)
  | none =>
    let y := mode s
    let n := y.2.ports.nextId
    let q := y.2.ports
    (n, y.1, { y.2 with ports := { q with nextId := n + 1, outst := if write then mset q.outst n p else q.outst,
                                          decoded := q.decoded ++ [(i, n, y.1)] } })

/-- The request is accepted: it is held no longer. -/
def accepted (i : Instr) (s : State) : State :=
  match takeFirst (fun x => x.1 = i) s.ports.decoded with
  | some (_, rest) => { s with ports := { s.ports with decoded := rest } }
  | none => s

/-- The port refuses the request, or is disabled, and no longer holds it: as a write it is complete. -/
def gone (i : Instr) (s : State) : State :=
  match passage i s with
  | some x => numberDone x.2.1 { s with ports := { s.ports with decoded := s.ports.decoded.filter fun y => y.2.1 ≠ x.2.1 } }
  | none => s

/-- A host read, ownership request or hint that its port accepts, or refuses as in R43 (R49). -/
def hostRead (i : Instr) (r : HostReq) (kind : DKind) (s : State) : State :=
  let p : Nat := r.port
  if !portServes s p || !hostMode s p then s
  else match hostRefusal s p r.hpa with
    | some cause =>
      refusedAnswer p r.tag kind (refuseAt p cause (oPort 0 p) s)
    | none => match winOf s p r.hpa with
      | none => s
      | some (w0, w1) =>
        let d := hostDemand r w0 w1 kind none
        let cells := if kind = .spec || kind = .evict then 0 else 1
        admission i p d.tc d.line cells none (fun e cs s =>
          let d := { d with epoch := e, cells := cs, acc := s.time.ft }
          let s := count (aHpCnt p 0) 1 s
          issue d s) s

/-- A host write that its port accepts; through a window with RO = 1 it completes without effect (R50), having passed the port's detector as every write
does (R196). Data that the host marks poisoned poisons every word (R364). -/
def hostWrite (i : Instr) (r : HostReq) (w : HostWr) (s : State) : State :=
  let p : Nat := r.port
  if !portServes s p || !hostMode s p then gone i s
  else
    let w := if w.data.pz = 0 then w else { w with data := { w.data with pz := 0xFF } }
    match hostRefusal s p r.hpa with
    | some cause => refusedAnswer p r.tag .write (refuseAt p cause (oPort 0 p) (gone i s))
    | none => match winOf s p r.hpa with
      | none => s
      | some (w0, w1) =>
        let d := hostDemand r w0 w1 .write (some w)
        if bit w0 1 then
          let s := if (passage i s).isSome then s else (passDetector p w.full d.line s).2
          answerHost { d with epoch := epochNow s } (.cmp r.tag) (refuseAt p 2 (oLine d.line) (gone i s))
        else
          let x := arrive i p true (passDetector p w.full d.line) s
          admission i p d.tc d.line 1 none (fun e cs s =>
            let s := count (aHpCnt p 0) 1 (accepted i s)
            let s := if x.2.1 then count (aHcCnt 6) 1 s else s
            issue { d with epoch := e, cells := cs, na := x.2.1, id := x.1, acc := s.time.ft } s) x.2.2

/-- MEMRD_SNPDATA (R101). -/
def opMemrdSnpdata (r : HostReq) (s : State) : State := hostRead (.memrdSnpdata r) r .rdS s
/-- MEMRDDATA (R101). -/
def opMemrddata (r : HostReq) (s : State) : State := hostRead (.memrddata r) r .rdData s
/-- MEMRD_SNPINV (R101). -/
def opMemrdSnpinv (r : HostReq) (s : State) : State := hostRead (.memrdSnpinv r) r .rdX s
/-- MEMINV (R101). -/
def opMeminv (r : HostReq) (nt : Bool) (s : State) : State := hostRead (.meminv r nt) r .inv s
/-- MEMRD_SNPCUR (R101). -/
def opMemrdSnpcur (r : HostReq) (s : State) : State := hostRead (.memrdSnpcur r) r .cur s
/-- MEMSPECRD (R101). -/
def opMemspecrd (r : HostReq) (s : State) : State := hostRead (.memspecrd r) r .spec s

/-- MEMCLNEVCT (R101): the host's PV bit is cleared; R83 applies when nothing else holds the standing; `Cmp`. -/
def opMemclnevct (r : HostReq) (s : State) : State := hostRead (.memclnevct r) r .evict s

/-- Port `p`'s window over a host address, valid or retiring, is read-only (R50, R53). -/
def readOnlyAt (s : State) (p : Nat) (hpa : Hpa) : Bool :=
  match winOf s p hpa with
  | some (w0, _) => bit w0 1
  | none => s.bg.any fun t => match t.kind with
    | .windowSweep q _ => decide (q.val = p) && winHit (BitVec.ofNat 64 t.arg ||| 1) hpa.toNat && t.arg.testBit 1
    | _ => false

/-- A write of a line that a snoop to its host is in progress for: the snoop's write-back, taken without admission in a cell of the protocol reserve
(R102); it passes the port's detector as every write does (R196). Through a window with RO = 1 it completes without effect (R50). Any other write goes
the ordinary way. -/
def hostWriteBack (i : Instr) (r : HostReq) (w : HostWr) (s : State) : State :=
  let p : Nat := r.port
  match stepFor s p r.hpa with
  | none => hostWrite i r w s
  | some x =>
    let w := if w.data.pz = 0 then w else { w with data := { w.data with pz := 0xFF } }
    if readOnlyAt s p r.hpa then
      toHost p (sliceOf x.line) x.tc x.epoch [] x.line (.cmp r.tag)
        (refuseAt p 2 (oLine (outLine s x.line)) (passDetector p w.full (outLine s x.line) s).2)
    else match takeProto x.tc 1 s with
    | some (c, s) => doneReading [c] (writeBack x p r.tag w (passDetector p w.full (outLine s x.line) s).2)
    | none => hold i p 7 (fire 243 0 oNone s)

/-- MEMWR_EXCLUSIVE: a `MemWr` (R101, R102). -/
def opMemwrExclusive (r : HostReq) (w : HostWr) (s : State) : State := hostWriteBack (.memwrExclusive r w) r w s

/-- MEMWR_OTHER_HOST: a `MemWr` or `MemWrPtl` (R101, R102). -/
def opMemwrOtherHost (r : HostReq) (w : HostWr) (s : State) : State := hostWriteBack (.memwrOtherHost r w) r w s

/-- SNOOP_WRITE_BACK (R102). -/
def opSnoopWriteBack (r : HostReq) (w : HostWr) (s : State) : State := hostWriteBack (.snoopWriteBack r w) r w s

/-! ### Back-invalidate snoops -/

/-- BIRSP (R102, R139). -/
def opBirsp (p : HPort) (hpa : Hpa) (r : BiRsp) (s : State) : State :=
  match stepFor s p hpa with
  | none => s
  | some x => hostAnswered p x.line r s

/-- The HBM reads of `q` with `w` behind what the last of them sends Board `b` for the line; none where no read sends it anything. -/
def behindReads (b : Nat) (l : LineAddr) (w : Waiter) (q : List HbmOp) : Option (List HbmOp) :=
  let mine := fun (o : HbmOp) => match o with
    | .read _ x _ outs _ => decide (x = l) && outs.any fun y => y.1 = b
    | _ => false
  let more := fun (o : HbmOp) => match o with
    | .read k x c outs d => HbmOp.read k x c (outs ++ [(b, w)]) d
    | o => o
  if q.any mine then some (updFirst mine more q.reverse).reverse else none

/-- A transfer to port `p`'s host behind every transfer to it for the same line that has been issued, also one whose data is still being read from
HBM (R140); at the Board itself transfers to a host for one line leave in order. -/
def behindIssued (p tc epoch : Nat) (l : LineAddr) (a : HostAns) (s : State) : State :=
  let w : Waiter := ⟨sliceInput (sliceOf l), tc, epoch, .host a, [], 0, l, 0, false⟩
  match s.hc.hbm.findSome? fun e => (behindReads (hostBoard s p) l w e.2).map fun q => (e.1, q) with
  | some (g, q) => { s with hc := { s.hc with hbm := mset s.hc.hbm g q } }
  | none => enqueue (hostBoard s p) w s

/-- BICONFLICT (R140): `BIConflictAck` behind every completion already sent, in the class and epoch of the snoop's request (R245); where no snoop
of the line is in progress, in TC7 (DESIGN CHOICE, log entry 90). -/
def opBiconflict (p : HPort) (hpa : Hpa) (tag : BitVec 16) (s : State) : State :=
  let x := match stepFor s p hpa with
    | some x => (x.line, x.tc, x.epoch)
    | none => match winOf s p hpa with
      | some (w0, w1) => (inLine s (lineOf (winFpa w0 w1 hpa.toNat)), 7, epochNow s)
      | none => (0, 7, epochNow s)
  let s := count (aPcSlc (sliceOf x.1) 13) 1 (count (aHpCnt p 3) 1 s)
  behindIssued p x.2.1 x.2.2 x.1 (.biConflictAck tag) s

/-- What waits to be sent to port `p`'s host is discarded (R358). -/
def dropToHost (p : Nat) (s : State) : State :=
  let b := 76 + p
  let ws := mgetD [] s.brd.wait b
  doneReading (ws.flatMap fun w => w.cells) { s with brd := { s.brd with wait := mdel s.brd.wait b } }

/-- The lines of port `p`'s host are reclaimed (Table 04.9): the sweep begins, and every snoop to it is answered `BIRspI`. Until the sweep has ended
the port refuses the host's requests. -/
def takeBack (p : Nat) (s : State) : State :=
  let s := { s with hst := { s.hst with refused := s.hst.refused.filter (· ≠ p) ++ [p], reclaimed := s.hst.reclaimed.filter (· ≠ p),
                                        portReset := s.hst.portReset.filter (· ≠ p) } }
  let s := if h : p < 16 then { s with bg := s.bg ++ [⟨.hostReclaim ⟨p, h⟩, 0, 0, 0, false⟩] } else s
  let ls := (s.hst.steps.filter fun x => x.snps.any fun b => b.port = p).map (·.line)
  ls.eraseDups.foldl (fun s l => hostAnswered p l .rspI s) s

/-- The host on port `p` declared dead (R145, R146): HF_DEAD, EV000 + 4p, a Tally record, the reclaim sweep begun, and every snoop to it
answered `BIRspI`. -/
def hostDies (p : Nat) (s : State) : State :=
  if hostDead s p then s
  else
    let s := rsq aHfDead p s
    let s := fireSeq (4 * p) 3 (oPort 0 p) oNone (seqOf s aHfDead) s
    takeBack p (tallyAuto 35 0 (4 * p) 0 0 (oPort 0 p) s)

/-- BI_SNOOP_TIMEOUT (R144): the snoop is sent again; after the third the host is dead. -/
def opBiSnoopTimeout (p : HPort) (l : LineAddr) (s : State) : State :=
  match s.hst.steps.find? fun x => x.line = l && x.snps.any (fun b => b.port = p.val && b.tries ≠ 0) with
  | none => s
  | some x =>
    match x.snps.find? fun b => b.port = p.val && b.tries ≠ 0, hpaOf s p l with
    | some b, some hpa =>
      if b.tries ≥ 3 then hostDies p s
      else
        let more := fun (b : BiSnp) => if b.port = p.val ∧ b.tries ≠ 0 then { b with tries := b.tries + 1 } else b
        let bump := fun (y : HostStep) => if y.line = l then { y with snps := y.snps.map more } else y
        let s := { s with hst := { s.hst with steps := s.hst.steps.map bump } }
        sendBi l b.kind p x.tc x.epoch hpa s
    | _, _ => hostAnswered p l .rspI s

/-- A dead host whose reclaim has ended and whose port has passed a port reset is admitted again (R148). -/
def readmit (p : Nat) (s : State) : State :=
  if p ∈ s.hst.reclaimed ∧ p ∈ s.hst.portReset then
    dropToHost p { s with hst := { s.hst with refused := s.hst.refused.filter (· ≠ p), reclaimed := s.hst.reclaimed.filter (· ≠ p),
                                              portReset := s.hst.portReset.filter (· ≠ p) } }
  else s

/-! ### Waiting demands and tables -/

/-- SSD_IDLE_TIMEOUT (R197): training mode with n := 0. -/
def opSsdIdleTimeout (p : HPort) (s : State) : State :=
  let x := mgetD {} s.hc.ssd p
  if isH1 s ∧ x.na = true then setDetector p { x with n := 0, na := false } s else s

/-- RELEASE_AFTER_MISS (R82): a release that waited is decided against the standing of now, after the hosts recorded meanwhile have been
back-invalidated; one whose data waits for a cell of the protocol reserve, or that waits for an entry of the eviction table, waits on while there is none
(R204, R206). -/
def opReleaseAfterMiss (line : LineAddr) (s : State) : State :=
  let l := inLine s line
  if (mrOf s l).isSome then s
  else match takeFirst (fun (x : DueRel) => x.line = l) s.req.due with
    | none => s
    | some (x, rest) =>
      if !releaseReady s l x.data.isSome then s
      else releaseHosts l x.tc x.epoch { s with req := { s.req with due := rest } } x.data

/-- MISS_REGISTER_FREE (R185, R186): the oldest demand of the slice that waited for a register or for its line, and no longer has to; with none, a
cleaning write that waits for a register. -/
def opMissRegisterFree (k : Fin 32) (s : State) : State :=
  let can := fun (w : Why) (d : Demand) => decide (sliceOf d.line = k.val) && match w with
    | .reg => let pf := decide (d.kind = .prefetch)
              (mrPick s k d.tc pf).isSome || (pf && pfCapped s d.line)
    | .line => (mrOf s d.line).isNone && (evOf s d.line).isNone
    | .atomRel => (evOf s d.line).isNone && !stepOn s d.line
    | .dev => !devBusy s d.port
    | _ => false
  let firstDev := fun (d : Demand) => match s.req.waits.find? fun x => x.1 = .dev && x.2.port = d.port with
    | some x => decide (x.2 = d)
    | none => true
  let due := fun (w : Why) (d : Demand) => can w d && (w ≠ .dev || firstDev d)
  if s.req.waits.any fun x => due x.1 x.2 then retry due s else cleanAgain k s

/-- Of the requests at the input of slice `k`, the first of each class, in arrival order (log entry 92). -/
def inputHeads (s : State) (k : Nat) : List Txn :=
  let l := s.home.input.filter fun t => sliceOf t.line = k
  (List.range l.length).filterMap fun i =>
    l[i]?.bind fun t => if (l.take i).any fun x => x.tc = t.tc then none else some t

/-- A request passes the slice input and is decided, ahead of those that still wait there and behind those that passed it before (R118, R120). -/
def enterInput (t : Txn) (s : State) : State :=
  match takeFirst (fun x => x = t) s.home.input with
  | none => s
  | some (_, rest) => asEntering (fun s => match t.rq with
      | .remote h => homeEnter t h s
      | .own d => demand d s
      | _ => s) { s with home := { s.home with input := rest } }

/-- The Board input of a request (Table 06.5): its host port, or the Idior port it came through. -/
def inputOf (t : Txn) : Nat :=
  match t.rq with
  | .own d => if d.src = .hub then 53 else d.port
  | _ => t.input

/-- A request waiting at the slice input as a requester of the slice's Board (R237). -/
def inputIndex (t : Txn) : Nat := 8 * inputOf t + t.tc

/-- The requests at the input of slice `k` that can pass it now: a table entry is free for them (R122), and a merging-buffer entry where they need
one (R201). -/
def inputReady (s : State) (k : Nat) : List Txn := (inputHeads s k).filter fun t => (httPick s k t).isSome && !waitsMbuf s t

/-- One grant of slice-input Board `k` in the square of now (R18, R238): the request it chooses passes the input. A retraining square grants none. -/
def inputGrant (k : Nat) (s : State) : State :=
  let ts := inputReady s k
  if square s k (squareNow s) / 16 % 8 = 2 then s
  else match arbitrateAmong s k (squareNow s) (ts.map fun t => (inputIndex t, t.tc, t.epoch)) with
  | none => s
  | some x => match ts.find? fun t => inputIndex t = x.1 with
    | none => s
    | some t => enterInput t (granted k x s)

/-- Up to `n` grants of slice-input Board `k`. -/
def inputGrants (k : Fin 32) : Nat → State → State
  | 0, s => s
  | n + 1, s => inputGrants k n (inputGrant k s)

/-- HTT_ENTRY_FREE (R122): the request at the slice input that the slice's Board chooses passes it. -/
def opHttEntryFree (k : Fin 32) (s : State) : State := inputGrant k s

/-- The oldest request waiting for an unblocked line is decided (R120), once its set's record block is at hand (R177) and a merging-buffer entry
where it needs one (R201). -/
def decideOldest (l : LineAddr) (s : State) : State :=
  if blocked s l then s
  else match takeFirst (fun (t : Txn) => t.line = l) s.home.waiting with
    | none => s
    | some (t, rest) =>
      let c := cacheSet s l
      if waitsMbuf s t then
        if t.tries ≠ 0 then s
        else count (aPcSlc (sliceOf l) 30) 1 { s with home := { s.home with waiting := updFirst (fun x => x = t) (fun x => { x with tries := 1 }) s.home.waiting } }
      else if (rqHub t).isSome && tagMiss s c then (if c ∈ s.hc.fetch then s else tagFetch c s)
      else asNow l (decideTxn t) (if (rqHub t).isSome then tagUse c { s with home := { s.home with waiting := rest } }
                                  else { s with home := { s.home with waiting := rest } })

/-- WAITER_DECISION (R120). -/
def opWaiterDecision (line : LineAddr) (s : State) : State := decideOldest (inLine s line) s

/-- DIRECTORY_WAY_FREE (R142, R143): the allocation of the set whose turn it is takes its way or chooses a victim; where its line has been blocked
meanwhile, it waits for that first, and the way of its recall stays kept for it (R143). -/
def opDirectoryWayFree (k : Fin 32) (set : Nat) (s : State) : State :=
  match nextAlloc s k set with
  | none => s
  | some x => match takeFirst (fun y => y = x) s.home.wayWait with
    | none => s
    | some ((_, _, t0), rest) =>
      let t := { t0 with step := false, turn := true }
      asNow t.line (fun s => if blocked s t.line then waitPut t s else decideTxn { t with way := none } s) { s with home := { s.home with wayWait := rest } }

/-- HOST_FILTER_WAY_FREE (R94): the oldest new entry that waits for a way of the set goes on, where a way is free or more entries wait than ways are
on their way out. -/
def opHostFilterWayFree (k : Fin 32) (set : Nat) (s : State) : State :=
  let mine := fun (l : LineAddr) => decide (sliceOf l = k.val) && decide (tabSet l.toNat = set)
  let ls := (s.req.mrs.filter fun e => awaitsHf e.2).map (·.2.line) ++ (s.req.waits.filter fun x => x.1 = .hf).map (·.2.line)
  match ls.filter mine with
  | [] => s
  | l :: t => if hfRoom s l || decide (hfLeaving s l < (l :: t).length) then nextHf mine s else s

/-- CACHE_WAY_FREE (R191): a read that waits for a way of the line's set is decided, once the set has a candidate. -/
def opCacheWayFree (line : LineAddr) (s : State) : State :=
  let set := cacheSet s (inLine s line)
  if (candidates s set).isEmpty then s else retry (fun w d => w = .way && cacheSet s d.line = set) s

/-- MERGING_ENTRY_FREE (R201): what has waited longest for an entry goes on: a transaction at its write, an own atomic with its line, a write in the
table of an unblocked line, one at the slice input, or one of this hub's own ports. -/
def opMergingEntryFree (k : Fin 32) (s : State) : State :=
  let due := fun (t : Txn) => decide (sliceOf t.line = k.val) && (t.opc = .wrL || t.opc = .wrP || t.opc = .atm) && !t.answered && !t.step &&
    allAnswered t && !waitsMbuf s t && !owedTxn s t.line && (t.opc ≠ .atm || (homeData s t).isSome)
  match s.home.opened.find? due with
  | some t => progress t.line s
  | none => match s.req.mrs.find? fun e => decide (sliceOf e.2.line = k.val) && e.2.late.isSome && atomFill e.2 && !(e.2.demands.any fun d => mbufHolds s d) with
    | some (n, m) => match m.late with
      | some (_, data, _, _) => ownFill n { m with late := none } data s
      | none => s
    | none => match s.home.waiting.find? fun t => decide (sliceOf t.line = k.val) && t.tries ≠ 0 && !blocked s t.line && !waitsMbuf s t with
      | some t => decideOldest t.line s
      | none => if (inputReady s k).isEmpty then
          retry (fun w d => w = .mbuf && decide (sliceOf d.line = k.val) && !mbufHolds s d) s
        else inputGrant k s

/-- EVICTION_ENTRY_FREE (R204): a waiting eviction of the slice starts its releases, once the table has room for all of them. -/
def opEvictionEntryFree (k : Fin 32) (s : State) : State :=
  let sets := if isH1 s then 65536 else 7168
  match takeFirst (fun e => !e.started && decide (e.way / 16 / sets = k.val) && evictRoom s e.way) s.hc.evs with
  | none => s
  | some (e, rest) => startEvict e { s with hc := { s.hc with evs := rest } }

/-- FRAME_EVICTION_DONE (R204). `set` counts within the slice. -/
def opFrameEvictionDone (k : Fin 32) (set way : Nat) (s : State) : State :=
  let sets := if isH1 s then 65536 else 7168
  frameDone (16 * (sets * k.val + set) + way) s

/-- FLUSH_PENDING_APPLY (R214): the maintenance action falls on a line whose marked register has filled. -/
def opFlushPendingApply (line : LineAddr) (s : State) : State :=
  let l := inLine s line
  match takeFirst (· = l) s.hc.released with
  | none => s
  | some (_, rest) =>
    let s := { s with hc := { s.hc with released := rest } }
    let flush := match s.hc.maint with
      | some m => m.flush
      | none => rdFld s aHcMopc 0 2 ≠ 0
    if flush then releaseHosts l 7 (epochNow s) (drainOf (fun x => x.toNat / 4 = l.toNat / 4) s) else withHosts l 1 (exclHost s l) 7 (epochNow s) (.clean 0) (cleanNow 0 l) s

/-- The held commands try again, in order (R249): `f` runs one. -/
def retryHeld (f : Instr → State → State) (s : State) : State :=
  let h := s.lar.held
  h.foldl (fun s x => f x.1 s) { s with lar := { s.lar with held := [] } }

/-- CELL_FREE (R27): a cell whose last reader has finished returns to its share. -/
def opCellFree (c : Nat) (s : State) : State :=
  match mget s.lar.cells c with
  | some x => if x.readers = 0 then freeCell c s else s
  | none => s

/-- HAND_OVER (R210): a hand-over on its way reaches the slice of region `region`. -/
def opHandOver (p : HPort) (region : Nat) (d : Int) (s : State) : State :=
  match takeFirst (fun x => x = (p.val, region, d)) s.hc.handOvers with
  | none => s
  | some (_, rest) => handOver p region d { s with hc := { s.hc with handOvers := rest } }

/-- KEEP_WINDOW_CLOSE (R126): the snoops held on the line are handled, and a held host step of the home goes on. -/
def opKeepWindowClose (line : LineAddr) (s : State) : State :=
  let l := inLine s line
  if l ∉ s.home.keep then s
  else
    let now := s.home.heldSnp.filter fun x => x.2.1.line = l
    let held := l ∈ s.home.heldStep
    let s := { s with home := { s.home with keep := s.home.keep.filter (· ≠ l), heldSnp := s.home.heldSnp.filter fun x => x.2.1.line ≠ l,
                                            heldStep := s.home.heldStep.filter (· ≠ l) } }
    let s := if held then progress l (startStep l s) else s
    now.foldl (fun s x => handleSnoop x.1 x.2.1 x.2.2 s) s

end Sys2Proof.Machine
end

