-- ==== Sys2Proof/Machine/Msgs.lean ====
section
/-! DEFINITION. Coherence messages that reach this hub over Idior, as home, as holder and as requester (03, 04, 08). -/

namespace Sys2Proof.Machine

/-- A coherence message is accepted from the sender's live incarnation only (R156), and while the block is out of reset. -/
def accepts (s : State) (h : Hdr) : Bool :=
  decide (h.inc.toNat ≠ 0) && decide (incOf s h.src = h.inc.toNat) &&
    (match s.part.phase with | .ready | .flush _ => true | _ => false)

/-- A received message leaves its buffer: its slots go back to the pools they came from, where the sender is owed them (R305). -/
def freeRx (x : RxMsg) (s : State) : State :=
  let k := link s x.port
  let c := channelOf x.m
  let r := slotsOf x.m - x.shared
  let own := if r = 0 then [] else [(c, r)]
  let sh := if x.shared = 0 then [] else [(12, x.shared)]
  if !x.owed then s
  else setLink x.port { k with mine := mupd 0 (mupd 0 k.mine c (· - r)) 12 (· - x.shared), owe := k.owe ++ own ++ sh } s

/-- The message leaves its receive buffer (R305). -/
def takeRx (opc : Opc) (h : Hdr) (s : State) : State :=
  match takeFirst (fun (x : RxMsg) => x.m.opc = opc && x.m.h = h) s.rx with
  | none => s
  | some (x, rest) => freeRx x { s with rx := rest }

/-- The Idior port through which a message arrived. -/
def rxPort (s : State) (opc : Opc) (h : Hdr) : Nat :=
  match s.rx.find? fun x => x.m.opc = opc && x.m.h = h with
  | some x => x.port
  | none => 0

/-- A message discarded at ingress (Table 08.12): counted, with the port's event. -/
def discardAt (p cause : Nat) (h : Hdr) (s : State) : State := fire (99 + 4 * p) cause (oHub h.src) (count (aIpCnt p 6) 1 s)

/-- A message that is not accepted is discarded, counted, and raises its port's event (R156). -/
def turnAway (opc : Opc) (h : Hdr) (s : State) : State := takeRx opc h (discardAt (rxPort s opc h) 0 h s)

/-- A message accepted, or discarded. -/
def message (opc : Opc) (h : Hdr) (f : State → State) (s : State) : State :=
  if accepts s h then f (takeRx opc h s) else turnAway opc h s

/-- An incoming protocol message waits in its virtual channel while the protocol reserve is full (Table 01.8). -/
def holdProto (i : Instr) (h : Hdr) (s : State) : State :=
  fire 243 0 oNone { s with lar := { s.lar with held := s.lar.held ++ [(i, 60, h.tc.toNat)] } }

/-- A message whose payload, or whose answer's, takes a cell of the protocol reserve; it waits in its channel while there is none (Table 01.8). -/
def withCell (i : Instr) (opc : Opc) (h : Hdr) (f : List Nat → State → State) (s : State) : State :=
  if !accepts s h then turnAway opc h s
  else match takeProto h.tc.toNat 1 s with
    | some (c, s) => f [c] (takeRx opc h s)
    | none => holdProto i h s

/-- A management message whose payload enters a Larder cell of its class (R20, R32); it waits in its receive buffer while there is none (R35). -/
def withPayload (i : Instr) (opc : Opc) (h : Hdr) (f : List Nat → State → State) (s : State) : State :=
  match takeCells h.tc.toNat 1 1 s with
  | some (cs, s) => f cs (takeRx opc h s)
  | none => { s with lar := { s.lar with held := s.lar.held ++ [(i, 60, h.tc.toNat)] } }

/-! ### Requests at the home -/

/-- A request for a partner's line of an entry that this hub has handed back (R348, R352): it is redirected to the home. -/
def handedBack (s : State) (l : LineAddr) : Bool :=
  homeOf l ≠ hubId s && homeOf l = buddy s && (List.range 8).any fun n =>
    let w := rd s (aFbMir n)
    decide (n ∈ s.mir.gave) && bit w 0 && !bit w 1 && decide (fld w 16 12 ≤ laOf l / 2 ^ 30) && decide (laOf l / 2 ^ 30 < fld w 16 12 + fld w 32 13)

/-- A request arrives at its home (R118 to R124, R245). -/
def homeRequest (i : Instr) (opc : Opc) (h : Hdr) (ncells : Nat) (f : Txn → Txn) (s : State) : State :=
  let l := inLine s h.line
  if !accepts s h then turnAway opc h s
  else if s.lar.held.any (fun x => x.1 = i) then count (aPcSlc (sliceOf l) 29) 1 (takeRx opc h s)
  else if handedBack s h.line then
    let hd := { mkHdr s h.line h.tc.toNat h.epoch.toNat h.rqh h.rtag.toNat 0 with line := h.line }
    send0 .rdr h.rqh hd (takeRx opc h s)
  else admission i (24 + rxPort s opc h) h.tc.toNat l ncells (some h.epoch.toNat) (fun e cs s =>
    homeReq (f { newTxn l (.remote h) opc h.tc.toNat e with cells := cs, input := 24 + rxPort s opc h }) h (takeRx opc h s)) s

/-- RDS (R105). -/
def opRds (h : Hdr) (s : State) : State := homeRequest (.rds h) .rdS h 1 id s
/-- RDX (R105). -/
def opRdx (h : Hdr) (s : State) : State := homeRequest (.rdx h) .rdX h 1 id s
/-- RDO (R105, R138). -/
def opRdo (h : Hdr) (s : State) : State := homeRequest (.rdo h) .rdO h 1 id s
/-- UPG (R105). -/
def opUpg (h : Hdr) (s : State) : State := homeRequest (.upg h) .upg h 1 id s
/-- WRL (R99, R598). -/
def opWrl (h : Hdr) (d : Data) (s : State) : State := homeRequest (.wrl h d) .wrL h 1 (fun t => { t with wr := d }) s
/-- WRP (R99, R598): XTRA is the byte mask. -/
def opWrp (h : Hdr) (d : Data) (s : State) : State :=
  homeRequest (.wrp h d) .wrP h 1 (fun t => { t with wr := d, mask := h.xtra }) s

/-- The operands of an `Atm` payload (Table 04.12). -/
def atomOf (d : Data) : Atom :=
  let n := d.bytes.toNat
  ⟨BitVec.ofNat 4 n, BitVec.ofNat 2 (n / 16), n.testBit 6, BitVec.ofNat 6 (n / 256), BitVec.ofNat 128 (n / 2 ^ 128), BitVec.ofNat 128 (n / 2 ^ 256)⟩

/-- ATM (R159, R163). -/
def opAtm (h : Hdr) (d : Data) (s : State) : State := homeRequest (.atm h d) .atm h 2 (fun t => { t with atom := some (atomOf d) }) s

/-- EVC (R133, R334). -/
def opEvc (h : Hdr) (s : State) : State := message .evc h (onWriteBack h none) s
/-- WBD (R133, R334). -/
def opWbd (h : Hdr) (d : Data) (s : State) : State :=
  withCell (.wbd h d) .wbD h (fun cs s => onWriteBack h (some d) (doneReading cs s)) s
/-- ACK (R137). -/
def opAck (h : Hdr) (s : State) : State := message .ack h (onAnswer h false none) s
/-- ACKE (R134). -/
def opAcke (h : Hdr) (s : State) : State := message .ackE h (onAnswer h true none) s
/-- ACKD (R137). -/
def opAckd (h : Hdr) (d : Data) (s : State) : State :=
  withCell (.ackd h d) .ackD h (fun cs s => onAnswer h false (some d) (doneReading cs s)) s
/-- FIN (R98, R123). -/
def opFin (h : Hdr) (s : State) : State := message .fin h (onFin h) s

/-! ### Snoops at a holder -/

/-- SNPS (R109, R126, R129). -/
def opSnps (h : Hdr) (s : State) : State := withCell (.snps h) .snpS h (onSnoop .snpS h) s
/-- SNPX (R109, R126, R129, R335). -/
def opSnpx (h : Hdr) (s : State) : State := withCell (.snpx h) .snpX h (onSnoop .snpX h) s
/-- SNPI (R109, R126, R129). -/
def opSnpi (h : Hdr) (s : State) : State := withCell (.snpi h) .snpI h (onSnoop .snpI h) s
/-- SNPBC (R109, R126, R129). -/
def opSnpbc (h : Hdr) (s : State) : State := withCell (.snpbc h) .snpBc h (onSnoop .snpBc h) s

/-! ### Completions at a requester -/

/-- DATS (R110): read-once service. Data for a miss register enters the fill cell that the register holds (R33): it waits for none. -/
def opDats (h : Hdr) (d : Data) (s : State) : State := message .datS h (onData h d none) s
/-- DATF (R110). -/
def opDatf (h : Hdr) (d : Data) (s : State) : State := message .datF h (onData h d (some .f)) s
/-- DATE (R110). -/
def opDate (h : Hdr) (d : Data) (s : State) : State := message .datE h (onData h d (some .e)) s
/-- DATM (R110). -/
def opDatm (h : Hdr) (d : Data) (s : State) : State := message .datM h (onData h d (some .m)) s
/-- FWDS (R110): S, or read-once service with G = 1. -/
def opFwds (h : Hdr) (d : Data) (s : State) : State :=
  message .fwdS h (onData h d (if h.g then none else some .s)) s
/-- FWDX (R110). -/
def opFwdx (h : Hdr) (d : Data) (s : State) : State := message .fwdX h (onFwdX h d) s
/-- GNTX (R110). -/
def opGntx (h : Hdr) (s : State) : State := message .gntX h (onGntX h) s
/-- CMP with FC = 0 (R200, R598). -/
def opCmp (h : Hdr) (s : State) : State := message .cmp h (onCmp h) s

/-- WBACK (R132, R205): the eviction ends, its cell is free (R333), and the demands that waited for it go on. -/
def opWback (h : Hdr) (s : State) : State :=
  message .wbAck h (fun s =>
    let l := inLine s h.line
    match takeFirst (fun (e : EvEnt) => e.line = l) s.hc.evt with
    | none => s
    | some (x, rest) =>
      retryAll (fun w d => d.line = l && (w = .line || w = .atomRel)) (doneReading x.cells { s with hc := { s.hc with evt := rest } })) s

/-- RDR (R352): the request goes again, to the home. -/
def opRdr (h : Hdr) (s : State) : State :=
  message .rdr h (fun s =>
    match mrFor s h with
    | none => s
    | some m =>
      let m := { m with dst := homeOf m.line }
      sendMr h.rtag.toNat m (noteAgain m (mrPut h.rtag.toNat m s))) s

/-- PLNOTE (R168): a stash read in the notice's class. -/
def opPlnote (h : Hdr) (s : State) : State :=
  message .plNote h (fun s => prefetch (inLine s h.line) h.tc.toNat h.epoch.toNat 16 true s) s

/-! ### Timers -/

/-- RESPONSE_RETENTION_EXPIRY (R149): the responses kept longest for the line are discarded. -/
def opResponseRetentionExpiry (line : LineAddr) (s : State) : State :=
  let l := inLine s line
  match s.home.kept.find? fun x => x.1 = l with
  | none => s
  | some x => { s with home := { s.home with kept := s.home.kept.filter fun y => !(y.1 = l && y.2.1 = x.2.1 && y.2.2.1 = x.2.2.1) } }

end Sys2Proof.Machine
end

