-- ==== Sys2Proof/Machine/Mirror.lean ====
section
/-! DEFINITION. Buddy pairs (08 R338 to R352): mirror messages as home and as buddy, completions owed, mirror copies and the hand-back.
The layout of `MrCtl` is a DESIGN CHOICE (log entry 26). -/

namespace Sys2Proof.Machine

/-- The pair stands and the buddy is live: guarded writes are mirrored (FB_BUDDY.PST = paired). -/
def mirrorOn (s : State) : Bool := rdFld s aFbBuddy 0 2 = 2

/-! ### As home (R343 to R346) -/

/-- A mirror message: the next MSEQ in XTRA [31:0]; `MrCtl` adds its entry in [35:32] and start in [36]. -/
def mirMsg (s : State) (opc : Opc) (l : LineAddr) (d : Data) (more : Nat) (cls : Nat × Nat) : Msg :=
  { opc := opc, dst := buddy s, dl := false, sr := false, hops := 0, len := BitVec.ofNat 3 (lenOf opc),
    h := { mkHdr s l cls.1 cls.2 0 0 0 with xtra := BitVec.ofNat 64 (s.mir.next + more * 2 ^ 32) }, data := d }

/-- A mirror message takes its MSEQ and leaves, its data in `cells`, or waits while 4,096 are unacknowledged (R344); it carries the class and epoch of the
request that caused it (R245), best effort where none did. -/
def mirSend (opc : Opc) (l : LineAddr) (d : Data) (more : Nat) (s : State) (cls : Nat × Nat := (7, epochNow s)) (cells : List Nat := []) : State :=
  let m := mirMsg s opc l d more cls
  let n := s.mir.next
  let s := { s with mir := { s.mir with next := (n + 1) % 2 ^ 32 } }
  if s.mir.sent.length ≥ 4096 then { s with mir := { s.mir with held := s.mir.held ++ [m] } }
  else dispatch (sliceInput (sliceOf l)) cells m (moreReaders cells { s with mir := { s.mir with sent := s.mir.sent ++ [(n, m)] } })

/-- A line that a cellar write leaves at this home goes to the buddy: a Guarded line while the pair stands, a served line during a hand-back
(R343, R352). The MSEQ it took. -/
def mirrorWrite (l : LineAddr) (d : Data) (cls : Nat × Nat) (cells : List Nat) (s : State) : Option Nat × State :=
  if mirrorOn s && (isGuarded s l || (s.mir.back && (mirOwn s (laOf l)).isSome)) then (some s.mir.next, mirSend .mrW l d 0 s cls (cells.take 1)) else (none, s)

/-- MSEQ `a` is at most `n`, by half-range comparison over 32 bits. -/
def mseqUpTo (a n : Nat) : Bool := decide ((n + 2 ^ 32 - a) % 2 ^ 32 < 2 ^ 31)

/-- Messages that waited leave as far as 4,096 allow. -/
def mirRelease : List Msg → State → State
  | [], s => s
  | m :: t, s =>
    if s.mir.sent.length ≥ 4096 then s
    else mirRelease t (dispatch (sliceInput (sliceOf m.h.line)) [] m
      { s with mir := { s.mir with sent := s.mir.sent ++ [(m.h.xtra.toNat % 2 ^ 32, m)], held := t } })

/-- `MrAck` with `n`: every MSEQ up to it is acknowledged (R343). -/
def ackTo (n : Nat) (s : State) : State :=
  let s := { s with mir := { s.mir with sent := s.mir.sent.filter fun e => !mseqUpTo e.1 n, tries := 0 } }
  mirRelease s.mir.held s

/-- MSEQ `n` is not acknowledged yet. -/
def unacked (s : State) (n : Nat) : Bool :=
  s.mir.sent.any (fun e => e.1 = n) || s.mir.held.any fun m => m.h.xtra.toNat % 2 ^ 32 = n

/-- A completion owed is due: its own write is persisted and the buddy's copy acknowledged, or nobody mirrors any more (R344, R346). -/
def owedDue (s : State) (o : Owed) : Bool :=
  !s.cel.ops.any (fun x => x.id = o.id) && match o.mseq with
    | none => true
    | some n => !mirrorOn s || !unacked s n

/-- What an owed completion releases: a demand's completion, an atomic's old value, or the reply of a home transaction. -/
def completeWho (w : Who) (s : State) : State :=
  match w with
  | .nobody => s
  | .demand d => match d.kind with
    | .atom _ => answerAtom d 0 (match d.w with | some w => BitVec.ofNat 128 w.data.bytes.toNat | none => 0) s
    | _ => finishWrite d s
  | .txn l => match txnOf s l with
    | none => s
    | some t =>
      if t.answered then s
      else checkEnd l (match t.atom with
        | some _ => reply t .datS false false (t.home.getD Data.zero) s
        | none => reply t .cmp false false Data.zero s)

/-- Every completion that has fallen due is released, in order. -/
def settleOwed (s : State) : State :=
  let due := s.cel.owed.filter (owedDue s)
  let s' := { s with cel := { s.cel with owed := s.cel.owed.filter fun o => !owedDue s o } }
  due.foldl (fun s o => completeWho o.who s) s'

/-! ### As buddy (R343, R345) -/

/-- The mirror entry that copies the partner's LA[47:6] = `la`. -/
def mirEntry (s : State) (la : Nat) : Option Nat :=
  (List.range 8).find? fun n =>
    let w := rd s (aFbMir n)
    bit w 0 && decide (fld w 16 12 ≤ la / 2 ^ 30) && decide (la / 2 ^ 30 < fld w 16 12 + fld w 32 13)

/-- Where a mirror write's line lies here: its own address when it is homed here (a hand-back, R352), else OBASE + (LA - PBASE). -/
def mirTarget (s : State) (l : LineAddr) : Option LineAddr :=
  if isOwn s l then some l else (mirEntry s (laOf l)).map fun n => mirLine s n (laOf l)

/-- One mirror message applied (R343, R345). -/
def mirApply (m : Msg) (cells : List Nat) (s : State) : State :=
  let n := m.h.xtra.toNat % 2 ^ 32
  let s := { s with mir := { s.mir with expect := (n + 1) % 2 ^ 32 } }
  let note := fun (id : Option Nat) (s : State) =>
    { s with mir := { s.mir with applied := s.mir.applied ++ [(n, id, m.h.tc.toNat, m.h.epoch.toNat)] } }
  match m.opc with
  | .mrW =>
    match mirTarget s m.h.line with
    | none => note none (doneReading cells (fire 192 2 (oLine m.h.line) s))
    | some l => note (some s.cel.next) (doneReading cells (cellarWrite l m.data fullMask s))
  | _ =>
    let e := m.h.xtra.toNat / 2 ^ 32 % 8
    if m.h.xtra.toNat.testBit 36 then note none (wrFld (aFbMir e) 3 1 0 { s with mir := { s.mir with copies := s.mir.copies ++ [e] } })
    else
      let left := s.mir.copies.erase e
      let s := { s with mir := { s.mir with copies := left } }
      note none (if e ∈ left then s else wrFld (aFbMir e) 3 1 1 s)

/-- The early arrivals that now follow in order are applied. -/
def mirEarly : Nat → State → State
  | 0, s => s
  | k + 1, s => match mget s.mir.early s.mir.expect with
    | none => s
    | some (m, cs) => mirEarly k (mirApply m cs { s with mir := { s.mir with early := mdel s.mir.early s.mir.expect } })

/-- `MrAck` with the last of the messages applied in sequence whose writes are persisted (R343), in that message's class. -/
def mirAcks (s : State) : State :=
  let ready := fun (x : Nat × Option Nat × Nat × Nat) => match x.2.1 with
    | none => true
    | some i => !s.cel.ops.any fun o => o.id = i
  match (s.mir.applied.takeWhile ready).getLast? with
  | none => s
  | some (n, _, tc, epoch) =>
    let s := { s with mir := { s.mir with applied := s.mir.applied.dropWhile ready } }
    send0 .mrAck (buddy s) { mkHdr s 0 tc epoch 0 0 0 with xtra := BitVec.ofNat 64 n } s

/-- A mirror message of the partner arrives: applied in MSEQ order, held when early, discarded when applied before; a message resent after
its write was persisted is acknowledged again (DEDUCED, log entry 27). -/
def mirArrive (m : Msg) (cells : List Nat) (s : State) : State :=
  let n := m.h.xtra.toNat % 2 ^ 32
  if m.h.src ≠ buddy s || !mirrorOn s then doneReading cells s
  else if n = s.mir.expect then mirEarly s.mir.early.length (mirApply m cells s)
  else if mseqUpTo s.mir.expect n then
    (if (mget s.mir.early n).isSome then doneReading cells s
     else { s with mir := { s.mir with early := mset s.mir.early n (m, cells) } })
  else
    let s := doneReading cells s
    if s.mir.applied.isEmpty then
      send0 .mrAck (buddy s) { mkHdr s 0 m.h.tc.toNat m.h.epoch.toNat 0 0 0 with xtra := BitVec.ofNat 64 ((s.mir.expect + 2 ^ 32 - 1) % 2 ^ 32) } s
    else s

/-- A mirror message as it was received. -/
def mirIn (opc : Opc) (h : Hdr) (d : Data) : Msg :=
  { opc := opc, dst := 0, dl := false, sr := false, hops := 0, len := 0, h := h, data := d }

/-- MRW (R343). -/
def opMrw (h : Hdr) (d : Data) (s : State) : State := withCell (.mrw h d) .mrW h (fun cs s => mirArrive (mirIn .mrW h d) cs s) s

/-- MRCTL (R345). -/
def opMrctl (h : Hdr) (start : Bool) (entry : Fin 8) (s : State) : State :=
  let x := h.xtra.toNat % 2 ^ 32 + (entry.val + 16 * start.toNat) * 2 ^ 32
  message .mrCtl h (mirArrive (mirIn .mrCtl { h with xtra := BitVec.ofNat 64 x } Data.zero) []) s

/-- MRACK (R344): the covered guarded writes complete. -/
def opMrack (h : Hdr) (s : State) : State :=
  message .mrAck h (fun s => if h.src = buddy s then settleOwed (ackTo (h.xtra.toNat % 2 ^ 32) s) else s) s

/-! ### Copies (R345) and the hand-back (R352) -/

/-- The buddy's mirror entries, as FB_PMIR holds them, that cover part of own units LA[47:14] from `base` to `last`, each with that part (R341). -/
def pmirParts (s : State) (base last : Nat) : List (Nat × Nat × Nat) :=
  (List.range 8).filterMap fun n =>
    let w := rd s (aFbPmir n)
    let a := max base (fld w 16 12 * 2 ^ 22)
    let b := min (last + 1) ((fld w 16 12 + fld w 32 13) * 2 ^ 22)
    if bit w 0 && decide (a < b) then some (n, a, b - 1) else none

/-- A mirror copy of own units `base` to `last` begins (R345): into each of the buddy's entries that cover it, its part. -/
def startCopy (base last : Nat) (s : State) : State :=
  (pmirParts s base last).foldl (fun s x =>
    let s := mirSend .mrCtl 0 Data.zero (x.1 + 16) s
    { s with bg := s.bg ++ [⟨.mirrorCopy, x.2.1 * 256, x.2.2 * 256 + 255, x.1, false⟩] }) s

/-- Every Guarded range copied again, when a pair is made (R345). -/
def copyAll (s : State) : State :=
  ((krtValid s).filter fun e => fld e.2.1 1 2 = 1).foldl (fun s e => startCopy (fld e.2.1 21 34) e.2.2 s) s

/-- A transaction of the home's own that reads a line to write it elsewhere, its granule in four cells of the background reserve (R25, R29, R118); false
while the line is blocked, or the table or the reserve has no room. -/
def homeCopy (l : LineAddr) (s : State) : Bool × State :=
  let t := { newTxn l .home .mrW 7 (epochNow s) with step := true, asked := true }
  if blocked s l then (false, s)
  else match httPick s (sliceOf l) t, takeBg 4 s with
    | some sh, some (cs, s) => (true, (openTxn { t with share := sh, cells := cs } s).2)
    | _, _ => (false, s)

/-- The cells of a transaction of homeCopy. -/
def copyCells (s : State) (l : LineAddr) : List Nat :=
  match txnOf s l with
  | some t => if t.opc = .mrW then t.cells else []
  | none => []

/-- A transaction of homeCopy ends, and its cells are read. -/
def endCopy (l : LineAddr) (s : State) : State :=
  match txnOf s l with
  | some t => if t.opc = .mrW then endTxn t s else s
  | none => s

/-- One line of a copy: a transaction of the home's own that reads the line from the cellar and sends it (R345); false while the line is
blocked or the table has no entry for it. -/
def copyLine (l : LineAddr) (s : State) : Bool × State :=
  let x := homeCopy l s
  (x.1, if x.1 then cellarRead l (.mirror 0) x.2 else x.2)

/-- A line read for a copy is sent to the buddy, and its transaction ends. -/
def copyRead (l : LineAddr) (d : Data) (s : State) : State :=
  endCopy l (if mirrorOn s then mirSend .mrW l d 0 s (7, epochNow s) ((copyCells s l).take 1) else s)

/-- No line of a copy is being read. -/
def copiesRead (s : State) : Bool := !s.cel.ops.any fun o => match o.dest with | .mirror _ => true | _ => false

end Sys2Proof.Machine
end

