-- ==== Sys2Proof/Machine/Protect.lean ====
section
/-! DEFINITION. What the protection of stored data does with a finding (10): correction logs, leaky buckets and watched ranges, repeat
trackers, hard words and row sparing, the Lumber list. -/

namespace Sys2Proof.Machine

/-- A finding of a unit of Table 10.2: its KIND and ADDR (Table 10.3), and the position of the first corrected bit or symbol. -/
structure Find where
  unit : Nat
  kind : Nat
  addr : Nat
  pos : Nat
  scr : Bool
  deriving DecidableEq, Repr

/-- The pseudo-channel of HBM that a finding lies in, 4 × channel + stack: of a way's data or its record's primary copy, or with bit 25 of a frame-record
finding's address set (which is no part of its ADDR: DESIGN CHOICE, log entry 106) of the duplicate copy, in the next stack (R173). -/
def findPc (x : Find) : Nat :=
  let g := x.addr / 16 % 128
  if x.unit = 4 && x.addr.testBit 25 then g / 4 * 4 + (g + 1) % 4 else g

/-- The ADDR of a finding (Table 10.3). -/
def findAddr (x : Find) : Nat := if x.kind = 4 then x.addr % 2 ^ 25 else x.addr

/-- One entry of a unit's correction log, a ring of 64 (R392, R393). -/
def ecEntry (x : Find) (res : Nat) (s : State) : State :=
  let a := aEcLogstat x.unit
  let head := rdFld s a 8 6
  let e := aEcLog x.unit head
  let brim := rdFld s a 0 7 = 64
  let s := wr e (mkWord [(0, 48, findAddr x), (48, 4, x.kind), (52, 3, res), (55, 1, x.scr.toNat), (56, 6, x.pos), (63, 1, 1)]) s
  let s := wr (e + 8) s.time.ft s
  let s := wrFld a 8 6 (head + 1) (wrFld a 0 7 (satTo 64 (rdFld s a 0 7 + 1)) s)
  if brim then rsq a 14 s else s

/-! ### Buckets and watched ranges (R395 to R397) -/

/-- The source of a unit's bucket overflow (Tables 10.2, 10.6). -/
def bucketSource (x : Find) (s : State) : Nat :=
  match x.unit with
  | 0 => 176
  | 1 => 180
  | 2 => 238
  | 3 => 283
  | _ => 144 + 8 * (if isH1 s then findPc x % 4 else 0)

/-- A correctable error counted in the bucket of units 0 to 4 (R395). -/
def bucketHit (x : Find) (s : State) : State :=
  if x.unit > 4 then s
  else
    let a := aEcBkt x.unit
    if rdFld s a 28 8 < rdFld s a 0 8 then wrFld a 28 8 (rdFld s a 28 8 + 1) s
    else
      let s := rsq a 36 (wrFld a 28 8 0 s)
      fireSeq (bucketSource x s) 0 (oNum x.unit) oNone (seqOf s a) s

/-- The enabled watched ranges that cover an own page LA[47:12]. -/
def watchedBy (s : State) (page : Nat) : List Nat :=
  (List.range 64).filter fun r => rdBit s (aEcWr r) 0 && decide (rdFld s (aEcWr r + 8) 0 36 ≤ page) && decide (page ≤ rdFld s (aEcWr r + 16) 0 36)

/-- A correctable error in an own line counts toward every watched range that covers it (R397). -/
def watchHit (page : Nat) (s : State) : State :=
  (watchedBy s page).foldl (fun s r =>
    let a := aEcWr r + 24
    if rdFld s a 0 8 < rdFld s (aEcWr r) 8 8 then wrFld a 0 8 (rdFld s a 0 8 + 1) s
    else
      let s := rsq a 8 (wrFld a 0 8 0 s)
      fireSeq 198 0 (oEnt 3 0 r) oNone (seqOf s a) s) s

/-! ### The Lumber list (R410) -/

/-- An entry for a retired resource (Table 10.8), unless the list is full: then false, with EV285. -/
def addLumber (kind cause loc aux : Nat) (s : State) : Bool × State :=
  if s.flash.lumber.length ≥ 4096 then (false, fire 285 1 oNone s)
  else
    let e : Word × Word := (mkWord [(0, 4, kind), (4, 4, cause), (8, 36, loc), (44, 16, aux)], s.time.ft)
    let s := { s with flash := { s.flash with lumber := s.flash.lumber ++ [e] } }
    (true, if s.flash.lumber.length = 4096 then fire 285 0 oNone s else s)

/-- Spare rows of an SRAM bank (layer, slice) in use: those on the Lumber list and those being copied (R403). -/
def rowsUsed (s : State) (layer slice : Nat) : Nat :=
  (s.flash.lumber.filter fun e => fld e.1 0 4 = 2 && fld e.1 8 2 = layer && fld e.1 10 5 = slice).length +
    (s.prot.rows.filter fun r => r.2.1 % 4 = layer && r.2.1 / 4 % 32 = slice).length

/-- A row spare starts (R403): the first free spare row of the bank takes a copy of the word's row; with none left EV178. `loc` is layer
[1:0], slice [6:2], row [15:7]; `cause` as in Table 10.8. -/
def startRow (unit loc cause : Nat) (s : State) : Bool × State :=
  let layer := loc % 4
  if rowsUsed s layer (loc / 4 % 32) ≥ 8 then (false, fire (178 + 4 * layer) 1 (oVal loc) s)
  else (true, { s with prot := { s.prot with rows := s.prot.rows ++ [(unit, loc % 65536, cause)] } })

/-! ### Repeated corrections (R401 to R403) -/

/-- Units whose corrections the device makes and tracks (R401). -/
def tracked (s : State) (x : Find) : Bool :=
  x.unit ≤ 6 || (x.unit ≥ 8 && x.kind ≠ 6 && (List.range 16).any fun n => rdBit s (aDpIset n) 0 && rdBit s (aDpIset n) 1 && rdBit s (aDpIset n) (6 + (x.unit - 8)))

/-- The hour of FT, in which watch windows are counted. -/
def hourNow (s : State) : Nat := s.time.ft.toNat / 3600000000000

/-- The entry that a word not tracked displaces from a full tracker of 32 entries: the COUNT entry with the lowest count, the oldest on ties,
else the WATCH entry that expires first. -/
def displaced (l : List RepEnt) : List RepEnt :=
  if l.length < 32 then l
  else
    let cs := l.filter fun e => e.watch.isNone
    if cs.isEmpty then
      let m := l.foldl (fun m e => min m (e.watch.getD 0)) (2 ^ 64)
      match takeFirst (fun (e : RepEnt) => e.watch = some m) l with
      | some (_, r) => r
      | none => l
    else
      let m := cs.foldl (fun m e => min m e.count) (2 ^ 64)
      match takeFirst (fun (e : RepEnt) => e.watch.isNone && e.count = m) l with
      | some (_, r) => r
      | none => l

/-- What a tracker answers for a correction: 0 counted, 1 a correct-and-write is due, 2 the word is hard; and the tracker after it. -/
def track (s : State) (x : Find) (l : List RepEnt) : Nat × List RepEnt :=
  let mine := fun (e : RepEnt) => e.kind = x.kind && e.addr = x.addr
  let watch := some (hourNow s + rdFld s aEcRepctl 8 8)
  match l.find? mine with
  | some e =>
    if e.watch.isSome then (2, l)
    else if x.scr || e.count + 1 ≥ rdFld s aEcRepctl 0 4 then
      (1, updFirst mine (fun e => { e with count := e.count + 1, watch := watch }) l)
    else (0, updFirst mine (fun e => { e with count := e.count + 1 }) l)
  | none => (if x.scr then 1 else 0, displaced l ++ [⟨x.kind, x.addr, 1, if x.scr then watch else none⟩])

/-- The row of an SRAM-stack word, LOC of Table 10.8. For a QD48-C1 way named by its place in the cache (KIND 0x1) the manual gives the slice alone:
layer 2 or 3 and the row are free values (log entry 106). -/
def sramRow (x : Find) (s : State) : Nat × State :=
  if x.kind = 2 then (x.addr, s)
  else
    let y := drawFree s
    let v := (Config.freeWord y.1).toNat
    (2 + v % 2 + x.addr % 32 * 4 + v / 2 % 512 * 128, y.2)

/-- A hard word (R403): its event, and in the directory, host filter, tag and line arrays a row spare when AUTOSP = 1; with AUTOSP = 0 the CAUSE of
EV178 + 4ℓ is not stated, and is a free value (log entry 106). -/
def hardWord (x : Find) (s : State) : State :=
  if x.unit ≥ 8 then fire (66 + 4 * (x.unit - 8)) 2 (oVal x.addr) s
  else if x.kind = 2 || (x.unit = 6 && !isH1 s) then
    let r := sramRow x s
    if rdBit r.2 aEcCtl 3 then (startRow x.unit r.1 1 r.2).2
    else
      let y := drawFree r.2
      fire (178 + 4 * (r.1 % 4)) ((Config.freeWord y.1).toNat % 65536) (oVal r.1) y.2
  else if (x.unit = 4 || x.unit = 6) && isH1 s then fire (145 + 8 * (findPc x % 4)) 0 (oVal (findAddr x)) s
  else s

/-- Corrections of a pseudo-channel in the present hour of FT; beyond EC_PCTH they raise EV146 + 8s once (Table 10.6). The hours begin at multiples of an
hour of FT (DESIGN CHOICE, log entry 124). -/
def pcHit (x : Find) (s : State) : State :=
  if !(isH1 s && (x.unit = 4 || (x.unit = 6 && x.kind = 1))) then s
  else
    let g := findPc x
    let h := hourNow s
    let old := mgetD (0, 0) s.prot.pcs g
    let n := if old.1 = h then old.2 + 1 else 1
    let s := { s with prot := { s.prot with pcs := mset s.prot.pcs g (h, n) } }
    let th := rdFld s aEcPcth 0 16
    if th ≠ 0 ∧ n = th + 1 then fire (146 + 8 * (g % 4)) 0 (oVal g) s else s

/-- A corrected code word (R392 to R403). `page` is LA[47:12] of the own line it belongs to, where it holds one. -/
def corrected (x : Find) (page : Option Nat) (s : State) : State :=
  let s := count (aEcCcnt x.unit) 1 s
  let t := if tracked s x then track s x (mgetD [] s.prot.reps x.unit) else (0, mgetD [] s.prot.reps x.unit)
  let s := { s with prot := { s.prot with reps := mput [] s.prot.reps x.unit t.2 } }
  let s := if t.1 = 1 ∧ x.scr = false then { s with prot := { s.prot with fixes := s.prot.fixes ++ [(x.unit, x.kind, x.addr)] } } else s
  let s := ecEntry x (if t.1 = 2 then 2 else if t.1 = 1 ∧ x.scr = false then 1 else 0) s
  let s := match page with
    | some p => watchHit p s
    | none => s
  let s := pcHit x (bucketHit x s)
  if t.1 = 2 then hardWord x s else s

/-- An uncorrectable code word counted and logged with result `res` (R392, R399). -/
def uncorrectable (x : Find) (res : Nat) (s : State) : State := ecEntry x res (count (aEcUcnt x.unit) 1 s)

end Sys2Proof.Machine
end

