-- ==== Sys2Proof/Machine/Sealing.lean ====
section
/-! DEFINITION. Sealing (11): where granules and metadata lie, seal halt, counter blocks and the integrity tree in the seal cache, sealing
and judging a granule. -/

namespace Sys2Proof.Machine

/-! ### Places (R65, R66) -/

/-- The ports of interleave set `n`, by index (R65). -/
def setPorts (s : State) (n : Nat) : List Nat := setBits 8 (fld (rd s (aDpIset n)) 6 8)

/-- The interleave granule of set `n` in bytes (Table 02.3). -/
def setGran (s : State) (n : Nat) : Nat := match fld (rd s (aDpIset n)) 2 2 with
  | 0 => 64
  | 1 => 256
  | _ => 4096

/-- The size of set `n` in bytes. -/
def setSize (s : State) (n : Nat) : Nat := fld (rd s (aDpIset n)) 32 13 * 2 ^ 36

/-- The first device address of set `n` on each of its ports. -/
def setDbase (s : State) (n : Nat) : Nat := rdFld s (aDpIset n + 8) 0 22 * 2 ^ 30

/-- The local address at which set `n` begins. -/
def setLbase (s : State) (n : Nat) : Nat := fld (rd s (aDpIset n)) 16 12 * 2 ^ 36

/-- The port and device address of offset `o` in set `n` (R65). -/
def dataPlace (s : State) (n o : Nat) : Nat × Nat :=
  let ps := setPorts s n
  let g := setGran s n
  (ps.getD (o / g % ps.length) 0, setDbase s n + o / (g * ps.length) * g + o % g)

/-- The port and device address of carve-space offset `c` of set `n` (R66). -/
def carvePlace (s : State) (n c : Nat) : Nat × Nat :=
  let ps := setPorts s n
  (ps.getD (c / 64 % ps.length) 0, setDbase s n + setSize s n / ps.length + c / (64 * ps.length) * 64 + c % 64)

/-- The carve offset of the MAC of the seal granule at set offset `o` (Table 02.4). -/
def macCarve (o : Nat) : Nat := 8 * (o / 256)

/-- The carve offset of the counter block of set offset `o`, in a set of size `d` (Table 02.4). -/
def ctrCarve (d o : Nat) : Nat := d / 32 + 64 * (o / 16384)

/-- Where the Strong check region begins, in a set of size `d` (Table 02.4). -/
def partsCarve (d : Nat) : Nat := d / 32 + d / 256 + d / 4096

/-- The carve offset of check part `k` of granule `j` of a Strong set of size `d` (R388). -/
def partCarve (d j k : Nat) : Nat := partsCarve d + 256 * (j / 16) + 64 * ((k + 1) % 4) + 4 * (j % 16)

/-- The nodes of tree level `j` for a home limit of `l` bytes (R431). -/
def nodesAt (l j : Nat) : Nat := (l + 2 ^ (14 + 3 * j) - 1) / 2 ^ (14 + 3 * j)

/-- B_k of R431. -/
def treeB (l k : Nat) : Nat := 64 * ((List.range (k - 1)).foldl (fun n j => n + nodesAt l (j + 1)) 0)

/-- The offset of a tree node in the tree region: its primary at B_k, its mirror at M_k (R431). -/
def nodeOffset (l level index : Nat) (mirror : Bool) : Nat :=
  (if mirror then treeB l 12 + (treeB l level - treeB l 2) else treeB l level) + 64 * index

/-- The set and spare page to which line `i` of page LA[47:12] = `page` has moved (R413). -/
def movedTo (s : State) (page i : Nat) : Option (Nat × Nat) :=
  match mget s.flash.pages page with
  | some x => some x
  | none => match s.prot.moving with
    | some (p, set, spare, n) => if p = page ∧ i < n then some (set, spare) else none
    | none => none

/-- Where line `i` of spare page `spare` of set `n` lies (Table 02.4). -/
def sparePlace (s : State) (n spare i : Nat) : Nat × Nat :=
  let d := setSize s n
  carvePlace s n (d / 32 + d / 256 + 4096 * spare + 64 * i)

/-- Where line `k` of granule LA[47:8] = `g` lies. -/
def linePlace (s : State) (g k : Nat) : Nat × Nat :=
  match movedTo s (g / 16) (4 * (g % 16) + k) with
  | some (n, spare) => sparePlace s n spare (4 * (g % 16) + k)
  | none => match isetOf s (4 * g) with
    | none => (0, 0)
    | some n => dataPlace s n (256 * g + 64 * k - setLbase s n)

/-- Where the MAC of granule `g` lies. -/
def macPlace (s : State) (g : Nat) : Nat × Nat :=
  match isetOf s (4 * g) with
  | none => (0, 0)
  | some n => carvePlace s n (macCarve (256 * g - setLbase s n))

/-- Where check part `k` of granule `g` of a Strong set lies. -/
def partPlace (s : State) (g k : Nat) : Nat × Nat :=
  match isetOf s (4 * g) with
  | none => (0, 0)
  | some n => carvePlace s n (partCarve (setSize s n) ((256 * g - setLbase s n) / 256) k)

/-- Where a metadata block lies: a counter block with its set, a tree node in the set whose range starts at LA 0 (R67, R431). -/
def metaPlace (s : State) (level index : Nat) (mirror : Bool) : Nat × Nat :=
  match isetOf s (if level = 0 then 256 * index else 0) with
  | none => (0, 0)
  | some n =>
    let d := setSize s n
    if level = 0 then carvePlace s n (ctrCarve d (16384 * index - setLbase s n))
    else
      let t := partsCarve d + if rdBit s (aDpIset n) 1 then d / 16 else 0
      carvePlace s n (t + nodeOffset (rdFld s aDrHomelim 0 13 * 2 ^ 36) level index mirror)

/-- The cellar port that an own line LA[47:6] = `la` lies on. -/
def cellarPort (s : State) (la : Nat) : Nat := (linePlace s (la / 4) (la % 4)).1

/-- An own line lies in a Strong set. -/
def isStrong (s : State) (la : Nat) : Bool :=
  match isetOf s la with
  | some n => rdBit s (aDpIset n) 1
  | none => false

/-- A cellar command to the expander on port `d`, presented by its seal engine cluster (Table 06.5). -/
def cellCmd (d tc epoch : Nat) (c : CellCmd) (s : State) : State := enqueue (68 + d) ⟨40 + d, tc, epoch, .cell c, [], 0, 0, 0, false⟩ s

/-- A metadata block read (DP_CNT6). -/
def readMeta (level index : Nat) (mirror : Bool) (tc epoch : Nat) (s : State) : State :=
  let p := metaPlace s level index mirror
  count (aDpCnt p.1 6) 1 (cellCmd p.1 tc epoch (.rdMeta p.2 level index) s)

/-- A metadata block written. -/
def writeMeta_ (level index : Nat) (mirror : Bool) (bits : LineBits) (s : State) : State :=
  let p := metaPlace s level index mirror
  cellCmd p.1 7 (epochNow s) (.wrMeta p.2 level index bits) s

/-- A port whose shares are not read: failed, or being rebuilt after its return (R391). -/
def portLost (s : State) (d : Nat) : Bool :=
  rdBit s (aDpStat d) 9 || s.bg.any fun t => match t.kind with | .strongRebuild p => p.val = d | _ => false

/-- The reads of a granule: its four lines, its MAC, and in a Strong set its check parts (R389, Table 06.8); a lost port is not read. -/
def readGranule (g tc epoch : Nat) (s : State) : State :=
  let ask := fun (n : Nat) (p : Nat × Nat) (c : CellCmd) (s : State) =>
    if portLost s p.1 then s else count (aDpCnt p.1 n) 1 (cellCmd p.1 tc epoch c s)
  let s := (List.range 4).foldl (fun s k => let p := linePlace s g k; ask 0 p (.rdLine p.2 g k) s) s
  let m := macPlace s g
  let s := ask 6 m (.rdMac m.2 g) s
  if isStrong s (4 * g) then (List.range 4).foldl (fun s k => let p := partPlace s g k; ask 6 p (.rdPart p.2 g k) s) s else s

/-! ### Seal halt (R445) -/

/-- What seal halt erases: data keys, the tree key, link keys and IDE keys. -/
def eraseKeys (s : State) : State :=
  let ports := s.ports.heads.map fun e => (e.1, { e.2 with ideMem := 0, ideIo := 0 })
  { s with sl := { s.sl with keys := [], tree := 0 }, links := s.links.map (fun e => (e.1, { e.2 with key := none })),
           ports := { s.ports with heads := ports } }

/-- Seal halt with a cause of SL_HALT, an Idior port and LA[47:6]: the event, the Tally record, one halt flit on every ACTIVE Idior port,
the keys erased, the shutdown state dirty (R291). -/
def sealHalt (cause port la : Nat) (s : State) : State :=
  if s.halted.isSome then s
  else
    let o := if cause = 4 ∨ cause = 7 then oPort 2 port else if cause ≤ 3 then oLine (ownLine s la) else oNone
    let s := wr aSlHalt (mkWord [(0, 4, cause), (4, 4, port), (8, 42, la)]) (wr aSlHaltft s.time.ft (wrFld aSlStat 13 1 1 s))
    let s := tallyAuto 34 aSlHalt 224 0 (rd s aSlHalt) o (fire 224 0 o s)
    let s := ((List.range 12).filter (portActive s)).foldl (fun s p => emit (.halt p (lastGood (link s p)) (hubId s) 1) s) s
    let s := eraseKeys s
    markDirty { s with halted := some cause }

/-! ### Blocks and nodes -/

/-- The key of a block of the seal cache: level 0 a counter block, 1 to 11 a tree node. -/
def blkKey (level idx : Nat) : Nat := level * 2 ^ 40 + idx

/-- A field of a block. -/
def bfld (b : LineBits) (lo n : Nat) : Nat := (b.toNat >>> lo) % 2 ^ n

/-- A field of a block set. -/
def bset (b : LineBits) (lo n v : Nat) : LineBits :=
  BitVec.ofNat 512 (b.toNat - bfld b lo n * 2 ^ lo + (v % 2 ^ n) * 2 ^ lo)

/-- The LOST mark (R429). -/
def lostMark : Nat := 2 ^ 56 - 1

/-- A block of the seal cache. -/
def getBlk (s : State) (level idx : Nat) : Option SealBlk := mget s.sl.cache (blkKey level idx)

/-- The counter that the parent of a block holds for it (R428): the root's counters stand in SL_ROOT. -/
def parentCtr (s : State) (level idx : Nat) : Nat :=
  if level = 11 then rdFld s (aSlRoot idx) 0 56
  else match getBlk s (level + 1) (idx / 8) with
    | some b => bfld b.bits (56 * (idx % 8)) 56
    | none => 0

/-- The MAC of a block under its parent's counter (R430). -/
def blkMac (s : State) (level idx ctr : Nat) (bits : LineBits) : Word :=
  Config.cmac s.sl.tree ([BitVec.ofNat 64 (hubId s).toNat, BitVec.ofNat 64 level, BitVec.ofNat 64 idx, BitVec.ofNat 64 ctr] ++
    (List.range 7).map fun k => BitVec.ofNat 64 (bits.toNat >>> (64 * k)))

/-- A block written back less than 2 µs ago (R436). -/
def tooSoon (s : State) (k : Nat) : Bool :=
  match mget s.sl.wrote k with
  | some t => decide (s.time.ft.toNat < t.toNat + 2000)
  | none => false

/-- A block whose parent has been struck and is not held: it is written once the parent's mirror has been read (R443). -/
def orphan (s : State) (level idx : Nat) : Bool :=
  decide (level < 11) && decide (blkKey (level + 1) (idx / 8) ∈ s.sl.struck) && (getBlk s (level + 1) (idx / 8)).isNone

/-- A held block is used: it is the most recently used, and stands in the main array (R435). -/
def touchBlk (level idx : Nat) (s : State) : State :=
  let k := blkKey level idx
  { s with sl := { s.sl with order := s.sl.order.filter (· ≠ k) ++ [k], pins := s.sl.pins.filter (· ≠ k) } }

/-- A block placed in the seal cache as the most recently used. -/
def putBlk (level idx : Nat) (b : SealBlk) (s : State) : State :=
  touchBlk level idx { s with sl := { s.sl with cache := mset s.sl.cache (blkKey level idx) b } }

/-- The counter that a block's parent holds for it set; the parent becomes dirty, a root counter changes on the die (R434). -/
def setCtr (level idx v : Nat) (s : State) : State :=
  if level = 11 then wrFld (aSlRoot idx) 0 56 v s
  else match getBlk s (level + 1) (idx / 8) with
    | some p => putBlk (level + 1) (idx / 8) ⟨bset p.bits (56 * (idx % 8)) 56 v, true⟩ s
    | none => s

/-- A block written to the cellar (R434): its parent's counter rises, its MAC is computed with the new value, levels 2 to 11 are written
twice (R432). Cellar writes of a counter block's granules made so far are covered by it (R437). -/
def writeBlk (level idx : Nat) (s : State) : State :=
  match getBlk s level idx with
  | none => s
  | some b =>
    let c := parentCtr s level idx + 1
    if c > 2 ^ 56 - 2 then sealHalt 6 0 (idx * 8 ^ level * 256) s
    else
      let bits := bset b.bits 448 64 (blkMac s level idx c b.bits).toNat
      let s := setCtr level idx c (putBlk level idx ⟨bits, false⟩ s)
      let k := blkKey level idx
      let s := { s with sl := { s.sl with wrote := mset s.sl.wrote k s.time.ft, due := s.sl.due.filter (· ≠ k) } }
      let s := writeMeta_ level idx false bits s
      let s := if 2 ≤ level then writeMeta_ level idx true bits s else s
      let s := count (aSlCnt 7) 1 s
      if level ≠ 0 then s
      else { s with cel := { s.cel with ops := s.cel.ops.map fun o => if o.written && laOf o.line / 256 = idx then { o with covered := true } else o } }

/-- A dirty block written back now, or once the 2 µs of R436 have passed. -/
def writeBack_ (level idx : Nat) (s : State) : State :=
  match getBlk s level idx with
  | none => s
  | some b =>
    let k := blkKey level idx
    if !b.dirty then s
    else if tooSoon s k || orphan s level idx then (if k ∈ s.sl.due then s else { s with sl := { s.sl with due := s.sl.due ++ [k] } })
    else writeBlk level idx s

/-- Every dirty counter block written back: what a persist step asks of the seal cache (R437). -/
def persistBlocks (s : State) : State :=
  (s.sl.cache.filter fun e => e.1 < 2 ^ 40 && e.2.dirty).foldl (fun s e => writeBack_ 0 e.1 s) s

/-- Every dirty block and node written back, from the counter blocks upward (R437: the flushes of R290 and R294), or once the 2 µs of R436 have passed. -/
def flushBlocks (s : State) : State :=
  (List.range 12).foldl (fun s level =>
    (s.sl.cache.filter fun e => e.1 / 2 ^ 40 = level && e.2.dirty).foldl (fun s e => writeBack_ level (e.1 % 2 ^ 40) s) s) s

/-- A block that may leave the main array (R435, R436): no child of it is held, it is not being re-sealed, and it is not dirty within 2 µs of its last
write, nor while its parent is not held. -/
def mayLeave (s : State) (k : Nat) : Bool :=
  let level := k / 2 ^ 40
  let idx := k % 2 ^ 40
  (level ≠ 0 || !s.sl.reseals.any fun r => r.block = idx) &&
  (level = 0 || !(List.range 8).any fun i => (getBlk s (level - 1) (8 * idx + i)).isSome) &&
    match mget s.sl.cache k with
    | some b => !(b.dirty && (tooSoon s k || orphan s level idx))
    | none => false

/-- Blocks that `f` names leave the seal cache. -/
def dropBlks (f : Nat → Bool) (s : State) : State :=
  { s with sl := { s.sl with cache := s.sl.cache.filter (fun e => !f e.1), order := s.sl.order.filter (fun k => !f k), pins := s.sl.pins.filter fun k => !f k } }

/-- The pin buffer lets go of the blocks whose 2 µs have passed (R435). -/
def dropPins (s : State) : State :=
  let out := s.sl.pins.filter fun k => !tooSoon s k && mayLeave s k
  if out.isEmpty then s else dropBlks (fun k => out.contains k) s

/-- A block leaves the main array, written back if dirty; one written within the last 2 µs stays in the pin buffer (R435). -/
def evictBlk (k : Nat) (s : State) : State :=
  let s := match mget s.sl.cache k with
    | some x => if x.dirty then writeBlk (k / 2 ^ 40) (k % 2 ^ 40) s else s
    | none => s
  if tooSoon s k then { s with sl := { s.sl with pins := s.sl.pins ++ [k] } } else dropBlks (fun j => j = k) s

/-- Room for one block in the main array: the least recently used blocks that may leave make it. -/
def makeRoom : Nat → State → State
  | 0, s => s
  | n + 1, s =>
    if s.sl.cache.length - s.sl.pins.length < 245760 then s
    else match s.sl.order.find? fun k => mayLeave s k && decide (k ∉ s.sl.pins) with
      | none => s
      | some k => makeRoom n (evictBlk k s)

/-- A block enters the seal cache; in a full one the least recently used blocks that may leave make room (which set a block maps to is not stated: the
model keeps one order over the whole array, log entry 12). -/
def addBlk (level idx : Nat) (b : SealBlk) (s : State) : State := putBlk level idx b (makeRoom 16 (dropPins s))

/-! ### The chain above a counter block (R429, R433, R442, R443) -/

/-- What is found above and in a counter block: verified and held, below a LOST mark at a level, an integrity failure, or not yet read. -/
inductive Chain where
  | ok | lost (level : Nat) | halt (cause : Nat) | missing
  deriving DecidableEq, Repr

/-- A LOST mark set for a block (R443), with EV227 and, for a counter block, EV225. -/
def markLost (level idx : Nat) (s : State) : State :=
  let o := oRange (idx * 8 ^ level) (14 + 3 * level) level
  let s := if level = 0 then fire 225 0 o s else s
  fire 227 0 o (setCtr level idx lostMark s)

/-- The copy of a block among those that were read. -/
def copyOf (blocks : List MetaBlock) (level idx : Nat) (mirror : Bool) : Option MetaBlock :=
  blocks.find? fun m => m.level = level && m.index = idx && m.mirror = mirror

/-- The MAC of a copy read clean is right under the parent's counter (R433). -/
def copyGood (s : State) (level idx : Nat) (m : MetaBlock) : Bool :=
  !m.poisoned && bfld m.bits 448 64 = (blkMac s level idx (parentCtr s level idx) m.bits).toNat

/-- Block `j` lies at or below block `idx` of a level. -/
def blkBelow (level idx j : Nat) : Bool := decide (j / 2 ^ 40 ≤ level) && decide (j % 2 ^ 40 / 8 ^ (level - j / 2 ^ 40) = idx)

/-- A LOST mark for a block, with all that is held at it and below it gone. -/
def loseBlk (level idx : Nat) (s : State) : State := dropBlks (blkBelow level idx) (markLost level idx s)

/-- A node whose mirror was to be read has been judged. -/
def unstruck (level idx : Nat) (s : State) : State := { s with sl := { s.sl with struck := s.sl.struck.filter (· ≠ blkKey level idx) } }

/-- A block that a memory error has struck, its primary copy or, dirty, in the seal cache (R443): a node of levels 2 to 11 is taken from its mirror, once
that has been read. -/
def fromMirror (blocks : List MetaBlock) (level idx : Nat) (s : State) : Chain × State :=
  if level < 2 then (.lost level, loseBlk level idx s)
  else match copyOf blocks level idx true with
    | none => (.missing, s)
    | some m =>
      if copyGood s level idx m then
        let s := fire 226 0 (oRange (idx * 8 ^ level) (14 + 3 * level) level) (addBlk level idx ⟨m.bits, false⟩ (unstruck level idx s))
        (.ok, writeMeta_ level idx false m.bits s)
      else (.lost level, loseBlk level idx (unstruck level idx s))

/-- One level of the chain, from the block's copies among those that were read. A mirror is read only where the primary was struck. -/
def chainStep (blocks : List MetaBlock) (b : Nat) (x : Chain × State) (level : Nat) : Chain × State :=
  let s := x.2
  let idx := b / 8 ^ level
  if x.1 ≠ .ok then x
  else if (getBlk s level idx).isSome then (.ok, touchBlk level idx s)
  else
    let c := parentCtr s level idx
    if c = 0 then (.ok, addBlk level idx ⟨0, false⟩ s)
    else if c = lostMark then (.lost level, s)
    else if blkKey level idx ∈ s.sl.struck then fromMirror blocks level idx s
    else match copyOf blocks level idx false with
      | none => if (copyOf blocks level idx true).isSome then fromMirror blocks level idx s else (.missing, s)
      | some m =>
        if copyGood s level idx m then (.ok, addBlk level idx ⟨m.bits, false⟩ s)
        else if m.poisoned then fromMirror blocks level idx s
        else (.halt (if level = 0 then 2 else 3), s)

/-- The chain of block `b` resolved from the seal cache, the root and the blocks read (R433). -/
def chain (blocks : List MetaBlock) (b : Nat) (s : State) : Chain × State :=
  [11, 10, 9, 8, 7, 6, 5, 4, 3, 2, 1, 0].foldl (chainStep blocks b) (.ok, s)

/-- The blocks of the chain that have to be read (R260, R433): the ancestors missing from the seal cache, unless a parent held shows that the
block was never written or is lost. -/
def toRead (s : State) (b : Nat) : List (Nat × Nat) :=
  ([11, 10, 9, 8, 7, 6, 5, 4, 3, 2, 1, 0].foldl (fun (x : Bool × List (Nat × Nat)) level =>
    let idx := b / 8 ^ level
    if x.1 || (getBlk s level idx).isSome then x
    else
      let held := level = 11 || (getBlk s (level + 1) (idx / 8)).isSome
      if held && (parentCtr s level idx = 0 || parentCtr s level idx = lostMark) then (true, x.2)
      else (false, x.2 ++ [(level, idx)])) (false, [])).2

/-- The path below a LOST mark at `level` made anew for a write to block `b` (R444). -/
def recreate (level b : Nat) (s : State) : State :=
  let all := (List.range 8).foldl (fun (x : LineBits) k => bset x (56 * k) 56 lostMark) 0
  let s := setCtr level (b / 8 ^ level) 0 s
  (List.range level).reverse.foldl (fun s j =>
    let node := b / 8 ^ (j + 1)
    addBlk (j + 1) node ⟨bset all (56 * (b / 8 ^ j % 8)) 56 0, true⟩ s) s

/-! ### Granules (R422 to R427) -/

/-- A new major counter (R427); the source's end is a seal halt, and EV232 is raised when it passes 2^55 (R440). -/
def takeMajor (s : State) : Nat × State :=
  let m := rdFld s aSlMajsrc 0 56
  if m + 1 > 2 ^ 56 - 2 then (m, sealHalt 5 0 0 s)
  else
    let s := wrFld aSlMajsrc 0 56 (m + 1) s
    (m, if m = 2 ^ 55 then fire 232 0 oNone s else s)

/-- The slot and generation under which a block is sealed for an access that found its entry naming `key` (R51): those, or the target's where the
rekey sweep of that entry has passed the block (R456). -/
def blockKey (s : State) (b : Nat) (key : Nat × Nat) : Nat × Nat :=
  match krtOf s b with
  | none => key
  | some (n, w) =>
    let c := rd s aSlRkctl
    if bit c 31 && fld c 0 12 = n && decide (b < rdFld s aSlRkptr 0 34) && decide ((fld w 3 10, fld w 13 8) = key) then (fld c 12 10, fld c 22 8) else key

/-- The IV of a granule (Table 11.2). -/
def granuleIv (s : State) (slot major i minor : Nat) : BitVec 96 :=
  BitVec.ofNat 96 ((hubId s).toNat * 2 ^ 84 + slot % 1024 * 2 ^ 74 + major * 2 ^ 18 + i * 2 ^ 12 + minor * 2 ^ 6)

/-- The additional data of granule LA[47:8] = `g` (R423). -/
def granuleAad (s : State) (g pm gen : Nat) : BitVec 128 :=
  BitVec.ofNat 128 (g + pm * 2 ^ 40 + ((hubId s).toNat + gen * 2 ^ 12) * 2 ^ 64)

/-- The bits of the lines of a granule that a mask names. -/
def lineMask (pm : Nat) : Nat := (List.range 4).foldl (fun m k => if pm.testBit k then m ||| ((2 ^ 512 - 1) <<< (512 * k)) else m) 0

/-- The granule with the lines that a mask names taken as zero bytes (R390, R423). -/
def clearLines (x : BitVec 2048) (pm : Nat) : BitVec 2048 := BitVec.ofNat 2048 (x.toNat ^^^ (x.toNat &&& lineMask pm))

/-- The key of a slot. -/
def slotKey (s : State) (slot : Nat) : BitVec 256 := mgetD 0 s.sl.keys slot

/-- The tag of a ciphertext. -/
def granuleTag (s : State) (g slot gen major minor pm : Nat) (cipher : BitVec 2048) : Word :=
  Config.gcmTag (slotKey s slot) (granuleIv s slot major (g % 64) minor) (granuleAad s g pm gen) (clearLines cipher pm)

/-- Encryption or decryption of a granule. -/
def granuleCrypt (s : State) (g slot major minor : Nat) (x : BitVec 2048) : BitVec 2048 :=
  x ^^^ Config.gcmStream (slotKey s slot) (granuleIv s slot major (g % 64) minor)

/-- The check bytes of a Strong granule (R390); none elsewhere. -/
def strongCheck (s : State) (g pm : Nat) (cipher : BitVec 2048) : BitVec 128 :=
  if !isStrong s (4 * g) then 0
  else
    let c := clearLines cipher pm
    BitVec.ofNat 128 ((List.range 4).foldl (fun n k => n + (Config.strongPart (BitVec.ofNat 512 (c.toNat >>> (512 * k)))).toNat * 2 ^ (32 * k)) 0)

/-- A granule sealed and written to its expanders, in a class and epoch: its lines, its MAC, and in a Strong set its check parts (R390); a failed port is left out (R391). -/
def writeCipher (tc epoch g slot gen major minor pm : Nat) (plain : BitVec 2048) (s : State) : State :=
  let c := clearLines (granuleCrypt s g slot major minor plain) pm
  let mac := granuleTag s g slot gen major minor pm c
  let check := strongCheck s g pm c
  let put := fun (p : Nat × Nat) (x : CellCmd) (s : State) => if rdBit s (aDpStat p.1) 9 then s else cellCmd p.1 tc epoch x s
  let s := (List.range 4).foldl (fun s k =>
    let p := linePlace s g k
    let s := if rdBit s (aDpStat p.1) 9 then s else count (aDpCnt p.1 1) 1 s
    put p (.wrLine p.2 g k (BitVec.ofNat 512 (c.toNat >>> (512 * k))) (pm.testBit k)) s) (count (aSlCnt 0) 1 s)
  let m := macPlace s g
  let s := put m (.wrMac m.2 g mac) s
  if !isStrong s (4 * g) then s
  else (List.range 4).foldl (fun s k =>
    let p := partPlace s g k
    put p (.wrPart p.2 g k (BitVec.ofNat 32 (check.toNat >>> (32 * k)))) s) s

/-- The minor counter of granule `i` of a counter block. -/
def minorOf (bits : LineBits) (i : Nat) : Nat := bfld bits (56 + 6 * i) 6

/-- A read's judgement (Table 11.6): the plaintext with the lines delivered poisoned; whether it is a memory error, and of a torn write; whether the
Strong code corrected damage, a line the device itself stored poisoned not counted (R387, R441); and whether a tag differed. None is an integrity
failure. -/
structure Judged where
  plain : BitVec 2048
  pm : Nat
  memErr : Bool
  torn : Bool
  restored : Bool
  differs : Bool := false
  deriving DecidableEq, Repr

/-- A granule read judged under a slot, generation and counters (R389, R441). -/
def judge (s : State) (r : CellarResp) (slot gen major minor : Nat) (stale : Bool) : Option Judged :=
  let g := r.granule.toNat
  let strong := isStrong s (4 * g)
  let x := if strong then Config.strongDecode r.lines r.parts r.poisoned else (r.lines, r.poisoned, false, false)
  let rm1 := r.poisoned.toNat
  let rm2 := x.2.1.toNat
  let tagOk := fun (pm : Nat) => decide (granuleTag s g slot gen major minor pm x.1 = r.mac)
  let plain := granuleCrypt s g slot major minor x.1
  if x.2.2.2 || r.macPoisoned then some ⟨plain, 15, true, false, false, false⟩
  else if tagOk rm1 then some ⟨plain, rm1, false, false, x.2.2.1 && decide (rm1 = 0), false⟩
  else if rm2 ≠ rm1 && tagOk rm2 then some ⟨plain, rm2, false, false, x.2.2.1, false⟩
  else if (if strong then rm2 else rm1) ≠ 0 then some ⟨plain, 15, true, false, false, true⟩
  else if stale then some ⟨plain, 15, true, true, false, true⟩
  else none

end Sys2Proof.Machine
end

