-- ==== Sys2Proof/Machine/Agents.lean ====
section
/-! DEFINITION. Agent-mode ports (09 R366 to R372, 07 R271), the atomic aperture (04 R163 to R166) and fences (07 R274 to R286). -/

namespace Sys2Proof.Machine

/-! ### I/O agents -/

/-- The placement of an agent's request (R372): the entry of its steering tag, or the default; STASH that names this hub acts as ALLOC (R167). -/
def placement (s : State) (p : Nat) (tph : Option (BitVec 8)) : Place :=
  let w := match tph with
    | some t => rd s (aHpPlt p t.toNat)
    | none => rd s (aHpPldef p)
  let h : HubId := BitVec.ofNat 12 (fld w 2 12)
  if fld w 0 2 = 1 ∨ (fld w 0 2 = 2 ∧ h = hubId s) then .alloc else if fld w 0 2 = 2 then .stash h else .noalloc

/-- Port `p` takes agent requests. -/
def agentServes (s : State) (p : Nat) : Bool := portServes s p && !hostMode s p

/-- An earlier posted write of the port has not completed (R271). -/
def earlierWrite (s : State) (p id : Nat) : Bool := s.ports.outst.any fun e => e.2 = p && decide (e.1 < id)

/-- An accepted agent request is sent to its home, or waits for the port's earlier posted writes; a relaxed write does not. -/
def agentSend (d : Demand) (relaxed : Bool) (s : State) : State :=
  if relaxed || !earlierWrite s d.port d.id then issue d s
  else { s with ports := { s.ports with agentQ := mset s.ports.agentQ d.port (mgetD [] s.ports.agentQ d.port ++ [(d, relaxed)]) } }

/-- An agent request passes ingress decode: its number, and the state after it. -/
def agentArrive (i : Instr) (p : Nat) (write : Bool) (s : State) : Nat × State :=
  let x := arrive i p write (fun s => (false, s)) s
  (x.1, x.2.2)

/-- An agent demand before acceptance. -/
def agentDemand (p : Nat) (r : HostReq) (line : LineAddr) (tc : Nat) (kind : DKind) (w : Option HostWr) (pl : Place) : Demand :=
  ⟨.agent, p, r.tag, r.hpa, line, kind, w, false, pl, tc, 0, [], false, 0, 0, none⟩

/-- Why an agent request is refused (R49, R367, R463). -/
def agentRefused (s : State) (p : Nat) (hpa : Hpa) : Bool := p ∈ s.ports.agentOff || (winOf s p hpa).isNone

/-- The demands of an agent read, one a line (R367), each with its cell. -/
def agentReadLines (r : HostReq) (l : LineAddr) (tc : Nat) (pl : Place) (e id : Nat) (acc : Word) (cs : List Nat) : List Demand :=
  let kind := match pl with
    | .alloc => DKind.rdS
    | _ => DKind.cur
  (List.range cs.length).map fun i =>
    { agentDemand r.port r (l + BitVec.ofNat 54 i) tc kind none pl with epoch := e, id := id, acc := acc, cells := [cs.getD i 0] }

/-- The offset in the management window that bus address `hpa` reaches at port `p` (R371): the port's aperture slots, then its doorbells. -/
def agentRegion (s : State) (p : Nat) (hpa : Hpa) : Option Nat :=
  let m := rd s (aHpMbar p)
  if bit m 0 && fld m 19 33 = hpa.toNat / 2 ^ 19 then
    let x := hpa.toNat % 2 ^ 19
    some ((if x < 2 ^ 18 then 0x800000 + x else 0xC00000 + (x - 2 ^ 18)) + 0x40000 * p)
  else none

/-- Port `p` reaches its aperture and doorbell slots (R371): a host always, an agent while HP_MBAR.EN = 1. -/
def slotsReached (s : State) (p : Nat) : Bool := hostMode s p || rdBit s (aHpMbar p) 0

/-- An agent read of memory (R367, R103). One that was held is placed by HP_PLT and HP_PLDEF as they stand when it is tried again (DESIGN CHOICE, log
entry 121). -/
def agentRead (r : HostReq) (lines : Nat) (tph : Option (BitVec 8)) (s : State) : State :=
  let p : Nat := r.port
  if !agentServes s p then gone (.agentMemoryRead r lines tph) s
  else match winOf s p r.hpa with
    | none => portAnswer p (.cplData r.tag (lineOf r.hpa.toNat) Data.poison) (refuseAt p 0 (oPort 0 p) (gone (.agentMemoryRead r lines tph) s))
    | some (w0, w1) =>
      let l := lineOf (winFpa w0 w1 r.hpa.toNat)
      if p ∈ s.ports.agentOff then
        portAnswer p (.cplData r.tag l Data.poison) (refuseAt p 0 (oPort 0 p) (gone (.agentMemoryRead r lines tph) s))
      else
        let n := max 1 (min lines 64)
        let pl := placement s p tph
        let i := Instr.agentMemoryRead r lines tph
        let x := agentArrive i p false s
        admission i p (fld w0 2 3) l n none (fun e cs s =>
          (agentReadLines r l (fld w0 2 3) pl e x.1 s.time.ft cs).foldl (fun s d => agentSend d false s) (count (aHpCnt p 0) 1 (accepted i s))) x.2

/-- The words of an agent interrupt record (Table 13.4): offset and length, then the data, little-endian. -/
def irqWords (off : Nat) (data : List (BitVec 8)) : List Word :=
  let n := data.foldr (fun b a => a * 256 + b.toNat) 0
  mkWord [(0, 12, off), (12, 7, data.length)] :: (List.range ((data.length + 7) / 8)).map fun i => BitVec.ofNat 64 (n / 2 ^ (64 * i))

/-- The records of one agent write to its interrupt page: one for each 64 bytes, in address order. -/
def irqRecords (p q : Nat) : Nat → Nat → List (BitVec 8) → State → State
  | 0, _, _, s => s
  | k + 1, off, data, s =>
    if data.isEmpty then s
    else irqRecords p q k (off + 64) (data.drop 64) (post q 6 p (irqWords off (data.take 64)) s)

/-- AGENT_INTERRUPT_WRITE (R370): while EN = 1 and the page matches, a record and EV002 + 4p; with EN = 0 handled as in R49. -/
def opAgentInterruptWrite (p : HPort) (hpa : Hpa) (data : List (BitVec 8)) (s : State) : State :=
  if !agentServes s p then s
  else if !rdBit s (aHpAgirq p) 0 || rdFld s (aHpAgirq p) 16 40 ≠ hpa.toNat / 4096 || decide (p.val ∈ s.ports.agentOff) then
    refuseAt p 0 (oPort 0 p) s
  else
    let q := rdFld s (aHpAgirq p) 1 13
    fire (2 + 4 * p) 0 (oPort 0 p) (irqRecords p q (data.length / 64 + 1) (hpa.toNat % 4096) data s)

/-- The bytes that a write's mask names, in address order. -/
def maskedBytes (w : HostWr) : List (BitVec 8) :=
  ((List.range 64).filter fun i => w.mask.toNat.testBit i).map fun i => BitVec.ofNat 8 (w.data.bytes.toNat / 2 ^ (8 * i))

/-- An agent's posted write to memory or to its interrupt page (R271, R367): accepted and sent in port order unless Relaxed Ordering is set; a poisoned TLP poisons every word
(R368); through a window with RO = 1 nothing changes (R50). -/
def agentWrite (r : HostReq) (w : HostWr) (ro : Bool) (tph : Option (BitVec 8)) (s : State) : State :=
  let p : Nat := r.port
  let i := Instr.agentPostedWrite r w ro tph
  if !agentServes s p then gone i s
  else if rdBit s (aHpAgirq p) 0 && rdFld s (aHpAgirq p) 16 40 = r.hpa.toNat / 4096 then
    opAgentInterruptWrite r.port r.hpa (maskedBytes w) (gone i s)
  else if p ∈ s.ports.agentOff then refuseAt p 0 (oPort 0 p) (gone i s)
  else match winOf s p r.hpa with
    | none => refuseAt p 0 (oPort 0 p) (gone i s)
    | some (w0, w1) =>
      let w := if w.data.pz = 0 then w else { w with data := { w.data with pz := 0xFF } }
      let l := lineOf (winFpa w0 w1 r.hpa.toNat)
      if bit w0 1 then refuseAt p 2 (oLine l) (gone i s)
      else
        let d := agentDemand p r l (fld w0 2 3) .write (some w) (placement s p tph)
        let x := agentArrive i p true s
        admission i p d.tc l 1 none (fun e cs s =>
          agentSend { d with epoch := e, id := x.1, cells := cs, acc := s.time.ft } ro (count (aHpCnt p 0) 1 (accepted i s))) x.2

/-- AGENT_WRITE_RELEASE (R271): the next waiting request of the port is sent, once every earlier posted write has completed. -/
def opAgentWriteRelease (p : HPort) (s : State) : State :=
  match mgetD [] s.ports.agentQ p with
  | [] => s
  | (d, _) :: rest =>
    if earlierWrite s p d.id then s
    else issue d { s with ports := { s.ports with agentQ := mput [] s.ports.agentQ p rest } }

/-- The atomic that an AtomicOp maps to (Table 09.2): none for an operand size the standard lacks or a misaligned address. -/
def pcieAtom (op : AtomicOp) (size : Nat) (a b : BitVec 128) (off : Nat) : Option Atom :=
  let sz : Option (BitVec 2) := if size = 4 then some 0 else if size = 8 then some 1 else if size = 16 then some 2 else none
  sz.bind fun z =>
    if off % size ≠ 0 then none
    else match op with
      | .fetchAdd => if size = 16 then none else some ⟨0, z, false, BitVec.ofNat 6 off, a, b⟩
      | .swap => if size = 16 then none else some ⟨1, z, false, BitVec.ofNat 6 off, a, b⟩
      | .cas => some ⟨2, z, false, BitVec.ofNat 6 off, a, b⟩

/-- AGENT_ATOMICOP (R369): a home-placed atomic; an operand size or alignment outside Table 09.2 is completed UR (R356). No fence waits for it
(log entry 95). -/
def opAgentAtomicop (r : HostReq) (op : AtomicOp) (size : Nat) (a b : BitVec 128) (s : State) : State :=
  let p : Nat := r.port
  let i := Instr.agentAtomicop r op size a b
  let cpl := fun (x : HostAns) (s : State) => portAnswer p x (gone i s)
  if !agentServes s p then gone i s
  else match pcieAtom op size a b (r.hpa.toNat % 64) with
    | none => cpl (.cplUr r.tag) s
    | some at_ =>
      if p ∈ s.ports.agentOff then cpl (.cplOld r.tag 0 true) (refuseAt p 0 (oPort 0 p) s)
      else match winOf s p r.hpa with
        | none => cpl (.cplOld r.tag 0 true) (refuseAt p 0 (oPort 0 p) s)
        | some (w0, w1) =>
          let l := lineOf (winFpa w0 w1 r.hpa.toNat)
          if bit w0 1 then cpl (.cplOld r.tag 0 true) (refuseAt p 2 (oLine l) s)
          else
            let d := agentDemand p r l (fld w0 2 3) (.atom at_) none .noalloc
            let x := agentArrive i p false s
            admission i p d.tc l 2 none (fun e cs s =>
              agentSend { d with epoch := e, id := x.1, cells := cs, acc := s.time.ft } false (count (aHpCnt p 0) 1 (accepted i s))) x.2

/-- AGENT_PASID_ATS_REQUEST (R368). -/
def opAgentPasidAtsRequest (p : HPort) (tag : BitVec 16) (s : State) : State :=
  if !agentServes s p then s
  else portAnswer p (.cplUr tag) (fire (3 + 4 * p) 2 (oPort 0 p) s)

/-- AGENT_AER_MESSAGE (R378). -/
def opAgentAerMessage (p : HPort) (s : State) : State :=
  if agentServes s p then fire (3 + 4 * p) 1 (oPort 0 p) s else s

/-- CONFIG_COMPLETION (R366): BUSY clears, CS is set, and a read fills HP_CFGD. -/
def opConfigCompletion (p : HPort) (cs : BitVec 3) (data : BitVec 32) (s : State) : State :=
  let w := rd s (aHpCfga p)
  if !bit w 26 then s
  else
    let s := wr (aHpCfga p) (setFld (setBit w 26 false) 27 3 cs.toNat) s
    let s := if cs = 0 ∧ bit w 24 = false then wr (aHpCfgd p) (BitVec.ofNat 64 data.toNat) s else s
    if cs = 0 then s else fire (3 + 4 * p) 3 (oPort 0 p) s

/-- CONFIG_TIMEOUT (R366): CS reads timeout and BUSY clears. -/
def opConfigTimeout (p : HPort) (s : State) : State :=
  let w := rd s (aHpCfga p)
  if !bit w 26 then s
  else fire (3 + 4 * p) 3 (oPort 0 p) (wr (aHpCfga p) (setFld (setBit w 26 false) 27 3 7) s)

/-! ### The atomic aperture -/

/-- The aperture atomic goes to its home, in its window's class. -/
def apertureSend (p slot : Nat) (s : State) : State :=
  match mget s.slots (4096 * p + slot) with
  | none => s
  | some x =>
    let d : Demand := ⟨.slot slot, p, 0, x.hpa, x.line, .atom x.atom, none, false, .noalloc, x.tc, 0, [], false, x.id, 0, none⟩
    admission (.apertureIssue (Fin.ofNat 16 p) (BitVec.ofNat 12 slot)) p x.tc x.line 2 none (fun e cs s =>
      let s := { s with slots := mset s.slots (4096 * p + slot) { x with waiting := false } }
      issue { d with epoch := e, cells := cs, acc := s.time.ft } s) s

/-- Why a descriptor does not start (R163): its CODE, and the event of R49, R50 or R44. -/
def apertureStop (s : State) (p : Nat) (a : Atom) (hpa : Hpa) : Option (Nat × (State → State)) :=
  if a.op.toNat > 5 ∨ a.size = 3 then some (4, id)
  else if hpa.toNat % (4 * 2 ^ a.size.toNat) ≠ 0 then some (3, id)
  else match winOf s p hpa with
    | none => some (2, refuseAt p 0 (oPort 0 p))
    | some (w0, w1) =>
      let l := lineOf (winFpa w0 w1 hpa.toNat)
      if bit w0 1 then some (2, refuseAt p 2 (oLine l))
      else if homeOf l ≠ hubId s ∧ (tkoBuddy s l).isNone ∧ deadWait s (homeOf l) = 0 ∧ hasRoute s (homeOf l) = false then
        some (2, fire 192 1 (oLine l))
      else none

/-- APERTURE_DESCRIPTOR (R163 to R166). -/
def opApertureDescriptor (p : HPort) (slot : BitVec 12) (d : BitVec 512) (s : State) : State :=
  let n := d.toNat
  let key := 4096 * p.val + slot.toNat
  let busy := match mget s.slots key with
    | some x => x.busy
    | none => false
  if !portServes s p then s
  else if popWaits s p then holdAccess p (.bytes (0x800000 + 64 * key) 64 n) s
  else if !slotsReached s p then refuseAt p 0 (oPort 0 p) s
  else if busy then fire (1 + 4 * p) 3 (oPort 0 p) s
  else
    let hpa : Hpa := BitVec.ofNat 52 n
    let w1 := n / 2 ^ 64
    let a : Atom := ⟨BitVec.ofNat 4 w1, BitVec.ofNat 2 (w1 / 16), w1.testBit 6, BitVec.ofNat 6 (hpa.toNat % 64), BitVec.ofNat 128 (n / 2 ^ 128),
      BitVec.ofNat 128 (n / 2 ^ 256)⟩
    let win := winOf s p hpa
    let line := match win with
      | some (w0, w1) => lineOf (winFpa w0 w1 hpa.toNat)
      | none => 0
    let tc := match win with
      | some (w0, _) => fld w0 2 3
      | none => 7
    let id := s.ports.nextId
    let x : Slot := ⟨true, false, 0, false, 0, true, hpa, line, tc, id, a, w1.testBit 7, nfld w1 8 13, nfld w1 21 43⟩
    let s := { s with slots := mset s.slots key x, ports := { s.ports with nextId := id + 1 } }
    match apertureStop s p a hpa with
    | some (c, f) => slotDone p slot.toNat c 0 (f s)
    | none => if earlierWrite s p id then s else apertureSend p slot.toNat s

/-- APERTURE_ISSUE (R166): once every earlier write of the port has completed. -/
def opApertureIssue (p : HPort) (slot : BitVec 12) (s : State) : State :=
  match mget s.slots (4096 * p.val + slot.toNat) with
  | some x => if x.waiting && !earlierWrite s p x.id then apertureSend p slot.toNat s else s
  | none => s

/-! ### Fences -/

/-- Every line that the hub cache, or a miss register, holds in M. -/
def dirtyLines (s : State) : List LineAddr :=
  (s.hc.ways.flatMap fun e => (e.2.st.filter fun x => x.2 = .m).map fun x => lineAt s e.2.addr x.1) ++
    (s.req.mrs.filter fun e => e.2.keepM.isSome).map (·.2.line)

/-- A line cleaned as CLEAN does (Table 05.10) for operation `op`: 0 the maintenance operation, n + 1 fence n. -/
def cleanLine (op : Nat) (s : State) (l : LineAddr) : State :=
  withHosts l 1 (exclHost s l) (opTc s op) (epochNow s) (.clean op) (cleanNow op l) s

/-- Every open merging-buffer entry starts to drain (R202). -/
def drainAll (s : State) : State :=
  { s with hc := { s.hc with mbuf := s.hc.mbuf.map fun e => { e with draining := true } } }

/-- The cellar accesses queued now that write (R282). -/
def queuedWrites (s : State) : List Nat := (s.cel.ops.filter fun o => o.wr.isSome).map (·.id)

/-- A write that has been stored poisoned is not persisted yet. -/
def poisonStored (s : State) : Bool := s.cel.ops.any fun o => o.written && match o.wr with | some x => x.1.pz ≠ 0 | none => false

/-- The mirror messages that the buddy has not acknowledged (R343). -/
def unackedMirrors (s : State) : List Nat := s.mir.sent.map (·.1) ++ s.mir.held.map fun m => m.h.xtra.toNat % 2 ^ 32

/-- Fence `n` replaced. -/
def setFence (n : Nat) (f : Fence) (s : State) : State := { s with ports := { s.ports with fences := mset s.ports.fences n f } }

/-- `Fnc` of fence number `n` to a hub: SCOPE in XTRA[1:0], P in XTRA[2]. -/
def sendFnc (n scope : Nat) (p : Bool) (tc : Nat) (h : HubId) (s : State) : State :=
  let hd := mkHdr s 0 tc (epochNow s) (hubId s) n 0
  send0 .fnc h { hd with xtra := BitVec.ofNat 64 (scope + 4 * p.toNat) } s

/-- The home step begins (R285): own dirty lines cleaned and the buffer drained. -/
def homeStep (n : Nat) (f : Fence) (s : State) : State :=
  let ls := (dirtyLines s).filter fun l => isOwn s l
  drainAll (ls.foldl (cleanLine (n + 1)) (setFence n { f with step := 2 } s))

/-- One step of a fence forward, if it can go on (R284): 0 visibility, 1 cleaning, 2 drains, 3 the cellar writes queued by then, whose counter
blocks are written back (R437), 4 the buddy's acknowledgements of what they mirrored (R282). -/
def fenceStep (n : Nat) (f : Fence) (s : State) : State :=
  if f.step = 0 then
    if !f.covered.isEmpty || !f.persist then s
    else
      let ls := dirtyLines s
      let homes := (f.homes ++ (ls.filter fun l => !isOwn s l).map homeOf).eraseDups
      drainAll (ls.foldl (cleanLine (n + 1)) (setFence n { f with step := 1, homes := homes } s))
  else if f.step = 1 then
    if cleanBusy s (n + 1) then s
    else
      let hs := f.homes.filter fun h => h ≠ hubId s && hubLive s h
      let s := hs.foldl (fun s h => sendFnc n 3 true f.tc h s) s
      homeStep n { f with homes := hs, dead := f.dead || f.homes.any fun h => h ≠ hubId s && !hubLive s h } s
  else if f.step = 2 then
    if s.hc.mbuf.any (fun e => e.draining) || cleanBusy s (n + 1) then s
    else setFence n { f with step := 3, cel := queuedWrites s } (persistBlocks s)
  else if f.step = 3 then
    let left := f.cel.filter fun i => s.cel.ops.any fun o => o.id = i
    setFence n { f with cel := left, step := if left.isEmpty then 4 else 3, mirs := if left.isEmpty then unackedMirrors s else [] } s
  else if f.step = 4 then setFence n { f with mirs := f.mirs.filter (unacked s) } s
  else s

/-- The written-homes vectors that a fence read are set again, where it ends with another CODE than 0 (R283). -/
def keepWritten (f : Fence) (s : State) : State :=
  f.vectors.foldl (fun s e => { s with ports := { s.ports with written := mupd [] s.ports.written e.1 fun l => (l ++ e.2).eraseDups } }) s

/-- The CODE of a fence with nothing left to wait for (Table 07.3). -/
def fenceCode (f : Fence) : Nat := if f.dead then 1 else if f.lost then 2 else 0

/-- Nothing is left for the fence to wait for (R281). -/
def fenceReady (f : Fence) : Bool :=
  f.covered.isEmpty && f.members.isEmpty && (!f.persist || (f.step = 4 && f.mirs.isEmpty && f.homes.isEmpty))

/-- The fences of other hubs that have ended are answered (R276). -/
def answerFences (s : State) : State :=
  let done := s.ports.fences.filter fun e => e.2.slot.isNone && fenceReady e.2
  let s := { s with ports := { s.ports with fences := s.ports.fences.filter fun e => !(e.2.slot.isNone && fenceReady e.2) } }
  done.foldl (fun s e => answerFence e.2 (if fenceCode e.2 = 0 then s else keepWritten e.2 s)) s

/-- Every fence goes on as far as it can. -/
def advanceFences (s : State) : State :=
  let go := fun (s : State) (e : Nat × Fence) => match mget s.ports.fences e.1 with
    | some f => fenceStep e.1 f s
    | none => s
  let round := fun (s : State) => s.ports.fences.foldl go s
  answerFences (round (round (round (round (round s)))))

/-- The result of a fence (R281, Table 07.3): DONE with its CODE, and the result record. Answers that are still to come are told from those to a later fence
by their number, which no fence takes until they have come (R278). -/
def fenceEnds (n : Nat) (f : Fence) (code : Nat) (s : State) : State :=
  match f.slot with
  | none => s
  | some (p, slot) =>
    let bells := mset s.ports.bells (4096 * p + slot) (false, true, code, s.time.ft)
    let owed := f.members ++ if 2 ≤ f.step then f.homes else []
    let s := { s with ports := { s.ports with fences := mdel s.ports.fences n, bells := bells, stale := mput [] s.ports.stale n owed } }
    let s := if code = 0 then s else keepWritten f s
    if f.qe then post f.qn 4 (slot + 4096 * p) [mkWord [(0, 32, f.tag), (32, 3, code)], s.time.ft] s else s

/-- The lowest fence number that is free and under which no answer is still to come: RTAG has 12 bits (R276, R278). -/
def fenceNo (s : State) : Option Nat := firstFree (fun n => (mget s.ports.fences n).isSome || (mget s.ports.stale n).isSome) 4096 0

/-- The written-homes vectors of some ports. -/
def vectorsOf (s : State) (ports : List Nat) : SMap (List HubId) := s.ports.written.filter fun e => e.1 ∈ ports

/-- DOORBELL_RING (R274, R275, R280, R281). With 4,096 fences running a ring is ignored like that of a busy slot (DESIGN CHOICE, log entry 108). -/
def opDoorbellRing (p : HPort) (slot : BitVec 12) (v : Word) (s : State) : State :=
  let key := 4096 * p.val + slot.toNat
  let busy := (mgetD (false, false, 0, 0) s.ports.bells key).1
  let scope := fld v 0 2
  if !portServes s p then s
  else if popWaits s p then holdAccess p (.bytes (0xC00000 + 64 * key) 8 v.toNat) s
  else if !slotsReached s p then refuseAt p 0 (oPort 0 p) s
  else match (if busy then none else fenceNo s) with
  | none => fire (1 + 4 * p) 4 (oPort 0 p) s
  | some n =>
    let pflag := bit v 2
    let ports := if scope = 0 then [p.val] else List.range 16
    let vs := if pflag then vectorsOf s ports else []
    let ms := if scope = 2 then ((members s ++ s.sweep).filter fun h => h ≠ hubId s && hubLive s h).eraseDups else []
    let covered := (s.ports.outst.filter fun e => e.2 ∈ ports).map (·.1)
    let f : Fence := { slot := some (p.val, slot.toNat), src := hubId s, rtag := n, scope := scope, persist := pflag, qe := bit v 3,
                       qn := fld v 4 13, tc := fld v 17 3, lim := fld v 20 12, tag := fld v 32 32, covered := covered, members := ms,
                       homes := (vs.flatMap (·.2)).eraseDups, vectors := vs, cel := if pflag then queuedWrites s else [],
                       lost := pflag && poisonStored s }
    if scope = 3 then fenceEnds n f 3 s
    else
      let left := if pflag then s.ports.written.filter fun e => e.1 ∉ ports else s.ports.written
      let bells := mset s.ports.bells key (true, false, 0, 0)
      let s := { s with ports := { s.ports with bells := bells, written := left } }
      ms.foldl (fun s h => sendFnc n 1 pflag f.tc h s) (setFence n f s)

/-- FENCE_COMPLETE (R281): the fence of the slot ends, once nothing is left to wait for. -/
def opFenceComplete (p : HPort) (slot : BitVec 12) (s : State) : State :=
  let s := advanceFences s
  match s.ports.fences.find? fun e => e.2.slot = some (p.val, slot.toNat) with
  | none => s
  | some (n, f) =>
    if fenceReady f then fenceEnds n f (fenceCode f) s else s

/-- FENCE_LIMIT_EXPIRY (R278). -/
def opFenceLimitExpiry (p : HPort) (slot : BitVec 12) (s : State) : State :=
  match s.ports.fences.find? fun e => e.2.slot = some (p.val, slot.toNat) with
  | none => s
  | some (n, f) => if f.lim = 0 then s else fenceEnds n f 4 s

/-- The next number for a fence of another hub, above the numbers of this hub's own. -/
def foreignFence (s : State) : Nat := 4096 + s.ports.nextFence

/-- A fence of another hub taken up. -/
def addForeign (f : Fence) (s : State) : State :=
  let n := foreignFence s
  advanceFences { s with ports := { s.ports with nextFence := s.ports.nextFence + 1, fences := mset s.ports.fences n f } }

/-- FNC_HUB (R276): a HUB fence over the writes accepted before it; persist as R284. -/
def opFncHub (h : Hdr) (s : State) : State :=
  message .fnc h (fun s =>
    let pflag := h.xtra.toNat.testBit 2
    let vs := if pflag then s.ports.written else []
    let s := if pflag then { s with ports := { s.ports with written := [] } } else s
    addForeign { src := h.src, rtag := h.rtag.toNat, scope := 1, persist := pflag, tc := h.tc.toNat,
                 covered := s.ports.outst.map (·.1), homes := (vs.flatMap (·.2)).eraseDups, vectors := vs,
                 cel := if pflag then queuedWrites s else [], lost := pflag && poisonStored s } s) s

/-- FNC_HOME_STEP (R285). -/
def opFncHomeStep (h : Hdr) (s : State) : State :=
  message .fnc h (fun s =>
    let n := foreignFence s
    let f : Fence := { src := h.src, rtag := h.rtag.toNat, scope := 3, persist := true, tc := h.tc.toNat }
    advanceFences (homeStep n f { s with ports := { s.ports with nextFence := s.ports.nextFence + 1 } })) s

/-- CMP_FENCE (R123, R276): a `Cmp` with FC = 1 counts as the answer of its sender; one to a fence that has ended is discarded (R278). -/
def opCmpFence (h : Hdr) (s : State) : State :=
  message .cmp h (fun s =>
    let n := h.rtag.toNat
    match mget s.ports.fences n with
    | none => { s with ports := { s.ports with stale := mupd [] s.ports.stale n fun l => l.erase h.src } }
    | some f =>
      let f := if 2 ≤ f.step ∧ h.src ∈ f.homes then { f with homes := f.homes.filter (· ≠ h.src) }
        else { f with members := f.members.filter (· ≠ h.src) }
      advanceFences (setFence n f s)) s

end Sys2Proof.Machine
end

