-- ==== Sys2Proof/Machine/Cellar.lean ====
section
/-! DEFINITION. The cellar path (05 R195 to R203, 07 R282, 10 R385 to R391, 11 R425 to R444): accesses in arrival order for each granule,
granule reads and writes, their judgement, re-seals, and the commands of that family. Writes of one granule that wait together are done in
one read-modify-write, and one command stands for a granule's accesses (DESIGN CHOICE, log entry 24). -/

namespace Sys2Proof.Machine

/-- The granule LA[47:8] of a line. -/
def granOf (l : LineAddr) : Nat := laOf l / 4

/-- Accesses of a granule that are still to be served, in arrival order. -/
def todo (s : State) (g : Nat) : List CelOp := s.cel.ops.filter fun o => granOf o.line = g && !o.written

/-- A block is being re-sealed: other accesses to it wait (R439). -/
def resealing (s : State) (b : Nat) : Bool := s.sl.reseals.any fun r => r.block = b

/-- The ports on which the lines, the MAC, the check parts and the counter block of a granule lie. -/
def granulePorts (s : State) (g : Nat) : List Nat :=
  let parts := if isStrong s (4 * g) then (List.range 4).map fun k => (partPlace s g k).1 else []
  ((List.range 4).map fun k => (linePlace s g k).1) ++ [(macPlace s g).1, (metaPlace s 0 (g / 64) false).1] ++ parts

/-- The lines of a Strong granule that lie on lost ports. -/
def lostShares (s : State) (g : Nat) : Nat :=
  if !isStrong s (4 * g) then 0 else bitsOf ((List.range 4).filter fun k => portLost s (cellarPort s (4 * g + k)))

/-- The class and epoch of the request that a write serves, or that its completion is owed to; other writes are best effort (R245). -/
def writeClass (s : State) (o : CelOp) : Nat × Nat :=
  match o.cls, s.cel.owed.find? fun w => w.id = o.id with
  | some c, _ => c
  | none, none => (7, epochNow s)
  | none, some w => match w.who with
    | .demand d => (d.tc, d.epoch)
    | .txn l => match txnOf s l with
      | some t => (t.tc, t.epoch)
      | none => (7, epochNow s)
    | .nobody => (7, epochNow s)

/-- The class and epoch of an access's commands: those of the request that it serves; other accesses are best effort (R245, R439). -/
def classFor (s : State) (o : CelOp) : Nat × Nat :=
  if o.wr.isSome then writeClass s o
  else match o.dest with
  | .txn l => match txnOf s l with
    | some t => (t.tc, t.epoch)
    | none => (7, epochNow s)
  | .mr l => match mrOf s l with
    | some m => (m.2.tc, m.2.epoch)
    | none => (7, epochNow s)
  | _ => (7, epochNow s)

/-! ### Data -/

/-- Line `k` of a granule's plaintext; a line that PM names has every PZ bit set (R385). -/
def lineIn (plain : BitVec 2048) (pm k : Nat) : Data := ⟨BitVec.ofNat 512 (plain.toNat >>> (512 * k)), if pm.testBit k then 0xFF else 0⟩

/-- Line `k` of a granule replaced; it is stored poisoned as a whole where any of its words is (R385). -/
def putLine (k : Nat) (d : Data) (x : BitVec 2048 × Nat) : BitVec 2048 × Nat :=
  let m := (2 ^ 512 - 1) <<< (512 * k)
  (BitVec.ofNat 2048 ((x.1.toNat ^^^ (x.1.toNat &&& m)) ||| (d.bytes.toNat <<< (512 * k))),
   (if d.pz = 0 then x.2 ^^^ (x.2 &&& 2 ^ k) else x.2 ||| 2 ^ k))

/-- The merging buffer's bytes of a line laid over its cellar data, the newest entry last (R203). -/
def overlay (s : State) (l : LineAddr) (d : Data) : Data :=
  (s.hc.mbuf.filter fun e => e.granule = l.toNat / 4).foldl (fun d e =>
    let k := l.toNat % 4
    mergeData d ⟨BitVec.ofNat 512 (e.data.toNat >>> (512 * k)), BitVec.ofNat 8 (e.pz.toNat >>> (8 * k))⟩ (BitVec.ofNat 64 (e.mask.toNat >>> (64 * k)))) d

/-- A line read to be written again, by a correct-and-write or a page move (R402, R413): its write is queued and its transaction ends. -/
def moveRead (l : LineAddr) (d : Data) (s : State) : State := endCopy l (cellarPut l d fullMask (moreReaders (copyCells s l) s) (copyCells s l))

/-- A line read and written again in a transaction of the home's own (R118). -/
def moveLine (l : LineAddr) (s : State) : Bool × State :=
  let x := homeCopy l s
  (x.1, if x.1 then cellarRead l .move x.2 else x.2)

/-- A line of the page being moved has been read: its ciphertext, poison included, is written in its new place, where it has any, and the line counts
as moved; its transaction ends (R413). Sealing uses the local address, so nothing is sealed again. -/
def pageRead (o : CelOp) (plain : BitVec 2048) (pm : Nat) (s : State) : State :=
  let l := o.line
  let k := laOf l % 4
  let g := granOf l
  let key := blockKey s (g / 64) o.key
  let cmd := fun (s : State) => match getBlk s 0 (g / 64), s.prot.moving with
    | some c, some (_, set, spare, n) =>
      let m := minorOf c.bits (g % 64)
      if m = 0 then s
      else
        let x := clearLines (granuleCrypt s g key.1 (bfld c.bits 0 56) m plain) pm
        let p := sparePlace s set spare n
        count (aDpCnt p.1 1) 1 (cellCmd p.1 7 (epochNow s) (.wrLine p.2 g k (BitVec.ofNat 512 (x.toNat >>> (512 * k))) (pm.testBit k)) s)
    | _, _ => s
  match s.prot.moving with
  | some (page, set, spare, n) =>
    if laOf l / 64 ≠ page ∨ laOf l % 64 ≠ n then endCopy l s
    else
      let s := cmd s
      endCopy l { s with prot := { s.prot with moving := some (page, set, spare, n + 1) } }
  | none => endCopy l s

/-- A read's data reaches whoever asked for it; what it held of the background reserve is read. -/
def deliver (plain : BitVec 2048) (pm : Nat) (s0 : State) (o : CelOp) : State :=
  let s := doneReading o.cells s0
  let d := lineIn plain pm (laOf o.line % 4)
  match o.dest with
  | .txn l => onHomeData l (overlay s l d) s
  | .mr l => match mrOf s l with
    | some (n, m) => if m.kind = .own then ownFill n m (overlay s l d) s else s
    | none => s
  | .mirror _ => copyRead o.line d s
  | .move => moveRead o.line d s
  | .page => pageRead o plain pm s
  | _ => s

/-! ### Writing a granule -/

/-- Somebody waits for a write to be persisted: an owed completion, a fence, or an acknowledgement to the partner. -/
def awaited (s : State) (id : Nat) : Bool :=
  s.cel.owed.any (fun o => o.id = id) || s.ports.fences.any (fun e => 3 ≤ e.2.step && decide (id ∈ e.2.cel)) || s.mir.applied.any fun a => a.2.1 = some id

/-- One write merged into the granule: the resulting line is mirrored where that is due, and its MSEQ noted with its completion (R343, R344). -/
def mergeOp (x : (BitVec 2048 × Nat) × State) (o : CelOp) : (BitVec 2048 × Nat) × State :=
  match o.wr with
  | none => x
  | some (d, mask) =>
    let k := laOf o.line % 4
    let new := mergeData (lineIn x.1.1 x.1.2 k) d mask
    let y := mirrorWrite o.line new (writeClass x.2 o) o.cells x.2
    let note := fun (w : Owed) => if w.id = o.id then { w with mseq := y.1 } else w
    (putLine k new x.1, { y.2 with cel := { y.2.cel with owed := y.2.cel.owed.map note } })

/-- A re-seal of a block that stands under `old` begins: a new major counter, and a read of every granule with a non-zero minor counter (R438), in
the class `c` of the write that caused it, or in squares of task `task` (R439). -/
def startReseal (b slot gen : Nat) (old : Nat × Nat) (cells : List Nat) (c : Nat × Nat) (task : Nat) (s : State) : State :=
  match (if resealing s b then none else getBlk s 0 b) with
  | none => s
  | some x =>
    let left := (List.range 64).filter fun i => minorOf x.bits i ≠ 0
    let y := takeMajor s
    let s := { y.2 with sl := { y.2.sl with reseals := y.2.sl.reseals ++ [⟨b, y.1, slot, gen, left, [], old, cells, c.1, c.2, task⟩] } }
    left.foldl (fun s i => readGranule (64 * b + i) c.1 c.2 s) s

/-- A block whose first write this is takes its major counter (R427). -/
def firstMajor (b : Nat) (s : State) : State :=
  match getBlk s 0 b with
  | none => s
  | some x =>
    if bfld x.bits 0 56 ≠ 0 then s
    else
      let y := takeMajor s
      putBlk 0 b ⟨bset x.bits 0 56 y.1, true⟩ y.2

/-- The granule sealed again with its minor counter raised (R426), in class and epoch `w`. -/
def sealGranule (w : Nat × Nat) (g : Nat) (key : Nat × Nat) (x : BitVec 2048 × Nat) (s : State) : State :=
  let b := g / 64
  let i := g % 64
  let s := firstMajor b s
  match getBlk s 0 b with
  | none => s
  | some c =>
    let bits := bset c.bits (56 + 6 * i) 6 (minorOf c.bits i + 1)
    let s := putBlk 0 b ⟨bits, true⟩ s
    let d := cellarPort s (4 * g)
    let mine := fun (e : RepEnt) => e.kind = 0 && e.addr = 4 * g && e.watch.isNone
    let reps := mput [] s.prot.reps (8 + d) ((mgetD [] s.prot.reps (8 + d)).filter fun e => !mine e)
    writeCipher w.1 w.2 g key.1 key.2 (bfld bits 0 56) (minorOf bits i) x.2 x.1 { s with prot := { s.prot with reps := reps } }

/-- A write of the granule must first re-seal its block (R426, R438). -/
def mustReseal (s : State) (g : Nat) : Bool :=
  match getBlk s 0 (g / 64) with
  | some c => bfld c.bits 0 56 ≠ 0 && (c.bits.toNat.testBit 440 || minorOf c.bits (g % 64) = 63)
  | none => false

/-- The writes that lead a granule's queue, done together; a Device-like write goes alone (Table 02.6). -/
def writeRun (s : State) (q : List CelOp) : List CelOp :=
  match q with
  | [] => []
  | o :: t => if isDevice s o.line then [o] else o :: t.takeWhile fun x => x.wr.isSome && !isDevice s x.line

/-- The granule written with these writes merged in, and the cells of their data free; or its block re-sealed first, in four cells (R25), without which it
waits. A drain of the merging buffer that finds its granule poisoned raises EV216 (R215); a line stored poisoned is not persisted (Table 07.3). -/
def writeGranule (g : Nat) (ws : List CelOp) (plain : BitVec 2048) (pm : Nat) (s : State) : State :=
  let key := blockKey s (g / 64) (match ws.head? with
    | some o => o.key
    | none => keyNow s (4 * g))
  let c := match ws.head? with
    | some o => classFor s o
    | none => (7, epochNow s)
  if resealing s (g / 64) then s
  else if mustReseal s g then match takeWork c.1 4 s with
    | some (cs, s) => startReseal (g / 64) key.1 key.2 key cs c 0 s
    | none => s
  else
    let s := if pm ≠ 0 && ws.any (fun o => o.drain) then fire 216 0 (oLine (ownLine s (4 * g))) s else s
    let x := ws.foldl mergeOp ((plain, pm), s)
    let ids := ws.map fun o => o.id
    let mark := fun (o : CelOp) => if o.id ∈ ids then { o with issued := true, written := true, covered := false, cells := [] } else o
    let s := doneReading (ws.flatMap fun o => o.cells) (sealGranule c g key x.1 x.2)
    let bad := (ws.filter fun o => x.1.2.testBit (laOf o.line % 4)).map fun o => o.id
    let s := bad.foldl (fun s i => lostWrite i s) { s with cel := { s.cel with ops := s.cel.ops.map mark } }
    if ids.any (awaited s) then writeBack_ 0 (g / 64) s else s

/-- The accesses that lead a granule's queue served from its plaintext: the reads, then the writes behind them. -/
def serveWith (g : Nat) (plain : BitVec 2048) (pm : Nat) (s : State) : State :=
  let q := todo s g
  let isRead := fun (o : CelOp) => o.wr.isNone
  let reads := q.takeWhile isRead
  let ws := writeRun s (q.dropWhile isRead)
  let ids := reads.map fun o => o.id
  let s := { s with cel := { s.cel with ops := s.cel.ops.filter fun o => o.id ∉ ids } }
  let s := reads.foldl (deliver plain pm) s
  if ws.isEmpty then s else writeGranule g ws plain pm s

/-- The lead of a granule's queue is writes that cover all of its bytes. -/
def coversAll (s : State) (g : Nat) : Bool :=
  let ws := writeRun s ((todo s g).takeWhile fun o => o.wr.isSome)
  (List.range 4).all fun k => ws.foldl (fun m o => match o.wr with
    | some w => if laOf o.line % 4 = k then m ||| w.2 else m
    | none => m) (0 : BitVec 64) = fullMask

/-! ### The state of a granule -/

/-- What a granule reads as without asking the expander, once its chain is held: nothing written, below a LOST mark, or needed from the
cellar; below a LOST mark a write makes the path anew (R425, R444). -/
inductive Held where
  | plain (pm : Nat) | lost (level : Nat) | cellar | stop (cause : Nat) | missing
  deriving DecidableEq, Repr

/-- How the chain of a granule stands after the blocks read. -/
def heldState (blocks : List MetaBlock) (g : Nat) (s : State) : Held × State :=
  let b := g / 64
  let x := chain blocks b s
  match x.1 with
  | .ok => match getBlk x.2 0 b with
    | none => (.missing, x.2)
    | some c => if minorOf c.bits (g % 64) = 0 then (.plain (if c.bits.toNat.testBit 441 then 15 else 0), x.2) else (.cellar, x.2)
  | .lost k => (.lost k, x.2)
  | .halt c => (.stop c, x.2)
  | .missing => (.missing, x.2)

/-- A granule below a LOST mark: reads are poisoned; a write makes the path to it anew, with LOST set (R444). -/
def serveLost (level g : Nat) (s : State) : State :=
  let b := g / 64
  let lead := (todo s g).head?.any fun o => o.wr.isSome
  let s := if !lead then s
    else
      let s := recreate level b s
      let y := takeMajor s
      addBlk 0 b ⟨bset (bset 0 0 56 y.1) 441 1 1, true⟩ y.2
  if lead then serveWith g 0 15 s
  else
    let reads := (todo s g).takeWhile fun o => o.wr.isNone
    let ids := reads.map fun o => o.id
    reads.foldl (deliver 0 15) { s with cel := { s.cel with ops := s.cel.ops.filter fun o => o.id ∉ ids } }

/-! ### Issuing -/

/-- The reads that a granule's next service needs leave: the granule unless its data is not wanted, and the metadata that is missing. The granule that a
write reads to merge with comes into four cells, which the write holds until it is written (R20, R25). -/
def issueReads (g : Nat) (data : Bool) (metas : List (Nat × Nat × Bool)) (s : State) : State :=
  let q := todo s g
  let c := match q.head? with
    | some o => classFor s o
    | none => (7, epochNow s)
  let rmw := q.head?.any fun o => o.wr.isSome
  let y := if data && rmw then (takeWork c.1 4 s).getD ([], s) else ([], s)
  let held := fun (ops : List CelOp) => updFirst (fun o => granOf o.line = g && !o.written) (fun o => { o with cells := o.cells ++ y.1 }) ops
  let s := { y.2 with cel := { y.2.cel with ops := held y.2.cel.ops } }
  let s := if data then readGranule g c.1 c.2 s else s
  let s := if data && rmw then count (aDpCnt (cellarPort s (4 * g)) 7) 1 s else s
  let s := metas.foldl (fun s m => readMeta m.1 m.2.1 m.2.2 c.1 c.2 s) s
  let mark := fun (o : CelOp) => if granOf o.line = g && !o.written then { o with issued := true } else o
  { s with cel := { s.cel with ops := s.cel.ops.map mark } }

/-- A granule's queue is led by a write that needs four cells, to merge with what it reads or to have its block re-sealed, and there are none (R25). -/
def lacksCells (s : State) (g : Nat) : Bool :=
  match (todo s g).head? with
  | some o => o.wr.isSome && (!coversAll s g || mustReseal s g) && (takeWork (classFor s o).1 4 s).isNone
  | none => false

/-- The granule whose queue can go on: nothing of it is in flight, its block is not being re-sealed, and it has the cells it needs. -/
def nextGranule (s : State) : Option Nat :=
  (s.cel.ops.find? fun o => !o.written && !resealing s (granOf o.line / 64) && !((todo s (granOf o.line)).any fun x => x.issued) &&
    !lacksCells s (granOf o.line)).map fun o => granOf o.line

/-- The Board task (Table 06.7) that an access works for: scrub, the re-seal of a rekey sweep, or a move; 0 for the accesses of requests. -/
def celTask (o : CelOp) : Nat :=
  match o.dest with
  | .scrub => 1
  | .sweep => 3
  | .move | .page | .mirror _ => 7
  | _ => 0

/-- What `f` has wait at a Board is the background engine's (Table 06.5), for task `n`. -/
def asTask (n : Nat) (f : State → State) (s : State) : State :=
  let t := f s
  let old := fun (b : Nat) => (mgetD [] s.brd.wait b).length
  let mark := fun (w : Waiter) => { w with input := 53, tc := 7, task := n }
  if n = 0 then t
  else { t with brd := { t.brd with wait := t.brd.wait.map fun e => (e.1, e.2.take (old e.1) ++ (e.2.drop (old e.1)).map mark) } }

/-- The next service of a granule: at once where nothing has to be read, else its reads leave (R433, Table 06.8). -/
def serveGranule (g : Nat) (s0 : State) : State :=
  let s := dropPins s0
  let ms := toRead s (g / 64)
  let s := if ms.isEmpty then count (aSlCnt 2) 1 s else count (aSlCnt 3) ms.length s
  let n := ((todo s g).head?.map celTask).getD 0
  if !ms.isEmpty then asTask n (issueReads g (!coversAll s g) (ms.map fun m => (m.1, m.2, decide (blkKey m.1 m.2 ∈ s.sl.struck)))) s
  else
    let x := heldState [] g s
    match x.1 with
    | .plain pm => serveWith g 0 pm (count (aSlCnt 6) 1 x.2)
    | .lost k => serveLost k g x.2
    | .cellar => if coversAll x.2 g then serveWith g 0 0 x.2 else asTask n (issueReads g true []) x.2
    | _ => s

/-- Accesses are served and issued while any can go on. -/
def pump : Nat → State → State
  | 0, s => s
  | n + 1, s => match nextGranule s with
    | none => s
    | some g => pump n (serveGranule g s)

/-- The cellar path is at rest: nothing to issue, no completion owed, nothing to acknowledge to the partner. -/
def atRest (s : State) : Bool := (s.cel.ops.all fun o => o.issued) && s.cel.owed.isEmpty && s.mir.applied.isEmpty

/-- The cellar path goes on as far as it can, and what has become due completes. -/
def settle (s : State) : State :=
  if atRest s then s else mirAcks (settleOwed (pump (4 * s.cel.ops.length + 16) s))

/-! ### Responses (R375, R441) -/

/-- What a judged read leaves in logs and counters (R392, R399, Table 10.4); `r.poisoned` names the lost shares too, `came` those that came back
poisoned. A line that the device stored poisoned is no fresh error (R387). What a scrub read found and corrected is written back (R409). A granule's
findings are those of the port and the address of its first line, wherever in it the fault lies (DESIGN CHOICE, log entry 122). -/
def noteJudged (r : CellarResp) (came : BitVec 4) (j : Judged) (s : State) : State :=
  let g := r.granule.toNat
  let d := cellarPort s (4 * g)
  let bad := (List.range 4).filter fun k => if j.memErr then true else j.pm.testBit k
  let back := (List.range 4).filter fun k => came.toNat.testBit k
  let scr := (todo s g).any fun o => o.dest = .scrub
  let move := fun (s : State) => if scr then (moveLine (ownLine s (4 * g)) s).2 else s
  let find := fun (k : Nat) (s : State) => (⟨8 + cellarPort s (4 * g + k), 0, 4 * g + k, 0, false⟩ : Find)
  let s := back.foldl (fun s k => count (aDpCnt (cellarPort s (4 * g + k)) 3) 1 s) s
  let s := if j.memErr then uncorrectable (find 0 s) 3 (if j.differs then count (aSlCnt 5) 1 s else s) else s
  let s := if j.torn then fire 234 0 (oLine (ownLine s (4 * g))) s else s
  let s := if j.restored && r.poisoned ≠ 0 then
      let s := watchHit (4 * g / 64) (ecEntry ⟨8 + d, 0, 4 * g, 0, scr⟩ 5 (count (aEcCcnt (8 + d)) 1 s))
      if back.any fun k => !j.pm.testBit k then move s else s
    else if j.restored then move (corrected ⟨8 + d, 0, 4 * g, 0, scr⟩ (some (4 * g / 64)) s)
    else s
  bad.foldl (fun s k => fire (66 + 4 * cellarPort s (4 * g + k)) 1 (oLine (ownLine s (4 * g + k))) s) s

/-- A granule read judged with its block held: its plaintext and PM; a memory error is written back stored poisoned (R387, R441). An
integrity failure halts the device. -/
def judged (r0 : CellarResp) (slot gen : Nat) (rewrite : Bool) (s : State) : Option (BitVec 2048 × Nat) × State :=
  let g := r0.granule.toNat
  match getBlk s 0 (g / 64) with
  | none => (none, s)
  | some c =>
    let r := { r0 with poisoned := r0.poisoned ||| BitVec.ofNat 4 (lostShares s g) }
    match judge s r slot gen (bfld c.bits 0 56) (minorOf c.bits (g % 64)) (c.bits.toNat.testBit 440) with
    | none => (none, sealHalt 1 0 (4 * g) s)
    | some j =>
      let s := noteJudged r r0.poisoned j (count (aSlCnt 1) 1 s)
      let w := match (todo s g).head? with
        | some o => classFor s o
        | none => (7, epochNow s)
      let s := if !j.memErr || !rewrite then s
        else if mustReseal s g then
          let z := (takeWork w.1 4 s).getD ([], s)
          startReseal (g / 64) slot gen (slot, gen) z.1 w 0 z.2
        else sealGranule w g (slot, gen) (0, 15) s
      (some (if j.memErr then (0, 15) else (clearLines j.plain j.pm, j.pm)), s)

/-- A granule of a block under re-seal read: written again under the new major with its minor counter 1; a granule that fails its check is
stored poisoned (R438). -/
def resealRead (x : Reseal) (r : CellarResp) (s : State) : State :=
  let g := r.granule.toNat
  let y := judged r x.old.1 x.old.2 false s
  match y.1 with
  | none => y.2
  | some (plain, pm) =>
    let step := fun (z : Reseal) => if z.block = x.block then { z with left := z.left.filter (· ≠ g % 64), done := z.done ++ [g % 64] } else z
    let s := { y.2 with sl := { y.2.sl with reseals := y.2.sl.reseals.map step } }
    asTask x.task (writeCipher x.tc x.epoch g x.slot x.gen x.major 1 pm plain) s

/-- A response late beyond its declared bound (R375). -/
def noteLate (r : CellarResp) (s : State) : State :=
  let d := cellarPort s (4 * r.granule.toNat)
  if r.late then fire (66 + 4 * d) 0 (oPort 1 d) (count (aDpCnt d 2) 1 s) else s

/-- The commands that `f` names are answered. -/
def answered (f : CellCmd → Bool) (s : State) : State :=
  let mine := fun (e : Nat × Waiter) => match e.2.item with
    | .cell c => f c
    | _ => false
  { s with cel := { s.cel with sent := s.cel.sent.filter fun e => !mine e } }

/-- No read of a granule is in flight any more. -/
def unissue (g : Nat) (s : State) : State :=
  let mark := fun (o : CelOp) => if granOf o.line = g && !o.written then { o with issued := false } else o
  let s := answered (CellCmd.reads g) s
  { s with cel := { s.cel with ops := s.cel.ops.map mark } }

/-- A granule read with the metadata it needs (R441 to R444): the accesses that wait for it are served, or the device halts. -/
def granuleRead (r : CellarResp) (s : State) : State :=
  let g := r.granule.toNat
  let x := heldState r.blocks g s
  match x.1 with
  | .missing =>
    let hit := fun (m : Nat × Nat) => decide (2 ≤ m.1) && (decide (blkKey m.1 m.2 ∈ x.2.sl.struck) || (copyOf r.blocks m.1 m.2 false).any fun c => c.poisoned)
    issueReads g false ((toRead x.2 (g / 64)).map fun m => (m.1, m.2, hit m)) x.2
  | .stop c => sealHalt c 0 (4 * g) x.2
  | .lost k => serveLost k g (unissue g x.2)
  | .plain pm => serveWith g 0 pm (count (aSlCnt 6) 1 (unissue g x.2))
  | .cellar =>
    let s := unissue g x.2
    if coversAll s g then serveWith g 0 0 s
    else
      let key := blockKey s (g / 64) (match (todo s g).head? with
        | some o => o.key
        | none => keyNow s (4 * g))
      let y := judged r key.1 key.2 true s
      match y.1 with
      | none => y.2
      | some p => serveWith g p.1 p.2 y.2

/-- CELLAR_RESPONSE (R441). -/
def opCellarResponse (r : CellarResp) (s : State) : State :=
  let g := r.granule.toNat
  let s1 := noteLate r (answered (CellCmd.reads g) s)
  match s.sl.reseals.find? fun x => x.block = g / 64 && x.left.contains (g % 64) with
  | some x => resealRead x r s1
  | none => if (todo s g).any fun o => o.issued then granuleRead r s1 else s

/-- Written accesses of a granule whose counter block is written too are persisted (R282, R437). -/
def persisted (g : Nat) (s : State) : State :=
  { s with cel := { s.cel with ops := s.cel.ops.filter fun o => !(granOf o.line = g && o.written && o.covered) } }

/-- CELLAR_WRITE_COMPLETION (R282): what waited for the persisted writes goes on. -/
def opCellarWriteCompletion (granule : Nat) (s : State) : State := advanceFences (persisted granule (answered (CellCmd.writes granule) s))

/-- The counter block that ends a re-seal (R438): granules read have minor counter 1, the others 0; STALE clears. -/
def resealBits (x : Reseal) (old : LineBits) : LineBits :=
  let b := bset (bset 0 0 56 x.major) 441 1 (bfld old 441 1)
  x.done.foldl (fun b i => bset b (56 + 6 * i) 6 1) b

/-- The sweep of R456 has passed a block it has re-sealed. -/
def rekeyPassed (b : Nat) (s : State) : State :=
  if rdBit s aSlRkctl 31 && rdFld s aSlRkptr 0 34 = b then wrFld aSlRkptr 0 34 (b + 1) s else s

/-- RESEAL_DONE (R439): the block is written and the accesses that waited go on. -/
def opResealDone (block : Nat) (s : State) : State :=
  match s.sl.reseals.find? fun x => x.block = block && x.left.isEmpty with
  | none => s
  | some x =>
    let old := match getBlk s 0 block with
      | some c => c.bits
      | none => 0
    let s := doneReading x.cells { s with sl := { s.sl with reseals := s.sl.reseals.filter fun y => y.block ≠ block } }
    let swept := krtOf s block |>.any fun e => (fld e.2 3 10, fld e.2 13 8) ≠ (x.slot, x.gen)
    let s := if swept then rekeyPassed block s else s
    writeBack_ 0 block (count (aSlCnt 4) 1 (putBlk 0 block ⟨resealBits x old, true⟩ s))

/-- SEAL_WRITEBACK_DUE (R436). -/
def opSealWritebackDue (level index : Nat) (s : State) : State :=
  let k := blkKey level index
  if k ∈ s.sl.due && !tooSoon s k && !orphan s level index then writeBlk level index { s with sl := { s.sl with due := s.sl.due.filter (· ≠ k) } } else s

/-! ### The merging buffer (R201 to R203) -/

/-- MERGING_BUFFER_AGE (R202): the granule's open entry starts to drain. -/
def opMergingBufferAge (granule : Nat) (s : State) : State :=
  { s with hc := { s.hc with mbuf := updFirst (fun e => e.granule = granule && !e.draining) (fun e => { e with draining := true }) s.hc.mbuf } }

/-- One line of a drained entry queued to the cellar. -/
def drainLine (e : MbEnt) (s : State) (k : Nat) : State :=
  let m : BitVec 64 := BitVec.ofNat 64 (e.mask.toNat >>> (64 * k))
  if m = 0 then s
  else cellarPut (BitVec.ofNat 54 (4 * e.granule + k))
    ⟨BitVec.ofNat 512 (e.data.toNat >>> (512 * k)), BitVec.ofNat 8 (e.pz.toNat >>> (8 * k))⟩ m s [] none true

/-- MERGING_DRAIN_QUEUED (R195, R203): the entry's bytes are queued, its owed completions wait for them, and a line of which no other entry
holds bytes returns to E. The drain is counted (HC_CNT6, HC_CNT7). -/
def opMergingDrainQueued (granule : Nat) (s : State) : State :=
  match takeFirst (fun (e : MbEnt) => e.granule = granule && e.draining) s.hc.mbuf with
  | none => s
  | some (e, rest) =>
    let s := if e.mask = BitVec.allOnes 256 then s else count (aHcCnt 7) 1 s
    let s := count (aHcCnt 6) 1 s
    let s := (List.range 4).foldl (drainLine e) { s with hc := { s.hc with mbuf := rest } }
    let s := e.owed.foldl (fun s w => owe w s) s
    let holds := fun (k : Nat) => rest.any fun x => x.granule = granule && nfld x.mask.toNat (64 * k) 64 ≠ 0
    let s := (List.range 4).foldl (fun s k =>
      let l : LineAddr := BitVec.ofNat 54 (4 * granule + k)
      if nfld e.mask.toNat (64 * k) 64 ≠ 0 && !holds k && cacheSt s l = .m then setCacheSt l .e s else s) s
    advanceFences s

/-! ### Cellar ports (R292, R376) -/

/-- LS of cellar port `d`: CHG, and EV064 + 4d. -/
def setCellarLink (d ls : Nat) (s : State) : State :=
  if rdFld s (aDpStat d) 0 3 = ls then s
  else
    let s := rsq (aDpStat d) 10 (wrFld (aDpStat d) 0 3 ls s)
    fireSeq (64 + 4 * d) 0 (oPort 1 d) oNone (seqOf s (aDpStat d)) s

/-- The commands that a port has not answered go out again, in their order (R376). -/
def reissue (d : Nat) (s : State) : State :=
  let mine := s.cel.sent.filter fun e => e.1 = d
  mine.foldl (fun s e => enqueue (68 + d) e.2 s) { s with cel := { s.cel with sent := s.cel.sent.filter fun e => e.1 ≠ d } }

/-- The granules that a failed port has not answered are read again over the ports that are left, those of re-seals too. -/
def reread (d : Nat) (s : State) : State :=
  let gs := ((s.cel.ops.filter fun o => o.issued && !o.written && decide (d ∈ granulePorts s (granOf o.line))).map fun o => granOf o.line).eraseDups
  let s := gs.foldl (fun s g => unissue g s) { s with cel := { s.cel with sent := s.cel.sent.filter fun e => e.1 ≠ d } }
  s.sl.reseals.foldl (fun s x => (x.left.filter fun i => d ∈ granulePorts s (64 * x.block + i)).foldl
    (fun s i => readGranule (64 * x.block + i) x.tc x.epoch s) s) s

/-- CELLAR_COMMAND_TIMEOUT (R376): the port retrains. -/
def opCellarCommandTimeout (d : DPort) (s : State) : State :=
  let a := aDpStat d
  if rdBit s a 9 then s
  else
    let s := count (aDpCnt d 5) 1 (count (aDpCnt d 4) 1 (setCellarLink d 6 s))
    fireSeq (65 + 4 * d) 1 (oPort 1 d) oNone (seqOf s a) s

/-- CELLAR_RETRAIN_DONE (R376): unanswered commands are issued again. -/
def opCellarRetrainDone (d : DPort) (s : State) : State :=
  let a := aDpStat d
  if rdFld s a 0 3 ≠ 6 then s
  else reissue d (setCellarLink d 3 s)

/-- A write held for a failed port of a Standard set is discarded: logged, and a persist fence that covers it ends with CODE 2 (R292). -/
def discardWrite (d : Nat) (s0 : State) (o : CelOp) : State :=
  let s := doneReading o.cells s0
  let s := uncorrectable ⟨8 + d, 0, laOf o.line, 0, false⟩ 3 s
  let s := lostWrite o.id s
  { s with cel := { s.cel with ops := s.cel.ops.filter (fun x => x.id ≠ o.id), lost := true } }

/-- Cellar port `d` serves a Standard set. -/
def inStandard (s : State) (d : Nat) : Bool := (List.range 16).any fun n => rdBit s (aDpIset n) 0 && !rdBit s (aDpIset n) 1 && rdBit s (aDpIset n) (6 + d)

/-- What a failed port leaves of the accesses held for it (R292): in a Strong set they go on over the other ports; in a Standard set writes are
discarded, those among them that the port has not completed, and the shutdown state is dirty; reads are answered as in R43. -/
def failedAccesses (d : Nat) (s : State) : State :=
  let on := fun (o : CelOp) => (isetOf s (laOf o.line)).any fun n => decide (d ∈ setPorts s n)
  let sent := fun (o : CelOp) => o.written && decide (d ∉ granulePorts s (granOf o.line))
  let mine := s.cel.ops.filter fun o => on o && !sent o && !isStrong s (laOf o.line)
  let ws := mine.filter fun o => o.wr.isSome
  let rs := mine.filter fun o => o.wr.isNone
  let s := ws.foldl (discardWrite d) s
  let s := if inStandard s d then markDirty s else s
  let ids := rs.map fun o => o.id
  let s := { s with cel := { s.cel with ops := s.cel.ops.filter fun o => o.id ∉ ids } }
  let s := rs.foldl (fun s o => deliver 0 15 (fire 192 0 (oLine o.line) s) o) s
  reread d s

/-- CELLAR_RETRAIN_TIMEOUT (R292, R376): the port is failed. -/
def opCellarRetrainTimeout (d : DPort) (s : State) : State :=
  let a := aDpStat d
  if rdFld s a 0 3 ≠ 6 then s
  else
    let s := wrFld a 9 1 1 (setCellarLink d 7 s)
    advanceFences (failedAccesses d (fireSeq (67 + 4 * d) 0 (oPort 1 d) oNone (seqOf s a) s))

end Sys2Proof.Machine
end

