-- ==== Sys2Proof/Machine/Links.lean ====
section
/-! DEFINITION. Idior links (08 R298 to R321, 11 R458 to R461): flits received and sent, credits, retry, link states, messages at
ingress, and the commands of that family. Each granted message travels in a data flit of its own (DESIGN CHOICE, log entry 13). -/

namespace Sys2Proof.Machine

/-! ### Link states (Table 08.6) -/

/-- IP_STAT.STATE of port `p`. -/
def linkState (s : State) (p : Nat) : Nat := rdFld s (aIpStat p) 0 3

/-- Port `p` moves to a link state: CHG, and EV096 + 4p where ACTIVE is entered or left or FAILED is entered (Table 08.12). -/
def setLinkState (p st : Nat) (s : State) : State :=
  let old := linkState s p
  if old = st then s
  else
    let s := rsq (aIpStat p) 6 (wrFld (aIpStat p) 0 3 st s)
    let q := seqOf s (aIpStat p)
    let s := if old = 3 then fireSeq (96 + 4 * p) 1 (oPort 2 p) oNone q s else s
    let s := if st = 3 then fireSeq (96 + 4 * p) 0 (oPort 2 p) oNone q s else s
    if st = 5 then fireSeq (96 + 4 * p) 2 (oPort 2 p) oNone q s else s

/-- A retrain (R309): counted (IP_CNT7), with EV097 + 4p; flits are held until it ends. -/
def retrain (p : Nat) (full : Bool) (s : State) : State :=
  if linkState s p ≠ 3 then s
  else
    let s := setLinkState p 4 (setLink p { link s p with full := full, naks := 0 } s)
    fire (97 + 4 * p) 0 (oPort 2 p) (count (aIpCnt p 7) 1 s)

/-- The IV of the next wire unit of a port (R460): the low half of this hub's serial, and the wire-unit counter. -/
def linkIv (s : State) (p : Nat) : BitVec 96 := BitVec.ofNat 96 (s.part.serial.toNat % 2 ^ 32 * 2 ^ 64 + (link s p).wires)

/-- The link header of a data flit that returns no credits (Table 08.2): FTYP 0, SEQ, ACK. -/
def dataHead (seq ack : Nat) : Nat := 4 * seq + 4096 * ack

/-- A data flit on the wire: its slots encrypted, with the tag over link header and slots (R460, Tables 08.1 and 08.2). -/
def emitFlit (p seq : Nat) (ms : List Msg) (s : State) : State :=
  let key := (link s p).key.getD 0
  let slots := Config.linkSlots key (linkIv s p) ms
  let lh := dataHead seq (lastGood (link s p))
  emit (.flit p lh slots (Config.linkTag key (linkIv s p) lh slots)) s

/-- A wire unit sent counts under the link's keys; the counter's end is a seal halt (R440, R460). -/
def wireUnit (p : Nat) (s : State) : State :=
  let k := link s p
  if k.wires + 1 > 2 ^ 64 - 1 then sealHalt 7 p 0 s else setLink p { k with wires := k.wires + 1 } s

/-- Data flits sent again (R306), each sealed anew as a wire unit of its own (R460). -/
def sendAgain (p : Nat) (fs : List (Nat × List Msg)) (s : State) : State :=
  fs.foldl (fun s f => wireUnit p (emitFlit p f.1 f.2 (f.2.foldl (fun s m => emit (.xfer (56 + p) (.msg m)) s) (count (aIpCnt p 5) 1 s)))) s

/-- The slots of the peer's buffer that a message takes: its channel's reserved pool first, then the shared one (R305). -/
def takeCredits (m : Msg) (u : SMap Nat) : SMap Nat :=
  let c := channelOf m
  let r := min (slotsOf m) (128 - mgetD 0 u c)
  mupd 0 (mupd 0 u c (· + r)) 12 (· + (slotsOf m - r))

/-- A message may leave port `p`: ACTIVE, credits for all its slots, a place in the retry buffer (R305, R306). -/
def maySend (s : State) (p : Nat) (m : Msg) : Bool :=
  portActive s p && decide (slotsOf m ≤ credits s p (channelOf m)) && decide ((link s p).retry.length < 256)

/-- A message takes its credits, its SEQ and its place in the retry buffer; `input` and `dl0` say how it came to this hub (R305, R306, R311). -/
def holdFlit (p : Nat) (m : Msg) (input : Nat) (dl0 : Bool) (s : State) : State :=
  let k := link s p
  setLink p { k with used := takeCredits m k.used, seq := (k.seq + 1) % 1024, retry := k.retry ++ [(k.seq, [m])],
                     orig := mset k.orig k.seq (input, dl0) } s

/-- A granted message leaves in a data flit (R305, R306). -/
def sendFlit (p : Nat) (m : Msg) (input : Nat) (dl0 : Bool) (s : State) : State :=
  wireUnit p (emitFlit p (link s p).seq [m] (count (aIpCnt p 0) 1 (holdFlit p m input dl0 s)))

/-- Slots owed to the sender, as control flits of up to 15 slots of one pool each, every one reporting the last good flit (R305, R306). -/
def reportAck (p : Nat) (s : State) : State :=
  let k := link s p
  let ack := lastGood k
  let one := fun (s : State) (x : Nat × Nat) =>
    (List.range ((x.2 + 14) / 15)).foldl (fun s i =>
      wireUnit p (emit (.control p ack (if x.1 = 12 then 0 else x.1) (min 15 (x.2 - 15 * i)) (x.1 = 12)) s)) s
  let s := if k.owe.isEmpty then wireUnit p (emit (.control p ack 0 0 false) s) else k.owe.foldl one s
  setLink p { link s p with owe := [], sinceAck := 0 } s

/-- NAK sent once for a discarded flit or a gap, naming the last good flit (R306). -/
def sendNak (p : Nat) (s : State) : State :=
  let k := link s p
  if k.nakSent then s
  else count (aIpCnt p 4) 1 (wireUnit p (emit (.nak p (lastGood k)) (setLink p { k with nakSent := true } s)))

/-- Sequence number `a` lies after `b` in the window of 1,024 (R311). -/
def seqAfter (a b : Nat) : Bool := decide (0 < (a + 1024 - b) % 1024) && decide ((a + 1024 - b) % 1024 < 512)

/-- What the link header of any flit tells the sender: credits returned and flits acknowledged (R305, R306). -/
def linkHead (p : Nat) (f : FlitHead) (s : State) : State :=
  let k := link s p
  let pool := if f.csh then 12 else f.cvc.toNat
  let used := mupd 0 k.used pool (· - f.ccnt.toNat)
  let rest := k.retry.filter fun e => seqAfter e.1 f.ack.toNat
  setLink p { k with used := used, retry := rest, orig := k.orig.filter fun e => rest.any fun x => x.1 = e.1 } s

/-- The FEC, CRC and tag checks (R301): none where the flit is discarded or the hub has halted. -/
def checkFlit (p : Nat) (f : FlitHead) (s : State) : Bool × State :=
  let s := count (aIpCnt p 2) f.symbols s
  if !f.fecOk then (false, sendNak p (count (aIpCnt p 3) 1 s))
  else if !f.crcOk then (false, sendNak p s)
  else if !f.tagOk then (false, sealHalt 4 p 0 s)
  else (true, s)

/-- Port `p` receives flits. -/
def receives (s : State) (p : Nat) : Bool := linkState s p = 3

/-! ### Messages at ingress (R156, R304, R318, R319, R459) -/

/-- The LEN that Table 08.5 gives an MGT message: `JnAdmit` carries slots to the joining hub, which its XTRA names, only. -/
def mgtLenOk (m : Msg) : Bool :=
  let len := m.len.toNat
  match m.opc with
  | .dsReport => len = 1
  | .tkNote => len = 2
  | .jnAdmit => if m.dst.toNat = m.h.xtra.toNat % 2 ^ 12 then 1 ≤ len && len ≤ 4 else len = 0
  | .mbMsg => 1 ≤ len && len ≤ 4
  | _ => len = 0

/-- A message discarded at ingress (Table 08.12): counted, with the port's event. -/
def discardMsg (p cause : Nat) (m : Msg) (s : State) : State := fire (99 + 4 * p) cause (oHub m.h.src) (count (aIpCnt p 6) 1 s)

/-- The ACTIVE port with the fewest hops to the root, the lowest on ties (R325). -/
def upstream (s : State) : Option Nat :=
  let ps := ((List.range 12).filter (portActive s)).filterMap fun p => (mget s.fab.roots p).map fun r => (p, r.2.2)
  let m := ps.foldl (fun m x => min m x.2) 256
  (ps.find? fun x => x.2 = m).map (·.1)

/-- A management message for the root has no route yet: it follows the upstream ports (R325). -/
def toRoot (s : State) (m : Msg) : Bool :=
  classOf m.opc = 5 && rdBit s aFbStat 3 && decide (rdFld s aFbStat 4 12 = m.dst.toNat) && !hasRoute s m.dst

/-- The port by which a management message of the root goes on to a hub that has no route yet: the one through which that hub's messages to the root
came (R325). -/
def fromRoot (s : State) (m : Msg) : Option Nat :=
  if classOf m.opc = 5 && rdBit s aFbStat 3 && decide (rdFld s aFbStat 4 12 = m.h.src.toNat) && !hasRoute s m.dst then mget s.fab.via m.dst.toNat else none

/-- A management message for the root that comes in at port `p` tells where its sender lies (R325). -/
def learnVia (p : Nat) (m : Msg) (s : State) : State :=
  if classOf m.opc = 5 && !m.sr && rdBit s aFbStat 3 && decide (rdFld s aFbStat 4 12 = m.dst.toNat) then
    { s with fab := { s.fab with via := mset s.fab.via m.h.src.toNat p } }
  else s

/-- The cell that the payload of a message in transit enters (R20, R32): of the protocol reserve for data responses and write-backs, else of its class.
None where it finds no cell, and waits in its virtual channel. -/
def transitCell (m : Msg) (s : State) : Option (List Nat × State) :=
  if m.len = 0 then some ([], s)
  else if classOf m.opc = 3 || classOf m.opc = 4 then (takeProto m.h.tc.toNat 1 s).map fun x => ([x.1], x.2)
  else takeCells m.h.tc.toNat 1 1 s

/-- The route of a source-routed message, bits [159:64] of its header (Table 08.3). -/
def sourceRoute (h : Hdr) : Nat :=
  h.line.toNat + h.rqh.toNat * 2 ^ 54 + h.rtag.toNat * 2 ^ 66 + h.htag.toNat * 2 ^ 78 +
    h.tgt.toNat * 2 ^ 92 + h.g.toNat * 2 ^ 93 + h.d.toNat * 2 ^ 94 + h.fw.toNat * 2 ^ 95

/-- The output of a message in transit (R318, R319, R325): the nibble of its own route, the upstream port, the way back from the root, or by the route
table. -/
def nextHop (s : State) (m : Msg) : Option Nat :=
  if m.sr then some (sourceRoute m.h / 16 ^ m.hops.toNat % 16) else if toRoot s m then upstream s else (fromRoot s m).orElse fun _ => outPort s m.dst (channelOf m)

/-- A message for another hub leaves by port `q` (R315, R319), its payload in `cells`; a route nibble above 11 names no port. -/
def forward (p q : Nat) (m : Msg) (cells : List Nat) (s : State) : State :=
  let grp := fun (q : Nat) => rdFld s aFbPortgrp (3 * q) 2
  let dl := m.dl && !(grp q ≠ grp p && rdBit s aFbPortgrp (3 * q + 2))
  let m' := { m with dl := dl || bit (route s m.dst) (12 + q), hops := m.hops + 1 }
  if q < 12 then enqueue (56 + q) ⟨24 + p, m.h.tc.toNat, m.h.epoch.toNat, .msg m', cells, 0, 0, 0, m.dl⟩ s else doneReading cells s

/-- A message enters a receive buffer: its slots from its channel's reserved pool first (R305). -/
def bufferRx (p : Nat) (m : Msg) (s : State) : State :=
  let k := link s p
  let r := min (slotsOf m) (128 - mgetD 0 k.mine (channelOf m))
  setLink p { k with mine := takeCredits m k.mine } { s with rx := s.rx ++ [⟨p, slotsOf m - r, m, true⟩] }

/-- The message just received leaves its buffer. -/
def dropRx (s : State) : State :=
  match s.rx.getLast? with
  | some x => freeRx x { s with rx := s.rx.dropLast }
  | none => s

/-- The sender's incarnation is the one this hub accepts (R156). -/
def incOk (s : State) (h : Hdr) : Bool := decide (h.inc.toNat ≠ 0) && decide (incOf s h.src = h.inc.toNat)

/-- An earlier message in transit that has an output waits in the same receive buffer and virtual channel as `x`. -/
def transitAhead (s : State) (x : RxMsg) : Bool :=
  (s.rx.takeWhile (· ≠ x)).any fun y =>
    decide (y.port = x.port) && decide (channelOf y.m = channelOf x.m) && decide (y.m.dst ≠ hubId s) && (nextHop s y.m).isSome

/-- A buffered message goes on to another hub; it stays in its buffer while it has no ACTIVE output (R318), or while its payload finds no cell (R35),
behind those of its channel. A hub that has reported itself with cause PLANNED discards it (R331). -/
def passOn (s : State) (x : RxMsg) : State :=
  let m := x.m
  if m.dst = hubId s then s
  else if rdFld s aFbStat 0 2 = 3 then freeRx x { s with rx := s.rx.erase x }
  else if transitAhead s x then s
  else match nextHop s m, transitCell m s with
    | none, _ => s
    | some q, some (cs, s) => freeRx x (forward x.port q m cs { s with rx := s.rx.erase x })
    | some _, none => if classOf m.opc = 3 || classOf m.opc = 4 then fire 243 0 oNone s else s

/-- A message whose port can send it no more is sent on another output (R308, R311, R315): one of this hub's own from the start, with DL 0; one in
transit as it came, by both steps of R315. -/
def reroute (m : Msg) (input : Nat) (dl0 : Bool) (cells : List Nat) (s : State) : State :=
  if 24 ≤ input ∧ input < 36 then
    let x : RxMsg := ⟨input - 24, 0, { m with dl := dl0, hops := m.hops - 1 }, false⟩
    let s := doneReading cells s
    passOn { s with rx := s.rx ++ [x] } x
  else dispatch input cells { m with dl := false } s

/-- MESSAGE_ROUTE_RESUME (R318, R44): the messages that have an ACTIVE output now leave, in order; those in transit from their buffers. -/
def opMessageRouteResume (s : State) : State :=
  let ms := s.routeWait
  let s := ms.foldl (fun s x => match outPort s x.1.dst (channelOf x.1) with
    | some p => egress p (sliceInput (sliceOf x.1.h.line)) x.2 x.1 s
    | none => { s with routeWait := s.routeWait ++ [x] }) { s with routeWait := [] }
  s.rx.foldl passOn s

/-- A message at the ingress of port `p`. -/
def ingress (p : Nat) (s : State) (m : Msg) : State :=
  let s := learnVia p m (bufferRx p m s)
  let mgt := classOf m.opc = 5
  let reserved := match m.opc with | .reserved _ => true | _ => false
  if reserved then dropRx (discardMsg p 1 m s)
  else if !mgt && !rdBit s aSlLpsk p then dropRx (discardMsg p 3 m s)
  else if mgt && !mgtLenOk m then dropRx (discardMsg p 4 m s)
  else if m.dst ≠ hubId s then
    if !mgt && !incOk s m.h then dropRx (discardMsg p 0 m s)
    else if m.hops = 31 then dropRx (discardMsg p 2 m s)
    else match s.rx.getLast? with
      | some x => passOn s x
      | none => s
  else if !mgt && !accepts s m.h then dropRx (discardMsg p 0 m s)
  else s

/-! ### Flits -/

/-- The next slots of a data flit (R303): a pad slot, or slots of a message, which is at ingress once its last one has come. A message that begins while
another is not complete takes its place (DESIGN CHOICE, log entry 13). -/
def takeSlots (p : Nat) (s : State) (x : FlitPiece) : State :=
  match x with
  | .pad => s
  | .part m n =>
    let got := n + match (link s p).part with
      | some (m', k) => if m' = m then k else 0
      | none => 0
    if got < slotsOf m then setLink p { link s p with part := some (m, got) } s
    else ingress p (setLink p { link s p with part := none } s) m

/-- DATA_FLIT (R301, R303, R306): accepted in sequence, otherwise discarded, with NAK on a gap. -/
def opDataFlit (p : IPort) (f : FlitHead) (ps : List FlitPiece) (s : State) : State :=
  if !receives s p then s
  else
    let x := checkFlit p f s
    if !x.1 then x.2
    else
      let s := linkHead p f x.2
      let k := link s p
      if f.seq.toNat ≠ k.expect then (if seqAfter f.seq.toNat k.expect then sendNak p s else s)
      else
        let s := setLink p { k with expect := (k.expect + 1) % 1024, sinceAck := k.sinceAck + 1, nakSent := false } s
        let s := ps.foldl (takeSlots p) (count (aIpCnt p 1) 1 s)
        if (link s p).sinceAck ≥ 16 then reportAck p s else s

/-- The sender's answer to a NAK (R306): every flit after ACK again, or a retrain after RLIM NAKs of one flit (R309). -/
def nakIn (p : Nat) (f : FlitHead) (s : State) : State :=
  let k := link s p
  let n := if k.naks ≠ 0 ∧ k.nakAt = f.ack.toNat then k.naks + 1 else 1
  let s := setLink p { k with naks := n, nakAt := f.ack.toNat } s
  if n ≥ rdFld s (aIpCtl p) 12 4 then retrain p false s else sendAgain p k.retry s

/-- CONTROL_FLIT (R305, R306). -/
def opControlFlit (p : IPort) (f : FlitHead) (s : State) : State :=
  if !receives s p then s
  else
    let x := checkFlit p f s
    if !x.1 then x.2
    else if f.nak then nakIn p f (linkHead p f x.2) else linkHead p f x.2

/-- NAK (R306). -/
def opNak (p : IPort) (f : FlitHead) (s : State) : State :=
  if !receives s p then s
  else
    let x := checkFlit p f s
    if x.1 then nakIn p f (linkHead p f x.2) else x.2

/-- ACK_TIMEOUT (R306): from the oldest flit outstanding. -/
def opAckTimeout (p : IPort) (s : State) : State := if receives s p then sendAgain p (link s p).retry s else s

/-- ACK_REPORT_TIMER (R306). -/
def opAckReportTimer (p : IPort) (s : State) : State := if receives s p then reportAck p s else s

/-! ### Training and failure -/

/-- A port enters FAILED; a message that it holds in part is discarded; the hub asks its peer, over its other routes, for the last SEQ it accepted (R311). LkSeqQ and LkSeqR carry the
addressed hub's port in XTRA[3:0] and SEQ in XTRA[13:4] (DESIGN CHOICE, log entry 14). -/
def failPort (p : Nat) (s : State) : State :=
  let s := setLinkState p 5 (setLink p { link s p with part := none } s)
  let peer := rd s (aIpPeer p)
  if (link s p).retry.isEmpty ∨ bit peer 16 = false then setLink p { link s p with retry := [] } s
  else
    let h := { mkHdr s 0 7 (epochNow s) 0 0 0 with xtra := BitVec.ofNat 64 (fld peer 12 4) }
    send0 .lkSeqQ (BitVec.ofNat 12 (fld peer 0 12)) h (setLink p { link s p with lkWait := true } s)

/-- PEER_DETECTED (R308): DETECT to TRAIN; an enabled port that has not left DISABLED since reset seeks a peer too (DEDUCED, log entry 15). -/
def opPeerDetected (p : IPort) (s : State) : State :=
  if rdBit s (aIpCtl p) 0 && (linkState s p = 1 || linkState s p = 0) then setLinkState p 2 s else s

/-- What a training does to the buffers (R305): the counts are the buffer sizes again, for what lies in the receive buffer the sender is owed nothing, and
the flits held to be sent again are charged anew. -/
def resetCredits (p : Nat) (s : State) : State :=
  let k := link s p
  let s := { s with rx := s.rx.map fun x => if x.port = p then { x with owed := false } else x }
  setLink p { k with used := (k.retry.flatMap (·.2)).foldl (fun u m => takeCredits m u) [], mine := [], owe := [] } s

/-- The parameters and keys that full training leaves (R308, R458, R459, R461). -/
def takeParams (p : Nat) (peer : PeerParams) (s : State) : State :=
  let x := drawFree s
  let s := x.2
  let psk := (link s p).psk
  let s := wr (aIpPeer p) (mkWord [(0, 12, peer.hub.toNat), (12, 4, peer.port.toNat), (16, 1, 1)]) (wr (aIpPser p) peer.serial s)
  let s := wrFld aSlLpsk p 1 psk.isSome.toNat s
  setLink p { link s p with key := some (Config.linkKey p peer.serial (psk.getD 0) x.1), wires := 0, full := false, spare := peer.spare,
                            naks := 0, nakSent := false } s

/-- A training ends (R305, R308, R458): keys, parameters and buffer counts; a peer that fails authentication leaves the port in FAILED. -/
def linkTrained (p : IPort) (peer : PeerParams) (s : State) : State :=
  let st := linkState s p
  if st = 2 || (st = 4 && (link s p).full) then
    if !peer.authOk then failPort p (fire 235 1 (oPort 2 p) s)
    else
      let s := fire 235 0 (oPort 2 p) (takeParams p peer s)
      if st = 4 then sendAgain p (link s p).retry (setLinkState p 3 (resetCredits p s))
      else setLinkState p 3 (resetCredits p (setLink p { link s p with seq := 0, retry := [], orig := [], expect := 0, sinceAck := 0, part := none } s))
  else s

/-- TRAIN_TIMEOUT (R308). -/
def opTrainTimeout (p : IPort) (s : State) : State := if linkState s p = 2 then failPort p s else s

/-- RETRAIN_DONE (R308, R309): ACTIVE again; the flits held are sent. -/
def opRetrainDone (p : IPort) (s : State) : State :=
  if linkState s p = 4 && !(link s p).full then
    sendAgain p (link s p).retry (setLinkState p 3 (setLink p { link s p with nakSent := false, naks := 0 } s))
  else s

/-- FAST_RETRAIN_TIMEOUT (R308): full training. -/
def opFastRetrainTimeout (p : IPort) (s : State) : State :=
  if linkState s p = 4 then setLink p { link s p with full := true } s else s

/-- RETRAIN_FAIL_TIMEOUT (R308, R311). -/
def opRetrainFailTimeout (p : IPort) (s : State) : State := if linkState s p = 4 then failPort p s else s

/-- FEC_LOCK_LOSS (R309). -/
def opFecLockLoss (p : IPort) (s : State) : State := retrain p false s

/-- LANE_FAULT (R310): spared in a retrain; with no spare a lane that lost lock fails the port, and a lane over the threshold only raises
its event. A threshold of 0 is off. A peer that is not spare-capable counts as no spare (DESIGN CHOICE, log entry 116). -/
def opLaneFault (p : IPort) (lane : Nat) (lost : Bool) (s : State) : State :=
  if linkState s p ≠ 3 || (!lost && rdFld s (aIpCtl p) 4 8 = 0) then s
  else if rdBit s (aIpCtl p) 1 && (link s p).spare && !rdBit s (aIpStat p) 3 then
    let s := wrFld (aIpStat p) 4 2 (lane % 4) (wrFld (aIpStat p) 3 1 1 s)
    retrain p false (fire (98 + 4 * p) 0 (oPort 2 p) s)
  else
    let s := fire (98 + 4 * p) 1 (oPort 2 p) s
    if lost then failPort p s else s

/-- LKSEQQ (R311): the last SEQ accepted on the failed link. -/
def opLkseqq (h : Hdr) (_payload : BitVec 512) (s : State) : State :=
  let s := takeRx .lkSeqQ h s
  let p := h.xtra.toNat % 16
  if p ≥ 12 then s
  else
    let x := rdFld s (aIpPeer p) 12 4 + lastGood (link s p) * 16
    send0 .lkSeqR h.src { mkHdr s 0 h.tc.toNat h.epoch.toNat 0 0 0 with xtra := BitVec.ofNat 64 x } s

/-- LKSEQR (R311, R315): the messages after that SEQ are sent again on other outputs. -/
def opLkseqr (h : Hdr) (_payload : BitVec 512) (s : State) : State :=
  let s := takeRx .lkSeqR h s
  let p := h.xtra.toNat % 16
  let n := h.xtra.toNat / 16 % 1024
  if p ≥ 12 || !(link s p).lkWait then s
  else
    let k := link s p
    let ms := ((k.retry.filter fun e => seqAfter e.1 n).flatMap fun e => e.2.map fun m => (m, mgetD (36, false) k.orig e.1)).filter fun x => !x.1.sr
    let s := setLink p { k with retry := [], orig := [], lkWait := false } s
    ms.foldl (fun s x => reroute x.1 x.2.1 x.2.2 [] s) s

/-- LKSEQ_TIMEOUT (R311): the unacknowledged flits are discarded. -/
def opLkseqTimeout (p : IPort) (s : State) : State :=
  if (link s p).lkWait then setLink p { link s p with retry := [], lkWait := false } s else s

/-! ### What register writes and commands ask of a port -/

/-- IP_CTL.EN := 1 (R308): DISABLED or FAILED to DETECT. -/
def enableIdior (p : Nat) (s : State) : State := if linkState s p = 0 ∨ linkState s p = 5 then setLinkState p 1 s else s

/-- IP_CTL.EN := 0 (R308): DISABLED. -/
def disableIdior (p : Nat) (s : State) : State := setLinkState p 0 s

/-- IP_CTL.RTR (R309): a retrain, or DETECT from FAILED. -/
def retrainRequest (p : Nat) (s : State) : State := if linkState s p = 5 then setLinkState p 1 s else retrain p false s

/-- A pre-shared key loaded; a full training of the port starts (R459). -/
def loadLinkKey (p : Nat) (k : BitVec 256) (s : State) : State :=
  let s := setLink p { link s p with psk := some k } s
  let st := linkState s p
  if st = 3 then setLinkState p 4 (setLink p { link s p with full := true } s)
  else if st = 4 then setLink p { link s p with full := true } s
  else if st = 0 then s else setLinkState p 1 s

end Sys2Proof.Machine
end

