-- ==== Sys2Proof/Machine/Deaths.lean ====
section
/-! DEFINITION. Deaths of hubs, joins, the root, takeovers (04 R149 to R157, 08 R312, R324 to R336, R346 to R352). XTRA and the slots of
management messages are laid out as log entry 28 says. -/

namespace Sys2Proof.Machine

/-! ### Management messages -/

/-- This hub is root (FB_STAT.ROOT). -/
def isRoot (s : State) : Bool := rdBit s aFbStat 2

/-- The root's hub ID, where one is known. -/
def rootId (s : State) : Option HubId := if rdBit s aFbStat 3 then some (BitVec.ofNat 12 (rdFld s aFbStat 4 12)) else none

/-- The hubs other than this one with a live incarnation (FB_INC). -/
def liveHubs (s : State) : List HubId :=
  (s.regs.flatMap fun e =>
    let a := 8 * e.1
    if aFbInc 0 ≤ a ∧ a < aFbInc 1024 then
      ((List.range 4).filter fun j => fld e.2 (16 * j) 8 ≠ 0).map fun j => BitVec.ofNat 12 (4 * ((a - aFbInc 0) / 8) + j)
    else []).filter fun h => h ≠ hubId s

/-- A management message of this hub, in best effort (R302). -/
def mgtMsg (s : State) (opc : Opc) (dst : HubId) (xtra : Nat) (len : Nat) (payload : BitVec 512) : Msg :=
  { opc := opc, dst := dst, dl := false, sr := false, hops := 0, len := BitVec.ofNat 3 len,
    h := { mkHdr s 0 7 (epochNow s) 0 0 0 with xtra := BitVec.ofNat 64 xtra }, data := ⟨payload, 0⟩ }

/-- Pelest, as an input of the Boards (Table 06.5): it issues the management messages. -/
def pelestInput : Nat := 52

/-- The port by which a management message leaves before there is a route to its hub (R325): the upstream port to the root, and as root the port through
which the hub's own messages came. -/
def mgtPort (s : State) (dst : HubId) : Option Nat :=
  if isRoot s then (mget s.fab.via dst.toNat).filter (portActive s) else if rootId s = some dst then upstream s else none

/-- A management message leaves by the route tables, or without a route along the upstream ports (R325); its payload is read from `cells`. -/
def sendMgt (opc : Opc) (dst : HubId) (xtra len : Nat) (payload : BitVec 512) (s : State) (cells : List Nat := []) : State :=
  let m := mgtMsg s opc dst xtra len payload
  match hasRoute s dst, mgtPort s dst with
  | false, some p => egress p pelestInput cells m s
  | _, _ => dispatch pelestInput cells m s

/-- A management message to every live hub; each reads its payload from `cells`. -/
def toAll (opc : Opc) (xtra len : Nat) (payload : BitVec 512) (s : State) (cells : List Nat := []) : State :=
  (liveHubs s).foldl (fun s h => sendMgt opc h xtra len payload (moreReaders cells s) cells) s

/-! ### The incarnation table (R156, R328) -/

/-- ACC of hub `h` set, and LAST where it is admitted. -/
def setAcc (h : HubId) (acc : Nat) (s : State) : State :=
  let a := aFbInc (h.toNat / 4)
  let j := 16 * (h.toNat % 4)
  let s := wrFld a j 8 acc s
  if acc = 0 then s else wrFld a (j + 8) 8 acc s

/-- The last incarnation admitted for hub `h`. -/
def lastInc (s : State) (h : HubId) : Nat := rdFld s (aFbInc (h.toNat / 4)) (16 * (h.toNat % 4) + 8) 8

/-! ### The start of a warm or hub reset (R290, R331) -/

/-- A flush that ends in a reset begins: admission stops. -/
def beginReset (hub : Bool) (cause : Nat) (s : State) : State :=
  match s.part.phase with
  | .ready => { s with part := { s.part with phase := .flush hub }, ports := { s.ports with closed := true }, pwr := { s.pwr with cause := cause } }
  | _ => s

/-! ### Reclaim at a home (R152, Table 04.10) -/

/-- A transaction's requester is the hub. -/
def askedBy (h : HubId) (t : Txn) : Bool := match t.rq with
  | .remote q => q.rqh = h
  | _ => false

/-- The entry of this line is left to the line's open transaction: it names the dead hub only as the requester of a grant not yet made, or holds a
write-back that the hub had sent. -/
def leftOpen (h : HubId) (s : State) (l : LineAddr) : Bool :=
  (txnOf s l).any fun t => (askedBy h t && !t.answered && decide (t.owner ≠ some h)) || t.wbs.any fun w => w.hub = h

/-- Every other directory entry that names the dead hub reclaimed. -/
def reclaimDir (h : HubId) (s : State) : State :=
  (s.dir.filter fun e => h ∈ ptrs s e.2 && !leftOpen h s (dirLine s e.1 e.2)).foldl (fun s e => reclaimEntry h (dirLine s e.1 e.2) s) s

/-- An open transaction after the death of hub `h`; a write-back that the hub had sent is kept and applied. -/
def reclaimTxn (h : HubId) (s : State) (l : LineAddr) : State :=
  match txnOf s l with
  | none => s
  | some t =>
    let open_ := t.snps.any fun x => x.hub = h && x.ans.isNone
    let late := t.snps.any fun x => x.hub = h && (match x.ans with | some a => a.e && !t.wbs.any fun w => w.hub = h | none => false)
    let held := t.wbs.any fun w => w.hub = h
    let s := if open_ && !held && t.owner = some h then makeL l s else s
    let fix := fun (x : SnpOut) =>
      if x.hub ≠ h then x
      else match x.ans with
        | none => { x with ans := some ⟨held, false, false, false, !held⟩ }
        | some a => if a.e && late then { x with ans := some { a with imputed := true } } else x
    let t := { t with snps := t.snps.map fix, fin := t.fin || askedBy h t, last := if askedBy h t then none else t.last }
    progress l (setTxn t s)

/-- Requests of the hub that wait are dropped, their table entries freed. -/
def dropWaiting (h : HubId) (s : State) : State :=
  let keep := fun (t : Txn) => !askedBy h t
  let cs := ((s.home.waiting ++ s.home.input ++ s.home.wayWait.map fun x => x.2.2).filter (askedBy h)).flatMap fun t => t.cells
  doneReading cs { s with home := { s.home with waiting := s.home.waiting.filter keep, input := s.home.input.filter keep,
                                                wayWait := s.home.wayWait.filter fun x => keep x.2.2 } }

/-! ### Reclaim at a requester (R153) -/

/-- The lines homed on hub `h` that the cache or the host filter holds. -/
def linesOf (h : HubId) (s : State) : List LineAddr :=
  ((s.hc.ways.flatMap fun e => (e.2.st.map fun x => lineAt s e.2.addr x.1)) ++ s.hf.map fun e => hfLine e.1 e.2).eraseDups.filter
    fun l => homeOf l = h

/-- A line of the dead home given up without a message: its hosts are purged, and dirty data is lost and logged, once the host that may hold it newer
has answered. -/
def giveUp (s : State) (l : LineAddr) : State :=
  let dirty := if standing s l = .m then some (cacheData s l) else none
  withHosts l 2 (hostsOf s l) 7 (epochNow s) .drop (fun s => if dirty.isSome then fire 196 2 (oLine l) s else s) (dropLine l s) dirty

/-- Write-backs that wait for the dead home's `WbAck`: dirty ones are lost and logged. -/
def dropEvictions (h : HubId) (s : State) : State :=
  let mine := s.hc.evt.filter fun e => !e.own && homeTarget s e.line = h
  let s := { s with hc := { s.hc with evt := s.hc.evt.filter fun e => e.own || homeTarget s e.line ≠ h } }
  mine.foldl (fun s e =>
    let s := if e.dirty then fire 196 2 (oLine e.line) s else s
    retryAll (fun w d => d.line = e.line && (w = .line || w = .atomRel)) s) s

/-- Miss registers that wait for the hub hold their demands until a `TkNote` or the end of the wait. -/
def deadRegs (h : HubId) (s : State) : State :=
  let mark := fun (e : Nat × MissReg) => if e.2.dst = h && e.2.kind ≠ .own then (e.1, { e.2 with dead := true }) else e
  { s with req := { s.req with mrs := s.req.mrs.map mark } }

/-- Fences that wait for an answer of the dead hub (R281, R284). -/
def deadMember (h : HubId) (f : Fence) : Fence :=
  { f with members := f.members.filter (· ≠ h), homes := f.homes.filter (· ≠ h), dead := f.dead || h ∈ f.members || h ∈ f.homes }

/-- This hub's guarded ranges are exposed: its buddy is dead (R346). -/
def expose (s : State) : State :=
  let s := wrFld aFbBuddy 0 2 3 { s with mir := { s.mir with sent := [], held := [], tries := 0 } }
  settleOwed (fire 202 0 (oHub (buddy s)) s)

/-- The messages in transit to the dead hub that wait in their receive buffers are discarded (R318). -/
def dropTransitTo (h : HubId) (s : State) : State :=
  (s.rx.filter fun x => x.m.dst = h).foldl (fun s x => freeRx x { s with rx := s.rx.erase x }) s

/-- The reclaim of a dead hub applied at this hub, once (R151 to R154, R156). -/
def applyDeath (h : HubId) (s : State) : State :=
  if deadWait s h ≠ 0 then s
  else
    let s := doneReading ((s.routeWait.filter fun x => x.1.dst = h).flatMap (·.2)) (setAcc h 0 s)
    let s := { s with fab := { s.fab with dead := mset s.fab.dead h.toNat 1, reclaims := s.fab.reclaims ++ [h] },
                      routeWait := s.routeWait.filter (fun x => x.1.dst ≠ h), sweep := s.sweep.filter (· ≠ h) }
    let s := dropWaiting h (reclaimDir h (dropTransitTo h s))
    let s := (s.home.opened.map fun t => t.line).foldl (reclaimTxn h) s
    let s := deadRegs h s
    let s := (linesOf h s).foldl giveUp (dropEvictions h s)
    let left := fun (e : Nat × List HubId) => if e.2.all (· = h) then none else some (e.1, e.2.filter (· ≠ h))
    let s := { s with ports := { s.ports with fences := s.ports.fences.map fun e => (e.1, deadMember h e.2), stale := s.ports.stale.filterMap left } }
    let s := if rdFld s aFbBuddy 0 2 = 2 ∧ buddy s = h then expose s else s
    advanceFences s

/-! ### Declaring a death (R151, R330) -/

/-- XTRA of a message that names a hub and a cause. -/
def xHub (h : HubId) (cause : Nat) : Nat := h.toNat + cause * 2 ^ 12

/-- The root declares a death: `DhNote` to every hub, the dead one included; later reports are discarded until it rejoins (R330). -/
def rootDeclare (h : HubId) (cause : Nat) (s : State) : State :=
  if (mget s.fab.deaths h.toNat).isSome then s
  else
    let live := (liveHubs s).filter (· ≠ h)
    let s := { s with fab := { s.fab with deaths := mset s.fab.deaths h.toNat (s.time.ft, hubId s :: live) } }
    ((h :: live).filter (· ≠ hubId s)).foldl (fun s x => sendMgt .dhNote x (xHub h cause) 0 0 s) s

/-- The report of a death goes to the root (R330). -/
def reportDeath (h : HubId) (cause : Nat) (s : State) : State :=
  if isRoot s then rootDeclare h cause s
  else match rootId s with
    | some r => sendMgt .dhRpt r (xHub h cause) 0 0 s
    | none => s

/-- The messages of other hubs that wait at the egress Boards are discarded (R331). -/
def dropTransit (s : State) : State :=
  (List.range 12).foldl (fun s q =>
    let theirs := fun (w : Waiter) => match w.item with | .msg m => decide (m.h.src ≠ hubId s) | _ => false
    let ws := mgetD [] s.brd.wait (56 + q)
    if ws.any theirs then
      doneReading ((ws.filter theirs).flatMap fun w => w.cells)
        { s with brd := { s.brd with wait := mput [] s.brd.wait (56 + q) (ws.filter fun w => !theirs w) } }
    else s) s

/-- The hub reports itself with cause PLANNED, and forwards nothing from then on (R331). -/
def reportSelf (s : State) : State := dropTransit (wrFld aFbStat 0 2 3 (reportDeath (hubId s) 3 s))

/-! ### Takeover (R347, R350) -/

/-- What a takeover lists: base and size of each range. -/
def tkRanges (s : State) (ns : List Nat) : List (Nat × Nat) :=
  ns.map fun n => (rdFld s (aFbMir n) 16 12, rdFld s (aFbMir n) 32 13)

/-- The ranges of a `TkNote` as its payload: each in 32 bits, as in FB_TKO. -/
def tkPayload (rs : List (Nat × Nat)) : BitVec 512 :=
  BitVec.ofNat 512 (rs.reverse.foldl (fun n r => n * 2 ^ 32 + (r.1 + r.2 * 2 ^ 12)) 0)

/-- A takeover recorded in the first free entry of FB_TKO (R350); false where all 64 are in use. -/
def recordTk (dead bud : HubId) (n : Nat) (payload : BitVec 512) (s : State) : Bool × State :=
  match (List.range 64).find? fun i => !rdBit s (aFbTko i) 0 with
  | none => (false, fire 200 2 (oHub dead) s)
  | some i =>
    let s := wr (aFbTko i) (mkWord [(0, 1, 1), (1, 12, dead.toNat), (13, 12, bud.toNat), (25, 4, min n 8)]) s
    let s := (List.range 4).foldl (fun s k => wr (aFbTko i + 8 * (k + 1)) (BitVec.ofNat 64 (payload.toNat >>> (64 * k))) s) s
    (true, fire 200 1 (oHub dead) s)

/-- The demands that waited for the dead home go on: to the buddy where a takeover covers the line, else they are answered without it
(R153); EV203 in both cases. -/
def resolveRegs (h : HubId) (s : State) : State :=
  let mine := s.req.mrs.filter fun e => e.2.dead && e.2.dst = h
  mine.foldl (fun s e =>
    let m := e.2
    let s := fire 203 0 (oLine m.line) s
    match tkoBuddy s m.line with
    | some b =>
      if b = hubId s then
        let s := mrFree e.1 s
        m.demands.foldl (fun s d => demand d s) s
      else
        let m' := { m with dst := b, dead := false, gnt := none, fwd := none }
        sendMr e.1 m' (noteAgain m' (mrPut e.1 m' s))
    | none =>
      let s := if m.keepM.isSome then fire 196 2 (oLine m.line) s else s
      let s := doneReading m.cells (mrFree e.1 s)
      m.demands.foldl (fun s d => answerDead d 5 s) s) s

/-- The wait for a `TkNote` of the home is over (R153, R350). -/
def waitOver (h : HubId) (s : State) : State :=
  let s := { s with fab := { s.fab with dead := mset s.fab.dead h.toNat 2 } }
  retryAll (fun w d => w = .home && homeOf d.line = h) (resolveRegs h s)

/-- A `TkNote` taken in at this hub (R350). -/
def takeTk (dead bud : HubId) (n : Nat) (payload : BitVec 512) (s : State) : State :=
  let x := recordTk dead bud n payload s
  if deadWait s dead = 1 then waitOver dead x.2 else x.2

/-- A message of a buddy that goes through the root to every hub. -/
def viaRoot (opc : Opc) (xtra len : Nat) (payload : BitVec 512) (s : State) : State :=
  if isRoot s then toAll opc xtra len payload s
  else match rootId s with
    | some r => sendMgt opc r xtra len payload s
    | none => s

/-- The buddy takes over (R347): SRV and RB in each complete entry, EV200 and a Tally record; then `TkNote` with the ranges, and a record of it. -/
def takeOver (s : State) : State :=
  let ns := (List.range 8).filter fun n => rdBit s (aFbMir n) 0 && rdBit s (aFbMir n) 3 && !rdBit s (aFbMir n) 1
  if ns.isEmpty then s
  else
    let p := buddy s
    let s := ns.foldl (fun s n => wrFld (aFbMir n) 1 2 3 s) { s with mir := { s.mir with gave := s.mir.gave.filter (· ∉ ns) } }
    let s := wrFld aFbBuddy 2 1 1 s
    let rs := tkRanges s ns
    let s := tallyAuto 35 (aFbMir 0) 200 0 (rd s aFbBuddy) (oHub p) (fire 200 0 (oHub p) s)
    let x := p.toNat + (hubId s).toNat * 2 ^ 12 + ns.length * 2 ^ 24
    let s := tallyAuto 35 aFbBuddy 200 1 (rd s aFbBuddy) (oHub p) (viaRoot .tkNote x 2 (tkPayload rs) s)
    if isRoot s then takeTk p (hubId s) ns.length (tkPayload rs) s else s

/-! ### A death notice (R331, R333, R347) -/

/-- What is sent again, once, on each `DhNote` (R333): requests without a response, not the registers that only keep a standing or a fill; a `WbD` from
its cell. -/
def resendAll (s : State) : State :=
  let regs := s.req.mrs.filter fun e => !e.2.dead && e.2.kind ≠ .own && e.2.gnt.isNone && e.2.fwd.isNone && e.2.stand.isNone && e.2.late.isNone
  let s := regs.foldl (fun s e => sendMr e.1 e.2 s) s
  let s := (s.hc.evt.filter fun e => !e.own).foldl (fun s e =>
    let h := mkHdr s e.line e.tc e.epoch (hubId s) 0 0
    if e.dirty then send .wbD (homeTarget s e.line) h e.data e.cells (moreReaders e.cells s) else send0 .evc (homeTarget s e.line) h s) s
  if mirrorOn s then s.mir.sent.foldl (fun s e => dispatch (sliceInput (sliceOf e.2.h.line)) [] e.2 s) s else s

/-- What a `DhNote` for another hub does (R333, R347): the reclaim, what is sent again, and the takeover of a halted or planned partner, or the wait for
that of any other. A hub whose
reclaim has ended already reports so again: the root counts the reports that follow its declaration (DEDUCED, log entry 97). -/
def noteEffects (h : HubId) (cause : Nat) (s : State) : State :=
  let partner := decide (buddy s = h) && decide (rdFld s aFbBuddy 0 2 ≥ 2)
  let ended := decide (deadWait s h ≠ 0) && decide (h ∉ s.fab.reclaims)
  let s := resendAll (applyDeath h s)
  let s := match ended, rootId s with
    | true, some r => if isRoot s then s else sendMgt .dhDone r (xHub h 0) 0 0 s
    | _, _ => s
  if !partner then s
  else if cause = 2 || cause = 3 then takeOver s
  else { s with mir := { s.mir with await := true } }

/-- A `DhNote` for hub `h` taken in (R330, R331, R333, R347). -/
def takeNote (h : HubId) (cause : Nat) (s : State) : State :=
  let s := fire 195 1 (oHub h) s
  if h = hubId s then
    beginReset true 6 (markDirty (wrFld aFbStat 0 2 3 s))
  else noteEffects h cause s

/-- `DhClear`: the rebuild of a served partner's ranges ends (R349). -/
def takeClear (h : HubId) (s : State) : State :=
  if buddy s = h then (List.range 8).foldl (fun s n => wrFld (aFbMir n) 2 1 0 s) s else s

/-- A hub's reclaim of `h` has ended, as the root counts it; the last one sends `DhClear`, which the root heeds itself (R336, R349). -/
def reclaimEnded (h by_ : HubId) (s : State) : State :=
  match mget s.fab.deaths h.toNat with
  | none => s
  | some (t, left) =>
    let left' := left.filter (· ≠ by_)
    let s := { s with fab := { s.fab with deaths := mset s.fab.deaths h.toNat (t, left') } }
    if left'.isEmpty && !left.isEmpty then takeClear h (toAll .dhClear (xHub h 0) 0 0 s) else s

/-- A live hub that dies no longer owes the root reclaims of others. -/
def dropOwing (h : HubId) (s : State) : State :=
  s.fab.deaths.foldl (fun s e => reclaimEnded (BitVec.ofNat 12 e.1) h s) s

/-- This hub declares another dead: Tally record, EV195, the report, the reclaim (R151); as root it is its own notice too (R330). -/
def declareDead (h : HubId) (cause : Nat) (s : State) : State :=
  if h = hubId s || !hubLive s h then s
  else
    let s := tallyAuto 35 0 195 0 (BitVec.ofNat 64 cause) (oHub h) (fire 195 0 (oHub h) s)
    let s := reportDeath h cause s
    if isRoot s then dropOwing h (noteEffects h cause s) else applyDeath h s

/-- What a reclaim still waits for: an entry that names the dead hub, a transaction of its, or a demand on its lines (R336). -/
def reclaimLeft (h : HubId) (s : State) : Bool :=
  s.dir.any (fun e => h ∈ ptrs s e.2) || s.home.opened.any (fun t => askedBy h t || t.snps.any fun x => x.hub = h && x.ans.isNone) ||
    s.req.mrs.any (fun e => e.2.dead && e.2.dst = h) || !(linesOf h s).isEmpty

/-! ### The root: joins, reclaims ended (R157, R328, R336) -/

/-- A hub that has never been in the fabric may join at once; any other once the reclaims of its previous incarnation have ended and 1 ms has passed
since its death was declared (R157). -/
def mayJoin (s : State) (h : HubId) : Bool :=
  match mget s.fab.deaths h.toNat with
  | none => lastInc s h = 0 || h = hubId s
  | some (t, left) => left.isEmpty && decide (t.toNat + 1000000 ≤ s.time.ft.toNat)

/-- This hub takes in that hub `h` is admitted with incarnation `inc` (R328): one it still held as live is dead and reborn (R157). -/
def takeAdmit (h : HubId) (inc : Nat) (s : State) : State :=
  let s := if h ≠ hubId s ∧ hubLive s h = true ∧ incOf s h ≠ inc then applyDeath h s else s
  let s := fire 199 0 (oHub h) (setAcc h inc s)
  let s := { s with fab := { s.fab with dead := mdel s.fab.dead h.toNat } }
  if h = hubId s then wrFld aFbStat 0 2 2 (wrFld aFbHubid 16 8 inc s) else s

/-- The tables that the joining hub's `JnAdmit` series carries (R328, R554): the takeover entries, then the words of FB_INC. -/
def joinTables (s : State) : List (Nat × BitVec 512) :=
  let tk := ((List.range 64).filter fun i => rdBit s (aFbTko i) 0).map fun i =>
    (3, BitVec.ofNat 512 ((List.range 5).foldl (fun n k => n + (rd s (aFbTko i + 8 * k)).toNat * 2 ^ (64 * k)) 0 + (i + 2 ^ 12) * 2 ^ 320))
  let inc := s.regs.filterMap fun e =>
    let a := 8 * e.1
    if aFbInc 0 ≤ a ∧ a < aFbInc 1024 then some (1, BitVec.ofNat 512 (e.2.toNat + ((a - aFbInc 0) / 8 + 2 ^ 13) * 2 ^ 64)) else none
  if tk.isEmpty && inc.isEmpty then [(1, 0)] else tk ++ inc

/-- The root admits hub `h`: `JnAdmit` to every hub, with the tables to the joining one (R328). -/
def admitJoin (h : HubId) (s : State) : State :=
  let l := lastInc s h
  let inc := if l = 255 then 1 else l + 1
  let x := h.toNat + inc * 2 ^ 16
  let s := { s with fab := { s.fab with joins := s.fab.joins.filter (· ≠ h), deaths := mdel s.fab.deaths h.toNat } }
  let s := ((liveHubs s).filter (· ≠ h)).foldl (fun s d => sendMgt .jnAdmit d x 0 0 s) s
  let s := takeAdmit h inc s
  if h = hubId s then s else (joinTables s).foldl (fun s p => sendMgt .jnAdmit h x p.1 p.2 s) s

/-- A join asked of the root: admitted now, or once it may be (R157). A hub that left without a death this root knows of is declared dead first, as
one that a hub reports by a timeout (DEDUCED, log entry 97). -/
def askJoin (h : HubId) (s : State) : State :=
  if mayJoin s h then admitJoin h s
  else
    let s := if h ∈ s.fab.joins then s else { s with fab := { s.fab with joins := s.fab.joins ++ [h] } }
    if (mget s.fab.deaths h.toNat).isSome then s else dropOwing h (takeNote h 0 (rootDeclare h 0 s))

/-! ### Commands: snoop timers and dead homes -/

/-- The output of the `k`-th further attempt of a snoop or response (R149): each other output of the route than the one it first took, in turn, or the
same. -/
def otherPort (s : State) (h : HubId) (first : Option Nat) (k : Nat) : Option Nat :=
  let ps := (setBits 12 (fld (route s h) 0 12)).filter (portActive s)
  match first with
  | none => ps.head?
  | some p =>
    let others := ps.filter (· ≠ p)
    if others.isEmpty then some p else others[(k - 1) % others.length]?

/-- SNOOP_TIMEOUT (R149): sent again, up to three times; then the hub is declared dead. -/
def opSnoopTimeout (line : LineAddr) (hub : HubId) (s : State) : State :=
  let l := inLine s line
  match txnOf s l with
  | none => s
  | some t => match t.snps.find? fun x => x.hub = hub && x.ans.isNone with
    | none => s
    | some x =>
      if x.tries ≥ 3 then declareDead hub 0 s
      else
        let more := fun (y : SnpOut) => if y.hub = hub ∧ y.ans = none then { y with tries := y.tries + 1 } else y
        let t := { t with snps := t.snps.map more }
        let s := setTxn t s
        let m : Msg := { opc := x.opc, dst := hub, dl := false, sr := false, hops := 0, len := 0, h := snpHdr s t x, data := Data.zero }
        match otherPort s hub (x.ports.head?.orElse fun _ => outPort s hub (channelOf m)) x.tries with
        | some p => egress p (sliceInput (sliceOf l)) [] m s
        | none => dispatch (sliceInput (sliceOf l)) [] m s

/-- RESPONSE_RESEND_TIMEOUT (R149): the home's last response to a requester that owes `Fin` is sent again, up to three times; then the requester is
declared dead. -/
def opResponseResendTimeout (line : LineAddr) (s : State) : State :=
  let l := inLine s line
  match txnOf s l with
  | none => s
  | some t => match t.last with
    | none => s
    | some m =>
      if !t.answered || t.fin then s
      else if t.tries ≥ 3 then declareDead m.dst 0 s
      else
        let s := setTxn { t with tries := t.tries + 1 } s
        match otherPort s m.dst t.ports.head? t.tries with
        | some p => egress p (sliceInput (sliceOf l)) [] m s
        | none => dispatch (sliceInput (sliceOf l)) [] m s

/-- DEAD_HOME_WAIT_EXPIRY (R153, R350). -/
def opDeadHomeWaitExpiry (hub : HubId) (s : State) : State := if deadWait s hub = 1 then waitOver hub s else s

/-- A transaction whose requester was forwarded the line and has not sent `Fin` (R335). -/
def forwardedOpen (t : Txn) : Bool :=
  let asked := match t.rq with | .remote _ => true | _ => false
  let grants := t.opc = .rdS || t.opc = .rdO || t.opc = .rdX || t.opc = .upg
  asked && grants && !t.fin && !t.probing &&
    ((t.answered && (match t.last with | none => true | some m => m.opc = .gntX && m.h.fw)) ||
      (!t.answered && t.snps.any fun x => !x.tgt && match x.ans with | some a => a.fw && !a.imputed | none => false))

/-- The probe of one transaction (R335): `SnpX` with TGT 1 to the requester. -/
def probe (s : State) (t : Txn) : State :=
  match t.rq with
  | .remote h =>
    if !hubLive s h.rqh then s
    else
      let x : SnpOut := ⟨h.rqh, .snpX, true, false, 1, none, (outPort s h.rqh (2 * classOf .snpX)).toList⟩
      let t := { t with probing := true, snps := t.snps ++ [x] }
      sendSnoop t (setTxn t s) x
  | _ => s

/-- PROBE_TIMER (R335). -/
def opProbeTimer (s : State) : State := (s.home.opened.filter forwardedOpen).foldl probe s

/-- TAKEOVER_WAIT_EXPIRY (R347): the wait after the partner's notice is over. -/
def opTakeoverWaitExpiry (s : State) : State :=
  if s.mir.await then takeOver { s with mir := { s.mir with await := false } } else s

/-- MIRROR_RESEND_TIMEOUT (R346). -/
def opMirrorResendTimeout (s : State) : State :=
  if !mirrorOn s || s.mir.sent.isEmpty then s
  else if s.mir.tries ≥ 2 then declareDead (buddy s) 0 s
  else
    let s := { s with mir := { s.mir with tries := s.mir.tries + 1 } }
    s.mir.sent.foldl (fun s e => dispatch (sliceInput (sliceOf e.2.h.line)) [] e.2 s) s

/-- ROUTE_LOSS_TIMEOUT (R332). -/
def opRouteLossTimeout (hub : HubId) (s : State) : State :=
  if (setBits 12 (fld (route s hub) 0 12)).any (portActive s) then s else declareDead hub 1 s

/-- HALT_FLIT (R301, R312): the port fails, as under R311, and the sender is reported dead at once. -/
def opHaltFlit (p : FlitIn) (sender : HubId) (_cause : BitVec 4) (s : State) : State :=
  let st := linkState s p.port
  if st ≠ 3 ∧ st ≠ 4 then s
  else
    let x := checkFlit p.port p.head s
    if x.1 then declareDead sender 2 (failPort p.port (linkHead p.port p.head x.2)) else x.2

/-! ### Commands: management messages -/

/-- The hub that XTRA names. -/
def hubIn (h : Hdr) : HubId := BitVec.ofNat 12 h.xtra.toNat

/-- DHRPT (R330): the root declares the first report of a hub. -/
def opDhrpt (h : Hdr) (_payload : BitVec 512) (s : State) : State :=
  let s := takeRx .dhRpt h s
  if !isRoot s then s
  else
    let d := hubIn h
    let cause := h.xtra.toNat / 2 ^ 12 % 16
    if (mget s.fab.deaths d.toNat).isSome then s
    else dropOwing d (takeNote d cause (rootDeclare d cause s))

/-- DHNOTE (R152, R330 to R333, R347). -/
def opDhnote (h : Hdr) (_payload : BitVec 512) (s : State) : State := takeNote (hubIn h) (h.xtra.toNat / 2 ^ 12 % 16) (takeRx .dhNote h s)

/-- DHDONE (R336). -/
def opDhdone (h : Hdr) (_payload : BitVec 512) (s : State) : State :=
  let s := takeRx .dhDone h s
  if !isRoot s then s
  else
    reclaimEnded (hubIn h) h.src s

/-- DHCLEAR (R349). -/
def opDhclear (h : Hdr) (_payload : BitVec 512) (s : State) : State := takeClear (hubIn h) (takeRx .dhClear h s)

/-- HUB_RECLAIM_END (R336): nothing of the dead hub's reclaim is left. -/
def opHubReclaimEnd (hub : HubId) (s : State) : State :=
  if hub ∉ s.fab.reclaims || reclaimLeft hub s then s
  else
    let s := fire 204 1 (oHub hub) { s with fab := { s.fab with reclaims := s.fab.reclaims.filter (· ≠ hub) } }
    if isRoot s then reclaimEnded hub (hubId s) s
    else match rootId s with
      | some r => sendMgt .dhDone r (xHub hub 0) 0 0 s
      | none => s

/-- TKNOTE (R20, R350): recorded, and passed on to every hub by the root, its payload through a cell. -/
def opTknote (h : Hdr) (payload : BitVec 512) (s : State) : State :=
  withPayload (.tknote h payload) .tkNote h (fun cs s =>
    let x := h.xtra.toNat
    let s := doneReading cs (if isRoot s then toAll .tkNote x 2 payload s cs else s)
    takeTk (BitVec.ofNat 12 x) (BitVec.ofNat 12 (x / 2 ^ 12)) (x / 2 ^ 24 % 16) payload s) s

/-- The takeover of hub `h` is over: its entries of FB_TKO clear (R352). -/
def clearTk (h : HubId) (s : State) : State :=
  ((List.range 64).filter fun i => rdBit s (aFbTko i) 0 && rdFld s (aFbTko i) 1 12 = h.toNat).foldl (fun s i =>
    (List.range 5).foldl (fun s k => wr (aFbTko i + 8 * k) 0 s) s) s

/-- TKBACK (R352). -/
def opTkback (h : Hdr) (_payload : BitVec 512) (s : State) : State :=
  let s := takeRx .tkBack h s
  let s := if isRoot s then toAll .tkBack h.xtra.toNat 0 0 s else s
  clearTk (hubIn h) s

/-- JNREQ (R328). -/
def opJnreq (h : Hdr) (_payload : BitVec 512) (s : State) : State :=
  let s := takeRx .jnReq h s
  if isRoot s then askJoin h.src s else s

/-- JOIN_ADMIT_DUE (R157). -/
def opJoinAdmitDue (hub : HubId) (s : State) : State :=
  if isRoot s && decide (hub ∈ s.fab.joins) && mayJoin s hub then admitJoin hub s else s

/-- The slots of a `JnAdmit` to the joining hub: a takeover entry or a word of FB_INC (log entry 28). -/
def takeJoinTable (payload : BitVec 512) (s : State) : State :=
  let n := payload.toNat
  if nfld n 320 13 / 2 ^ 12 = 1 then
    let i := nfld n 320 6
    (List.range 5).foldl (fun s k => wr (aFbTko i + 8 * k) (BitVec.ofNat 64 (n >>> (64 * k))) s) s
  else if nfld n 64 14 / 2 ^ 13 = 1 then wr (aFbInc (nfld n 64 10)) (BitVec.ofNat 64 n) s
  else s

/-- JNADMIT (R328). -/
def opJnadmit (h : Hdr) (payload : BitVec 512) (s : State) : State :=
  let d := hubIn h
  let inc := h.xtra.toNat / 2 ^ 16 % 256
  if d = hubId s then
    withPayload (.jnadmit h payload) .jnAdmit h (fun cs s =>
      let s := takeJoinTable payload (doneReading cs s)
      if rdFld s aFbHubid 16 8 = inc then s else takeAdmit d inc s) s
  else takeAdmit d inc (takeRx .jnAdmit h s)

/-! ### Discovery (R324 to R327) -/

/-- The key of a hub for the election: FB_ROOT.PRI, then its serial; the lower is the better (R324). -/
def ownKey (s : State) : Nat := rdFld s aFbRoot 0 8 * 2 ^ 64 + s.part.serial.toNat

/-- This hub becomes root, the sequence continuing at `q` (R324, R326). -/
def becomeRoot (q : Nat) (s : State) : State :=
  wr aFbRseq (BitVec.ofNat 64 (q % 2 ^ 32)) (wrFld aFbStat 2 14 (3 + (hubId s).toNat * 4) s)

/-- ROOT_SEQUENCE_TICK (R325). -/
def opRootSequenceTick (s : State) : State :=
  if isRoot s then wr aFbRseq (BitVec.ofNat 64 ((rdFld s aFbRseq 0 32 + 1) % 2 ^ 32)) s else s

/-- The root that this hub knew is silent: it knows none now, nor what its ports told of it, and an election may begin (R324). -/
def forgetRoot (s : State) : State := wrFld aFbStat 3 13 0 { s with fab := { s.fab with roots := [], best := 0, calm := 0 } }

/-- ROOT_SILENCE_TIMEOUT (R324, R326): the standby becomes root and declares the old root dead; any other hub knows no live root any more (DEDUCED, log
entry 118). -/
def opRootSilenceTimeout (s : State) : State :=
  if isRoot s then s
  else if !rdBit s aFbRoot 8 || rdFld s aFbRoot 9 12 ≠ (hubId s).toNat then forgetRoot s
  else
    let old := rootId s
    let s := becomeRoot (rdFld s aFbRseq 0 32 + 2 ^ 20) s
    match old with
    | some r => declareDead r 4 s
    | none => s

/-- ROOT_ELECTION (R324): the hub whose own key is the best it has seen, after 64 beacon periods without change. -/
def opRootElection (s : State) : State :=
  if (rootId s).isSome || s.fab.calm < 64 || (s.fab.best ≠ 0 && decide (s.fab.best ≤ ownKey s)) then s
  else becomeRoot (rdFld s aFbRseq 0 32) s

/-- A source-routed message of this hub with the output nibbles `n` (R319): nibble 0 is the hop that it makes itself, so HOPS is 1 as it leaves (DESIGN
CHOICE, log entry 109). -/
def routed (n : Nat) (m : Msg) : Msg :=
  { m with sr := true, hops := 1,
           h := { m.h with line := BitVec.ofNat 54 n, rqh := BitVec.ofNat 12 (n / 2 ^ 54), rtag := BitVec.ofNat 12 (n / 2 ^ 66),
                           htag := BitVec.ofNat 14 (n / 2 ^ 78), tgt := n.testBit 92, g := n.testBit 93, d := n.testBit 94, fw := n.testBit 95 } }

/-- A route that begins at output `p`: how a hub knows the rest the manual does not say, a free value (log entry 109). -/
def freeRoute (p : Nat) (s : State) : Nat × State :=
  let x := drawFree s
  let y := drawFree x.2
  (p + 16 * ((Config.freeWord x.1).toNat + (Config.freeWord y.1).toNat % 2 ^ 28 * 2 ^ 64), y.2)

/-- What this hub reports of one ACTIVE port, source-routed (R327, Table 08.5): serial and peer serial in the slot; strap, port and peer port in XTRA. -/
def reportPort (p : Nat) (s : State) : State :=
  match rootId s, upstream s with
  | some r, some q =>
    let x := s.part.latched.hubid.toNat + s.part.latched.hubidEn.toNat * 2 ^ 12 + p * 2 ^ 13 + rdFld s (aIpPeer p) 12 4 * 2 ^ 17
    let m := mgtMsg s .dsReport r x 1 (BitVec.ofNat 512 (s.part.serial.toNat + (rd s (aIpPser p)).toNat * 2 ^ 64))
    let n := freeRoute q s
    egress q pelestInput [] (routed n.1 m) n.2
  | _, _ => s

/-- One `DsReport` for each ACTIVE port, when the root becomes known (R327). -/
def reportPorts (s : State) : State := ((List.range 12).filter (portActive s)).foldl (fun s p => reportPort p s) s

/-- The serials that the root knows: its own and the reporters'. -/
def serials (s : State) : List Word := (s.part.serial :: s.fab.reports.map fun r => r.serial).eraseDups

/-- The peers of a serial: through which of its ports, to which serial. -/
def neighbours (s : State) (x : Word) : List (Nat × Word) :=
  if x = s.part.serial then ((List.range 12).filter (portActive s)).map fun p => (p, rd s (aIpPser p))
  else (s.fab.reports.filter fun r => r.serial = x).map fun r => (r.port, r.peer)

/-- A breadth-first search for the output nibbles from this hub to a serial (R319). -/
def pathTo (s : State) (dst : Word) : Nat → List (Word × List Nat) → Option (List Nat)
  | 0, _ => none
  | n + 1, front =>
    match front.find? fun x => x.1 = dst with
    | some x => some x.2
    | none => pathTo s dst n ((front.flatMap fun x => (neighbours s x.1).map fun y => (y.2, x.2 ++ [y.1])).take 4096)

/-- A source-routed `DsAssign` (R319, R327), its DST zero: a hub that has no ID takes it at the end of its route (DESIGN CHOICE, log entry 109). -/
def sendAssign (serial : Word) (x : Nat) (s : State) : State :=
  match pathTo s serial 25 [(s.part.serial, [])] with
  | some (p :: rest) =>
    egress p pelestInput [] (routed ((p :: rest).reverse.foldl (fun n q => n * 16 + q) 0) (mgtMsg s .dsAssign 0 x 0 0)) s
  | _ => s

/-- The strapped ID that a serial claims, if one. -/
def claimOf (s : State) (x : Word) : Option HubId :=
  if x = s.part.serial then (if rdBit s aFbHubid 12 then some (hubId s) else none)
  else (s.fab.reports.find? fun r => r.serial = x && r.route ≠ 0).map fun r => r.strap

/-- The lowest hub ID not given. -/
def freeId (s : State) : HubId := BitVec.ofNat 12 ((firstFree (fun i => s.fab.given.any fun g => g.2.toNat = i) 4096 0).getD 0)

/-- One serial gets its ID: the strapped one it claims unless a lower serial has it, or the lowest free one; none is told by bit 15 (R327). -/
def giveId (s : State) (x : Word) : State :=
  let tell := fun (h : HubId) (v : Nat) (s : State) =>
    if x = s.part.serial then
      (if rdBit s aFbHubid 12 then s else wrFld aFbHubid 0 16 (h.toNat + 2 ^ 12 + 3 * 2 ^ 13) s)
    else sendAssign x v s
  match claimOf s x with
  | some h =>
    if s.fab.given.any fun g => g.2 = h then tell h (2 ^ 15) s
    else tell h h.toNat { s with fab := { s.fab with given := s.fab.given ++ [(x, h)] } }
  | none =>
    let h := freeId s
    tell h h.toNat { s with fab := { s.fab with given := s.fab.given ++ [(x, h)] } }

/-- Insertion of a serial in ascending order. -/
def insSerial (x : Word) : List Word → List Word
  | [] => [x]
  | y :: t => if x.toNat ≤ y.toNat then x :: y :: t else y :: insSerial x t

/-- Once every reported peer has reported too, the root assigns the IDs: those claimed first, then the lowest free ones, each in ascending
order of serial (R327; when it begins is DEDUCED, log entry 29). -/
def assignIds (s : State) : State :=
  let all := serials s
  if !s.fab.reports.all (fun r => all.contains r.peer) then s
  else
    let new := (all.filter fun x => !s.fab.given.any fun g => g.1 = x).foldr insSerial []
    let s := (new.filter fun x => (claimOf s x).isSome).foldl giveId s
    (new.filter fun x => (claimOf s x).isNone).foldl giveId s

/-- A hub that reports a port once more is told its ID again (R327). -/
def tellAgain (r : DsRep) (s : State) : State :=
  match s.fab.given.find? fun g => g.1 = r.serial with
  | some g => if s.fab.reports.any (fun y => y.serial = r.serial && y.port = r.port) then sendAssign r.serial g.2.toNat s else s
  | none => s

/-- DSREPORT (R327): the topology kept, the IDs assigned; its payload passes through a cell (R20). -/
def opDsreport (h : Hdr) (payload : BitVec 512) (s : State) : State :=
  withPayload (.dsreport h payload) .dsReport h (fun cs s =>
  let s := doneReading cs s
  if !isRoot s then s
  else
    let x := h.xtra.toNat
    let r : DsRep := ⟨BitVec.ofNat 64 payload.toNat, BitVec.ofNat 12 x, nfld x 13 4, BitVec.ofNat 64 (payload.toNat / 2 ^ 64), nfld x 17 4, nfld x 12 1⟩
    let rest := s.fab.reports.filter fun y => !(y.serial = r.serial && y.port = r.port)
    assignIds { tellAgain r s with fab := { (tellAgain r s).fab with reports := rest ++ [r] } }) s

/-- LINK_TRAINED (R308, R327, R458): a port that becomes ACTIVE while the root is known is reported to it. -/
def opLinkTrained (p : IPort) (peer : PeerParams) (s : State) : State :=
  let t := linkTrained p peer s
  if !portActive t p || portActive s p then t
  else if isRoot t then assignIds t
  else reportPort p t

/-- DSASSIGN (R327): the ID that the root gives; with none given, EV195 and no join. -/
def opDsassign (h : Hdr) (_payload : BitVec 512) (s : State) : State :=
  let s := takeRx .dsAssign h s
  let x := h.xtra.toNat
  if x.testBit 15 then fire 195 2 (oHub (hubIn h)) (wrFld aFbHubid 12 3 0 s)
  else if rdBit s aFbHubid 12 then s
  else wrFld aFbHubid 0 16 (x % 2 ^ 12 + 2 ^ 12 + 3 * 2 ^ 13) s

end Sys2Proof.Machine
end

