-- ==== Sys2Proof/Machine/Boards.lean ====
section
/-! DEFINITION. The Boards (06 R232 to R259): arbitration, what a granted transfer does, the watchdog, and rewrites of squares. One
SQUARE_START makes the grants of its square; the last transfer granted stays in progress (DESIGN CHOICE, log entry 30). -/

namespace Sys2Proof.Machine

/-! ### Requesters -/

/-- A requester's index: 8 × input + class; the background engine's is 8 × 53 + 7 (R237). -/
def reqIndex (w : Waiter) : Nat := 8 * w.input + w.tc

/-- The heads of the requesters' queues, in arrival order: the first waiting transfer of each requester. -/
def headsOf : List Nat → List Waiter → List Waiter
  | _, [] => []
  | seen, w :: t => if reqIndex w ∈ seen then headsOf seen t else w :: headsOf (reqIndex w :: seen) t

/-- A transfer's link is up, and on Idior it has credits and a place in the retry buffer (R305, R306, R378, R562). -/
def linkTakes (s : State) (b : Nat) (w : Waiter) : Bool :=
  if b < 68 then match w.item with
    | .msg m => maySend s (b - 56) m
    | _ => true
  else if b < 76 then rdFld s (aDpStat (b - 68)) 0 3 ≠ 6 && !rdBit s (aDpStat (b - 68)) 9
  else rdFld s (aHpStat (b - 76)) 0 3 ≠ 5 && rdFld s (aHpStat (b - 76)) 0 3 ≠ 6

/-- A completion that stands before waiting transfer `w` in its queue for the same line. -/
def cmpAhead (s : State) (b : Nat) (w : Waiter) : Bool :=
  ((mgetD [] s.brd.wait b).takeWhile (· ≠ w)).any fun x => x.line = w.line && (match x.item with
    | .host (.memData _ _) | .host (.cmp _) | .host (.cmpS _) | .host (.cmpE _) => true
    | _ => false)

/-- A transfer may leave its Board now: its link takes it, and a `BIConflictAck` stays behind every `Cmp` issued for its line (R140). -/
def mayGo (s : State) (b : Nat) (w : Waiter) : Bool :=
  linkTakes s b w && (match w.item with
    | .host (.biConflictAck _) => !cmpAhead s b w
    | _ => true)

/-- Some square of Board `b` names background task `t`. -/
def hasSquare (s : State) (b t : Nat) : Bool := (List.range 512).any fun q => square s b q / 16 % 8 = t

/-- A transfer of the background engine whose task has squares on the Board waits for one of them (R257). -/
def tasked (s : State) (b : Nat) (w : Waiter) : Bool := decide (w.task ≠ 0) && hasSquare s b w.task

/-- The transfers that a background task may still have in a square (SB_BURST). -/
def burstLeft (s : State) (b t : Nat) : Bool := decide (mgetD 0 s.brd.burst b < rdFld s aSbBurst (4 * t) 4)

/-- The oldest waiting transfer of the background task that square entry `e` names, while its burst lasts (R238 step 2). -/
def taskWork (s : State) (b e : Nat) : Option Waiter :=
  let t := e / 16 % 8
  if t = 0 || !burstLeft s b t then none else (mgetD [] s.brd.wait b).find? fun w => w.task = t && mayGo s b w

/-- The requester that Board `b` grants in square `q`, with its rank (R238 steps 3 to 5). A background task that has squares on the Board takes no part
(R257). -/
def arbitrate (s : State) (b q : Nat) : Option (Waiter × Nat) :=
  let l := (headsOf [] ((mgetD [] s.brd.wait b).filter fun w => !tasked s b w)).filter (mayGo s b)
  (arbitrateAmong s b q (l.map fun w => (reqIndex w, w.tc, w.epoch))).bind fun x => (l.find? fun w => reqIndex w = x.1).map fun w => (w, x.2)

/-! ### Host links -/

/-- LS of host port `p` (Table of HP_STAT): CHG, and EV000 + 4p with CAUSE 1 for L0 entered, 2 for L0 left, 0 otherwise. -/
def setHostLink (p ls : Nat) (s : State) : State :=
  let old := rdFld s (aHpStat p) 0 3
  if old = ls then s
  else
    let s := rsq (aHpStat p) 9 (wrFld (aHpStat p) 0 3 ls s)
    fireSeq (4 * p) (if ls = 3 then 1 else if old = 3 then 2 else 0) (oPort 0 p) oNone (seqOf s (aHpStat p)) s

/-- The link of host port `p` is up: in L0, L0p, L1 or Recovery; a port whose training no command has reported counts as up while it is enabled
(DESIGN CHOICE, log entry 43). -/
def linkUp (s : State) (p : Nat) : Bool := rdBit s (aHpCtl p) 0 && decide (rdFld s (aHpStat p) 0 3 ∈ [0, 3, 4, 5, 6])

/-- The lanes of port `p` (R357). -/
def lanesOf (s : State) (p : Nat) : Nat := if aggOf s p = 1 then 8 else if aggOf s p = 2 then 16 else 4

/-- log2 of the lanes that port `p` has trained to. -/
def trainedLanes (s : State) (p : Nat) : Nat := (mget s.hst.lanes p).getD (Nat.log2 (lanesOf s p))

/-- Which side has narrowed port `p` (R561): narrowed by either it is in L0p, else in L0 at the width it has trained to. -/
def setNarrow (p v : Nat) (s0 : State) : State :=
  let s := if v = 0 then wrFld (aHpStat p) 3 3 (trainedLanes s0 p) s0 else s0
  setHostLink p (if v = 0 then 3 else 4) { s with hst := { s.hst with narrow := mput 0 s.hst.narrow p v } }

/-- A peer that trains: in FLIT mode, at 16 GT/s or more (Table 09.1). -/
def peerTrains (t : PcieTrain) : Bool := t.flit && t.rate ≠ 0

/-- A host link in L0 after a training: at the lesser width and the rate that it has come to (Table 09.1). -/
def trainHost (p : Nat) (t : PcieTrain) (s : State) : State :=
  let w := min (Nat.log2 (lanesOf s p)) t.width.toNat
  let s := { s with hst := { s.hst with lanes := mset s.hst.lanes p w } }
  wrFld (aHpStat p) 3 5 (w + 8 * t.rate.toNat) s

/-- A port that the hub has narrowed widens at its next message (R561). -/
def widen (p : Nat) (s : State) : State :=
  let v := mgetD 0 s.hst.narrow p
  if v < 2 then s else setNarrow p (v - 2) s

/-! ### Transfers -/

/-- A transfer to a host port is discarded: the port is out of service (R358), or its host's lines are still being taken back after a port reset,
where only the port station's own answers leave. -/
def toNobody (s : State) (b : Nat) (w : Waiter) : Bool :=
  decide (76 ≤ b) && (!linkUp s (b - 76) || (decide ((b - 76) ∈ s.hst.portReset) && decide (16 ≤ w.input)))

/-- A message whose port has left ACTIVE while it was leaving (R308, R311): in a retrain it is held with the flits that are sent after it; from a port that
sends no flits any more it goes to another output, or waits for its own where it names one. -/
def notSent (b : Nat) (w : Waiter) (m : Msg) (s : State) : State :=
  if linkState s (b - 56) = 4 then holdFlit (b - 56) m w.input w.dl0 (doneReading w.cells s)
  else if m.sr then enqueue b w s
  else reroute m w.input w.dl0 w.cells s

/-- A command that has left cellar port `d` is unanswered until its response or completion comes (R376); of two writes to one place the later stands. -/
def noteCommand (d : Nat) (w : Waiter) (c : CellCmd) (s : State) : State :=
  let same := fun (e : Nat × Waiter) => e.1 = d && (match e.2.item with
    | .cell x => x.place = c.place
    | _ => false)
  match c with
  | .gpf _ => s
  | _ => { s with cel := { s.cel with sent := s.cel.sent.filter (fun e => !same e) ++ [(d, w)] } }

/-- What a transfer carries has left, and its cells have one reader less (R27). -/
def leave (b : Nat) (w : Waiter) (s : State) : State :=
  let s := doneReading w.cells s
  let s := if toNobody s b w then s else emit (.xfer b w.item) s
  match w.item with
  | .msg m => if 56 ≤ b ∧ b < 68 then sendFlit (b - 56) m w.input w.dl0 s else s
  | .cell c => if 68 ≤ b ∧ b < 76 then noteCommand (b - 68) w c s else s
  | _ => s

/-- The transfer in progress has ended. -/
def complete (b : Nat) (s : State) : State :=
  match mget s.brd.run b with
  | none => s
  | some w =>
    let s := { s with brd := { s.brd with run := mdel s.brd.run b } }
    match w.item with
    | .msg m => if 56 ≤ b ∧ b < 68 ∧ portActive s (b - 56) = false then notSent b w m s else leave b w s
    | _ => leave b w s

/-- Waiting transfer `w` holds the resource of Board `b`. -/
def occupy (b : Nat) (w : Waiter) (s : State) : State :=
  let rest := match takeFirst (fun x => x = w) (mgetD [] s.brd.wait b) with
    | some (_, r) => r
    | none => []
  let s := { s with brd := { s.brd with wait := mput [] s.brd.wait b rest, run := mset s.brd.run b w } }
  if 76 ≤ b then widen (b - 76) s else s

/-- One grant of Board `b` in square `q` (R238): the transfer in progress ends. In a retraining square nothing else is granted; the task that the square
names comes first, within its burst; then the requester that arbitration chooses. -/
def grant (b q : Nat) (s : State) : State :=
  let s := complete b s
  let e := square s b q
  if e / 16 % 8 = 2 then s
  else match taskWork s b e with
    | some w => occupy b w { s with brd := { s.brd with burst := mput 0 s.brd.burst b (mgetD 0 s.brd.burst b + 1) } }
    | none => match arbitrate s b q with
      | some (w, k) => occupy b w (granted b (reqIndex w, k) s)
      | none => s

/-- Up to `n` grants. -/
def grants : Nat → Nat → Nat → State → State
  | 0, _, _, s => s
  | n + 1, b, q, s => grants n b q (grant b q s)

/-- A Board that does not exist on this variant, or whose port another Board governs (R233, R234). -/
def boardOff (s : State) (b : Nat) : Bool := (!isH1 s && decide (32 ≤ b) && decide (b < 48)) || (decide (76 ≤ b) && nonLead s (b - 76))

/-- SQUARE_START (R238): the entry of the square that FT names governs the grants of the Board; its burst count starts anew. A slice-input Board lets
requests that wait at its slice's input pass it (R18). -/
def opSquareStart (board : Fin 92) (s : State) : State :=
  let b := board.val
  if boardOff s b || (mget s.brd.biting b).isSome then s
  else if h : b < 32 then inputGrants ⟨b, h⟩ (boardK s b) s
  else grants (boardK s b) b (squareNow s) { s with brd := { s.brd with burst := mdel s.brd.burst b } }

/-! ### The watchdog (R243, R244) -/

/-- What a discarded transfer carries when it is sent again: poisoned where it carries data (R244). A MGT message carries no data with PZ bits: it is
sent unchanged, whatever its length (DESIGN CHOICE, log entry 99). -/
def poisonItem (x : Item) : Item :=
  let bad := fun (d : Data) => ({ d with pz := 0xFF } : Data)
  match x with
  | .msg m => if lenOf m.opc = 4 then .msg { m with data := bad m.data } else .msg m
  | .host (.memData t d) => .host (.memData t (bad d))
  | .host (.cplData t l d) => .host (.cplData t l (bad d))
  | .host (.cplOld t o _) => .host (.cplOld t o true)
  | .cell (.wrLine a g k x _) => .cell (.wrLine a g k x true)
  | .cell (.wrMac a g m _) => .cell (.wrMac a g m true)
  | .cell (.wrPart a g k x _) => .cell (.wrPart a g k x true)
  | .cell (.wrMeta a l i x _) => .cell (.wrMeta a l i x true)
  | x => x

/-- WATCHDOG_BITE (R243): the transfer in progress is discarded and the resource resets. -/
def opWatchdogBite (board : Fin 92) (s : State) : State :=
  let b := board.val
  match mget s.brd.run b with
  | none => s
  | some w =>
    let s := { s with brd := { s.brd with run := mdel s.brd.run b, biting := mset s.brd.biting b w } }
    let x := setFld (setFld (setFld (rd s aLdWdstat) 0 7 b) 8 6 w.input) 16 3 w.tc
    let s := rsq aLdWdstat 7 (wr aLdWdstat x s)
    fireSeq 240 0 (oVal b) (oVal (reqIndex w)) (seqOf s aLdWdstat) s

/-- The cellar writes of granule `g` on their way land poisoned: a persist fence that covers one ends with CODE 2 (Table 07.3). -/
def poisonedWrite (g : Nat) (s : State) : State :=
  (s.cel.ops.filter fun o => granOf o.line = g && o.written).foldl (fun s o => lostWrite o.id s) s

/-- WATCHDOG_RESET_END (R244): the source sends the discarded message once more; after a second bite it is dropped. -/
def opWatchdogResetEnd (board : Fin 92) (s : State) : State :=
  let b := board.val
  match mget s.brd.biting b with
  | none => s
  | some w =>
    let s := { s with brd := { s.brd with biting := mdel s.brd.biting b } }
    let s := match w.item with
      | .cell (.wrLine _ g _ _ _) => poisonedWrite g s
      | _ => s
    if w.bites ≥ 1 then doneReading w.cells s
    else { s with brd := { s.brd with wait := mset s.brd.wait b ({ w with item := poisonItem w.item, bites := 1 } :: mgetD [] s.brd.wait b) } }

/-! ### Rewrites (R252 to R255) -/

/-- The hold-over tier of a write to a square, from now on for SB_CTL.HOLD rounds (R253). -/
def addTier (b q : Nat) (s : State) : State :=
  let old := square s b q
  if old % 16 = 0 then s
  else { s with brd := { s.brd with tiers := s.brd.tiers ++ [⟨b, q, old % 16, epochNow s, rdFld s aSbCtl 0 8⟩] } }

/-- A square's entry replaced, with the budgets (R255). There are 92 Boards of 512 squares. -/
def applySquare (b q v : Nat) (s : State) : State :=
  if 92 ≤ b ∨ 512 ≤ q then s else
  let old := square s b q
  let passed := decide (q ≤ squareNow s)
  let key := 512 * b + q
  let olds := if passed && (mget s.brd.olds key).isNone then mset s.brd.olds key old else s.brd.olds
  recompute b (wrFld (aSbSq b (q / 8)) (8 * (q % 8)) 8 v { s with brd := { s.brd with olds := olds } })

/-- An accepted write to a square (R252 to R254): nothing where it keeps the value; a retraining square over a reserved one waits. The hold-over tier
begins with the write in both cases. A later write of the square, also one that keeps its value, takes the place of a retraining entry that still waits
(DESIGN CHOICE, log entry 100). -/
def writeSquare (b q v : Nat) (s : State) : State :=
  let v := v % 128
  let old := square s b q
  let s := { s with brd := { s.brd with deferred := s.brd.deferred.filter fun d => !(d.board = b && d.square = q) } }
  if v = old || decide (92 ≤ b) || decide (512 ≤ q) then s
  else
    let s := addTier b q s
    let s := if v / 16 = 2 ∧ old % 16 ≠ 0 then
        { s with brd := { s.brd with deferred := s.brd.deferred ++ [⟨b, q, v, rdFld s aSbCtl 0 8⟩] } }
      else applySquare b q v s
    fire 278 0 (oEnt 6 b q) s

/-- The eight squares of a word of SB_SQ written. -/
def writeSquares (b w : Nat) (v : Word) (s : State) : State := (List.range 8).foldl (fun s k => writeSquare b (8 * w + k) (fld v (8 * k) 8) s) s

/-- The squares of a `BOARD_WRITE` (R490): (Board, square, entry), each judged and recorded alone: an entry with bit 7 set is refused, and a square
of a Board that this variant lacks is ignored (R264). -/
def boardWrite (orig : Nat) (l : List (Nat × Nat × Word)) (s : State) : State :=
  l.foldl (fun s x =>
    let a := aSbSq x.1 (x.2.1 / 8)
    let no := decide (92 ≤ x.1) || decide (512 ≤ x.2.1) || (!isH1 s && decide (32 ≤ x.1) && decide (x.1 < 48))
    let old := rd s a
    if no || bit x.2.2 7 then tally orig 0 (if no then 3 else 1) (BitVec.ofNat 64 (a % 2 ^ 24)) (if no then 0 else old) x.2.2 0 s
    else
      let s := writeSquare x.1 x.2.1 (fld x.2.2 0 7) s
      tally orig 0 0 (BitVec.ofNat 64 a) old (rd s a) 0 s) s

/-- A deferred square whose round has come. -/
def applyDeferred (s : State) (d : Deferred) : State := applySquare d.board d.square d.entry s

/-- A count of an epoch that can still be charged (R248). -/
def stillCharged (now : Nat) (e : Nat × Nat) : Bool := decide ((now + 65536 - e.1 % 65536) % 65536 ≤ 8) || decide ((e.1 % 65536 + 65536 - now) % 65536 < 32768)

/-- Some droop record is not valid for full load (R568). -/
def wantsGuard (s : State) : Bool := (List.range 4).any fun q => !rdBit s (aPmCal (52 + q)) 24

/-- The Boards that have a budget. -/
def budgetBoards : List Nat := List.range 32 ++ (List.range 16).map fun p => 76 + p

/-- The guard band is entered or left, at the first square of a round (R568). -/
def guardGo (s : State) : State :=
  let g := wantsGuard s
  if rdBit s aPmStat 3 = g then s
  else
    let old := rd s aPmStat
    let s := wrFld aPmStat 3 1 g.toNat s
    let s := fireSeq 266 (if g then 2 else 3) oNone oNone (seqOf s aPmStat) s
    budgetBoards.foldl (fun s b => recompute b s) (tallyAuto 35 aPmStat 266 old (rd s aPmStat) oNone s)

/-- ROUND_START (R253 to R255, R568): the guard band, budgets of the round, hold-over rounds, deferred squares. -/
def opRoundStart (s : State) : State :=
  let bs := (s.brd.olds.map fun e => e.1 / 512).eraseDups
  let now := epochNow s
  let due := s.brd.deferred.filter fun d => d.left ≤ 1
  let s := { s with brd := { s.brd with olds := [], heldOnce := [], used := s.brd.used.filter (stillCharged now),
                                        tiers := (s.brd.tiers.filter fun t => t.left ≠ 0).map (fun t => { t with left := t.left - 1 }),
                                        deferred := (s.brd.deferred.filter fun d => ¬d.left ≤ 1).map fun d => { d with left := d.left - 1 } } }
  (bs ++ due.map fun d => d.board).foldl (fun s b => recompute b { s with brd := { s.brd with olds := [] } }) (guardGo (due.foldl applyDeferred s))

end Sys2Proof.Machine
end

