-- ==== Sys2Proof/Machine/Records.lean ====
section
/-! DEFINITION. Events, queues and counters (13) and the Tally's exporter and checkpoints (12 R498 to R504): the operations and the commands of
those families. -/

namespace Sys2Proof.Machine

/-! ### MSI-X (R511) -/

/-- MSIX_HOLDOFF_EXPIRY (R511): the remembered message is sent, unless its vector is masked. -/
def opMsixHoldoffExpiry (src : BitVec 9) (s : State) : State :=
  let n := src.toNat
  if n ∉ s.ev.msixOwed then s
  else
    let rt := rd s (aEvRt n)
    let vp := fld rt 17 4
    let vec := fld rt 21 6
    let e := { s.ev with msixOwed := s.ev.msixOwed.filter (· ≠ n) }
    if (mgetD 0 e.msixMask vp).testBit vec then
      { s with ev := { e with msixPend := mput 0 e.msixPend vp (mgetD 0 e.msixPend vp ||| 2 ^ vec) } }
    else emit (.msix vp vec) { s with ev := { e with msixLast := mset e.msixLast n s.time.ft.toNat } }

/-! ### Queues (R516 to R524) -/

/-- The next record of a bank in level order: the lowest level, the earliest within it (R519). -/
def nextRec (l : List QRec) : Option (QRec × List QRec) :=
  let m := l.foldl (fun m r => min m r.level) 4
  takeFirst (fun r => r.level = m) l

/-- A FLUSHED or EMPTY word, or a gap marker (Table 13.4). -/
def loneWord (s : State) (q type info : Nat) (time : Word) : Word := lenWord type 1 (rdFld s (aEqCtl q) 6 2) info time

/-- What a pop by port `p` returns now, with whether it is a length word, and the queue after; none where it has to wait. -/
def popNow (s : State) (q p : Nat) (x : Queue) : Option (Word × Bool × Queue) :=
  if x.flushed then some (loneWord s q 14 0 s.time.ft, true, { x with flushed := false })
  else match x.cur with
    | some (o, w :: rest) => if o = p then some (w, false, { x with cur := if rest.isEmpty then none else some (o, rest) }) else none
    | some (_, []) => none
    | none => match nextRec x.drain with
      | some (r, rest) => match r.words with
        | w :: ws => some (w, true, { x with drain := rest, cur := if ws.isEmpty then none else some (p, ws) })
        | [] => none
      | none => match x.drainGap with
        | some (t, n) => some (loneWord s q 8 n (BitVec.ofNat 64 t), true, { x with drainGap := none })
        | none => none

/-- An event of a queue (Table 13.9), with the SEQ of its status register. -/
def queueEvent (n q : Nat) (s : State) : State := fireSeq n 0 (oNum q) oNone (fld (queue s q).stat 48 16) s

/-- A word delivered to a port; one that fails parity is poisoned, but for a length word (R522). -/
def deliverPop (p q : Nat) (ok : Bool) (r : Word × Bool × Queue) (s : State) : State :=
  let bad := !ok && !r.2.1
  let x := if bad then { r.2.2 with stat := rsqSet r.2.2.stat 33 } else r.2.2
  let s := emit (.pop p q r.1 bad) (setQueue q x s)
  if bad then queueEvent 246 q s else s

/-- Waiting pops served in arrival order, as far as they can be (R524). -/
def servePops (q : Nat) : Nat → State → State
  | 0, s => s
  | n + 1, s =>
    let x := queue s q
    match takeFirst (fun p => (popNow s q p.1 x).isSome) x.waiting with
    | none => s
    | some (p, rest) => match popNow s q p.1 { x with waiting := rest } with
      | none => s
      | some r => servePops q n (deliverPop p.1 q p.2 r s)

/-- Every waiting pop that can be served is. -/
def servePopsAll (q : Nat) (s : State) : State := servePops q (queue s q).waiting.length s

/-- BANK_SWAP (R518). -/
def opBankSwap (q : BitVec 13) (s : State) : State :=
  let x := queue s q.toNat
  if !x.drain.isEmpty || x.drainGap.isSome || x.cur.isSome || x.fill.isEmpty then s
  else servePopsAll q.toNat (setQueue q.toNat { x with drain := x.fill, drainGap := x.fillGap, fill := [], fillGap := none } s)

/-- A port reaches the management window through BAR0: enabled, in host mode, the lead of its port. -/
def windowPort (s : State) (p : Nat) : Bool := rdBit s (aHpCtl p) 0 && hostMode s p && !nonLead s p

/-- The pops of a port whose host has gone, and what is held behind them, are discarded (R358). -/
def dropPops (p : Nat) (s : State) : State :=
  let qs := s.ev.queues.map fun e => (e.1, { e.2 with waiting := e.2.waiting.filter fun x => x.1 ≠ p })
  { s with ev := { s.ev with queues := qs.filter (fun e => e.2 ≠ {}), behind := s.ev.behind.filter fun x => x.1 ≠ p } }

/-- The number that bytes in address order spell. -/
def bytesNat (bytes : List (BitVec 8)) : Nat := bytes.foldr (fun b a => a * 256 + b.toNat) 0

/-- POP (R520, R524, R527): `ok` says that the word passed its parity check. The owner of a record takes its words also while others wait; once the
record has ended the others are served. A pop behind a waiting pop of its port is held. -/
def opPop (p : HPort) (q : BitVec 13) (ok : Bool) (s : State) : State :=
  let n := q.toNat
  if !windowPort s p then s
  else if popWaits s p then holdAccess p (.pop n ok) s
  else if !rdBit s (aEqAcc n) p then emit (.pop p n 0 false) (fire (1 + 4 * p) 7 (oPort 0 p) s)
  else if !rdBit s (aEqCtl n) 0 then emit (.pop p n (loneWord s n 15 0 s.time.ft) false) s
  else
    let x := queue s n
    let first := x.waiting.isEmpty || x.cur.any fun c => c.1 = p.val
    match (if first then popNow s n p x else none) with
    | some r => servePopsAll n (deliverPop p n ok r s)
    | none =>
      if rdFld s (aEqCtl n) 8 7 = 0 then emit (.pop p n (loneWord s n 15 0 s.time.ft) false) s
      else setQueue n { x with waiting := x.waiting ++ [(p.val, ok)] } s

/-- RECORD_OWNERSHIP_LAPSE (R520): the rest of the record is discarded. -/
def opRecordOwnershipLapse (q : BitVec 13) (s : State) : State :=
  let x := queue s q.toNat
  if x.cur.isNone then s
  else servePopsAll q.toNat (queueEvent 247 q.toNat (setQueue q.toNat { x with cur := none, stat := rsqSet x.stat 35 } s))

/-- POP_STALL_EXPIRY (R524): the pop that has waited longest returns EMPTY. -/
def opPopStallExpiry (q : BitVec 13) (s : State) : State :=
  let n := q.toNat
  let x := queue s n
  match x.waiting with
  | [] => s
  | p :: rest => emit (.pop p.1 n (loneWord s n 15 0 s.time.ft) false) (setQueue n { x with waiting := rest } s)

/-- The words of bytes in address order, little-endian. -/
def wordsOf (bytes : List (BitVec 8)) : List Word :=
  let n := bytesNat bytes
  (List.range (bytes.length / 8)).map fun i => BitVec.ofNat 64 (n / 2 ^ (64 * i))

/-- POST (R528): a notice record, or EV001 + 4p; held behind a waiting pop of its port (R527). -/
def opPost (p : HPort) (q : BitVec 13) (off : Nat) (bytes : List (BitVec 8)) (s : State) : State :=
  let n := bytes.length
  if !windowPort s p then s
  else if popWaits s p then holdAccess p (.bytes (0x400000 + 512 * q.toNat + off) n (bytesNat bytes)) s
  else if !rdBit s (aEqAcc q.toNat) (16 + p) || off % 8 ≠ 0 || n % 8 ≠ 0 || n = 0 || off < 0x100 || off + n > 0x140 then
    fire (1 + 4 * p) 7 (oPort 0 p) s
  else post q.toNat 7 p (wordsOf bytes) s

/-- EQ_CTL.FLUSH (R523): both banks empty, ownership ends; one FLUSHED word for each waiting pop, or for the next. -/
def flushQueue (q : Nat) (s : State) : State :=
  let x := queue s q
  let ws := x.waiting
  let y : Queue := { x with fill := [], fillGap := none, drain := [], drainGap := none, cur := none, waiting := [],
                            flushed := ws.isEmpty, stat := rsqSet x.stat 34 }
  queueEvent 250 q (ws.foldl (fun s p => emit (.pop p.1 q (loneWord s q 14 0 s.time.ft) false) s) (setQueue q y s))

/-- A queue enabled with banks of 2^`size` cells: two of them leave the pool (R29, R516). -/
def enableQueue (q size : Nat) (s : State) : State :=
  setQueue q { stat := (queue s q).stat, drop := (queue s q).drop } { s with ev := { s.ev with eqUsed := s.ev.eqUsed + 2 * 2 ^ size } }

/-- A queue disabled: its banks return to the pool, its records are discarded, waiting pops return EMPTY (R516, R524). -/
def disableQueue (q size : Nat) (s : State) : State :=
  let x := queue s q
  let s := setQueue q { stat := x.stat, drop := x.drop } { s with ev := { s.ev with eqUsed := s.ev.eqUsed - 2 * 2 ^ size } }
  x.waiting.foldl (fun s p => emit (.pop p.1 q (loneWord s q 15 0 s.time.ft) false) s) s

/-- EQ_STAT of queue `q` as it reads. -/
def eqStat (s : State) (q : Nat) : Word :=
  let x := queue s q
  let cur := match x.cur with
    | some (_, ws) => ws.length
    | none => 0
  setFld (setFld x.stat 0 16 (recWords x.fill + x.fillGap.isSome.toNat)) 16 16 (recWords x.drain + cur + x.drainGap.isSome.toNat)

/-! ### Counters (R481, R530 to R532) -/

/-- The live counters with the occupancy gauges of the directory and the host filter (DR_OCC0, DR_OCC1, HF_OCC). -/
def liveNow (s : State) : SMap Nat :=
  let n := fun (st : DSt) => s.dir.countP fun e => e.2.st = st
  let put := fun (a v : Nat) (m : SMap Nat) => mput 0 m (a / 8) v
  put aDrOcc0 (n .p + n .a * 2 ^ 32) (put aDrOcc1 (n .x + n .l * 2 ^ 32)
    (put aHfOcc (s.hf.length + (s.hf.countP fun e => e.2.hx) * 2 ^ 32) s.cnt.live))

/-- A snapshot: every counter latched into its holding register (R481). -/
def snapshot (src : Nat) (s : State) : State :=
  let st := rd s aGlSnapst
  let s := wr aGlSnapft s.time.ft { s with cnt := { s.cnt with hold := liveNow s } }
  wr aGlSnapst (setFld (setFld st 1 1 src) 16 16 (fld st 16 16 + 1)) s

/-- COUNTER_GATHER (R530): the counters as they stand, each with its WRAP bit. -/
def opCounterGather (s : State) : State :=
  let vals := (liveNow s).filterMap fun e => (cntIdx (8 * e.1)).map fun i => (i, e.2 % 2 ^ 48)
  let img := vals.foldl (fun m e => mset m e.1 (BitVec.ofNat 64 e.2)) ([] : SMap Word)
  let img := s.cnt.wrap.foldl (fun m i => mset m i (setBit (mgetD 0 m i) 48 true)) img
  wr aPcImgft s.time.ft { s with cnt := { s.cnt with image := img } }

/-- One slice's die stepped and its sampling countdown set (R532). -/
def sampleInit (k : Nat) (s : State) : State :=
  let d := dieStep (die s k)
  { s with hc := { s.hc with dies := mput 1 s.hc.dies k d },
           cnt := { s.cnt with count := mput 0 s.cnt.count k (1 + fld d 0 32 % 2 ^ rdFld s aPcSmpctl 1 5) } }

/-- Every slice's countdown set anew. -/
def sampleInitAll (s : State) : State := (List.range 32).foldl (fun s k => sampleInit k s) s

/-- A WRAP bit cleared. -/
def clearWrap (i : Nat) (s : State) : State := { s with cnt := { s.cnt with wrap := s.cnt.wrap.filter (· ≠ i) } }

/-- Every WRAP bit cleared. -/
def clearWraps (s : State) : State := { s with cnt := { s.cnt with wrap := [] } }

/-! ### The Tally (R498 to R504) -/

/-- The words of a Tally record (Table 12.11). -/
def tlyWords (r : TlyRec) : List Word :=
  [r.ft, mkWord [(0, 32, r.num), (32, 6, r.orig), (38, 4, r.kind), (42, 4, r.res), (48, 16, r.boot)], r.target, r.old, r.new, r.aux, r.w6, r.mac]

/-- The record exported under a number: the stored one, or a loss record (R504). -/
def exportRec (s : State) (n : Nat) : TlyRec :=
  match s.tly.lost.find? fun x => x.1 = n with
  | some (_, t) => ⟨t, n, 35, 6, 11, s.flash.boots % 65536, 0, 0, 0, 0, 0, 0⟩
  | none => mgetD ⟨0, n, 35, 6, 11, s.flash.boots % 65536, 0, 0, 0, 0, 0, 0⟩ s.tly.store (n % 65536)

/-- A record with its MAC, chained to the one exported before it; a start record begins the chain (R501). -/
def macRec (s : State) (r : TlyRec) : TlyRec :=
  let prev := if r.kind = 3 then 0 else s.tly.lastMac
  { r with mac := Config.cmac (Config.tallyKey (BitVec.ofNat 32 s.flash.boots)) ((tlyWords { r with mac := 0 }).take 7 ++ [prev]) }

/-- TALLY_EXPORT (R498): the next record goes to its queue when the filling bank has room. -/
def opTallyExport (s : State) : State :=
  let t := s.tly
  let q := rdFld s aGlTlyctl 2 13
  let c := rd s (aEqCtl q)
  if !rdBit s aGlTlyctl 1 || !bit c 0 || t.exported ≥ t.next || recWords (queue s q).fill + 9 > bankWords c then s
  else
    let r := macRec s (exportRec s t.exported)
    let lostNow := t.lost.any fun x => x.1 = t.exported
    let store := if lostNow then t.store else mset t.store (t.exported % 65536) r
    let x := queue s q
    let s := setQueue q { x with fill := x.fill ++ [⟨fld c 6 2, true, lenWord 1 9 (fld c 6 2) 0 s.time.ft :: tlyWords r⟩] } s
    { s with tly := { s.tly with store := store, exported := t.exported + 1, lost := t.lost.filter (fun y => y.1 ≠ t.exported), lastMac := r.mac } }

/-- Words 2 to 6 of a record just written replaced. -/
def setTlyWords (n : Nat) (w : List Word) (s : State) : State :=
  match mget s.tly.store (n % 65536) with
  | none => s
  | some r =>
    let g := fun i => w.getD i 0
    { s with tly := { s.tly with store := mset s.tly.store (n % 65536) { r with target := g 0, old := g 1, new := g 2, aux := g 3, w6 := g 4 } } }

/-- One checkpoint: a checkpoint record and three continuation records; the last NUM covered goes to the boot flash (R502, R503). -/
def checkpoint (s : State) : State :=
  let first := s.tly.chkFirst
  let last := s.tly.exported - 1
  let w := Config.checkpointWords s.part.serial (BitVec.ofNat 32 s.flash.boots) (BitVec.ofNat 32 first) (BitVec.ofNat 32 last)
  let s := (List.range 4).foldl (fun s i =>
    let n := s.tly.next
    setTlyWords n (w.drop (5 * i)) (tally 34 (if i = 0 then 4 else 5) 0 0 0 0 0 s)) s
  { s with tly := { s.tly with sinceChk := 0, chkFirst := s.tly.exported }, flash := { s.flash with chkNum := some last } }

/-- AUTO_CHECKPOINT (R503). -/
def opAutoCheckpoint (s : State) : State := if s.tly.sinceChk ≥ 4096 then checkpoint s else s

end Sys2Proof.Machine
end

