-- ==== Sys2Proof/Machine/Time.lean ====
section
/-! DEFINITION. Fabric time (06 R221 to R227, 15 R591) and what beacons tell of time and of the root (08 R322 to R325). Offsets and delays count
in units of 0.125 ns. -/

namespace Sys2Proof.Machine

/-! ### The time state (Table 06.1) -/

/-- TB_STAT.STATE: 0 UNLOCKED, 1 LOCKING, 2 LOCKED, 3 HOLDOVER. -/
def timeState (s : State) : Nat := rdFld s aTbStat 0 2

/-- This hub is the grandmaster (TB_CTL.GM). -/
def grandmaster (s : State) : Bool := rdBit s aTbCtl 0

/-- A move of the time state: EV272 where LOCKED is entered; where it is left, LOST and EV273 with CAUSE 0 to HOLDOVER, 1 to UNLOCKED. -/
def setTimeState (st : Nat) (s : State) : State :=
  let old := timeState s
  if old = st then s
  else
    let s := wrFld aTbStat 0 2 st { s with time := { s.time with good := 0 } }
    if st = 2 then fireSeq 272 0 oNone oNone (seqOf s aTbStat) s
    else if old = 2 then
      let s := rsq aTbStat 16 s
      fireSeq 273 (if st = 3 then 0 else 1) oNone oNone (seqOf s aTbStat) s
    else s

/-! ### Events scheduled by FT (R227) -/

/-- What a scheduled event does: a snapshot of R482, or Board writes (R490). -/
def runAct (a : SchedAct) (s : State) : State :=
  match a with
  | .snapshot => wrFld aGlSnapst 0 1 0 (snapshot 1 s)
  | .board l orig => boardWrite orig l s

/-- EV279 for what was scheduled at FT `t` and runs late (R227). Its OBJ is that FT modulo 2^60, as a value (DESIGN CHOICE, log entry 101). -/
def ranLate (t : Nat) (s : State) : State := fire 279 0 (oVal (t % 2 ^ 60)) s

/-- Every scheduled event whose FT has come runs, in the order it was scheduled; those due before FT `from_` run late. -/
def runSched (from_ : Nat) (s : State) : State :=
  let due := s.time.sched.filter fun e => decide (e.1.toNat ≤ s.time.ft.toNat)
  let s := { s with time := { s.time with sched := s.time.sched.filter fun e => decide (s.time.ft.toNat < e.1.toNat) } }
  due.foldl (fun s e => runAct e.2 (if e.1.toNat < from_ then ranLate e.1.toNat s else s)) s

/-- An event scheduled at FT `t`; one already past runs at once with EV279 (R227). -/
def schedule (t : Word) (a : SchedAct) (s : State) : State :=
  if t.toNat < s.time.ft.toNat then runAct a (ranLate t.toNat s)
  else { s with time := { s.time with sched := s.time.sched ++ [(t, a)] } }

/-! ### Slewing and stepping (R221, R226) -/

/-- The start of the round at FT `t`, which a step has jumped over: a deferred retraining square that it brings is late (R227, R254). -/
def jumpRound (t : Nat) (s : State) : State := opRoundStart (if s.brd.deferred.any fun d => d.left ≤ 1 then ranLate t s else s)

/-- The first `n` rounds that begin after FT `a`, one after the other. -/
def jumpRounds : Nat → Nat → State → State
  | 0, _, s => s
  | n + 1, a, s => jumpRounds n (a + 4096) (jumpRound ((a / 4096 + 1) * 4096) s)

/-- The Boards with a transfer that waits or is in progress, or a request at their slice's input. -/
def busyBoards (s : State) : List (Fin 92) :=
  (List.finRange 92).filter fun b => !(mgetD [] s.brd.wait b.val).isEmpty || (mget s.brd.run b.val).isSome ||
    s.home.input.any fun t => sliceOf t.line = b.val

/-- `n` squares that begin at FT `a` are given their grants at once, each under its own entry (R227). -/
def jumpSquares : Nat → Nat → State → State
  | 0, _, s => s
  | n + 1, a, s =>
    let ft := s.time.ft
    let s := (busyBoards s).foldl (fun s b => opSquareStart b s) { s with time := { s.time with ft := BitVec.ofNat 64 a } }
    jumpSquares n (a + 8) { s with time := { s.time with ft := ft } }

/-- The Board squares that a step from FT `a` to FT `t` jumps over, scrub and retraining windows among them, run at once, with one EV279 for them all
(R227): of more than a round, those of the last (DESIGN CHOICE, log entry 111). -/
def lateSquares (a t : Nat) (s : State) : State :=
  let n := (t - 1) / 8 - a / 8
  if n = 0 ∨ t ≤ a then s
  else
    let m := min 512 n
    let s := ranLate ((a / 8 + 1) * 8) s
    if (busyBoards s).isEmpty then s else jumpSquares m (((t - 1) / 8 + 1 - m) * 8) s

/-- FT stepped to `t` (R226): STEP, EV274. What a forward step jumps over runs at once and late (R227): events before `t`, the rounds that begin before
it, of which no more than the longest hold-over has effects, and the Board squares. -/
def stepTo (t : Word) (s : State) : State :=
  let a := s.time.ft.toNat
  let s := rsq aTbStat 17 { s with time := { s.time with ft := t, lastSlew := s.time.lastSlew.map fun _ => t } }
  let s := fireSeq 274 0 oNone oNone (seqOf s aTbStat) s
  lateSquares a t.toNat (runSched t.toNat (jumpRounds (min 257 ((t.toNat - 1) / 4096 - a / 4096)) a s))

/-- One count added at once, or the next one omitted, toward zero offset, at most once in 1,024 ns (R221); an offset below half a count is left. -/
def slew (off : Int) (s : State) : State :=
  let t := s.time
  let soon := match t.lastSlew with
    | some last => decide (t.ft.toNat < last.toNat + 1024)
    | none => false
  if off.natAbs < 8 || soon then s
  else { s with time := { t with ft := if off > 0 then t.ft + 1 else t.ft, omit_ := decide (off < 0), lastSlew := some t.ft } }

/-- The time state and FT after an offset (Table 06.1); `dst` is the value to step to, where this hub may step; the grandmaster slews
(R222), by one count for each offset, which R221 allows it (DESIGN CHOICE, log entry 115). -/
def onOffset (off : Int) (dst : Option Word) (s : State) : State :=
  let s := wr aTbOffs (BitVec.ofNat 64 (BitVec.ofInt 32 off).toNat) s
  let st := timeState s
  if off.natAbs > 8000 then
    let s := setTimeState 0 s
    match dst with
    | some t => stepTo t s
    | none => slew off s
  else if st = 0 then slew off (setTimeState 1 s)
  else if st = 3 then slew off (setTimeState 2 s)
  else
    let n := if off.natAbs ≤ 32 then s.time.good + 1 else 0
    let s := { s with time := { s.time with good := n } }
    slew off (if st = 1 ∧ n ≥ 64 then setTimeState 2 s else s)

/-! ### Beacons -/

/-- The signed value of a 16-bit field. -/
def signed16 (n : Nat) : Int := if n < 32768 then n else (n : Int) - 65536

/-- The port with the fewest hops to the grandmaster, the lowest on ties, among ACTIVE ports whose beacons name one (R223). -/
def timePort (s : State) : Option (Nat × Nat) :=
  let ps := s.time.links.filter fun e => portActive s e.1 && decide (e.2.hops < 31)
  let m := ps.foldl (fun m e => min m e.2.hops) 31
  (ps.find? fun e => e.2.hops = m).map fun e => (e.1, e.2.hops)

/-- The measured delay of a link (R323): half the round trip, in DLY. -/
def measure (p : Nat) (b : Beacon) (rxt : Word) (s : State) : State :=
  if (mget s.time.lastTx p).isNone then s
  else wrFld (aTbLink p) 0 16 (((rxt.toNat + 2 ^ 64 - b.echo.toNat) % 2 ^ 64 - b.turn.toNat) / 2) s

/-- The delay of a link with its correction (R223). -/
def delayOf (s : State) (p : Nat) : Int := (rdFld s (aTbLink p) 0 16 : Int) + signed16 (rdFld s (aTbLink p) 16 16)

/-- The upstream port in TB_STAT (R223): none on the grandmaster, which is no hop from itself; without one the hub is 31 hops away. -/
def noteUpstream (s : State) : State :=
  wrFld aTbStat 3 10 (if grandmaster s then 0 else match timePort s with
    | none => 31 * 32
    | some (q, h) => 1 + 2 * q + 32 * (h + 1)) s

/-- What a beacon tells of time (R223, R323): a hub other than the grandmaster takes its offset from its upstream port. Where it steps, it steps to the
beacon's FT plus the link's delay, in whole nanoseconds (DESIGN CHOICE, log entry 102). -/
def beaconTime (p : Nat) (b : Beacon) (rxt : Word) (s : State) : State :=
  let s := measure p b rxt s
  let hops := if b.gm then 0 else b.hops.toNat
  let s := { s with time := { s.time with links := mset s.time.links p ⟨b.gm, hops, b.txt, rxt⟩ } }
  let up := timePort s
  let s := noteUpstream s
  if grandmaster s then s
  else match up with
    | none => s
    | some (q, _) =>
      if q ≠ p then s
      else
        let there := (b.txt.toNat : Int) + delayOf s p
        onOffset (there - rxt.toNat) (some (BitVec.ofInt 64 (there / 8))) s

/-- A root sequence newer than another, by half-range comparison over 32 bits (R325). -/
def newerSeq (a b : Nat) : Bool := decide (0 < (a + 2 ^ 32 - b) % 2 ^ 32) && decide ((a + 2 ^ 32 - b) % 2 ^ 32 < 2 ^ 31)

/-- What a beacon tells of the root (R324, R325, R327): the latest sequence, the root it belongs to, the best key heard that is better than this hub's
own (its own comes back to it from its neighbours). -/
def beaconRoot (p : Nat) (b : Beacon) (s : State) : State :=
  let f := s.fab
  let roots := if b.rknown then mset f.roots p (b.rid, b.rseq.toNat, b.rhop.toNat) else mdel f.roots p
  let key := b.rpri.toNat * 2 ^ 64 + b.rserial.toNat
  let better := decide (key < ownKey s) && (decide (f.best = 0) || decide (key < f.best))
  let s := { s with fab := { f with roots := roots, best := if better then key else f.best, calm := if better then 0 else f.calm } }
  if !b.rknown || isRoot s then s
  else
    let fresh := (rootId s).isNone && decide (rdFld s aFbRseq 0 32 = 0)
    if !fresh && !newerSeq b.rseq.toNat (rdFld s aFbRseq 0 32) then s
    else
      let old := rootId s
      let s := wr aFbRseq (BitVec.ofNat 64 b.rseq.toNat) (wrFld aFbStat 3 13 (1 + 2 * b.rid.toNat) s)
      if old = some b.rid then s else reportPorts s

/-- BEACON (R301, R323 to R325): checked as every flit, its link header heeded. -/
def opBeacon (p : FlitIn) (b : Beacon) (rxt : Word) (s : State) : State :=
  if !portActive s p.port then s
  else
    let x := checkFlit p.port p.head s
    if x.1 then beaconRoot p.port b (beaconTime p.port b rxt (linkHead p.port p.head x.2)) else x.2

/-- The beacon that port `p` sends now (Table 08.9). -/
def myBeacon (s : State) (p : Nat) : Beacon :=
  let now := s.time.ft.toNat * 8
  let last := mget s.time.links p
  let gm := grandmaster s
  let key := if s.fab.best = 0 then ownKey s else min s.fab.best (ownKey s)
  let rhop := if isRoot s then 0 else match upstream s with
    | some q => (match mget s.fab.roots q with | some r => satTo 255 (r.2.2 + 1) | none => 255)
    | none => 255
  { txt := BitVec.ofNat 64 now
    echo := match last with | some x => x.txt | none => 0
    turn := match last with | some x => BitVec.ofNat 32 (now + 2 ^ 64 - x.rxt.toNat) | none => 0
    tst := BitVec.ofNat 2 (timeState s)
    hops := BitVec.ofNat 5 (if gm then 0 else if rdBit s aTbStat 3 then rdFld s aTbStat 8 5 else 31)
    gm := gm
    rid := (rootId s).getD 0
    rknown := (rootId s).isSome
    rseq := BitVec.ofNat 32 (rdFld s aFbRseq 0 32)
    rhop := BitVec.ofNat 8 rhop
    rpri := BitVec.ofNat 8 (key / 2 ^ 64)
    rserial := BitVec.ofNat 64 key }

/-- BEACON_TIMER (R223): a beacon on every trained port. -/
def opBeaconTimer (s : State) : State :=
  let s := { s with fab := { s.fab with calm := s.fab.calm + 1 } }
  if !rdBit s aTbCtl 2 then s
  else ((List.range 12).filter (portActive s)).foldl (fun s p =>
    let b := myBeacon s p
    wireUnit p (emit (.beacon p (lastGood (link s p)) b) { s with time := { s.time with lastTx := mset s.time.lastTx p b.txt } })) s

/-! ### TIME_PPS and the origin (R222, R591) -/

/-- The offset of FT from the nearest whole second. -/
def secondOffset (ft : Nat) : Int :=
  let r := ft % 1000000000
  if r < 500000000 then -(8 * (r : Int)) else 8 * (1000000000 - (r : Int))

/-- The armed origin applied: UNLOCKED, FT := ORIGIN as a step, EV275. -/
def applyOrigin (s : State) : State :=
  let s := setTimeState 0 (wrFld aTbStat 2 1 0 s)
  let s := stepTo (rd s aTbOrigin) s
  fireSeq 275 0 oNone oNone (seqOf s aTbStat) { s with time := { s.time with lastPps := some s.time.ft } }

/-- TIME_PPS_EDGE (R222, R591), on the grandmaster. An edge less than 900 ms after the last accepted one is ignored. -/
def opTimePpsEdge (s : State) : State :=
  if !grandmaster s then s
  else
    let now := s.time.ft.toNat
    let early := match s.time.lastPps with
      | some last => decide (last.toNat ≤ now) && decide (now < last.toNat + 900000000)
      | none => false
    if early then fire 279 1 oNone s
    else
      let s := { s with time := { s.time with lastPps := some s.time.ft } }
      if rdBit s aTbStat 2 then applyOrigin s
      else if rdBit s aTbCtl 1 then onOffset (secondOffset now) none s
      else s

/-- An armed origin withdrawn (R222): ARMED clears, EV275. -/
def withdrawOrigin (s : State) : State :=
  if rdBit s aTbStat 2 then fireSeq 275 1 oNone oNone (seqOf s aTbStat) (wrFld aTbStat 2 1 0 s) else s

/-- ORIGIN_ARM_EXPIRY (R222). -/
def opOriginArmExpiry (s : State) : State := withdrawOrigin s

/-- BEACON_LOSS_TIMEOUT (R224). -/
def opBeaconLossTimeout (s : State) : State := if timeState s = 2 then setTimeState 3 s else s

/-- HOLDOVER_TIMEOUT (R224). -/
def opHoldoverTimeout (s : State) : State := setTimeState 0 s

/-- SCHEDULED_EVENT_RUN (R227). -/
def opScheduledEventRun (s : State) : State := runSched 0 s

end Sys2Proof.Machine
end

