-- ==== Sys2Proof/Machine/Access.lean ====
section
/-! DEFINITION. The management window (12 R467 to R480): which register an offset names, who may read and write it, what a read returns, and when
a write is refused by the chapter that owns the register. -/

namespace Sys2Proof.Machine

/-! ### Which register -/

/-- A register word: the base of its row, its two indices, its word and the access codes of its bits. -/
structure Reg where
  base : Nat
  i : Nat
  j : Nat
  word : Nat
  acc : Acc
  words : Nat
  deriving DecidableEq, Repr

/-- The register word at an 8-byte aligned offset. -/
def locate (a : Nat) : Option Reg :=
  (regAt a).map fun (f, w) =>
    let d := a - f.base
    ⟨f.base, d / f.s1, d % f.s1 / f.s2, w, f.acc.getD w {}, f.acc.length⟩

/-- Bits [63:14] of a placement entry are reserved (Table 09.4). -/
def placeAcc : Acc := ⟨0, 0x3FFF, 0, 0, 0, 0⟩

/-- A register that this part or port does not have (R6, R216, R234, R360): it reads as zero and takes no write. -/
def absent (s : State) (r : Reg) : Bool :=
  let hp := [aHpCtl 0, aHpStat 0, aHpWinstat 0 0, aHpMgacc 0, aHpPldef 0, aHpAgirq 0, aHpMbar 0, aHpCfga 0, aHpCfgd 0, aHpCnt 0 0, aHpPlt 0 0,
             aHpWin 0 0, aMbCap 0, aMbCtl 0, aMbCmd 0, aMbSts 0, aMbBgst 0, aMbAuth 0, aMbPay 0 0]
  (decide (r.base ∈ hp) && r.base ≠ aHpCtl 0 && nonLead s r.i) || (r.base = aEvRt 0 && reservedSource s r.i) ||
    (if isH1 s then r.base = aHcWbctl
     else r.base = aHcSsd || r.base = aHcPcmap || r.base = aPmDorm ||
       (r.base = aEcBkt 0 && r.i = 4) || (decide (r.base ∈ [aSbSq 0 0, aSbRank 0 0, aSbAdm 0, aSbUsed 0, aSbHeld 0 0]) && decide (32 ≤ r.i) && decide (r.i < 48)))

/-- The access codes of a register word on this part. -/
def accOf (s : State) (r : Reg) : Acc :=
  if absent s r then {}
  else if r.base = aHpPldef 0 ∨ r.base = aHpPlt 0 0 then placeAcc
  else r.acc

/-! ### Who may -/

/-- The host port of an origin: its own BAR0 or its mailbox (Table 12.2). -/
def portOf (o : Nat) : Option Nat := if o < 16 then some o else if o < 32 then some (o - 16) else none

/-- The origin may read (`lo` = 0) or write (`lo` = 32) block `b` (R365, R469). -/
def mayBlock (s : State) (o b lo : Nat) : Bool :=
  match portOf o with
  | none => true
  | some p => rdBit s (aHpMgacc p) (lo + b)

/-- A register of a mailbox page. -/
def mbPage (r : Reg) : Bool := decide (r.base ∈ [aMbCap 0, aMbCtl 0, aMbCmd 0, aMbSts 0, aMbBgst 0, aMbAuth 0, aMbPay 0 0])

/-- The mailbox authorities, and MB_FMSRC (R506). -/
def mbAuthReg (r : Reg) : Bool := decide (r.base ∈ [aMbAuth 0, aMbAuthi3c, aMbAuthfab, aMbFmsrc])

/-- The page of another port's mailbox. -/
def foreignPage (o : Nat) (r : Reg) : Bool := match portOf o with
  | none => false
  | some p => mbPage r && r.i ≠ p

/-- A write of the origin is denied (R365, R469, R506). -/
def denied (s : State) (o a : Nat) (r : Option Reg) : Bool :=
  (match blockOf a with
    | some b => !mayBlock s o b 32
    | none => false) ||
  (match r with
    | none => false
    | some r => foreignPage o r || (mbAuthReg r && decide (o < 32) && !mayBlock s o 0 32))

/-! ### Reading -/

/-- The bits of a word that a read shows. -/
def shown (c : Acc) : Nat := c.ro ||| c.rw ||| c.rwg ||| c.rsq ||| c.rct

/-- GL_ORIGIN for an origin (R471, R476). -/
def glOrigin (s : State) (o : Nat) : Word :=
  let u := mget s.ctl.unlocks o
  let l := mgetD (0, 0) s.ctl.last o
  mkWord [(0, 1, u.isSome.toNat), (1, 5, u.getD 0), (16, 4, l.1), (24, 24, l.2)]

/-- GL_FW: the boot flash's slots and the fuses (R491, R496). -/
def glFw (s : State) : Word :=
  let f := s.flash
  let ver := fun (x : Option Image) => match x with | some i => i.version.toNat | none => 0
  mkWord [(0, 1, f.actB.toNat), (1, 1, f.slotA.isSome.toNat), (2, 1, f.slotB.isSome.toNat), (3, 1, (f.pend || s.ctl.act.isSome).toNat), (8, 8, f.minsv),
          (16, 16, ver f.slotA), (32, 16, ver f.slotB)]

/-- GL_TLYSTAT (R499). -/
def glTlystat (s : State) : Word :=
  let h := tlyHeld s.tly
  setFld (setFld s.tly.lossStat 0 17 h) 17 1 (if h ≥ 64512 then 1 else 0)

/-- Word `k` of the Lumber entry that EC_LBIDX names. -/
def lumberWord (s : State) (k : Nat) : Word :=
  match s.flash.lumber[rdFld s aEcLbidx 0 12]? with
  | some e => if k = 0 then e.1 else e.2
  | none => 0

/-- What a register word holds now, before the access codes apply. -/
def regNow (s : State) (o a : Nat) (r : Reg) : Word :=
  let b := r.base
  if b = aGlId then mkWord [(0, 8, if isH1 s then 1 else 2), (8, 8, 0xB0), (16, 1, s.part.profile.toNat)]
  else if b = aGlOrigin then glOrigin s o
  else if b = aGlFw then glFw s
  else if b = aGlBoot then BitVec.ofNat 64 (s.flash.boots % 2 ^ 32)
  else if b = aGlTlystat then glTlystat s
  else if b = aGlTlynum then BitVec.ofNat 64 (s.tly.next % 2 ^ 32)
  else if b = aGlTlyrec then (match mget s.tly.store (rdFld s aGlTlyidx 0 16) with
    | some x => (tlyWords x).getD r.word 0
    | none => 0)
  else if b = aTbFt then s.time.ft
  else if b = aTbEpoch then BitVec.ofNat 64 (s.time.ft.toNat / 4096)
  else if b = aSbAdm 0 then mkWord ((List.range 4).map fun c => (16 * c, 16, budget s r.i c (epochNow s)))
  else if b = aSbUsed 0 then mkWord ((List.range 4).map fun c => (16 * c, 16, used s r.i c (epochNow s)))
  else if b = aDrSdom 0 then (if r.i = (hubId s).toNat / 64 then setBit (rd s a) ((hubId s).toNat % 64) true else rd s a)
  else if b = aFbCache 0 then (if r.i = (hubId s).toNat / 64 then setBit (rd s a) ((hubId s).toNat % 64) true else rd s a)
  else if b = aHcRetways then BitVec.ofNat 64 ((s.hc.ways.countP fun e => e.2.ret && !s.hc.retPcs.contains (e.1 / 16 % 128)) + 2 ^ 18 * s.hc.retPcs.length)
  else if b = aLdOcc 0 then BitVec.ofNat 64 (larUsed s (16 + r.i))
  else if b = aEcLbstat then
    mkWord [(0, 13, s.flash.lumber.length), (13, 1, if s.flash.lumber.length ≥ 4096 then 1 else 0), (14, 11, s.flash.pages.length)]
  else if b = aEcLbent then lumberWord s r.word
  else if b = aEvStat 0 then mgetD 0 s.ev.evStat r.i
  else if b = aEqStat 0 then eqStat s r.i
  else if b = aEqDrop 0 then BitVec.ofNat 64 (queue s r.i).drop
  else if b = aPmRail 0 ∧ r.i = 3 ∧ ¬isH1 s then 0
  else if b = aPcImg 0 then mgetD 0 s.cnt.image r.i
  else if b = aPcCmap 0 then (match cntAddr r.i with
    | some x => BitVec.ofNat 64 (x + 2 ^ 24)
    | none => 0)
  else if r.acc.rct ≠ 0 then BitVec.ofNat 64 (mgetD 0 s.cnt.hold (a / 8))
  else rd s a

/-- The port whose aperture slot or doorbell slot an offset lies in (R164, R280). -/
def slotPort (a : Nat) : Nat := a / 0x40000 % 16

/-- The word of an aperture slot's read layout at offset `a`. -/
def apertureWord (s : State) (a : Nat) : Word :=
  match mget s.slots (a / 64 % 65536) with
  | none => 0
  | some x => match a / 8 % 8 with
    | 0 => mkWord [(0, 1, x.done.toNat), (1, 1, x.busy.toNat), (2, 1, x.cmpeq.toNat), (3, 3, x.code)]
    | 2 => BitVec.ofNat 64 x.old.toNat
    | 3 => BitVec.ofNat 64 (x.old.toNat / 2 ^ 64)
    | _ => 0

/-- The word of a doorbell slot's read layout at offset `a`. -/
def bellWord (s : State) (a : Nat) : Word :=
  let x := mgetD (false, false, 0, 0) s.ports.bells (a / 64 % 65536)
  match a / 8 % 8 with
  | 0 => mkWord [(0, 1, x.2.1.toNat), (1, 1, x.1.toNat), (3, 3, x.2.2.1)]
  | 1 => x.2.2.2
  | _ => 0

/-- The word of the aperture or doorbell slot at offset `a`, which only its own port reads (R164, R280). -/
def slotWord (s : State) (o a : Nat) : Word :=
  if o ≠ slotPort a then 0 else if a < 0xC00000 then apertureWord s a else bellWord s a

/-- What origin `o` reads at the 8-byte aligned offset `a` (Table 12.3, R365, R506). -/
def readReg (s : State) (o a : Nat) : Word :=
  if 0x800000 ≤ a then slotWord s o a
  else match locate a with
  | none => 0
  | some r =>
    let no := foreignPage o r || (match blockOf a with | some b => !mayBlock s o b 0 | none => false)
    if no then 0 else regNow s o a r &&& BitVec.ofNat 64 (shown (accOf s r))

/-! ### Refusals by the owning chapters (R48) -/

/-- Two ranges, given by first and last, overlap. -/
def overlap (a b c d : Nat) : Bool := decide (a ≤ d) && decide (c ≤ b)

/-- HPA range of a window's word 0: first and last unit of 1 GiB. -/
def hpaRange (w0 : Word) : Nat × Nat := (fld w0 16 22, fld w0 16 22 + 2 ^ (fld w0 8 6 - 30) - 1)

/-- FPA range of a window: first and last unit of 1 GiB. -/
def fpaRange (w0 w1 : Word) : Nat × Nat := (fld w1 0 30, fld w1 0 30 + 2 ^ (fld w0 8 6 - 30) - 1)

/-- A write of window `n` of port `p` is refused (R47, R52, R53). `w0`, `w1`: the entry as it stands; `v0`, `v1`: as written. -/
def winRefused (s : State) (p n : Nat) (w0 w1 v0 v1 : Word) : Bool :=
  let z := fld v0 8 6
  if bit w0 0 then setBit v0 0 true ≠ w0 || v1 ≠ w1
  else if !bit v0 0 then false
  else rdBit s (aHpWinstat p (n / 64)) (n % 64) || decide (z < 30) || decide (48 < z) ||
    decide (fld v0 16 22 % 2 ^ (z - 30) ≠ 0) || decide (fld v1 0 30 % 2 ^ (z - 30) ≠ 0) ||
    (List.range 256).any fun k =>
      let x0 := rd s (aHpWin p k)
      let x1 := rd s (aHpWin p k + 8)
      k ≠ n && bit x0 0 && (overlap (hpaRange x0).1 (hpaRange x0).2 (hpaRange v0).1 (hpaRange v0).2 ||
        overlap (fpaRange x0 x1).1 (fpaRange x0 x1).2 (fpaRange v0 v1).1 (fpaRange v0 v1).2)

/-- Bytes that an interleave set takes on each of its ports: (D + M) / n (R63, Table 02.4). -/
def setBytes (s : State) (w : Word) : Nat :=
  let d := fld w 32 13 * 2 ^ 36
  let m := d / 32 + d / 256 + d / 4096 + (if bit w 1 then d / 16 else 0) + (if fld w 16 12 = 0 then rdFld s aDrHomelim 0 13 * 2 ^ 36 / 1024 else 0)
  (d + m) / 2 ^ fld w 4 2

/-- A write of interleave set `n` is refused (R63, R64). -/
def isetRefused (s : State) (n : Nat) (w0 w1 v0 v1 : Word) : Bool :=
  let b := fld v0 16 12
  let z := fld v0 32 13
  let ports := setBits 8 (fld v0 6 8)
  if bit w0 0 then
    setBit v0 0 true ≠ w0 || v1 ≠ w1 ||
      (!bit v0 0 && (krtValid s).any fun e => overlap (fld e.2.1 21 34) e.2.2 (fld w0 16 12 * 2 ^ 22) ((fld w0 16 12 + fld w0 32 13) * 2 ^ 22 - 1))
  else if !bit v0 0 then false
  else z = 0 || decide (4096 < z) || ports.length ≠ 2 ^ fld v0 4 2 || fld v0 2 2 = 3 ||
    (if bit v0 1 then fld v0 4 2 ≠ 2 || fld v0 2 2 ≠ 0 else fld v0 2 2 = 0) || decide (rdFld s aDrHomelim 0 13 < b + z) ||
    (ports.any fun d => decide (rdFld s (aDpCap d) 0 52 < fld v1 0 22 * 2 ^ 30 + setBytes s v0)) ||
    (List.range 16).any fun k =>
      let x0 := rd s (aDpIset k)
      let dx := rdFld s (aDpIset k + 8) 0 22 * 2 ^ 30
      k ≠ n && bit x0 0 && (overlap (fld x0 16 12) (fld x0 16 12 + fld x0 32 13 - 1) b (b + z - 1) ||
        (decide (fld x0 6 8 &&& fld v0 6 8 ≠ 0) && overlap dx (dx + setBytes s x0 - 1) (fld v1 0 22 * 2 ^ 30) (fld v1 0 22 * 2 ^ 30 + setBytes s v0 - 1)))

/-- Every own unit of 64 GiB from `a` to `b` is populated under R42. -/
def populatedUnits (s : State) (a b : Nat) : Bool :=
  (List.range (b + 1 - a)).all fun k => decide (a + k < rdFld s aDrHomelim 0 13) && (List.range 16).any fun n => setCovers s n (a + k)

/-- An enabled mirror entry's own range, in units LA[47:14]. -/
def mirOwnRange (s : State) (n : Nat) : Nat × Nat :=
  let o := rdFld s (aFbMir n + 8) 0 12
  (o * 2 ^ 22, (o + rdFld s (aFbMir n) 32 13) * 2 ^ 22 - 1)

/-- The buddy's mirror entries cover own units LA[47:14] from `a` to `b` (R341). -/
def pmirCovers (s : State) (a b : Nat) : Bool :=
  (List.range (b / 2 ^ 22 + 1 - a / 2 ^ 22)).all fun k => (List.range 8).any fun n =>
    let w := rd s (aFbPmir n)
    bit w 0 && decide (fld w 16 12 ≤ a / 2 ^ 22 + k) && decide (a / 2 ^ 22 + k < fld w 16 12 + fld w 32 13)

/-- A write of Key Range Table entry `n` is refused (R68, R70, R73, R340, R341, R448, R455). -/
def krtRefused (s : State) (n : Nat) (w0 w1 v0 v1 : Word) : Bool :=
  let b := fld v0 21 34
  let l := fld v1 0 34
  let guarded := decide (fld v0 1 2 = 1)
  if bit w0 0 then
    fld v0 3 18 ≠ fld w0 3 18 || b ≠ fld w0 21 34 || v1 ≠ w1 || (bit v0 0 && fld v0 1 2 = 3) ||
      (bit v0 0 && guarded && fld w0 1 2 ≠ 1 && !pmirCovers s b l)
  else if !bit v0 0 then false
  else fld v0 1 2 = 3 || decide (l < b) || rdFld s aSlStat 0 2 ≠ 2 || rdFld s (aSlKs (fld v0 3 10)) 0 2 = 2 ||
    !((List.range 16).any fun k => rdBit s (aDpIset k) 0 && rdFld s (aDpIset k) 16 12 = 0) || !populatedUnits s (b / 2 ^ 22) (l / 2 ^ 22) ||
    ((krtValid s).any fun e => e.1 ≠ n && overlap (fld e.2.1 21 34) e.2.2 b l) ||
    ((List.range 8).any fun k => rdBit s (aFbMir k) 0 && overlap (mirOwnRange s k).1 (mirOwnRange s k).2 b l) ||
    (guarded && (rdFld s aFbBuddy 0 2 = 0 || !pmirCovers s b l))

/-- A write of mirror entry `n` is refused (R340). A write that leaves V at 1 is held to the same conditions as one that sets it (DEDUCED, log entry
119). -/
def mirRefused (s : State) (n : Nat) (v0 v1 : Word) : Bool :=
  let p := fld v0 16 12
  let z := fld v0 32 13
  let o := fld v1 0 12
  if !bit v0 0 then false
  else rdFld s aFbBuddy 0 2 = 0 || z = 0 || decide (4096 < p + z) || !populatedUnits s o (o + z - 1) ||
    ((krtValid s).any fun e => overlap (fld e.2.1 21 34) e.2.2 (o * 2 ^ 22) ((o + z) * 2 ^ 22 - 1)) ||
    (List.range 8).any fun k =>
      let x := rd s (aFbMir k)
      k ≠ n && bit x 0 && (overlap (fld x 16 12) (fld x 16 12 + fld x 32 13 - 1) p (p + z - 1) ||
        overlap (rdFld s (aFbMir k + 8) 0 12) (rdFld s (aFbMir k + 8) 0 12 + fld x 32 13 - 1) o (o + z - 1))

/-- The ports that a width setting of port `p` concerns. -/
def aggPorts (p agg : Nat) : List Nat := (List.range (2 ^ (agg % 3))).map (p + ·)

/-- A write of HP_CTL of port `p` is refused (R357, R359). AGG = 0b11 is reserved and refused with them. -/
def hpCtlRefused (s : State) (p : Nat) (w v : Word) : Bool :=
  let inside := (p % 2 = 1 ∧ rdFld s (aHpCtl (p - 1)) 2 2 = 1) ∨ (p % 4 ≠ 0 ∧ rdFld s (aHpCtl (p - p % 4)) 2 2 = 2)
  let changed := bit w 1 ≠ bit v 1 || fld w 2 2 ≠ fld v 2 2
  let ps := aggPorts p (fld w 2 2) ++ aggPorts p (fld v 2 2)
  decide inside || fld v 2 2 = 3 || (fld v 2 2 = 1 && p % 2 = 1) || (fld v 2 2 = 2 && p % 4 ≠ 0) ||
    (changed && ps.any fun q => rdBit s (aHpCtl q) 0 || rdFld s (aHpStat q) 0 3 ≠ 0)

/-- A region of the agent's bus that a write enables overlaps a valid window of the port, or the port's other region (R380), in units of 4 KiB. -/
def regionRefused (s : State) (p a b c d : Nat) (other : Bool) : Bool :=
  (other && overlap a b c d) || (List.range 256).any fun k =>
    let x := rd s (aHpWin p k)
    bit x 0 && overlap a b ((hpaRange x).1 * 2 ^ 18) (((hpaRange x).2 + 1) * 2 ^ 18 - 1)

/-- Cells of a Larder partition: what the shared pool is left with, none where the reserves and quotas exceed the flow pool (R30). -/
def sharedLeft (pool proto bg : Nat) (tq : List Nat) : Option Nat :=
  let sum := tq.foldl (· + ·) (proto + bg)
  if pool + sum ≤ 2 ^ 20 then some (2 ^ 20 - pool - sum) else none

/-- The shared pool after one LD share register takes a new value (R29, R30). -/
def sharedWith (s : State) (a v : Nat) : Option Nat :=
  let g := fun (x n : Nat) => if x = a then v else rdFld s x 0 n
  sharedLeft (g aLdEqpool 18) (g aLdProto 18) (g aLdBgres 17) ((List.range 4).map fun c => g (aLdTq c) 19)

/-- A write to SL_RKCTL is refused (R466). -/
def rekeyRefused (s : State) (w v : Word) : Bool :=
  let n := fld v 0 12
  let k := rd s (aSlKs (fld v 12 10))
  let e := rd s (aSlKrt n)
  (bit w 31 && fld v 0 30 ≠ fld w 0 30) ||
    (bit v 30 && (bit w 31 || !bit e 0 || fld k 0 2 ≠ 1 || fld k 2 8 ≠ fld v 22 8 || fld e 3 10 = fld v 12 10 ||
      rdFld s (aSlKs (fld e 3 10)) 0 2 = 2 || rdFld s aSlStat 0 2 ≠ 2))

/-- The owning chapter refuses the write of `v` to a word that holds `w` (R48). `w1` and `v1` are word 1 of a two-word entry, as it stands and as it
would stand. -/
def refused (s : State) (a : Nat) (r : Reg) (w v w1 v1 : Word) : Bool :=
  let b := r.base
  let i := r.i
  let anyNib := (List.range 7).any fun t => decide (8 < fld v (4 * (t + 1)) 4)
  if b = aTbOrigin then !grandmaster s
  else if b = aSbCtl then fld v 0 8 = 0
  else if b = aSbBurst then anyNib
  else if b = aSbSq 0 0 then (List.range 8).any fun k => bit v (8 * k + 7)
  else if b = aDrHomelim then
    fld v 0 13 = 0 || decide (4096 < fld v 0 13) ||
      (List.range 16).any fun n => rdBit s (aDpIset n) 0 && decide (fld v 0 13 < rdFld s (aDpIset n) 16 12 + rdFld s (aDpIset n) 32 13)
  else if b = aDrProbe then s.bg.any fun t => t.kind = .probeDir
  else if b = aHfProbe then s.bg.any fun t => t.kind = .probeHf
  else if b = aHfBito 0 then fld v 0 10 = 0 || decide (1000 < fld v 0 10)
  else if b = aHcPfctl then fld v 16 2 = 0 || decide ((if isH1 s then 64 else 32) < fld v 8 8)
  else if b = aHcMrq then decide ((if isH1 s then 64 else 32) < fld v 0 8 + fld v 8 8 + fld v 16 8 + fld v 24 8)
  else if b = aHcWbctl then fld v 0 8 = 0 || fld v 8 4 = 0
  else if b = aHcMopa ∨ b = aHcMopl then rdBit s aHcMopc 4
  else if b = aHcMopc then
    bit v 3 && (bit w 4 || decide (1 < fld v 0 2) || (bit v 2 && (rd s aHcMopl = 0 || rdFld s aHcMopa 6 6 ≠ 0)))
  else if b = aLdEqpool then
    decide (fld v 0 18 < 8192) || decide (131072 < fld v 0 18) || s.ev.eqUsed ≠ 0 || (sharedWith s a (fld v 0 18)).isNone
  else if b = aLdProto then decide (fld v 0 18 < 16384) || decide (131072 < fld v 0 18) || (sharedWith s a (fld v 0 18)).isNone
  else if b = aLdBgres then decide (fld v 0 17 < 4096) || decide (65536 < fld v 0 17) || (sharedWith s a (fld v 0 17)).isNone
  else if b = aLdTq 0 then decide (262144 < fld v 0 19) || (sharedWith s a (fld v 0 19)).isNone
  else if b = aLdCap 0 then decide (696320 < fld v 0 20)
  else if b = aLdWdog then decide (fld v 0 16 < 256)
  else if b = aEcRepctl then decide (fld v 0 4 < 2) || fld v 8 8 = 0
  else if b = aEcScrctl then fld v 0 8 = 0 || fld v 8 8 = 0 || fld v 16 16 = 0
  else if b = aEcBkt 0 then fld v 0 8 = 0 || fld v 8 20 = 0
  else if b = aEcWr 0 then
    (if r.word = 0 then fld v 8 8 = 0 || fld v 16 20 = 0 ||
        (bit v 0 && !bit w 0 && decide (rdFld s (aEcWr i + 16) 0 36 < rdFld s (aEcWr i + 8) 0 36))
     else decide (r.word < 3) && rdBit s (aEcWr i) 0)
  else if b = aSlRkctl then rekeyRefused s w v
  else if b = aSlKrt 0 then krtRefused s i w w1 v v1
  else if b = aHpCtl 0 then hpCtlRefused s i w v
  else if b = aHpPldef 0 ∨ b = aHpPlt 0 0 then fld v 0 2 = 3
  else if b = aHpAgirq 0 then
    bit v 0 && regionRefused s i (fld v 16 40) (fld v 16 40) (rdFld s (aHpMbar i) 19 33 * 128) (rdFld s (aHpMbar i) 19 33 * 128 + 127) (rdBit s (aHpMbar i) 0)
  else if b = aHpMbar 0 then
    bit v 0 && regionRefused s i (fld v 19 33 * 128) (fld v 19 33 * 128 + 127) (rdFld s (aHpAgirq i) 16 40) (rdFld s (aHpAgirq i) 16 40) (rdBit s (aHpAgirq i) 0)
  else if b = aHpCfga 0 then bit v 25 && (bit w 26 || fld v 15 5 ≠ 0 || hostMode s i)
  else if b = aHpWin 0 0 then winRefused s i r.j w w1 v v1
  else if b = aDpIset 0 then isetRefused s i w w1 v v1
  else if b = aDpCtl 0 then
    decide (fld v 2 10 < 10) || decide (1000 < fld v 2 10) ||
      (bit w 0 && !bit v 0 && (List.range 16).any fun n => rdBit s (aDpIset n) 0 && rdBit s (aDpIset n) (6 + i))
  else if b = aFbHubid then rdFld s aFbStat 0 2 ≠ 0
  else if b = aFbMir 0 then mirRefused s i v v1
  else if b = aFbRt 0 then decide (fld v 12 12 ||| fld v 0 12 ≠ fld v 0 12) || fld v 25 39 ≠ 0
  else if b = aPmRail 0 then
    (!isH1 s && i = 3) || decide (fld v 0 4 < 2) || decide (12 < fld v 0 4) || decide (fld v 8 5 < 10) || decide (24 < fld v 8 5) || decide (fld v 8 5 < fld v 0 4 + 4)
  else if b = aPmTherm then !(decide (fld v 0 8 ≤ fld v 8 8) && decide (fld v 8 8 ≤ fld v 16 8) && decide (fld v 16 8 ≤ 110) && decide (1 ≤ fld v 24 4))
  else if b = aPmCtl then fld v 4 12 = 0
  else if b = aPmLpctl then fld v 0 8 = 0
  else if b = aPmDorm then fld v 4 12 = 0
  else if b = aEqCtl 0 then
    fld v 2 4 = 0 || decide (12 < fld v 2 4) || decide (100 < fld v 8 7) || (bit w 0 && fld v 2 4 ≠ fld w 2 4) ||
      (!bit w 0 && bit v 0 && decide (rdFld s aLdEqpool 0 18 < s.ev.eqUsed + 2 ^ (fld v 2 4 + 1)))
  else if b = aPcSmpctl then decide (fld v 1 5 < 4) || decide (24 < fld v 1 5)
  else false

/-- MB_CMD and MB_PAY are read-only while DB = 1 (R485). -/
def frozen (s : State) (r : Reg) : Bool := (r.base = aMbCmd 0 || r.base = aMbPay 0 0) && rdBit s (aMbCtl r.i) 1

end Sys2Proof.Machine
end

