-- ==== Sys2Proof/Machine/Control.lean ====
section
/-! DEFINITION. Register writes (12 R470 to R480): one judged write for every origin and register, what each register's write does, and the commands
that are register writes. -/

namespace Sys2Proof.Machine

/-! ### What a write does -/

/-- Enumeration of cellar port `d` starts (R374, R376). -/
def startEnum (d : Nat) (s : State) : State := setCellarLink d 2 s

/-- The link of host port `p` goes to state `ls`, out of service: requests held at its ingress, waiting pops with what they hold, and what waits for its
host are discarded. A write among them is over (R274). -/
def linkGone (p ls : Nat) (s : State) : State :=
  let mine := s.lar.held.filter fun x => x.2.1 = p
  let s := { s with lar := { s.lar with held := s.lar.held.filter fun x => x.2.1 ≠ p }, hst := { s.hst with narrow := mdel s.hst.narrow p } }
  setHostLink p ls (dropToHost p (dropPops p (mine.foldl (fun s x => gone x.1 s) s)))

/-- HP_CTL.EN of port `p` cleared (R358): requests held at its ingress are discarded; a host whose link was up is dead. -/
def disableHost (p : Nat) (s : State) : State :=
  let up := decide (rdFld s (aHpStat p) 0 3 ∈ [0, 3, 4, 5, 6])
  let s := linkGone p 0 s
  if up && hostMode s p then hostDies p s else s

/-- HP_CTL.EN of port `p` set again (R358): training, which counts as the port reset of R148, and from which MODE and AGG apply (R357), with the
budgets of the Board (R255). -/
def enableHost (p : Nat) (s : State) : State :=
  let agg := aggOf s p
  let s := takeSetting p s
  let s := setHostLink p 2 (if aggOf s p = agg then s else recompute (76 + p) s)
  let pr := s.hst.portReset
  readmit p { s with hst := { s.hst with portReset := if p ∈ pr then pr else pr ++ [p] } }

/-- V of window `n` of port `p` cleared (R53): the window retires until its sweep ends. -/
def startWindowSweep (p : HPort) (n : Nat) (w0 w1 : Word) (s : State) : State :=
  let s := wrFld (aHpWinstat p (n / 64)) (n % 64) 1 1 s
  { s with bg := s.bg ++ [⟨.windowSweep p (BitVec.ofNat 8 n), 0, 0, w0.toNat + w1.toNat * 2 ^ 64, false⟩] }

/-- Membership bits of word `i` changed (R60, R61, R114): hubs that leave join the sweep, which starts anew. -/
def memberChange (i : Nat) (w v : Word) (s : State) : State :=
  let gone := ((List.range 64).filter fun b => bit w b && !bit v b && decide (64 * i + b ≠ (hubId s).toNat)).map fun b => BitVec.ofNat 12 (64 * i + b)
  if gone.isEmpty then s
  else
    let set := (s.sweep ++ gone).eraseDups
    let s := { s with sweep := set, bg := s.bg.filter (fun t => t.kind ≠ .domainSweep) ++ [⟨.domainSweep, 0, 0, 0, false⟩] }
    wrFld aDrSweep 0 1 1 (wrFld aDrSweep 2 12 set.length (wrFld aDrSweep 16 25 0 s))

/-- An entry of the Key Range Table written (R77, R345): what a new type starts. -/
def krtChanged (w v v1 : Word) (s : State) : State :=
  let b := fld v 21 34
  let l := fld v1 0 34
  if !bit v 0 then s
  else
    let same := bit w 0 && fld w 1 2 = fld v 1 2
    if same then s
    else if fld v 1 2 = 1 then (if mirrorOn s then startCopy b l s else s)
    else if fld v 1 2 = 2 && bit w 0 then { s with bg := s.bg ++ [⟨.rangeFlush, b * 256, l * 256 + 255, 0, false⟩] }
    else s

/-- The code of a directory state (Table 03.4). -/
def dstCode : DSt → Nat
  | .u => 0 | .p => 1 | .a => 2 | .x => 3 | .l => 4

/-- A directory entry as Table 03.4 lays it out. -/
def dirWord (e : DirEnt) : Word :=
  mkWord [(0, 22, e.tag), (22, 3, dstCode e.st), (25, 1, e.busy.toNat), (26, 1, e.keep.toNat), (27, 1, e.fv.toNat), (28, 12, e.p0.toNat),
          (40, 12, e.p1.toNat), (52, 12, e.p2.toNat)]

/-- A host-filter entry as Table 03.5 lays it out. -/
def hfWord (e : HfEnt) : Word :=
  mkWord [(0, 34, e.tag), (34, 16, e.pv), (50, 1, e.hx.toNat), (51, 2, match e.hst with | .s => 1 | .e => 2 | _ => 0), (53, 1, e.busy.toNat)]

/-- The decision of a probe of the directory (R115). -/
def probeDir (s : State) : State :=
  let l := ownLine s (rdFld s aDrProbe 6 42)
  match dirFindIn s l 16 0 with
  | some k => wrFld aDrProbe 48 6 (3 + 4 * (k % 16)) (wr aDrProbed (dirWord (mgetD {} s.dir k)) s)
  | none => wrFld aDrProbe 48 6 1 (wr aDrProbed 0 s)

/-- The decision of a probe of the host filter (R115). -/
def probeHf (s : State) : State :=
  let l := inLine s (BitVec.ofNat 54 (rdFld s aHfProbe 6 54))
  match hfFindIn s l 16 0 with
  | some k => wrFld aHfProbe 60 2 3 (wr aHfProbed (hfWord (mgetD {} s.hf k)) s)
  | none => wrFld aHfProbe 60 2 1 (wr aHfProbed 0 s)

/-- Every die reseeded (R193). -/
def reseed (seed : Nat) (s : State) : State :=
  let one := fun (m : SMap Word) k =>
    let d := seed ^^^ k
    mput 1 m k (BitVec.ofNat 64 (if d = 0 then 1 else d))
  { s with hc := { s.hc with dies := (List.range 32).foldl one [] } }

/-- The lines whose standing this hub holds: in the cache, in HSTATE, or with a miss register. -/
def heldLines (s : State) : List LineAddr :=
  ((s.hc.ways.flatMap fun e => e.2.st.map fun x => lineAt s e.2.addr x.1) ++ (s.hf.map fun e => hfLine e.1 e.2) ++
    (s.req.mrs.filter fun e => e.2.keepM.isSome).map fun e => e.2.line).eraseDups

/-- A maintenance operation covers the line. -/
def maintCovers (s : State) (m : Maint) (l : LineAddr) : Bool :=
  decide (m.base ≤ (outLine s l).toNat) && decide ((outLine s l).toNat < m.base + m.count)

/-- A maintenance operation starts (R211 to R214): BUSY, what it covers and how it walks, and, for a range, the open miss registers that it marks:
those whose fill is still to come. On QD48-C1 the own granules it covers are drained from the merging buffer. -/
def startMaint (s : State) : State :=
  let range := rdBit s aHcMopc 2
  let n := rdFld s aHcMopl 0 48
  let m : Maint := { flush := rdFld s aHcMopc 0 2 = 1, byAddr := !range || (isH1 s && decide (n ≤ 2 ^ 21)), base := rdFld s aHcMopa 6 54,
                     count := if range then 64 * n else 1 }
  let mark := fun (e : Nat × MissReg) =>
    if range && maintCovers s m e.2.line && !carries e.2 then (e.1, { e.2 with flush := true }) else e
  let drain := fun (e : MbEnt) =>
    if (List.range 4).any fun k => maintCovers s m (BitVec.ofNat 54 (4 * e.granule + k)) then { e with draining := true } else e
  let s := { s with hc := { s.hc with maint := some m, mbuf := s.hc.mbuf.map drain }, req := { s.req with mrs := s.req.mrs.map mark } }
  wrFld aHcMopc 4 1 1 { s with bg := s.bg ++ [⟨.maint, 0, 0, 0, false⟩] }

/-- An accepted mirror entry goes to the buddy (R339). The manual names no message for it: it goes as management traffic, its two words in one
slot, its index in XTRA (DESIGN CHOICE, log entry 32). -/
def sendMirEntry (n : Nat) (s : State) : State :=
  if rdFld s aFbBuddy 0 2 < 2 then s
  else sendMgt .mbMsg (buddy s) (n + 2 ^ 63) 1 (BitVec.ofNat 512 ((rd s (aFbMir n)).toNat + (rd s (aFbMir n + 8)).toNat * 2 ^ 64)) s

/-- A configuration request to the agent (R366). -/
def sendConfig (p : Nat) (v : Word) (s : State) : State :=
  let s := wrFld (aHpCfga p) 26 4 1 s
  emit (.cfg p (fld v 0 15) (bit v 24) (fld v 20 4 * 2 ^ 32 + rdFld s (aHpCfgd p) 0 32)) s

/-- A sweep to a target slot starts (R456). -/
def startRekey (s : State) : State :=
  let e := aSlKrt (rdFld s aSlRkctl 0 12)
  let b := rdFld s e 21 34
  let s := wr aSlRkptr (BitVec.ofNat 64 b) (wrFld aSlRkctl 31 1 1 s)
  { s with bg := s.bg ++ [⟨.rekey, b, rdFld s (e + 8) 0 34, rdFld s aSlRkctl 0 12, false⟩] }

/-- A queue's control register written (R516, R523). -/
def queueControl (q : Nat) (w v : Word) (s : State) : State :=
  let s := if !bit w 0 && bit v 0 then enableQueue q (fld v 2 4) s
    else if bit w 0 && !bit v 0 then disableQueue q (fld w 2 4) s else s
  if bit v 1 then flushQueue q s else s

/-- The test firing of a source (R509): CAUSE 0xFFFF and no objects. -/
def testFire (v : Word) (s : State) : State := if bit v 9 then fire (fld v 0 9) 65535 oNone s else s

/-- RING written at a mailbox page (R485). -/
def ring (p : Nat) (s : State) : State :=
  if rdBit s (aMbCtl p) 1 then fire (1 + 4 * p) 8 (oPort 0 p) s else wrFld (aMbCtl p) 1 1 1 s

/-- The effect of an accepted write beyond the register's own bits: `w` the word before, `v` the word written, its write-only bits included; `v1`
word 1 of a two-word entry as it took effect, `w1` before. -/
def effect (r : Reg) (w v w1 v1 : Word) (s : State) : State :=
  let b := r.base
  let i := r.i
  if b = aGlSnap then (if bit v 0 then snapshot 0 s else s)
  else if b = aTbCtl then
    let s := if bit w 0 = bit v 0 then s else noteUpstream s
    if bit v 4 then withdrawOrigin s else s
  else if b = aTbOrigin then wrFld aTbStat 2 1 1 s
  else if b = aSbSq 0 0 then writeSquares i r.j v s
  else if b = aDrSdom 0 then memberChange i w v s
  else if b = aDrProbe then { wrFld aDrProbe 48 6 0 (wr aDrProbed 0 s) with bg := s.bg ++ [⟨.probeDir, 0, 0, 0, false⟩] }
  else if b = aHfProbe then { wrFld aHfProbe 60 2 0 (wr aHfProbed 0 s) with bg := s.bg ++ [⟨.probeHf, 0, 0, 0, false⟩] }
  else if b = aHcWbctl then (List.range 512).foldl (fun s n => mbHigh (n / 16) s) s
  else if b = aHcSsd then
    ((List.range 16).filter fun p => bit w p && !bit v p).foldl (fun s p => setDetector p { mgetD {} s.hc.ssd p with n := 0, na := false } s) s
  else if b = aHcDieseed then reseed (fld v 0 32) s
  else if b = aHcMopc then (if bit v 3 then startMaint s else s)
  else if b = aLdEqpool ∨ b = aLdProto ∨ b = aLdBgres ∨ b = aLdTq 0 then
    wr aLdShared (BitVec.ofNat 64 ((sharedWith s 0 0).getD 0)) s
  else if b = aSlRkctl then (if bit v 30 then startRekey s else s)
  else if b = aSlKrt 0 then krtChanged w v v1 { s with sl := { s.sl with idle := s.sl.idle.filter (· ≠ i) } }
  else if b = aHpCtl 0 then
    if bit w 0 && !bit v 0 then disableHost i s else if !bit w 0 && bit v 0 then enableHost i s else s
  else if b = aHpCfga 0 then (if bit v 25 then sendConfig i v s else s)
  else if b = aHpWin 0 0 then
    (if h : i < 16 then (if bit w 0 && !bit v 0 then startWindowSweep ⟨i, h⟩ r.j w w1 s else s) else s)
  else if b = aDpCtl 0 then
    (if bit v 0 && (!bit w 0 || rdBit s (aDpStat i) 9) then startEnum i s else if bit w 0 && !bit v 0 then setCellarLink i 0 s else s)
  else if b = aIpCtl 0 then
    let s := if bit v 0 then enableIdior i s else disableIdior i s
    if bit v 2 then retrainRequest i s else s
  else if b = aFbHubid then wrFld aFbHubid 12 3 5 s
  else if b = aFbMir 0 then
    sendMirEntry i (if bit v 0 then s else { s with mir := { s.mir with gave := s.mir.gave.filter (· ≠ i) } })
  else if b = aMbCtl 0 then (if bit v 0 then ring i s else s)
  else if b = aEvTest then testFire v s
  else if b = aEqCtl 0 then queueControl i w v s
  else if b = aPcWrapclr then
    let s := if bit v 12 then clearWrap (fld v 0 12) s else s
    if bit v 13 then clearWraps s else s
  else if b = aPcSmpctl then sampleInitAll s
  else if b = aEcBkt 0 then (if fld v 0 8 < rdFld s (aEcBkt i) 28 8 then wrFld (aEcBkt i) 28 8 (fld v 0 8) s else s)
  else if b = aEcWr 0 ∧ r.word = 0 then
    (if fld v 8 8 < rdFld s (aEcWr i + 24) 0 8 then wrFld (aEcWr i + 24) 0 8 (fld v 8 8) s else s)
  else s

/-! ### One judged write -/

/-- The registers whose entries span two words, word 1 staged (R51). -/
def stagedReg (r : Reg) : Bool := decide (r.base ∈ [aHpWin 0 0, aDpIset 0, aSlKrt 0, aFbMir 0])

/-- A word stored where it stands: in the register file, or with the unit that holds its status. -/
def store (a : Nat) (r : Reg) (v : Word) (s : State) : State :=
  let b := r.base
  if b = aEvStat 0 then { s with ev := { s.ev with evStat := mput 0 s.ev.evStat r.i v } }
  else if b = aEqStat 0 then setQueue r.i { queue s r.i with stat := setFld v 0 32 0 } s
  else if b = aGlTlystat then { s with tly := { s.tly with lossStat := setFld v 0 18 0 } }
  else if b = aSbSq 0 0 then s
  else wr a v s

/-- The result of a write: in the Tally, and in GL_ORIGIN for its origin (R471, R497, R500). TARGET is the register's offset and the word. Writes to
the pop pages, the aperture and the doorbells are not recorded. -/
def finish (o a word res : Nat) (old new : Word) (s : State) : State :=
  let s := if 0x400000 ≤ a then s else tally o 0 res (mkWord [(0, 24, a - 8 * word), (24, 3, word)]) old new 0 s
  { s with ctl := { s.ctl with last := mset s.ctl.last o (res, a) } }

/-- Software writes and state-changing commands are refused while the Tally is over its threshold under BLOCK (R499). -/
def blockedByTally (s : State) (o : Nat) : Bool := decide (o < 34) && !rdBit s aGlTlyctl 0 && decide (tlyHeld s.tly ≥ 64512)

/-- The keys of Table 12.7. -/
def unlockKeys : List Nat :=
  [0x6E01, 0x71DE, 0xB0A2, 0xD1CE, 0xF117, 0xCAC8, 0x1A2D, 0xECC0, 0x5EA1, 0x4057, 0xDEE9, 0x1D10, 0xFAB1, 0x90E2, 0x3A1B, 0xE7E0, 0xE0C0, 0xC047]

/-- A write to GL_UNLOCK (R476, R478). -/
def unlock (o a : Nat) (v : Word) (s : State) : State :=
  let b := fld v 16 5
  let ok := match unlockKeys[b]? with
    | some k => decide (k = fld v 0 16)
    | none => false
  let res := if v.toNat ≥ 2 ^ 21 then 3 else 0
  if ok then finish o a 0 res 0 (BitVec.ofNat 64 (v.toNat % 2 ^ 21)) { s with ctl := { s.ctl with unlocks := mset s.ctl.unlocks o b } }
  else
    let s := { s with ctl := { s.ctl with unlocks := mdel s.ctl.unlocks o } }
    finish o a 0 1 0 v (fire 286 1 (oReg a) s)

/-- How a 64-bit write is judged (R470, R472 to R480): by the gates before any register is looked at, then by the register. -/
inductive Verdict where
  /-- The origin's window is not open. -/
  | closed
  /-- Held behind a waiting pop of the port (R527). -/
  | held
  /-- Refused while the Tally is over its threshold under BLOCK (R499). -/
  | blocked
  /-- Denied (R469). -/
  | denied
  /-- No register stands there, or none on this part. -/
  | hole
  /-- A write to GL_UNLOCK. -/
  | unlock
  /-- Word 1 of a two-word entry, staged (R51): the word kept, and whether reserved bits were set. -/
  | staged (v : Word) (rsv : Bool)
  /-- Only read-only bits, and whether reserved bits were set. -/
  | readOnly (rsv : Bool)
  /-- A guarded change without its unlock (R476), and whether reserved bits were set. -/
  | locked (rsv : Bool)
  /-- Refused by the register's own rule; a guarded change has spent its unlock; whether reserved bits were set. -/
  | refused (guarded rsv : Bool)
  /-- Taken: the word before, the word written, its write-only bits, word 1 before and as it takes effect; whether guarded bits change, reserved
  bits were set, and a status write was stale. -/
  | taken (cur new act cur1 v1 : Word) (guarded rsv stale : Bool)
  deriving DecidableEq, Repr

/-- How a register word judges a write that has passed the gates. `pair`: word 1 written in the same access, its reserved bits judged with word 0's
(R12, Table 12.6). -/
def verdictHere (o a : Nat) (r : Reg) (v : Word) (pair : Option Word) (s : State) : Verdict :=
  let c := accOf s r
  let m := fun (n : Nat) => BitVec.ofNat 64 n
  let seen1 := m (shown (accOf s { r with word := 1, acc := ((locate (a + 8)).map fun x => x.acc).getD {} }))
  let rsv := decide (v &&& ~~~(m (shown c ||| c.wo)) ≠ 0) || (stagedReg r && pair.any fun x => decide (x &&& ~~~seen1 ≠ 0))
  let cur := regNow s o a r
  if stagedReg r && r.word = 1 then .staged (v &&& m (shown c)) rsv
  else if (c.rw ||| c.rwg ||| c.wo ||| c.rsq) = 0 ∨ frozen s r = true then .readOnly rsv
  else
    let two := stagedReg r
    let cur1 := if two then rd s (a + 8) else 0
    let v1 := if two then (match pair with
        | some x => x &&& seen1
        | none => mgetD cur1 s.staged ((a + 8) / 8)) else 0
    let put := v &&& m (c.rw ||| c.rwg)
    let own := if (r.base = aDrSdom 0 ∨ r.base = aFbCache 0) ∧ r.i = (hubId s).toNat / 64 then setBit put ((hubId s).toNat % 64) true else put
    let new := (cur &&& ~~~(m (c.rw ||| c.rwg))) ||| own
    let act := v &&& m c.wo
    let guarded := decide ((new ^^^ cur) &&& m c.rwg ≠ 0) || v1 ≠ cur1
    let blk := (blockOf a).getD 18
    let fresh := fld v 48 16 = fld cur 48 16
    let final := if c.rsq ≠ 0 ∧ fresh then new &&& ~~~(m (c.rsq % 2 ^ 48)) else new
    if guarded && decide (o < 34) && mget s.ctl.unlocks o ≠ some blk then .locked rsv
    else
      let u := if guarded then { s with ctl := { s.ctl with unlocks := mdel s.ctl.unlocks o } } else s
      if refused u a r cur (final ||| act) cur1 v1 then .refused guarded rsv
      else .taken cur final act cur1 v1 guarded rsv
        (decide (c.rsq ≠ 0) && !decide fresh && !(decide ((final ^^^ cur) &&& m (c.rw ||| c.rwg) ≠ 0) || act ≠ 0))

/-- How a 64-bit write by an origin is judged. -/
def verdict (o a : Nat) (v : Word) (pair : Option Word) (s : State) : Verdict :=
  if o < 16 && !windowPort s o then .closed
  else if o < 16 && popWaits s o then .held
  else if blockedByTally s o then .blocked
  else if denied s o a (locate a) then .denied
  else match locate a with
    | none => .hole
    | some r => if absent s r then .hole else if r.base = aGlUnlock then .unlock else verdictHere o a r v pair s

/-- What a taken write does: the word stored, word 1 with it, the register's effect, and its result. -/
def takeWrite (o a : Nat) (r : Reg) (v : Word) (pair : Option Word) (cur new act cur1 v1 : Word) (guarded rsv stale : Bool) (s : State) : State :=
  let s := if guarded then { s with ctl := { s.ctl with unlocks := mdel s.ctl.unlocks o } } else s
  let two := stagedReg r
  let s := store a r new s
  let s := if two then wr (a + 8) v1 { s with staged := mdel s.staged ((a + 8) / 8) } else s
  let s := effect r cur (new ||| act) cur1 v1 s
  if !rsv && stale then finish o a r.word 7 cur v s
  else
    let res := if rsv then 3 else 0
    let s := finish o a r.word res cur (regNow s o a r ||| act) s
    if two && pair.isSome then finish o (a + 8) 1 res cur1 v1 s else s

/-- A write refused while the Tally is over its threshold under BLOCK (R499): counted, and not recorded. -/
def tooFull (o a : Nat) (s : State) : State := count aGlTlyref 1 { s with ctl := { s.ctl with last := mset s.ctl.last o (10, a) } }

/-- The word of its register that an offset names. -/
def wordAt (a : Nat) : Nat := ((locate a).map (·.word)).getD 0

/-- The value that a Tally record gives as the one before a write without effect: the register's, zero where this part has none there. -/
def valueAt (s : State) (o a : Nat) : Word := match locate a with
  | some r => if absent s r then 0 else regNow s o a r
  | none => 0

/-- One 64-bit write by an origin at an 8-byte aligned offset (R469 to R480). A write that sets reserved bits has the result "reserved" also where it is
locked or refused (R12, Table 12.4; for a locked one DEDUCED, log entry 105). -/
def writeReg (o a : Nat) (v : Word) (pair : Option Word) (s : State) : State :=
  let r := (locate a).getD { base := 0, word := 0, i := 0, j := 0, acc := {}, words := 0 }
  let cur := regNow s o a r
  match verdict o a v pair s with
  | .closed => s
  | .held => holdAccess o (match pair with
    | some x => .bytes a 16 (v.toNat + 2 ^ 64 * x.toNat)
    | none => .bytes a 8 v.toNat) s
  | .blocked => tooFull o a s
  | .denied =>
    let s := if o < 16 then fire (1 + 4 * o) 5 (oPort 0 o) s else s
    finish o a (wordAt a) 2 (valueAt s o a) v s
  | .hole => finish o a (wordAt a) (if v = 0 then 0 else 3) 0 0 s
  | .unlock => unlock o a v s
  | .staged x rsv => finish o a 1 (if rsv then 3 else 0) cur x { s with staged := mset s.staged (a / 8) x }
  | .readOnly rsv => finish o a r.word (if rsv then 3 else 5) cur (if rsv then cur else v) s
  | .locked rsv => finish o a r.word (if rsv then 3 else 4) cur v (fire 286 0 (oReg a) s)
  | .refused guarded rsv => finish o a r.word (if rsv then 3 else 1) cur v (if guarded then { s with ctl := { s.ctl with unlocks := mdel s.ctl.unlocks o } } else s)
  | .taken cur new act cur1 v1 guarded rsv stale => takeWrite o a r v pair cur new act cur1 v1 guarded rsv stale s

/-- The result of the origin's last write (R471). -/
def lastRes (s : State) (o : Nat) : Nat := (mgetD (0, 0) s.ctl.last o).1

/-! ### Accesses of each width (Table 12.6) -/

/-- The aligned 64-bit words of a wide write, in ascending order: a two-word entry in one write, any other word in a write of its own. -/
def writeWords (o a : Nat) : Nat → Nat → State → State
  | 0, _, s => s
  | n + 1, v, s =>
    let two := match locate a with
      | some r => stagedReg r && r.word = 0 && decide (1 ≤ n)
      | none => false
    if two then
      match n with
      | k + 1 => writeWords o (a + 16) k (v / 2 ^ 128) (writeReg o a (BitVec.ofNat 64 v) (some (BitVec.ofNat 64 (v / 2 ^ 64))) s)
      | 0 => s
    else writeWords o (a + 8) n (v / 2 ^ 64) (writeReg o a (BitVec.ofNat 64 v) none s)

/-- A write by port `p` above the registers: to a pop page (Table 13.7, R528), an aperture slot (R164) or a doorbell slot (R280). -/
def pageWrite (p : HPort) (a size v : Nat) (s : State) : State :=
  if a < 0x800000 then
    opPost p (BitVec.ofNat 13 (a / 512)) (a % 512) ((List.range size).map fun k => BitVec.ofNat 8 (v / 2 ^ (8 * k))) s
  else if !portServes s p then s
  else if a < 0xC00000 then
    if slotPort a = p ∧ a % 64 = 0 ∧ size = 64 then opApertureDescriptor p (BitVec.ofNat 12 (a / 64)) (BitVec.ofNat 512 v) s
    else fire (1 + 4 * p) 3 (oPort 0 p) s
  else if slotPort a = p ∧ a % 64 = 0 ∧ size = 8 then opDoorbellRing p (BitVec.ofNat 12 (a / 64)) (BitVec.ofNat 64 v) s
  else fire (1 + 4 * p) 4 (oPort 0 p) s

/-- A write of `size` bytes (Table 12.6): a narrow or misaligned one has no effect. A port's write is held behind a waiting pop of its (R527). -/
def writeBytes (o a size v : Nat) (s : State) : State :=
  if h : o < 16 ∧ 0x400000 ≤ a then (if popWaits s o then holdAccess o (.bytes a size v) s else pageWrite ⟨o, h.1⟩ a size v s)
  else if o < 16 && !windowPort s o then s
  else if o < 16 && popWaits s o then holdAccess o (.bytes a size v) s
  else if size ≥ 8 ∧ size % 8 = 0 ∧ a % size = 0 then writeWords o a (size / 8) v s
  else
    let misaligned := size = 0 || a % size ≠ 0 || decide (8 < a % 8 + size)
    let s := if misaligned && decide (o < 16) then fire (1 + 4 * o) 6 (oPort 0 o) s else s
    let b := a / 8 * 8
    if blockedByTally s o then tooFull o b s else finish o b (wordAt b) 6 (valueAt s o b) (BitVec.ofNat 64 v) s

/-- The bytes that the words from the aligned offset `a` hold, low byte first. -/
def readWords (s : State) (o a : Nat) : Nat → Nat
  | 0 => 0
  | n + 1 => (readReg s o a).toNat + 2 ^ 64 * readWords s o (a + 8) n

/-- A read of `size` bytes by an origin (Table 12.6, R164, R280, Table 13.7), with the event that a misused one raises. The aligned 8-byte read of a
queue's POP is the command POP. -/
def readBytes (o a size : Nat) (s : State) : Nat × State :=
  let cut := fun (x : Nat) => x / 2 ^ (8 * (a % 8)) % 2 ^ (8 * size)
  let ev := fun (c : Nat) (s : State) => if o < 16 then fire (1 + 4 * o) c (oPort 0 o) s else s
  if 0x800000 ≤ a then
    (cut (readWords s o (a / 8 * 8) (size / 8 + 2)), if o = slotPort a then s else ev (if a < 0xC00000 then 3 else 4) s)
  else if 0x400000 ≤ a then (if a % 512 < 8 then (2 ^ (8 * size) - 1, ev 7 s) else (0, s))
  else if size = 0 || a % size ≠ 0 || (decide (size < 8) && decide (8 < a % 8 + size)) then (2 ^ (8 * size) - 1, ev 6 s)
  else (cut (readWords s o (a / 8 * 8) ((size + 7) / 8)), s)

/-! ### An agent's requests (R367, R371) -/

/-- The slots of the aperture and the doorbells that an agent read of `n` lines covers, a line a completion. -/
def slotRead (r : HostReq) (a n : Nat) (s : State) : State :=
  (List.range n).foldl (fun s k =>
    portAnswer r.port (.cplData r.tag (lineOf (r.hpa.toNat + 64 * k)) ⟨BitVec.ofNat 512 (readWords s r.port (a / 64 * 64 + 64 * k) 8), 0⟩) s) s

/-- AGENT_MEMORY_READ (R367, R371, R103): `lines` lines from the addressed one, at most 64 (4,096 bytes). -/
def opAgentMemoryRead (r : HostReq) (lines : Nat) (tph : Option (BitVec 8)) (s : State) : State :=
  match agentRegion s r.port r.hpa with
  | some a => if agentServes s r.port then slotRead r a (max 1 (min lines 64)) s else s
  | none => agentRead r lines tph s

/-- The first byte that a write's mask names, and how many it names; none where they are not consecutive. -/
def maskRun (w : HostWr) : Option (Nat × Nat) :=
  let on := (List.range 64).filter fun i => w.mask.toNat.testBit i
  match on with
  | [] => none
  | i :: _ => if on = (List.range on.length).map (i + ·) then some (i, on.length) else none

/-- A posted write to the region of HP_MBAR (R371): a write of consecutive bytes reaches the slots as a host's does, any other is misuse. -/
def slotWrite (p : HPort) (a : Nat) (w : HostWr) (s : State) : State :=
  match maskRun w with
  | some (i, n) => pageWrite p (a / 64 * 64 + i) n (w.data.bytes.toNat / 2 ^ (8 * i) % 2 ^ (8 * n)) s
  | none => fire (1 + 4 * p) (if a < 0xC00000 then 3 else 4) (oPort 0 p) s

/-- AGENT_POSTED_WRITE (R271, R367, R371). -/
def opAgentPostedWrite (r : HostReq) (w : HostWr) (ro : Bool) (tph : Option (BitVec 8)) (s : State) : State :=
  match agentRegion s r.port r.hpa with
  | some a => if agentServes s r.port then slotWrite r.port a w s else s
  | none => agentWrite r w ro tph s

/-! ### The commands -/

/-- The value of a register as software would write it back: its present value with the current SEQ (DESIGN CHOICE, log entry 31). -/
def now (s : State) (o a : Nat) : Word := match locate a with
  | some r => regNow s o a r
  | none => 0

/-- REGISTER_WRITE (R472, Table 12.6). -/
def opRegisterWrite (o : Origin) (a : BitVec 24) (size : Nat) (v : BitVec 512) (s : State) : State := writeBytes o a.toNat size v.toNat s

/-- STAGED_WORD_WRITE (R51). -/
def opStagedWordWrite (o : Origin) (a : BitVec 24) (v : Word) (s : State) : State := writeBytes o a.toNat 8 v.toNat s

/-- STATUS_CLEAR (R480). -/
def opStatusClear (o : Origin) (a : BitVec 24) (v : Word) (s : State) : State := writeBytes o a.toNat 8 v.toNat s

/-- GL_UNLOCK (R476, R478). -/
def opGlUnlock (o : Origin) (block : BitVec 5) (key : BitVec 16) (s : State) : State :=
  writeReg o aGlUnlock (mkWord [(0, 16, key.toNat), (16, 5, block.toNat)]) none s

/-- UNLOCK_EXPIRY (R476). -/
def opUnlockExpiry (o : Origin) (s : State) : State := { s with ctl := { s.ctl with unlocks := mdel s.ctl.unlocks o } }

/-- SNAPSHOT (R481). -/
def opSnapshot (o : Origin) (s : State) : State := writeReg o aGlSnap 1 none s

/-- A write of HC_MOPC with GO. -/
def mop (o : Origin) (op : Nat) (range : Bool) (s : State) : State :=
  writeReg o aHcMopc (mkWord [(0, 2, op), (2, 1, range.toNat), (3, 1, 1), (48, 16, seqOf s aHcMopc)]) none s

/-- MOP_CLEAN (R211). -/
def opMopClean (o : Origin) (range : Bool) (s : State) : State := mop o 0 range s

/-- MOP_FLUSH (R211). -/
def opMopFlush (o : Origin) (range : Bool) (s : State) : State := mop o 1 range s

/-- DIE_RESEED (R193). -/
def opDieReseed (o : Origin) (v : Word) (s : State) : State := writeReg o aHcDieseed v none s

/-- DR_PROBE (R115). -/
def opDrProbe (o : Origin) (v : Word) (s : State) : State := writeReg o aDrProbe v none s

/-- HF_PROBE (R115). -/
def opHfProbe (o : Origin) (v : Word) (s : State) : State := writeReg o aHfProbe v none s

/-- ORIGIN_ARM (R222). -/
def opOriginArm (o : Origin) (v : Word) (s : State) : State := writeReg o aTbOrigin v none s

/-- ORIGIN_DISARM (R222). -/
def opOriginDisarm (o : Origin) (s : State) : State := writeReg o aTbCtl (setBit (now s o aTbCtl) 4 true) none s

/-- LINK_RETRAIN_REQUEST (R309). -/
def opLinkRetrainRequest (o : Origin) (p : IPort) (s : State) : State := writeReg o (aIpCtl p) (setBit (now s o (aIpCtl p)) 2 true) none s

/-- IDIOR_PORT_ENABLE (R308). -/
def opIdiorPortEnable (o : Origin) (p : IPort) (s : State) : State := writeReg o (aIpCtl p) (setBit (now s o (aIpCtl p)) 0 true) none s

/-- IDIOR_PORT_DISABLE (R308). -/
def opIdiorPortDisable (o : Origin) (p : IPort) (s : State) : State := writeReg o (aIpCtl p) (setBit (now s o (aIpCtl p)) 0 false) none s

/-- HOST_PORT_DISABLE (R358). -/
def opHostPortDisable (o : Origin) (p : HPort) (s : State) : State := writeReg o (aHpCtl p) (setBit (now s o (aHpCtl p)) 0 false) none s

/-- HOST_PORT_ENABLE (R358). -/
def opHostPortEnable (o : Origin) (p : HPort) (s : State) : State := writeReg o (aHpCtl p) (setBit (now s o (aHpCtl p)) 0 true) none s

/-- CELLAR_PORT_ENABLE (R374, R376). -/
def opCellarPortEnable (o : Origin) (d : DPort) (s : State) : State := writeReg o (aDpCtl d) (setBit (now s o (aDpCtl d)) 0 true) none s

/-- REKEY_START (R456): SL_RKCTL with GO. -/
def opRekeyStart (o : Origin) (v : Word) (s : State) : State := writeReg o aSlRkctl (setBit v 30 true) none s

/-- QUEUE_FLUSH (R523). -/
def opQueueFlush (o : Origin) (q : BitVec 13) (s : State) : State := writeReg o (aEqCtl q.toNat) (setBit (now s o (aEqCtl q.toNat)) 1 true) none s

/-- QUEUE_ENABLE (R516): EN with the given SIZE. -/
def opQueueEnable (o : Origin) (q : BitVec 13) (size : BitVec 4) (s : State) : State :=
  writeReg o (aEqCtl q.toNat) (setFld (setBit (now s o (aEqCtl q.toNat)) 0 true) 2 4 size.toNat) none s

/-- QUEUE_DISABLE (R516). -/
def opQueueDisable (o : Origin) (q : BitVec 13) (s : State) : State := writeReg o (aEqCtl q.toNat) (setBit (now s o (aEqCtl q.toNat)) 0 false) none s

/-- WRAP_CLEAR_ONE (R531). -/
def opWrapClearOne (o : Origin) (idx : BitVec 12) (s : State) : State := writeReg o aPcWrapclr (mkWord [(0, 12, idx.toNat), (12, 1, 1)]) none s

/-- WRAP_CLEAR_ALL (R531). -/
def opWrapClearAll (o : Origin) (s : State) : State := writeReg o aPcWrapclr (mkWord [(13, 1, 1)]) none s

/-- SAMPLING_CONTROL (R532). -/
def opSamplingControl (o : Origin) (v : Word) (s : State) : State := writeReg o aPcSmpctl v none s

/-- WINDOW_ENABLE (R47): word 0 with V. -/
def opWindowEnable (o : Origin) (p : HPort) (n : BitVec 8) (v : Word) (s : State) : State := writeReg o (aHpWin p n.toNat) (setBit v 0 true) none s

/-- WINDOW_DISABLE (R53): word 0 without V. -/
def opWindowDisable (o : Origin) (p : HPort) (n : BitVec 8) (v : Word) (s : State) : State := writeReg o (aHpWin p n.toNat) (setBit v 0 false) none s

/-- MEMBERSHIP_SET (R60). -/
def opMembershipSet (o : Origin) (hub : HubId) (s : State) : State :=
  let a := aDrSdom (hub.toNat / 64)
  writeReg o a (setBit (now s o a) (hub.toNat % 64) true) none s

/-- MEMBERSHIP_CLEAR (R61). -/
def opMembershipClear (o : Origin) (hub : HubId) (s : State) : State :=
  let a := aDrSdom (hub.toNat / 64)
  writeReg o a (setBit (now s o a) (hub.toNat % 64) false) none s

/-- KEY_RANGE_TYPE_CHANGE (R77): word 0 with another TYPE. -/
def opKeyRangeTypeChange (o : Origin) (n : BitVec 12) (type : BitVec 2) (s : State) : State :=
  writeReg o (aSlKrt n.toNat) (setFld (now s o (aSlKrt n.toNat)) 1 2 type.toNat) none s

/-- SQUARE_WRITE (R252): the SB_SQ word that holds the square. -/
def opSquareWrite (o : Origin) (board : Fin 92) (square : Nat) (v : Word) (s : State) : State := writeReg o (aSbSq board (square % 512 / 8)) v none s

/-- MIRROR_ENTRY_WRITE (R339): both words in one access. As hardware (origin 35) it is the buddy's entry arriving in FB_PMIR. -/
def opMirrorEntryWrite (o : Origin) (n : Fin 8) (v : BitVec 128) (s : State) : State :=
  let v0 := BitVec.ofNat 64 v.toNat
  let v1 := BitVec.ofNat 64 (v.toNat / 2 ^ 64)
  if o.val = 35 then wr (aFbPmir n) v0 (wr (aFbPmir n + 8) v1 s)
  else writeReg o (aFbMir n) v0 (some v1) s

/-- TEST_FIRING (R509). -/
def opTestFiring (o : Origin) (src : BitVec 9) (s : State) : State := writeReg o aEvTest (mkWord [(0, 9, src.toNat), (9, 1, 1)]) none s

/-- CONFIG_REQUEST (R366): HP_CFGA with GO. -/
def opConfigRequest (o : Origin) (p : HPort) (v : Word) (s : State) : State := writeReg o (aHpCfga p) (setBit v 25 true) none s

end Sys2Proof.Machine
end

