-- ==== Sys2Proof/Machine/Reset.lean ====
section
/-! DEFINITION. Flushes and resets (07 R290 to R297, 11 R446 to R448, 14 R541, R553 to R560): what a flush still has to do, the state that each kind
of reset leaves (Table 14.9), and the root record. -/

namespace Sys2Proof.Machine

/-! ### Flushes (R290, R294) -/

/-- The lines that a flush releases: remote standings with nothing of them under way. -/
def remoteHeld (s : State) : List LineAddr :=
  (heldLines s).filter fun l => !isOwn s l && standing s l ≠ .i && (mrOf s l).isNone && (evOf s l).isNone && !stepOn s l

/-- What a flush does about cached lines: own dirty lines are written, remote standings released (R290); after a dead notice only own lines, and
for record loss none (Tables 07.4, 14.8). -/
def flushLines (cause : Nat) (s : State) : State :=
  if cause = 3 then s
  else
    let own := (dirtyLines s).filter fun l => isOwn s l && !stepOn s l
    let s := own.foldl (cleanLine 0) s
    if cause = 6 then s else (remoteHeld s).foldl (fun s l => releaseHosts l 7 (epochNow s) s) s

/-- Nothing but metadata is left to be written: every accepted request is complete, every write persisted and every message sent (R290). -/
def flushQuiet (cause : Nat) (s : State) : Bool :=
  s.hc.mbuf.isEmpty && s.cel.ops.isEmpty && s.cel.owed.isEmpty && s.sl.reseals.isEmpty &&
    (cause = 6 || (s.ports.outst.isEmpty && s.req.mrs.isEmpty && s.hc.evt.isEmpty && s.home.opened.isEmpty && s.home.waiting.isEmpty &&
      s.home.input.isEmpty && s.home.wayWait.isEmpty && s.hst.steps.isEmpty && s.req.waits.isEmpty && s.req.due.isEmpty && s.ports.agentQ.isEmpty &&
      (s.hc.hbm.all fun e => e.2.isEmpty) && (s.brd.wait.all fun e => e.2.isEmpty) && s.routeWait.isEmpty &&
      !(s.slots.any fun e => e.2.busy && !e.2.waiting) && (unackedMirrors s).isEmpty)) &&
    (cause = 3 || !(dirtyLines s).any fun l => isOwn s l && (isH1 s || cacheSt s l ≠ .m)) && (cause = 3 || cause = 6 || (remoteHeld s).isEmpty)

/-- No cellar command waits to leave or is leaving. -/
def cellarQuiet (s : State) : Bool := (List.range 8).all fun d => (mgetD [] s.brd.wait (68 + d)).isEmpty && (mget s.brd.run (68 + d)).isNone

/-- The seal cache holds nothing newer than the cellar, and no cellar command waits to leave. -/
def metaQuiet (s : State) : Bool := !(s.sl.cache.any fun e => e.2.dirty) && cellarQuiet s

/-- The cause of the flush under way: that of its reset, or 2 for a flush of R294. -/
def flushCause (s : State) : Nat := match s.part.phase with
  | .flush _ => s.pwr.cause
  | _ => 2

/-- A flush goes on as far as it can: lines, the merging buffer, then every dirty counter block and node (R437). -/
def flushGo (s : State) : State :=
  let c := flushCause s
  let s := drainAll (flushLines c s)
  if flushQuiet c s then flushBlocks s else s

/-- The flush has nothing left to do (R290). -/
def flushDone (s : State) : Bool := flushQuiet (flushCause s) s && metaQuiet s

/-! ### The root record (R447, R448) -/

/-- The root record written at the end of a flush in which every write was persisted. -/
def saveRoot (s : State) : State :=
  if s.cel.lost || rdFld s aSlStat 0 2 ≠ 2 then s
  else
    let r : RootRec := ⟨(List.range 8).map fun k => rd s (aSlRoot k), rd s aSlMajsrc, s.sl.tree⟩
    { s with flash := { s.flash with rootRec := some r } }

/-- A home at reset: restored from its root record and ROOTED, the record erased; without one UNROOTED. -/
def restoreRoot (s : State) : State :=
  match s.flash.rootRec with
  | none => s
  | some r =>
    let s := (List.range 8).foldl (fun s k => wr (aSlRoot k) (r.roots.getD k 0) s) s
    let s := wrFld aSlStat 0 2 2 (wr aSlMajsrc r.major s)
    { s with sl := { s.sl with tree := r.tree }, flash := { s.flash with rootRec := none } }

/-! ### Warm and hub resets (R554 to R556, Table 14.9) -/

/-- The registers that a warm or hub reset keeps: home map, fabric and port settings, fabric time, applied retirements, keys and the rekey sweep,
calibration, the cause of the last cold reset, and what enumeration and training found. -/
def keptFams : List Nat :=
  [aDrHomelim, aDrSdom 0, aDpIset 0, aSlKrt 0, aFbMir 0, aEcWr 0, aFbHubid, aFbRoot, aFbPortgrp, aFbCache 0, aFbRt 0, aIpCtl 0, aIpStat 0,
   aIpPeer 0, aIpPser 0, aSlLta 0, aSlLpsk, aHpCtl 0, aHpStat 0, aHpWin 0 0, aHpPlt 0 0, aHpPldef 0, aHpMgacc 0, aHpAgirq 0, aHpMbar 0,
   aDpCtl 0, aDpStat 0, aDpCap 0, aDpEbnd 0, aDpDsc 0, aMbAuth 0, aMbAuthi3c, aMbAuthfab, aMbFmsrc, aSlCtl, aSlKs 0, aSlRkctl, aSlRkptr,
   aTbCtl, aTbOrigin, aTbStat, aTbOffs, aTbLink 0, aHcPcmap, aPmLastc, aPmCal 0]

/-- A register word that is kept; of a watched range all but its bucket. -/
def keptReg (a : Nat) : Bool := match regAt a with
  | some (f, w) => decide (f.base ∈ keptFams) && !(decide (f.base = aEcWr 0) && w = 3)
  | none => false

/-- Host links are down and no stream is secure (R556). -/
def linksDown (s : State) : State :=
  (List.range 16).foldl (fun s p => if rdFld s (aHpStat p) 0 3 = 0 then s else wr (aHpStat p) (setFld (rd s (aHpStat p)) 0 9 7) s) s

/-- The background work that outlives a warm or hub reset: what moves data from one key or place to another. -/
def keptTask (t : BgTask) : Bool := match t.kind with
  | .rekey | .keyRetire | .pageRetire => true
  | _ => false

/-- The dies as they stand after a reset: each seeded from the entropy source, a free value that is not zero (R193, Table 14.9). -/
def seedDies (s : State) : State :=
  (List.range 32).foldl (fun s k =>
    let x := drawFree s
    let v := fld (Config.freeWord x.1) 0 32
    { x.2 with hc := { x.2.hc with dies := mset x.2.hc.dies k (BitVec.ofNat 64 (max 1 v)) } }) s

/-- The records under verification are no longer (R569): an interrupted verification. -/
def unverify (s : State) : State :=
  (List.range 56).foldl (fun s n => if rdFld s (aPmCal n) 22 2 = 3 then wrFld (aPmCal n) 22 2 1 s else s) s

/-- The device after a warm or hub reset, not ready yet: the rows of Table 14.9. A word staged for an entry that the reset keeps is lost (R51, DESIGN
CHOICE, log entry 103). The ranges of a hub that leaves the fabric are out of service until they are written again (R337). -/
def hubCleared (hub : Bool) (s : State) : State :=
  let s := s.rx.foldl (fun s x => freeRx x s) s
  let stat := rdFld s aPmStat 0 4
  let idle := if rdFld s aFbHubid 16 8 = 0 then s.sl.idle else (krtValid s).map (·.1)
  let z := State.reset
  let ways := (s.hc.ways.filter fun e => e.2.ret).map fun e => (e.1, ({ ret := true } : Way))
  let t := { s with
    part := { s.part with phase := .resetting hub }, time := { s.time with sched := [] }, regs := s.regs.filter fun e => keptReg (8 * e.1)
    staged := [], ev := z.ev, cnt := z.cnt, lar := z.lar, brd := z.brd, hc := { z.hc with ways := ways, retPcs := s.hc.retPcs }
    dir := [], hf := [], home := z.home, sweep := [], req := z.req, hst := { z.hst with setting := s.hst.setting }, slots := [], ports := z.ports, cel := z.cel
    sl := { z.sl with keys := s.sl.keys, idle := idle }, mir := z.mir, fab := z.fab, routeWait := [], rx := [], bg := s.bg.filter keptTask
    prot := { z.prot with moving := s.prot.moving }, pwr := { z.pwr with low := s.pwr.low, cause := s.pwr.cause, mgmtLost := s.pwr.mgmtLost, altClk := s.pwr.altClk, fails := s.pwr.fails, gpfExp := s.pwr.gpfExp }
    ctl := z.ctl }
  let t := wrFld aPmStat 0 4 stat (wrFld aFbHubid 16 8 0 (linksDown (unverify t)))
  let t := (List.range 16).foldl (fun t p => takeSetting p t) t
  let t := (List.range 8).foldl (fun t n => wrFld (aFbMir n) 1 3 0 t) t
  let t := wr aGlStat (BitVec.ofNat 64 (if hub then s.pwr.cause else 1)) t
  seedDies (restoreRoot t)

/-- The report of this hub's own death has not left yet. -/
def selfReportWaits (s : State) : Bool :=
  let mine := fun (m : Msg) => (m.opc = .dhRpt || m.opc = .dhNote) && decide (m.h.src = hubId s) && decide (hubIn m.h = hubId s)
  let held := fun (w : Waiter) => match w.item with
    | .msg m => mine m
    | _ => false
  s.routeWait.any (fun x => mine x.1) ||
    (List.range 12).any fun p => (mgetD [] s.brd.wait (56 + p)).any held || (mget s.brd.run (56 + p)).any held

/-- This hub has reported itself: its JST is leaving. -/
def reportedSelf (s : State) : Bool := rdFld s aFbStat 0 2 = 3

/-- The reset that follows a flush (R331, R554): a hub reset by command and a warm reset are reported with cause PLANNED first, and wait for the report to
leave. -/
def endFlush (hub : Bool) (s : State) : State :=
  let planned := s.pwr.cause = 1 || s.pwr.cause = 2
  let s := if planned && !reportedSelf s then reportSelf s else s
  if planned && selfReportWaits s then s else hubCleared hub s

/-- A reset without a flush: what was held is lost and the shutdown state dirty (Table 14.8). -/
def hardReset (cause : Nat) (s : State) : State :=
  let s := markDirty s
  hubCleared true { s with pwr := { s.pwr with cause := cause } }

/-- A hub reset for damage to the device's own state (R179, Table 10.4): 3 record loss, 4 tracking loss, with what Tables 07.4 and 14.8 let complete;
5 control state, at once. The cause is recorded in the Tally. -/
def damageReset (cause src : Nat) (o : Obj) (s : State) : State :=
  let s := tallyAuto 35 aGlStat src 0 (BitVec.ofNat 64 cause) o s
  if cause = 5 then hardReset 5 s
  else flushGo (beginReset true cause (markDirty s))

/-- RESET_FLUSH_END (R554): once nothing is left to flush the device resets; until then the flush goes on. A flush of R290 whose writes were all
persisted leaves a root record (R447). -/
def opResetFlushEnd (s : State) : State :=
  match s.part.phase with
  | .flush hub =>
    let s := flushGo s
    if !flushDone s then s
    else
      let rooted := s.pwr.cause = 1 ∨ s.pwr.cause = 2 ∨ s.pwr.cause = 4
      endFlush hub (if rooted then saveRoot s else s)
  | _ => s

/-! ### Global Persistent Flush (R294, R295, R547) -/

/-- GPF Phase `n` toward each expander (R294). -/
def gpfPhase (n : Nat) (s : State) : State :=
  let ds := (List.range 8).filter fun d => rdBit s (aDpCtl d) 0 && rdBit s (aDpStat d) 8 && !rdBit s (aDpStat d) 9
  ds.foldl (fun s d => cellCmd d 7 (epochNow s) (.gpf n) s) { s with pwr := { s.pwr with gpfStep := n } }

/-- The hub's own part of the flush of R294 is over: the root record where it was not cut off, then Phase 1 toward the expanders. -/
def gpfOwnEnds (cut : Bool) (s : State) : State :=
  let s := if cut then markDirty s else saveRoot s
  gpfPhase 1 { s with pwr := { s.pwr with gpfCut := cut } }

/-- The flush of R294 ends: Phase 2 reported complete to every head that asked for it. -/
def gpfEnds (s : State) : State :=
  let s := s.pwr.gpf.foldl (fun s p => emit (.gpfDone p) s) s
  { s with pwr := { s.pwr with gpf := [], flush := false, gpfStep := 0, gpfDone := !s.pwr.gpfCut } }

/-- The phases toward the expanders (R294): each begins once the commands of the one before have left. -/
def gpfPhases (s : State) : State :=
  let s := if s.pwr.gpfStep = 1 ∧ cellarQuiet s then gpfPhase 2 s else s
  if s.pwr.gpfStep = 2 ∧ cellarQuiet s then gpfEnds s else s

/-- A flush of R294 goes on as far as it can. -/
def gpfGo (s : State) : State :=
  if !s.pwr.flush then s
  else if s.pwr.gpfStep ≠ 0 then gpfPhases s
  else
    let s := flushGo s
    if flushDone s then gpfPhases (gpfOwnEnds false s) else s

/-- The flush of R294 starts, unless one runs: admission stops. -/
def gpfStart (s : State) : State :=
  if s.pwr.flush then s
  else gpfGo { s with ports := { s.ports with closed := true }, cel := { s.cel with lost := false }, pwr := { s.pwr with flush := true } }

/-- GPF_PHASE2_REQUEST (R294): the head waits for the flush, which its request starts or joins. -/
def opGpfPhase2Request (p : HPort) (s : State) : State :=
  if !windowPort s p then s
  else
    let g := s.pwr.gpf
    gpfStart { s with pwr := { s.pwr with gpf := if p.val ∈ g then g else g ++ [p.val] } }

/-- GPF_TIME_EXPIRY (R295): the advertised time has passed. -/
def opGpfTimeExpiry (s : State) : State := if s.pwr.flush then markDirty s else s

/-- FLUSH_TIME_LIMIT (R290): a flush not ended after 1 s is abandoned and the shutdown state dirty; a report of this hub's own that has not left by then
is not waited for. -/
def opFlushTimeLimit (s : State) : State :=
  match s.part.phase with
  | .flush hub => if reportedSelf s then hubCleared hub (markDirty s) else endFlush hub (markDirty s)
  | _ => if s.pwr.flush && s.pwr.gpfStep = 0 then gpfPhases (gpfOwnEnds true s) else s

/-! ### Cold resets (R541, R553) -/

/-- The device held in cold reset: every port stopped, every store lost; the boot flash is kept, and the shutdown state dirty unless a Global
Persistent Flush has completed (Table 07.4). `lastc` is PM_LASTC; `hold` says that something other than PORST_n holds the reset. -/
def coldReset (lastc : Nat) (hold : Bool) (s : State) : State :=
  let z := State.reset
  let t : State := { z with
    part := { s.part with phase := .held }, flash := { s.flash with dirty := s.flash.dirty || !(s.pwr.gpfDone || s.part.phase = .held) }
    tly := ⟨[], 0, 0, [], 0, 0, 0, 0, 0⟩, pwr := { z.pwr with low := s.pwr.low, hold := hold }, free := s.free, out := s.out, pending := s.pending }
  wr aPmLastc (BitVec.ofNat 64 lastc) t

/-- An image of a slot that may be booted: it verifies and its SVN is at least MINSV (R491, R496). -/
def mayBoot (f : Flash) (b : Bool) : Bool := (if b then f.slotB else f.slotA).any fun i => f.minsv ≤ i.svn.toNat

/-- The Tally's new chain (R502). -/
def newChain (f : Flash) : Tly :=
  let old : Word := match f.chkNum with
    | some n => BitVec.ofNat 64 n
    | none => BitVec.allOnes 64
  ⟨[(0, ⟨0, 0, 34, 3, 0, f.boots % 65536, 0, old, BitVec.ofNat 64 f.boots, 0, 0, 0⟩)], 1, 0, [], 0, 0, 0, 1, 0⟩

/-- The cold reset goes on with an image (Table 14.7): the dies seeded (R193), a new Tally chain, and the enabled cellar ports are enumerated. -/
def bootWith (s : State) : State :=
  let s := seedDies { s with part := { s.part with phase := .cold }, tly := newChain s.flash }
  ((List.range 8).filter fun d => rdBit s (aDpCtl d) 0).foldl (fun s d => startEnum d s) s

/-- The end of cold reset (R8, R553, R584): straps sampled, the profile among them, boot count raised, a pending slot made active, and the image chosen: the active slot,
else the other, which becomes active (EV280, R491); with neither the device stays without an image. -/
def release_ (straps : Straps) (s : State) : State :=
  let f := { s.flash with boots := (s.flash.boots + 1) % 2 ^ 32 }
  let f := if f.pend then { f with actB := !f.actB, pend := false } else f
  let s := { s with part := { s.part with profile := straps.profile, straps := straps, latched := straps }, flash := f, pwr := { s.pwr with hold := false } }
  if mayBoot f f.actB then bootWith s
  else if mayBoot f (!f.actB) then
    let s := bootWith { s with flash := { f with actB := !f.actB } }
    tallyAuto 34 aGlFw 280 (BitVec.ofNat 64 f.actB.toNat) (BitVec.ofNat 64 (!f.actB).toNat) oNone (fire 280 0 oNone s)
  else { s with part := { s.part with phase := .noImage } }

/-- PORST_ASSERT (R553): a cold reset, which ends any flush and clears a seal halt (R446, R559). -/
def opPorstAssert (s : State) : State := coldReset 0 s.pwr.hold { s with part := { s.part with porstN := false } }

/-- PORST_DEASSERT (R553, R584). -/
def opPorstDeassert (straps : Straps) (s : State) : State :=
  if s.part.porstN then s
  else
    let s := { s with part := { s.part with porstN := true } }
    if s.pwr.hold then s else release_ straps s

/-- The reading of sensor `k` in °C, signed (PM_TEMP). -/
def sensor (s : State) (k : Nat) : Int := (BitVec.ofNat 8 (rdFld s (aPmTemp (k / 8)) (8 * (k % 8)) 8)).toInt

/-- The highest of some readings. -/
def hottest (s : State) (l : List Nat) : Int := l.foldl (fun m k => if m < sensor s k then sensor s k else m) (-128)

/-- Tj (R548): the highest reading. -/
def tj (s : State) : Int := hottest s (List.range (if isH1 s then 16 else 12))

/-- INTERNAL_RELEASE (R541, R550, R552, R584): a cold reset that PORST_n did not start ends, once every rail is above its warning level and after a
thermal trip Tj at or below 95 °C, unless PORST_n holds it. -/
def opInternalRelease (straps : Straps) (s : State) : State :=
  if !s.pwr.hold || !s.pwr.low.isEmpty || (!s.part.thermtripN && decide (95 < tj s)) then s
  else
    let s := { s with pwr := { s.pwr with hold := false }, part := { s.part with thermtripN := true } }
    if s.part.porstN then release_ straps s else s

/-! ### Warm resets -/

/-- PERST_ASSERT (R290, R554, R559, R585): a warm reset with its flush; it shares a flush that runs, and prevails over a hub reset. -/
def opPerstAssert (s : State) : State :=
  if s.halted.isSome then s
  else match s.part.phase with
    | .ready => flushGo (beginReset false 1 { s with part := { s.part with perstN := false }, cel := { s.cel with lost := false } })
    | .flush _ => { s with part := { s.part with perstN := false, phase := .flush false }, pwr := { s.pwr with cause := 1 } }
    | .resetting _ => wr aGlStat 1 { s with part := { s.part with perstN := false, phase := .resetting false } }
    | _ => s

/-- PERST_DEASSERT (R554). -/
def opPerstDeassert (s : State) : State := { s with part := { s.part with perstN := true } }

end Sys2Proof.Machine
end

