-- ==== Sys2Proof/Machine/Mbox.lean ====
section
/-! DEFINITION. What every mailbox command shares (12 R484 to R490): authority, answers, completion records, background commands and their ends, and
the Tally records of commands. CXL return codes are those of CXL 3.1 (PRESUMED, log entry 37). -/

namespace Sys2Proof.Machine

/-- The register origin of a mailbox (Table 12.2). -/
def mbOrigin (mb : Nat) : Nat := if mb < 16 then 16 + mb else mb + 16

/-- The command groups that a mailbox accepts (R487). -/
def mbAuth (s : State) (mb : Nat) : Nat :=
  if mb < 16 then rdFld s (aMbAuth mb) 0 8 else if mb = 16 then rdFld s aMbAuthi3c 0 8 else rdFld s aMbAuthfab 0 8

/-- MSI-X vector `vec` of head `p`: sent, or pending while it is masked (R511). -/
def sendVector (p vec : Nat) (s : State) : State :=
  if !(hostMode s p && !nonLead s p) then s
  else if (mgetD 0 s.ev.msixMask p).testBit vec then
    { s with ev := { s.ev with msixPend := mput 0 s.ev.msixPend p (mgetD 0 s.ev.msixPend p ||| 2 ^ vec) } }
  else emit (.msix p vec) s

/-- What the end of a command raises at its page: an MSI-X where enabled, and a completion record (R485, R486, Table 13.4). -/
def mbNotice (mb opc tag rc : Nat) (bg : Bool) (s : State) : State :=
  if mb ≥ 16 then s
  else
    let c := rd s (aMbCtl mb)
    let s := if bit c (if bg then 3 else 2) then sendVector mb (fld c 4 6) s else s
    if bit c 10 then post (fld c 11 13) 5 mb [mkWord [(0, 16, opc), (16, 16, tag), (32, 16, rc), (48, 1, bg.toNat)]] s else s

/-- One part of an answer to the fabric manager's hub: eight words; RC stands in XTRA (DESIGN CHOICE, log entry 39). -/
def fabPart (rc : Nat) (out : List Word) (s : State) (k : Nat) : State :=
  let ws := (out.drop (8 * k)).take 8
  let payload := (List.range 8).foldl (fun n i => n + (ws.getD i 0).toNat * 2 ^ (64 * i)) 0
  sendMgt .mbMsg (BitVec.ofNat 12 s.ctl.src) (rc + k * 2 ^ 16) 4 (BitVec.ofNat 512 payload) s

/-- The answer of a foreground command: output payload, OLEN, RC and RSN, DB cleared, and the notices; over MCTP or in `MbMsg` for the other mailboxes. -/
def mbAnswer (mb opc tag rc rsn : Nat) (out : List Word) (s : State) : State :=
  let s := if mb < 16 then
      let s := (List.range (min out.length 256)).foldl (fun s k => wr (aMbPay mb k) (out.getD k 0) s) s
      wrFld (aMbCtl mb) 1 1 0 (wr (aMbSts mb) (mkWord [(0, 16, rc), (16, 16, rsn), (32, 21, 8 * out.length)]) s)
    else if mb = 17 then (List.range (max 1 ((out.length + 7) / 8))).foldl (fabPart rc out) s
    else s
  mbNotice mb opc tag rc false (emit (.mailbox mb rc out) s)

/-- What a command's action comes to: it is done with its output, runs on in the background (object of its own), is refused by a rule (Invalid Input),
or ends with another return code. -/
inductive Ans where
  | done (out : List Word)
  | started (obj : Nat)
  | refused
  | code (rc : Nat)
  deriving DecidableEq, Repr

/-- The input payload's first 8 bytes: those of MB_PAYp; on the other mailboxes a free value, as the manual gives no payload layouts (log entry 40). -/
def mbInput (mb : Nat) (s : State) : Word × State :=
  if mb < 16 then (rd s (aMbPay mb 0), s)
  else
    let x := drawFree s
    (Config.freeWord x.1, x.2)

/-- The result of a command: in the Tally where it is recorded, and in GL_ORIGIN (R471, R497, R500). -/
def mbResult (mb opc tag res rc rsn : Nat) (inp : Word) (out : List Word) (s : State) : State :=
  let o := mbOrigin mb
  let s := tally o 1 res (mkWord [(0, 16, opc), (16, 16, tag)]) inp (out.headD 0) (mkWord [(0, 16, rc), (16, 16, rsn)]) s
  { s with ctl := { s.ctl with last := mset s.ctl.last o (res, (mgetD (0, 0) s.ctl.last o).2) } }

/-- A reason code: the manual gives none, so it is a free value (log entry 40). -/
def reason (s : State) : Nat × State :=
  let x := drawFree s
  ((Config.freeWord x.1).toNat % 65536, x.2)

/-- MB_BGST of a mailbox: in its page, or with the model for the two without one. -/
def bgStat (s : State) (mb : Nat) : Word := if mb < 16 then rd s (aMbBgst mb) else mgetD 0 s.ctl.bgst mb

/-- MB_BGST set. -/
def setBgStat (mb : Nat) (w : Word) (s : State) : State :=
  if mb < 16 then wr (aMbBgst mb) w s else { s with ctl := { s.ctl with bgst := mput 0 s.ctl.bgst mb w } }

/-- A background command starts on a mailbox (R486). -/
def bgBegin (mb opc tag obj : Nat) (s : State) : State :=
  let w := setFld (setFld (setFld (bgStat s mb) 0 16 opc) 16 7 0) 24 16 0
  setBgStat mb w { s with ctl := { s.ctl with bg := mset s.ctl.bg mb ⟨opc, tag, obj⟩ } }

/-- The background command of a mailbox ends with a return code: MB_BGST, EV287, MSI-X and a completion record (R486); a failure is recorded
(DESIGN CHOICE, log entry 38). -/
def bgEndOn (mb : Nat) (b : BgCmd) (brc : Nat) (s : State) : State :=
  let w := rsqSet (setFld (setFld (bgStat s mb) 16 7 100) 24 16 brc) 23
  let s := setBgStat mb w { s with ctl := { s.ctl with bg := mdel s.ctl.bg mb } }
  let s := fireSeq 287 0 (oNum mb) oNone (fld w 48 16) s
  let s := if brc = 0 then s else mbResult mb b.opc b.tag 8 brc 0 0 [] s
  mbNotice mb b.opc b.tag brc true s

/-- The background command with this opcode and object ends, on whichever mailbox runs it. -/
def bgEnd (opc obj brc : Nat) (s : State) : State :=
  match s.ctl.bg.find? fun e => e.2.opc = opc && e.2.obj = obj with
  | some e => bgEndOn e.1 e.2 brc s
  | none => s

/-- The background command with this opcode runs on some mailbox. -/
def bgRuns (s : State) (opc : Nat) : Bool := s.ctl.bg.any fun e => e.2.opc = opc

/-- Pelest serves mailboxes: it is not restarting, and the management clock runs (R488, R552). -/
def pelestUp (s : State) : Bool := !rdBit s aGlStat 3 && !s.pwr.mgmtLost

/-- Mailboxes are served: out of reset with an image running (R553). -/
def mbServed (s : State) : Bool := match s.part.phase with
  | .ready | .flush _ => true
  | _ => false

/-- A mailbox command (R485 to R490): `grp` its group, `changes` says that it changes state, `back` that it runs in the background, `f` its
action. -/
def mbRun (mb : Mailbox) (tag : BitVec 16) (opc grp : Nat) (changes back : Bool) (f : State → Ans × State) (s : State) : State :=
  let t := tag.toNat
  let o := mbOrigin mb
  let say := fun (rc : Nat) (s : State) => mbAnswer mb opc t rc 0 [] s
  let refuse := fun (res : Nat) (s : State) =>
    let r := reason { s with ctl := { s.ctl with last := mset s.ctl.last o (res, (mgetD (0, 0) s.ctl.last o).2) } }
    mbAnswer mb opc t 2 r.1 [] r.2
  if s.part.phase = .noImage then (if mb = 16 then say 3 s else s)
  else if !mbServed s || (decide (mb.val < 16) && nonLead s mb) || (decide (mb.val = 17) && s.halted.isSome) then s
  else if !pelestUp s then
    let i := mbInput mb s
    say 6 (if changes then mbResult mb opc t 8 6 0 i.1 [] i.2 else s)
  else if s.halted.isSome ∧ (changes ∨ grp ≠ 0) then refuse 9 s
  else
    let i := mbInput mb s
    let s := i.2
    let s := if mb.val = 17 then { s with ctl := { s.ctl with parts := mdel s.ctl.parts s.ctl.src } } else s
    if !(mbAuth s mb).testBit grp then say 3 (mbResult mb opc t 2 3 0 i.1 [] s)
    else if changes && blockedByTally s o then
      count aGlTlyref 1 (refuse 10 s)
    else if back && (mget s.ctl.bg mb.val).isSome then say 6 (mbResult mb opc t 8 6 0 i.1 [] s)
    else
      let x := f s
      match x.1 with
      | .done out =>
        let s := if changes then mbResult mb opc t 0 0 0 i.1 out x.2 else x.2
        mbAnswer mb opc t 0 0 out s
      | .started obj =>
        let s := bgBegin mb opc t obj (mbResult mb opc t 0 1 0 i.1 [] x.2)
        mbAnswer mb opc t 1 0 [] s
      | .refused =>
        let r := reason s
        mbAnswer mb opc t 2 r.1 [] (mbResult mb opc t 1 2 r.1 i.1 [] r.2)
      | .code rc => mbAnswer mb opc t rc 0 [] (mbResult mb opc t 8 rc 0 i.1 [] x.2)

end Sys2Proof.Machine
end

