-- ==== Sys2Proof/Machine/Guard.lean ====
section
/-! DEFINITION. Stored-data protection at work (05 R23, R179, 10 R382 to R415): HBM accesses, frame-tag fetches, expander records, the scrubber,
correct-and-writes, row and bank spares, leaks and expiries; IDE failures of host ports (11 R462, R463) and JTAG (R421). -/

namespace Sys2Proof.Machine

/-! ### Hub-cache data -/

/-- LA[47:12] of an own line. -/
def pageOf (s : State) (l : LineAddr) : Option Nat := if isOwn s l then some (laOf l / 64) else none

/-- An uncorrectable line of the hub cache that is clean (R400): the copy is invalidated, and released if it is remote. -/
def refetch (l : LineAddr) (s : State) : State := evictLine 7 (epochNow s) s l

/-- An uncorrectable line in M: kept poisoned in place, with EV211 (R387, Table 10.4). -/
def poisonHeld (l : LineAddr) (s : State) : State := fire 211 0 (oLine l) (setCacheData l { cacheData s l with pz := 0xFF } s)

/-- A poisoned transfer of what was found uncorrectable. -/
def poisonWaiter (w : Waiter) : Waiter := { w with item := poisonItem w.item }

/-- The conflict acknowledgements that stood behind what a read was to send, behind what is sent in its place (R140). -/
def ackBehind (outs : List (Nat × Waiter)) (s : State) : State :=
  outs.foldl (fun s o => match o.2.item with
    | .host (.biConflictAck tag) => behindIssued (o.1 - 76) o.2.tc o.2.epoch o.2.line (.biConflictAck tag) s
    | _ => s) s

/-- The end of a read at an HBM controller: `clean` says how the line stood when the read was queued. What cannot be corrected is served anew
where the copy is clean (R400) and poisoned where it is not; transfers of a clean copy that serve no demand go out with the data fetched
again (DESIGN CHOICE, log entry 33). -/
def hbmRead (k : Nat) (l : LineAddr) (clean : Bool) (outs : List (Nat × Waiter)) (d : Option Demand) (ecc : Ecc) (s : State) : State :=
  let loc := wayLoc s k (sectorOf s l)
  let go := fun (s : State) => outs.foldl (fun s o => enqueue o.1 o.2 s) s
  match ecc with
  | .clean => go s
  | .corrected pos => go (corrected ⟨6, 1, loc, pos.toNat, false⟩ (pageOf s l) s)
  | _ =>
    let st := cacheSt s l
    if (if st = .i then clean else st ≠ .m) then
      let s := uncorrectable ⟨6, 1, loc, 0, false⟩ 4 s
      let s := if st = .i then s else refetch l s
      match d with
      | some d => ackBehind outs (demand d s)
      | none => go s
    else
      let s := uncorrectable ⟨6, 1, loc, 0, false⟩ 3 s
      let s := if st = .m then poisonHeld l s else fire 211 0 (oLine l) s
      outs.foldl (fun s o => enqueue o.1 (poisonWaiter o.2) s) s

/-- What the read of a partial write's read-modify-write finds: a corrected word is logged and counts no further (R405); an uncorrectable one leaves
every poison word of the line poisoned (R406). -/
def hbmMerge (k : Nat) (l : LineAddr) (ecc : Ecc) (s : State) : State :=
  let loc := wayLoc s k (sectorOf s l)
  match ecc with
  | .clean => s
  | .corrected pos => unwatch 6 loc (corrected ⟨6, 1, loc, pos.toNat, false⟩ (pageOf s l) s)
  | _ =>
    let s := uncorrectable ⟨6, 1, loc, 0, false⟩ 3 s
    if cacheSt s l = .i then s else poisonHeld l s

/-- The Board of a pseudo-channel's PHY group (Table 06.3; eight consecutive pseudo-channels of a stack to a group: DESIGN CHOICE, log entry 90). -/
def hbmBoard (pc : Nat) : Nat := 32 + 4 * (pc % 4) + pc / 32 % 4

/-- The way and line of an access. -/
def hbmLine (op : HbmOp) : Nat × LineAddr :=
  match op with
  | .read k l _ _ _ => (k, l)
  | .write k l _ _ _ => (k, l)

/-- An access as a requester of its Board: index, class and epoch of the request that it serves; best effort where it serves none (R237, R245). -/
def hbmRequester (s : State) (op : HbmOp) : Nat × Nat × Nat :=
  let c := match op with
    | .read _ _ _ outs d => match outs.head?, d with
      | some o, _ => (o.2.tc, o.2.epoch)
      | none, some d => (d.tc, d.epoch)
      | none, none => (7, epochNow s)
    | .write _ _ _ _ c => c
  (8 * sliceInput (sliceOf (hbmLine op).2) + c.1, c)

/-- The accesses of a queue that the Board may let go now: the first of each requester, behind no access to the same sector (R23, R237). -/
def hbmHeads (s : State) : List HbmOp → List HbmOp → List HbmOp
  | _, [] => []
  | seen, op :: t =>
    let held := seen.any fun x => hbmLine x = hbmLine op || (hbmRequester s x).1 = (hbmRequester s op).1
    (if held then [] else [op]) ++ hbmHeads s (op :: seen) t

/-- The access that the channel group's Board lets go from a pseudo-channel's queue, with its requester and rank (R238). -/
def hbmNext (s : State) (pc : Nat) : Option (HbmOp × Nat × Nat) :=
  let ops := hbmHeads s [] (mgetD [] s.hc.hbm pc)
  (arbitrateAmong s (hbmBoard pc) (squareNow s) (ops.map (hbmRequester s))).bind fun x =>
    (ops.find? fun op => (hbmRequester s op).1 = x.1).map fun op => (op, x)

/-- HBM_ACCESS_DONE (R23): the access that the Board has let go at a pseudo-channel ends; accesses to one sector end in the order in which they were
queued. A Dormant stack is left first (R563). -/
def opHbmAccessDone (pc : Nat) (ecc : Ecc) (s : State) : State :=
  if rdBit s aPmDorm (16 + pc % 4) then s
  else match hbmNext s pc with
  | none => s
  | some (op, x) =>
    let rest := match takeFirst (fun y => y = op) (mgetD [] s.hc.hbm pc) with
      | some (_, r) => r
      | none => []
    let s := granted (hbmBoard pc) x { s with hc := { s.hc with hbm := mput [] s.hc.hbm pc rest } }
    match op with
    | .write k l part cells _ => doneReading cells (if part then hbmMerge k l ecc s else s)
    | .read k l clean outs d => hbmRead k l clean outs d ecc s

/-- The tags of cache set `c` have come: they are the most recently used, and the demands, the requests of other hubs and the snoops that wait for the set
are decided, in this order (R177). -/
def tagLoaded (c : Nat) (s : State) : State :=
  let s := retryAll (fun w d => w = .tag && cacheSet s d.line = c) (tagUse c s)
  let ls := (s.home.waiting.filter fun t => cacheSet s t.line = c && (rqHub t).isSome).map (·.line)
  let s := ls.eraseDups.foldl (fun s l => decideOldest l s) s
  let now := s.home.tagSnp.filter fun x => cacheSet s x.2.1.line = c
  let s := { s with home := { s.home with tagSnp := s.home.tagSnp.filter fun x => cacheSet s x.2.1.line ≠ c } }
  now.foldl (fun s x => onSnoop x.1 x.2.1 x.2.2 s) s

/-- FRAME_TAG_FETCH_DONE (R177, R179): the block enters the frame-tag cache and the requests that wait for the set are decided again. A
block uncorrectable in its primary copy is taken from the duplicate (EV208); in both copies the hub resets with cause record loss (EV209). -/
def opFrameTagFetchDone (k : Fin 32) (set : Nat) (ecc : Ecc) (s : State) : State :=
  let c := 65536 * k.val + set % 65536
  let find : Find := ⟨4, 4, 16 * c, match ecc with | .corrected p => p.toNat | _ => 0, false⟩
  if !isH1 s || c ∉ s.hc.fetch then s
  else
    let s := { s with hc := { s.hc with fetch := s.hc.fetch.filter (· ≠ c) } }
    match ecc with
    | .clean => tagLoaded c s
    | .corrected _ => tagLoaded c (corrected find none s)
    | .uncorrectable => tagLoaded c (fire 208 0 (oVal c) (uncorrectable find 4 s))
    | .bothCopies => damageReset 3 209 (oVal c) (fire 209 0 (oVal c) (uncorrectable find 3 s))

/-! ### Expander records (R394) -/

/-- The own page LA[47:12] that a device address behind cellar port `d` holds, in a Standard set: its data (R65) or a spare page (R413). -/
def pageAt (s : State) (d dpa : Nat) : Option Nat :=
  (List.range 16).findSome? fun n =>
    let w := rd s (aDpIset n)
    if !bit w 0 || bit w 1 || !bit w (6 + d) then none
    else
      let ps := setBits 8 (fld w 6 8)
      let i := ps.idxOf d
      let base := rdFld s (aDpIset n + 8) 0 22 * 2 ^ 30
      let size := fld w 32 13 * 2 ^ 36
      let g := if fld w 2 2 = 0 then 64 else if fld w 2 2 = 1 then 256 else 4096
      let r := dpa - base
      if dpa < base then none
      else if r < size / ps.length then
        let page := fld w 16 12 * 2 ^ 24 + (r / g * g * ps.length + i * g + r % g) / 4096
        if (mget s.flash.pages page).isSome then none else some page
      else
        let c := (r - size / ps.length) / 64 * 64 * ps.length + 64 * i
        let spare := size / 32 + size / 256
        if spare ≤ c ∧ c < spare + size / 4096 then (s.flash.pages.find? fun e => e.2 = (n, (c - spare) / 4096)).map (·.1) else none

/-- One corrected-error record of an expander (R394, R397). -/
def gmerOne (d : Nat) (s : State) (r : GmerRec) : State :=
  let s := ecEntry ⟨8 + d, 6, d + r.dpa.toNat / 64 % 2 ^ 40 * 8, 0, false⟩ 6 (count (aEcCcnt (8 + d)) 1 s)
  match pageAt s d r.dpa.toNat with
  | some p => watchHit p s
  | none => s

/-- GMER_POLL (R394). -/
def opGmerPoll (d : DPort) (records : List GmerRec) (s : State) : State := if inStandard s d then records.foldl (gmerOne d) s else s

/-! ### The scrubber (R407 to R409) -/

/-- The region of Table 10.7 that a finding lies in: 0 HBM, 1 SRAM, 2 cellar. -/
def scrubRegion (s : State) (unit : Nat) : Nat := if unit ≥ 8 then 2 else if isH1 s ∧ (unit = 4 ∨ unit = 6) then 0 else 1

/-- The HBM stack of a scrub finding. -/
def findStack (f : ScrubFind) : Nat := findPc ⟨f.unit, f.kind.toNat, f.addr.toNat, 0, true⟩ % 4

/-- The scrubber works: its region is enabled, the device is not in Brace nor at a thermal step, the stack is not Dormant (R408, Table 14.4). -/
def scrubs (f : ScrubFind) (s : State) : Bool :=
  let g := scrubRegion s f.unit
  rdBit s aEcCtl g && !rdBit s aPmStat 0 && !rdBit s aPmStat 1 && !rdBit s aPmStat 2 && !(g = 0 && rdBit s aPmDorm (16 + findStack f))

/-- The pass of a region goes on: how far, and whether it is behind, are free values (log entry 34). A new HBM pass begins when the percentage
falls; EV147 + 8s tells of the stacks in which the pass found uncorrectable words (Table 10.6). -/
def scrubPass (g : Nat) (s : State) : State :=
  let x := drawFree s
  let v := Config.freeWord x.1
  let old := rdFld x.2 aEcScrstat (8 + 8 * g) 8
  let new := v.toNat / 2 % 101
  let s := wrFld aEcScrstat g 1 (v.toNat % 2) (wrFld aEcScrstat (8 + 8 * g) 8 new x.2)
  if g ≠ 0 ∨ old ≤ new then s
  else s.prot.bad.foldl (fun s k => fire (147 + 8 * k) 0 (oNum k) s) { s with prot := { s.prot with bad := [] } }

/-- A stack in which this pass has found an uncorrectable word. -/
def noteBad (f : ScrubFind) (s : State) : State :=
  let k := findStack f
  if scrubRegion s f.unit = 0 ∧ k ∉ s.prot.bad then { s with prot := { s.prot with bad := s.prot.bad ++ [k] } } else s

/-- The way and sector of a KIND 0x1 location. -/
def locWay (s : State) (addr : Nat) : Nat × Nat :=
  if isH1 s then (addr % 2 ^ 25, addr / 2 ^ 25 % 64) else (16 * (7168 * (addr % 32) + addr / 32 % 2 ^ 13) + addr / 2 ^ 18 % 16, 0)

/-- The valid line at a KIND 0x1 location. -/
def lineAtLoc (s : State) (addr : Nat) : Option LineAddr :=
  let x := locWay s addr
  let w := getWay s x.1
  if (mget w.st x.2).isSome && !w.ret then some (lineAt s w.addr x.2) else none

/-- Hub-cache data that the scrubber finds uncorrectable (R400, R409, Table 10.4). -/
def scrubData (x : Find) (s : State) : State :=
  match (if x.kind = 1 then lineAtLoc s x.addr else none) with
  | none => uncorrectable x 3 s
  | some l => if cacheSt s l = .m then poisonHeld l (uncorrectable x 3 s) else refetch l (uncorrectable x 4 s)

/-- A seal-cache word that cannot be corrected (EV239): a clean block is loaded again from the cellar, a dirty one is a block hit by a memory
error (R443): a counter block or a node of level 1 is lost, a node of a higher level is taken from its mirror. Which block the word belongs to is a free
value (log entry 35). -/
def scrubSeal (x : Find) (s : State) : State :=
  let y := drawFree s
  let s := fire 239 0 (oVal x.addr) y.2
  match s.sl.cache[(Config.freeWord y.1).toNat % s.sl.cache.length]? with
  | none => uncorrectable x 4 s
  | some (k, b) =>
    let level := k / 2 ^ 40
    let idx := k % 2 ^ 40
    if b.dirty && decide (level < 2) then loseBlk level idx (uncorrectable x 3 s)
    else if b.dirty then
      let s := readMeta level idx true 7 (epochNow s) (dropBlks (fun j => j = k) (uncorrectable x 3 s))
      { s with sl := { s.sl with struck := s.sl.struck ++ [k] } }
    else
      let s := readMeta level idx false 7 (epochNow s) (uncorrectable x 4 s)
      if mayLeave s k then dropBlks (fun j => j = k) s else s

/-- A Tally store word that cannot be corrected (EV284): its record, if not yet exported, is lost (R504). Word n of the store is of record n/8 (DESIGN
CHOICE, log entry 123). -/
def scrubTally (x : Find) (s : State) : State :=
  let slot := x.addr / 16 / 8 % 65536
  let s := uncorrectable x 3 s
  let s := fireSeq 284 0 (oVal slot) oNone (fld s.tly.lossStat 48 16) s
  match mget s.tly.store slot with
  | none => s
  | some r =>
    if r.num < s.tly.exported ∨ (s.tly.lost.any fun y => y.1 = r.num) then s
    else
      let s := { s with tly := { s.tly with lost := s.tly.lost ++ [(r.num, s.time.ft)], lossStat := rsqSet s.tly.lossStat 18 } }
      fireSeq 282 1 (oVal r.num) oNone (fld s.tly.lossStat 48 16) s

/-- A record block of slice `k` loaded again into the frame-tag cache (R179): its ways lose their RRPV, which becomes 14 (R178, Table 05.7). Which
block the word belongs to is a free value (log entry 88). -/
def reloadTags (k : Nat) (s : State) : State :=
  let y := drawFree s
  let sets := (s.hc.tags.filter fun e => e.1 / 4096 = k).flatMap fun e => e.2
  match sets[(Config.freeWord y.1).toNat % sets.length]? with
  | none => s
  | some set => { y.2 with hc := { y.2.hc with ways := y.2.hc.ways.map fun e => if e.1 / 16 = set then (e.1, { e.2 with rrpv := 14 }) else e } }

/-- PZ bit `k` of the data that a transfer carries set. -/
def pzItem (k : Nat) (i : Item) : Item :=
  let f := fun (d : Data) => { d with pz := d.pz ||| BitVec.ofNat 8 (2 ^ k) }
  match i with
  | .host (.memData t d) => .host (.memData t (f d))
  | .host (.cplData t l d) => .host (.cplData t l (f d))
  | .msg m => .msg { m with data := f m.data }
  | i => i

/-- Word `k` of data poisoned. -/
def pzWord (k : Nat) (d : Data) : Data := { d with pz := d.pz ||| BitVec.ofNat 8 (2 ^ k) }

/-- A demand whose write data lies in the cell. -/
def pzDemand (cell k : Nat) (d : Demand) : Demand :=
  if cell ∈ d.cells then { d with w := d.w.map fun w => { w with data := pzWord k w.data } } else d

/-- A transaction whose write data lies in the cell. -/
def pzTxn (cell k : Nat) (t : Txn) : Txn :=
  let rq := match t.rq with
    | .own d => .own (pzDemand cell k d)
    | x => x
  if cell ∈ t.cells then { t with rq := rq, wr := pzWord k t.wr, home := t.home.map (pzWord k), dirty := t.dirty.map (pzWord k) } else { t with rq := rq }

/-- A miss register whose data, or that of a demand merged on it, lies in the cell. -/
def pzMiss (cell k : Nat) (m : MissReg) : MissReg :=
  let m := { m with demands := m.demands.map (pzDemand cell k) }
  if cell ∈ m.cells then
    { m with wr := m.wr.map (fun w => { w with data := pzWord k w.data }), keepM := m.keepM.map (pzWord k),
             fwd := m.fwd.map (fun x => (x.1, x.2.1, pzWord k x.2.2)), late := m.late.map (fun x => (x.1, pzWord k x.2.1, x.2.2)) }
  else m

/-- An access of the cellar path whose write data lies in the cell. -/
def pzCel (cell k : Nat) (o : CelOp) : CelOp := if cell ∈ o.cells then { o with wr := o.wr.map fun x => (pzWord k x.1, x.2) } else o

/-- A Larder word with a parity error (EV241): whatever reads the cell carries it poisoned, be it a transfer, a demand, a transaction, a miss register, an
eviction or a write to the cellar or to the hub cache (Table 10.4). -/
def larderWord (cell k : Nat) (s : State) : State :=
  let f := fun (w : Waiter) => if cell ∈ w.cells then { w with item := pzItem k w.item } else w
  let brd := { s.brd with wait := s.brd.wait.map (fun e => (e.1, e.2.map f)), run := s.brd.run.map fun e => (e.1, f e.2) }
  let req := { s.req with waits := s.req.waits.map (fun x => (x.1, pzDemand cell k x.2)), mrs := s.req.mrs.map fun e => (e.1, pzMiss cell k e.2) }
  let home := { s.home with opened := s.home.opened.map (pzTxn cell k), waiting := s.home.waiting.map (pzTxn cell k), input := s.home.input.map (pzTxn cell k),
                            wayWait := s.home.wayWait.map fun x => (x.1, x.2.1, pzTxn cell k x.2.2) }
  let evt := s.hc.evt.map fun e => if cell ∈ e.cells then { e with data := pzWord k e.data } else e
  let wr := s.hc.hbm.flatMap fun x => x.2.filterMap fun op => match op with
    | .write _ l _ cells _ => if cell ∈ cells then some l else none
    | .read _ _ _ _ _ => none
  let route := s.routeWait.map fun x => if cell ∈ x.2 then ({ x.1 with data := pzWord k x.1.data }, x.2) else x
  let s := wr.foldl (fun s l => if cacheSt s l = .i then s else setCacheData l (pzWord k (cacheData s l)) s) s
  fire 241 0 (oNum cell) { s with brd := brd, req := req, home := home, routeWait := route, cel := { s.cel with ops := s.cel.ops.map (pzCel cell k) },
                                  ports := { s.ports with agentQ := s.ports.agentQ.map fun e => (e.1, e.2.map fun x => (pzDemand cell k x.1, x.2)) },
                                  hc := { s.hc with evt := evt } }

/-- A frame-record finding in the record of a free frame: it is only logged (R409). -/
def freeFrame (s : State) (x : Find) : Bool :=
  let w := getWay s (findAddr x)
  w.st.isEmpty && !w.ret

/-- An uncorrectable finding of units 0 to 7 (Table 10.4). A parity error of KIND 0x7 reported for unit 7 is one of the base-die state that
belongs to no unit (DESIGN CHOICE, log entry 36). -/
def scrubBad (x : Find) (s : State) : State :=
  let s := noteBad ⟨Fin.ofNat 16 x.unit, 0, BitVec.ofNat 48 x.addr, .clean⟩ s
  let layer := 177 + 4 * (x.addr % 4)
  match x.unit with
  | 0 | 1 =>
    let src := 177 + 4 * x.unit
    damageReset 4 src (oVal x.addr) (fire src 0 (oVal x.addr) (uncorrectable x 3 s))
  | 2 => scrubSeal x s
  | 3 => scrubTally x s
  | 4 => if !isH1 s then s else if freeFrame s x then uncorrectable x 4 s else fire 208 0 (oVal (findAddr x)) (uncorrectable x 4 s)
  | 5 =>
    let s := fire layer 0 (oVal x.addr) s
    if isH1 s then reloadTags (x.addr / 4 % 32) (fire 210 0 (oVal x.addr) (uncorrectable x 4 s))
    else damageReset 3 209 (oVal x.addr) (fire 209 1 (oVal x.addr) (uncorrectable x 3 s))
  | 6 => scrubData x s
  | _ => if x.kind = 7 then damageReset 5 0 (oVal x.addr) s else larderWord (x.addr % 2 ^ 20) (x.addr / 2 ^ 20 % 8) (uncorrectable x 3 s)

/-- SCRUB_STEP (R408, R409): one code word read and its finding handled; with the background reserve used up the scrubber pauses (EV244, R35). A cellar
line is read as any other, its granule in four cells of that reserve (R25, R409). Words of the Larder and
of base-die state, which the scrubber does not visit, are reported by the same command (log entry 36). -/
def opScrubStep (f : ScrubFind) (s : State) : State :=
  let u := f.unit.val
  let page := if u = 6 ∧ f.kind = 1 then (lineAtLoc s f.addr.toNat).bind (pageOf s) else none
  let x : Find := ⟨u, f.kind.toNat, f.addr.toNat, match f.ecc with | .corrected p => p.toNat | _ => 0, true⟩
  if u = 7 then
    match f.ecc with
    | .uncorrectable | .bothCopies => scrubBad x s
    | _ => s
  else if !scrubs f s then s
  else if shareLimit s 1 ≤ larUsed s 1 then fire 244 0 oNone s
  else
    let s := scrubPass (scrubRegion s u) s
    if u ≥ 8 then
      let l := ownLine s f.addr.toNat
      if f.kind = 0 ∧ (krtOf s (laOf l / 256)).isSome ∧ populated s (laOf l) then
        match takeBg 4 s with
        | some (cs, s) => cellarRead l .scrub s cs
        | none => fire 244 0 oNone s
      else s
    else match f.ecc with
      | .clean => s
      | .corrected _ => corrected x page s
      | .uncorrectable => scrubBad x s
      | .bothCopies =>
        if u = 4 ∧ isH1 s then
          if freeFrame s x then uncorrectable x 3 (noteBad f s)
          else damageReset 3 209 (oVal (findAddr x)) (fire 209 0 (oVal (findAddr x)) (uncorrectable x 3 (noteBad f s)))
        else scrubBad x s

/-! ### Correct-and-writes and spares -/

/-- CORRECT_AND_WRITE (R402): the corrected value is written back; in the cellar in a transaction of the home's own on the line. A write
queued since has already dropped it. -/
def opCorrectAndWrite (unit : Fin 16) (addr : BitVec 48) (s : State) : State :=
  match takeFirst (fun (x : Nat × Nat × Nat) => x.1 = unit.val ∧ x.2.2 = addr.toNat) s.prot.fixes with
  | none => s
  | some (_, rest) =>
    let t := { s with prot := { s.prot with fixes := rest } }
    if unit.val < 8 then t
    else
      let y := moveLine (ownLine t addr.toNat) t
      if y.1 then y.2 else s

/-- The first free spare row of a bank (layer, slice). -/
def spareRow (s : State) (loc : Nat) : Nat :=
  let taken := (s.flash.lumber.filter fun e => fld e.1 0 4 = 2 && fld e.1 8 7 = loc % 128).map fun e => fld e.1 44 16
  (firstFree (fun i => taken.contains i) 8 0).getD 0

/-- ROW_SPARE_DONE (R403): the row is mapped to its spare, with a Lumber entry, a Tally record and EV178 + 4ℓ. -/
def opRowSpareDone (unit : Fin 16) (addr : BitVec 48) (s : State) : State :=
  let loc := addr.toNat % 65536
  match takeFirst (fun (x : Nat × Nat × Nat) => x.1 = unit.val ∧ x.2.1 = loc) s.prot.rows with
  | none => s
  | some (x, rest) =>
    let y := addLumber 2 x.2.2 loc (spareRow s loc) { s with prot := { s.prot with rows := rest } }
    if !y.1 then bgEnd 0xC302 loc 4 y.2
    else
      let src := 178 + 4 * (loc % 4)
      bgEnd 0xC302 loc 0 (tallyAuto 35 0 src 0 (BitVec.ofNat 64 loc) (oVal loc) (fire src 0 (oVal loc) y.2))

/-- BANK_SPARE_DONE (R412): the bank (layer [1:0], slice [6:2]) is mapped to its quadrant's spare bank. -/
def opBankSpareDone (bank : Nat) (s : State) : State :=
  if bank ∉ s.prot.banks then s
  else
    let y := addLumber 3 0 bank (bank / 32 % 4) { s with prot := { s.prot with banks := s.prot.banks.filter (· ≠ bank) } }
    if !y.1 then bgEnd 0xC303 bank 4 y.2
    else
      let src := 179 + 4 * (bank % 4)
      bgEnd 0xC303 bank 0 (tallyAuto 35 0 src 0 (BitVec.ofNat 64 bank) (oVal bank) (fire src 0 (oVal bank) y.2))

/-- BUCKET_LEAK (R395): a non-zero level falls by 1. Buckets 0 to 4 are those of the units, 5 + r those of the watched ranges. -/
def opBucketLeak (bucket : Fin 69) (s : State) : State :=
  let x := if bucket.val < 5 then (aEcBkt bucket, 28) else (aEcWr (bucket.val - 5) + 24, 0)
  wrFld x.1 x.2 8 (rdFld s x.1 x.2 8 - 1) s

/-- WATCH_ENTRY_EXPIRY (R401). -/
def opWatchEntryExpiry (unit : Fin 16) (addr : BitVec 48) (s : State) : State :=
  let l := (mgetD [] s.prot.reps unit).filter fun e => !(e.watch.isSome && e.addr = addr.toNat)
  { s with prot := { s.prot with reps := mput [] s.prot.reps unit l } }

/-! ### Link encryption of host ports (R462, R463) and JTAG (R421) -/

/-- Every IDE stream that a port has is secure: CXL.mem and CXL.io in host mode, CXL.io in agent mode (Table 09.1). -/
def allSecure (s : State) (p : Nat) (h : Head) : Bool := h.ideIo = 2 && (!hostMode s p || h.ideMem = 2)

/-- A port's streams after a change: HP_STAT.IDE, and EV003 + 4p with CAUSE 0. -/
def ideChanged (p : Nat) (h : Head) (s : State) : State :=
  let s := setHead p h s
  let s := rsq (aHpStat p) 9 (wrFld (aHpStat p) 8 1 (allSecure s p h).toNat s)
  fireSeq (3 + 4 * p) 0 (oPort 0 p) oNone (seqOf s (aHpStat p)) s

/-- HOST_IDE_FAILURE (R463). -/
def opHostIdeFailure (p : HPort) (s : State) : State :=
  if !rdBit s (aHpCtl p) 0 ∨ nonLead s p then s
  else
    let s := ideChanged p { head s p with ideMem := 0, ideIo := 0 } s
    if hostMode s p then hostDies p (fire 236 0 (oPort 0 p) s)
    else { s with ports := { s.ports with agentOff := if p.val ∈ s.ports.agentOff then s.ports.agentOff else s.ports.agentOff ++ [p.val] } }

/-- IDE_KM_MESSAGE (R462): taken inside the head's SPDM session; an agent whose stream is secure again is served again (R463). -/
def opIdeKmMessage (p : HPort) (m : IdeKm) (s : State) : State :=
  let h := head s p
  let put := fun (mem : Bool) (v : Nat) => if mem then { h with ideMem := v } else { h with ideIo := v }
  let cur := fun (mem : Bool) => if mem then h.ideMem else h.ideIo
  if !h.session then s
  else match m with
    | .keyProg mem => if cur mem = 0 then setHead p (put mem 1) s else s
    | .setStop mem => if cur mem = 0 then s else ideChanged p (put mem 0) s
    | .setGo mem =>
      if cur mem ≠ 1 then s
      else
        let s := ideChanged p (put mem 2) s
        if mem then s else { s with ports := { s.ports with agentOff := s.ports.agentOff.filter (· ≠ p.val) } }

/-- JTAG_INSTRUCTION (R421, R593): any other instruction than BYPASS, IDCODE and SAMPLE/PRELOAD is a seal halt, unless the device is held in reset. -/
def opJtagInstruction (ir : JtagIr) (s : State) : State :=
  match ir with
  | .other => if s.part.phase = .held then s else sealHalt 8 0 0 s
  | _ => s

end Sys2Proof.Machine
end

