-- ==== Sys2Proof/Machine/Background.lean ====
section
/-! DEFINITION. Background work in squares whose TASK names it (06 R257): sweeps, reclaims, range flushes, copies, rekey, retirements, drains and
rebuilds, a unit at a time, and the rows that end them. -/

namespace Sys2Proof.Machine

/-! ### Recalls of the home's own (R118) -/

/-- The own line recalled from every hub and purged from the home's cache and hosts; its dirty data goes to the cellar. False while the line
is blocked or its table has no entry. -/
def recallHome (l : LineAddr) (s : State) : Bool × State :=
  let t := { newTxn l .home .snpI 7 (epochNow s) with step := true }
  if blocked s l then (false, s)
  else match httPick s (sliceOf l) t with
    | none => (false, s)
    | some sh =>
      let e := dirGet s l
      let x := openTxn { t with share := sh, owner := if e.st = .x then some e.p0 else none } (count (aPcSlc (sliceOf l) 5) 1 s)
      let y := sendSnoops (recallSnoops s e none) x.1 x.2
      let s := setTxn y.1 y.2
      let s := if l ∈ s.home.keep then { s with home := { s.home with heldStep := s.home.heldStep ++ [l] } } else startStep l s
      (true, tryTxn l s)

/-- The own lines that a directory entry names hubs for. -/
def dirLines (s : State) : List LineAddr := (s.dir.filter fun e => e.2.st ≠ .u && e.2.st ≠ .l).map fun e => dirLine s e.1 e.2

/-- The lines of a set with a copy anywhere that this hub can recall or release: in the directory, its cache or its hosts. -/
def copiesIn (p : LineAddr → Bool) (s : State) : List LineAddr :=
  ((dirLines s ++ (heldLines s).filter fun l => standing s l ≠ .i || !(hostsOf s l).isEmpty).eraseDups).filter p

/-- The first line of the set that can be worked on now is recalled, or released where it is remote. -/
def purgeOne (p : LineAddr → Bool) (s : State) : State :=
  let free := fun (l : LineAddr) =>
    if isOwn s l then !blocked s l && (httPick s (sliceOf l) (newTxn l .home .snpI 7 0)).isSome
    else (mrOf s l).isNone && !stepOn s l
  match (copiesIn p s).find? free with
  | none => s
  | some l => if isOwn s l then (recallHome l s).2 else releaseHosts l 7 (epochNow s) s

/-- Nothing of the set is left: no copy, no transaction of the home's own, no merging-buffer entry, no host step. -/
def purged (p : LineAddr → Bool) (s : State) : Bool :=
  (copiesIn p s).isEmpty && !(s.home.opened.any fun t => p t.line && t.rq = .home) && !(s.hst.steps.any fun x => p x.line) &&
    !(s.hc.mbuf.any fun e => p (BitVec.ofNat 54 (4 * e.granule)))

/-- No cellar write of the set is still to be persisted. -/
def storedAll (p : LineAddr → Bool) (s : State) : Bool := !s.cel.ops.any fun o => p o.line && o.wr.isSome

/-- Own lines LA[47:6] from `a` to `b`. -/
def inRange (s : State) (a b : Nat) (l : LineAddr) : Bool := isOwn s l && decide (a ≤ laOf l) && decide (laOf l ≤ b)

/-! ### Tasks -/

/-- A task of a kind that is under way. -/
def taskOf (s : State) (k : BgKind) : Option BgTask := s.bg.find? fun t => t.kind = k

/-- A task replaced. -/
def setTask (t : BgTask) (s : State) : State := { s with bg := updFirst (fun x => x.kind = t.kind) (fun _ => t) s.bg }

/-- A task is over. -/
def endTask (t : BgTask) (s : State) : State :=
  match takeFirst (fun x => x.kind = t.kind) s.bg with
  | some (_, r) => { s with bg := r }
  | none => s

/-! ### Window sweeps (R53) -/

/-- The retiring window of a task covers the line. -/
def inWindow (t : BgTask) (s : State) (l : LineAddr) : Bool :=
  (hpaIn (BitVec.ofNat 64 t.arg) (BitVec.ofNat 64 (t.arg / 2 ^ 64)) (outLine s l)).isSome

/-- The lines that the host filter still records for the window's host. -/
def windowLeft (p : Nat) (t : BgTask) (s : State) : List LineAddr :=
  (s.hf.filter fun e => e.2.pv.testBit p).filterMap fun e => if inWindow t s (hfLine e.1 e.2) then some (hfLine e.1 e.2) else none

/-- One recorded line is back-invalidated. -/
def windowUnit (p : Nat) (t : BgTask) (s : State) : State :=
  let asked := fun (l : LineAddr) => s.hst.steps.any fun x => x.line = l && x.snps.any fun b => b.port = p
  match (windowLeft p t s).find? fun l => !asked l with
  | none => s
  | some l => withHosts l 2 [p] 7 (epochNow s) .keep id s

/-- A request that port `p` accepted through the window before its V cleared is not answered yet: its host may still be recorded. -/
def windowAsked (p : Nat) (t : BgTask) (s : State) : Bool :=
  (demandsOpen s ++ s.req.waits.map (·.2)).any fun d => decide (d.src = .host) && decide (d.port = p) && inWindow t s d.line

/-- WINDOW_SWEEP_END (R53): the retiring state clears, with EV197 and a Tally record, once the host filter records no line of the window for the host and
no request accepted through it is left. -/
def opWindowSweepEnd (p : HPort) (n : BitVec 8) (s : State) : State :=
  match taskOf s (.windowSweep p n) with
  | none => s
  | some t =>
    if !(windowLeft p t s).isEmpty || windowAsked p t s then s
    else
      let a := aHpWinstat p (n.toNat / 64)
      let old := rd s a
      let s := wrFld a (n.toNat % 64) 1 0 (endTask t s)
      tallyAuto 35 a 197 old (rd s a) (oPort 0 p) (fire 197 0 (oPort 0 p) s)

/-! ### Domain sweeps (R61) -/

/-- The hubs under the sweep that an entry has to be recalled from. -/
def sweepNames (s : State) (e : DirEnt) : List (HubId × Opc × Bool × Bool) :=
  match e.st with
  | .p => ((ptrs s e).filter fun h => h ∈ s.sweep).map fun h => (h, .snpI, false, false)
  | .x => if e.p0 ∈ s.sweep then [(e.p0, .snpX, true, false)] else []
  | .a => s.sweep.map fun h => (h, .snpBc, false, false)
  | _ => []

/-- A request of a leaving hub is being served on the line: it was decided before the hub's bit was cleared, and enters the hub at its grant at the
latest. -/
def sweepAsks (s : State) (l : LineAddr) : Bool :=
  (txnOf s l).any fun t => (rqHub t).any (fun h => h ∈ s.sweep) && (t.opc = .rdS || t.opc = .rdX || t.opc = .upg)

/-- The next directory entry of the sweep, from the task's cursor: entries that concern no leaving hub are passed, and one that a transaction blocks is
waited for. DR_SWEEP.DONE follows the cursor. -/
def domainUnit (t : BgTask) (s : State) : State :=
  let at_ := fun (n : Nat) (s : State) => wrFld aDrSweep 16 25 n (setTask { t with next := n } s)
  match s.dir.find? fun e => t.next ≤ e.1 && (!(sweepNames s e.2).isEmpty || sweepAsks s (dirLine s e.1 e.2)) with
  | none => at_ (2 ^ 24) s
  | some (k, e) =>
    let l := dirLine s k e
    let x : Txn := { newTxn l .home .snpBc 7 (epochNow s) with owner := if e.st = .x then some e.p0 else none }
    if blocked s l then wrFld aDrSweep 16 25 k s
    else match httPick s (sliceOf l) x with
      | none => s
      | some sh =>
        let y := openTxn { x with share := sh } (at_ (k + 1) s)
        let z := sendSnoops (sweepNames s e) y.1 y.2
        tryTxn l (setTxn z.1 z.2)

/-- DOMAIN_SWEEP_END (R61): the leaving hubs are no longer targets of broadcasts. -/
def opDomainSweepEnd (s : State) : State :=
  match taskOf s .domainSweep with
  | none => s
  | some t =>
    if t.next < 2 ^ 24 ∨ (s.home.opened.any fun x => x.rq = .home && x.opc = .snpBc) = true then s
    else
      let old := rd s aDrSweep
      let s := rsq aDrSweep 1 (wrFld aDrSweep 0 1 0 (wrFld aDrSweep 2 12 0 (endTask t { s with sweep := [] })))
      tallyAuto 35 aDrSweep 197 old (rd s aDrSweep) oNone (fireSeq 197 1 oNone oNone (seqOf s aDrSweep) s)

/-! ### Range flushes (R77) and dead hosts (R146) -/

/-- A fill that was asked for before the lines of the range changed their type is still to install one. -/
def fillsIn (p : LineAddr → Bool) (s : State) : Bool :=
  s.req.mrs.any fun e => p e.2.line && e.2.kind = .own && e.2.demands.any fun d => d.kind ≠ .cur && !isAtom d

/-- RANGE_FLUSH_END (R77). -/
def opRangeFlushEnd (s : State) : State :=
  match s.bg.find? fun t => t.kind = .rangeFlush && purged (inRange s t.next t.last) s && !fillsIn (inRange s t.next t.last) s with
  | none => s
  | some t =>
    let o := oRange (t.next / 256) (14 + Nat.log2 ((t.last + 1 - t.next) / 256)) 0
    let s := { s with bg := s.bg.filter fun x => x ≠ t }
    tallyAuto 35 0 197 0 0 o (fire 197 2 o s)

/-- The lines that the host filter records for a host. -/
def hostLines (p : Nat) (s : State) : List LineAddr := (s.hf.filter fun e => e.2.pv.testBit p).map fun e => hfLine e.1 e.2

/-- One line of a dead host reclaimed (Table 04.9). A line that the host may have written is lost, and logged (EV196). -/
def reclaimUnit (p : Nat) (s : State) : State :=
  let waits := fun (l : LineAddr) => s.home.wayWait.any fun x => x.2.2.line = l && x.2.2.rq = .home
  let t := fun (l : LineAddr) => newTxn l .home .snpI 7 (epochNow s)
  let ok := fun (l : LineAddr) => !(hfGet s l).hx ||
    (if isOwn s l then !blocked s l && !waits l && (httPick s (sliceOf l) (t l)).isSome else !stepOn s l)
  match (hostLines p s).find? ok with
  | none => s
  | some l =>
    if !(hfGet s l).hx then hfClear l p s
    else if isOwn s l then loseToHost { t l with share := (httPick s (sliceOf l) (t l)).getD 5 } s
    else release l 7 (epochNow s) (some Data.poison) (fire 196 1 (oLine l) (hfClear l p s))

/-- HOST_RECLAIM_END (R146, R148). -/
def opHostReclaimEnd (p : HPort) (s : State) : State :=
  match taskOf s (.hostReclaim p) with
  | none => s
  | some t =>
    if !(hostLines p s).isEmpty then s
    else
      let s := fire 204 0 (oPort 0 p) (endTask t s)
      let r := s.hst.reclaimed
      readmit p { s with hst := { s.hst with reclaimed := if p.val ∈ r then r else r ++ [p.val] } }

/-! ### Maintenance operations (R211 to R214) -/

/-- Where a line lies in the walk of an operation (R212): its number, or its set of the cache, or of the host filter after those, where no way
holds it. -/
def maintPlace (s : State) (m : Maint) (l : LineAddr) : Nat :=
  let a := (outLine s l).toNat
  if m.byAddr then a
  else (if cacheSt s l ≠ .i then cacheSet s l else 2 ^ 30 + 32768 * sliceOf l + tabSet l.toNat) * 2 ^ 54 + a

/-- The next line of the walk, with its place: a held line, or, walked by address, one that a fill is under way for (R213). -/
def maintNext (s : State) (m : Maint) : Option (Nat × LineAddr) :=
  let fills := if m.byAddr then (s.req.mrs.filter fun e => e.2.kind ≠ .wr).map (·.2.line) else []
  (((heldLines s ++ fills).filter (maintCovers s m)).map fun l => (maintPlace s m l, l)).foldl (fun (b : Option (Nat × LineAddr)) x =>
    if x.1 < m.next then b else match b with
      | none => some x
      | some y => some (if x.1 < y.1 then x else y)) none

/-- The operation's action on one line (Table 05.10). -/
def maintAct (flush : Bool) (l : LineAddr) (s : State) : State :=
  let s := if isOwn s l && !isH1 s then drainOf (fun x => x.toNat / 4 = l.toNat / 4) s else s
  if flush then releaseHosts l 7 (epochNow s) s else cleanLine 0 s l

/-- One line of the maintenance operation. A line whose marked register is open is left to that register's fill (R214); another fill, or a host step of
the line, is waited for (R213), and so is the record block of its set (R177). -/
def maintUnit (s : State) : State :=
  match s.hc.maint with
  | none => s
  | some m =>
    let put := fun (m : Maint) (s : State) => { s with hc := { s.hc with maint := some m } }
    if m.ended then s
    else match maintNext s m with
      | none => put { m with ended := true } s
      | some (k, l) =>
        let marked := (mrOf s l).any fun r => r.2.flush
        let fills := (mrOf s l).any fun r => r.2.kind ≠ .wr
        if marked then put { m with next := k + 1 } s
        else if fills || stepOn s l then s
        else if tagMiss s (cacheSet s l) then (if cacheSet s l ∈ s.hc.fetch then s else tagFetch (cacheSet s l) s)
        else maintAct m.flush l (put { m with next := k + 1 } s)

/-- The operation is over (R212): its walk has ended, and nothing that it or its marks started is left: fills, host steps, releases, evictions,
write-throughs and drains of what it covers. -/
def maintDone (s : State) : Bool :=
  s.hc.maint.any fun m =>
    let c := maintCovers s m
    m.ended && !(s.req.mrs.any fun e => e.2.flush) && s.hc.released.isEmpty && !cleanBusy s 0 &&
      !(s.hst.steps.any fun x => c x.line && match x.cont with | .release _ _ => true | _ => false) && !(s.req.due.any fun x => c x.line) &&
      !(s.hc.evt.any fun e => c e.line) &&
      !(s.hc.mbuf.any fun e => e.draining && (List.range 4).any fun k => c (BitVec.ofNat 54 (4 * e.granule + k)))

/-- MAINTENANCE_OP_END (R212). -/
def opMaintenanceOpEnd (s : State) : State :=
  match taskOf s .maint with
  | none => s
  | some t =>
    if !maintDone s then s
    else
      let old := rd s aHcMopc
      let s := endTask t { s with hc := { s.hc with maint := none } }
      let s := rsq aHcMopc 5 (wrFld aHcMopc 4 1 0 s)
      tallyAuto 35 aHcMopc 212 old (rd s aHcMopc) oNone (fireSeq 212 0 oNone oNone (seqOf s aHcMopc) s)

/-! ### Mirror copies (R345), hand-back (R352), planned takeover (R351) -/

/-- The next line of a copy; a line that is not populated is passed. -/
def copyUnit (t : BgTask) (s : State) : State :=
  if t.next > t.last then s
  else if !populated s t.next then setTask { t with next := t.next + 1 } s
  else
    let x := copyLine (ownLine s t.next) s
    if x.1 then setTask { t with next := t.next + 1 } x.2 else x.2

/-- MIRROR_COPY_END (R345): `MrCtl` (end) follows the last line; a copy whose buddy is gone ends without it. -/
def opMirrorCopyEnd (s : State) : State :=
  let ended := fun (t : BgTask) => t.kind = .mirrorCopy && (!mirrorOn s || decide (t.last < t.next))
  match s.bg.find? ended with
  | none => s
  | some t =>
    if !copiesRead s then s
    else
      let s := { s with bg := s.bg.filter fun x => x ≠ t }
      if mirrorOn s then fire 201 0 (oNum t.arg) (mirSend .mrCtl 0 Data.zero t.arg s) else s

/-- The own line at which served line number `k`, counted through the served entries, lies; none beyond the last. -/
def servedLine (s : State) (k : Nat) : Option LineAddr :=
  ((List.range 8).filter fun n => rdBit s (aFbMir n) 0 && rdBit s (aFbMir n) 1).foldl (fun (x : Nat × Option LineAddr) n =>
    let size := rdFld s (aFbMir n) 32 13 * 2 ^ 30
    match x.2 with
    | some _ => x
    | none => if x.1 < size then (x.1, some (ownLine s (rdFld s (aFbMir n + 8) 0 12 * 2 ^ 30 + x.1))) else (x.1 - size, none)) (k, none) |>.2

/-- A line of a served range. -/
def servedHere (s : State) (l : LineAddr) : Bool := isOwn s l && (mirOwn s (laOf l)).any fun n => rdBit s (aFbMir n) 1

/-- The hand-back is over: `TkBack`, the entries no longer in service (R352). -/
def handbackEnds (t : BgTask) (s : State) : State :=
  let p := buddy s
  let ns := (List.range 8).filter fun n => rdBit s (aFbMir n) 1
  let s := ns.foldl (fun s n => wrFld (aFbMir n) 1 2 0 s) { s with mir := { s.mir with gave := s.mir.gave ++ ns } }
  let s := wrFld aFbBuddy 2 1 0 (endTask t { s with mir := { s.mir with back := false } })
  bgEnd 0xC203 1 0 (clearTk p (viaRoot .tkBack p.toNat 0 0 s))

/-- One unit of a hand-back: a line copied; once all are, a recall; and its end when nothing is left and `MrAck` covers every MSEQ. -/
def handbackUnit (t : BgTask) (s : State) : State :=
  if t.arg = 0 then
    match servedLine s t.next with
    | none => setTask { t with arg := 1 } s
    | some l =>
      let x := copyLine l s
      if x.1 then setTask { t with next := t.next + 1 } x.2 else x.2
  else if !purged (servedHere s) s then purgeOne (servedHere s) (drainOf (servedHere s) s)
  else if copiesRead s && storedAll (servedHere s) s && s.mir.sent.isEmpty && s.mir.held.isEmpty then handbackEnds t s
  else s

/-- A planned takeover goes on (R351): every Guarded line is recalled and flushed, `MrAck` is awaited, then the hub reports itself. -/
def plannedGo (s : State) : State :=
  if s.mir.planned = 0 ∨ s.mir.planned = 2 then s
  else
    let g := fun (l : LineAddr) => isGuarded s l
    let ls := (copiesIn g s).filter fun l => !blocked s l
    let s := ls.foldl (fun s l => (recallHome l s).2) (drainOf g s)
    if purged g s && storedAll g s && s.mir.sent.isEmpty && s.mir.held.isEmpty then
      let s := reportSelf { s with mir := { s.mir with planned := 2 } }
      if isRoot s then takeNote (hubId s) 3 s else s
    else s

/-! ### Rekey (R456, R457) and key retirement (R453) -/

/-- A task pauses for want of cells of the background reserve (EV244, Table 01.8). -/
def pauseFor (k : BgKind) (s : State) : State :=
  match taskOf s k with
  | some t => fire 244 0 oNone (setTask { t with paused := true } s)
  | none => s

/-- The next block of a rekey sweep: re-sealed under the target once it is held in the seal cache, in four cells of the background reserve for
each granule (R25); blocks never written or lost are passed. -/
def rekeyUnit (s : State) : State :=
  let b := rdFld s aSlRkptr 0 34
  let c := rd s aSlRkctl
  if inBrace s || resealing s b || b > rdFld s (aSlKrt (fld c 0 12) + 8) 0 34 then s
  else
    let x := heldState [] (64 * b) s
    match x.1 with
    | .missing =>
      let l := ownLine s (256 * b)
      if (todo s (64 * b)).isEmpty then cellarRead l .sweep s else s
    | .lost _ => rekeyPassed b x.2
    | _ => match getBlk x.2 0 b with
      | none => x.2
      | some k =>
        let e := aSlKrt (fld c 0 12)
        if bfld k.bits 0 56 = 0 then rekeyPassed b x.2
        else match takeBg (4 * ((List.range 64).filter fun i => minorOf k.bits i ≠ 0).length) x.2 with
          | none => pauseFor .rekey x.2
          | some (cs, s) => startReseal b (fld c 12 10) (fld c 22 8) (rdFld s e 3 10, rdFld s e 13 8) cs (7, epochNow s) 3 s

/-- KSLOT of every own frame of the range set to the target (R457, Table 05.2). -/
def rekeyFrames (n slot : Nat) (s : State) : State :=
  if !isH1 s then s
  else
    let mine := fun (w : Way) => w.loc && (krtOf s (laOf (lineAt s w.addr 0) / 256)).any fun e => e.1 = n
    let f := fun (e : Nat × Way) => if mine e.2 then (e.1, { e.2 with kslot := slot }) else e
    { s with hc := { s.hc with ways := s.hc.ways.map f } }

/-- REKEY_SWEEP_END (R457). -/
def opRekeySweepEnd (s : State) : State :=
  match taskOf s .rekey with
  | none => s
  | some t =>
    let c := rd s aSlRkctl
    let n := fld c 0 12
    let e := aSlKrt n
    if rdFld s aSlRkptr 0 34 ≤ rdFld s (e + 8) 0 34 ∨ s.sl.reseals.any (fun x => (x.slot, x.gen) = (fld c 12 10, fld c 22 8)) = true then s
    else
      let old := rd s e
      let s := wrFld e 3 10 (fld c 12 10) (wrFld e 13 8 (fld c 22 8) (endTask t s))
      let s := rekeyFrames n (fld c 12 10) (wrFld aSlRkctl 31 1 0 s)
      let mine := fun (o : CelOp) => isOwn s o.line && o.key = (fld old 3 10, fld old 13 8) && (krtOf s (laOf o.line / 256)).any fun x => x.1 = n
      let s := { s with cel := { s.cel with ops := s.cel.ops.map fun o => if mine o then { o with key := (fld c 12 10, fld c 22 8) } else o } }
      tallyAuto 35 e 231 old (rd s e) (oKey (fld c 12 10)) (fire 231 0 (oKey (fld c 12 10)) s)

/-- The own lines of a slot: those of the valid entries that name it, and on QD48-H1 the cached ones whose frame bears it as KSLOT (R175). -/
def ofSlot (n : Nat) (s : State) (l : LineAddr) : Bool :=
  isOwn s l && ((match krtOf s (laOf l / 256) with
    | some (_, w) => fld w 3 10 = n
    | none => false) || (isH1 s && (findWay s l).any fun k => (getWay s k).loc && (getWay s k).kslot = n))

/-- KEY_RETIRE_END (R453): the key is erased, its generation raised, 255 followed by 1, and the slot EMPTY. -/
def opKeyRetireEnd (s : State) : State :=
  match taskOf s .keyRetire with
  | none => s
  | some t =>
    let n := t.arg
    if !purged (ofSlot n s) s || !storedAll (ofSlot n s) s then s
    else
      let a := aSlKs n
      let old := rd s a
      let gen := if fld old 2 8 = 255 then 1 else fld old 2 8 + 1
      let new := mkWord [(2, 8, gen)]
      let f := { s.flash with keys := mdel s.flash.keys n, slots := mset s.flash.slots n new }
      let s := wr a new (endTask t { s with sl := { s.sl with keys := mdel s.sl.keys n }, flash := f })
      let s := wrFld aSlStat 2 11 0 s
      bgEnd 0xC101 n 0 (tallyAuto 35 a 230 old new (oKey n) (fire 230 0 (oKey n) s))

/-! ### Slice drains (R572, R573) -/

/-- Lines of a slice. -/
def ofSlice (k : Nat) (l : LineAddr) : Bool := sliceOf l = k

/-- The directory entries of a slice. -/
def sliceDir (k : Nat) (s : State) : List (Nat × DirEnt) := s.dir.filter fun e => e.1 / 16 / 32768 = k

/-- Valid entries still in the slice: PM_DRAIN.LEFT. -/
def sliceLeft (k : Nat) (s : State) : Nat :=
  (sliceDir k s).length + (s.hf.filter fun e => e.1 / 16 / 32768 = k).length +
    (s.hc.ways.filter fun e => !e.2.st.isEmpty && decide (e.1 / 16 / (if isH1 s then 65536 else 7168) = k)).length

/-- One unit of a drain. A lost line's entry names no hub, and its cellar copy is poisoned: it is removed (DEDUCED, log entry 41). -/
def drainUnit (k : Nat) (s : State) : State :=
  let lost := (sliceDir k s).find? fun e => e.2.st = .l && !blocked s (dirLine s e.1 e.2)
  let s := match lost with
    | some e => { s with dir := mdel s.dir e.1 }
    | none => purgeOne (ofSlice k) (drainOf (ofSlice k) s)
  wrFld aPmDrain 8 32 (sliceLeft k s) s

/-- The slice is empty and nothing of it is open (R573). -/
def sliceEmpty (k : Nat) (s : State) : Bool :=
  sliceLeft k s = 0 && purged (ofSlice k) s && (httOf s k).isEmpty && (mrsOf s k).isEmpty

/-- SLICE_DRAIN_END (R573): the frame-tag cache holds no block of the slice any more. -/
def opSliceDrainEnd (s : State) : State :=
  match taskOf s .sliceDrain with
  | none => s
  | some t =>
    if !sliceEmpty t.next s then s
    else
      let old := rd s aPmDrain
      let s := { s with hc := { s.hc with tags := s.hc.tags.filter fun e => e.1 / 4096 ≠ t.next } }
      let s := wrFld aPmDrain 0 1 0 (wrFld aPmDrain 6 1 t.arg (wrFld aPmDrain 8 32 0 (endTask t s)))
      let s := rsq aPmDrain 7 s
      let s := fireSeq 268 0 (oNum t.next) oNone (seqOf s aPmDrain) s
      bgEnd 0xC305 t.next 0 (tallyAuto 35 aPmDrain 268 old (rd s aPmDrain) (oNum t.next) s)

/-! ### Retirements (R180, R181, R413) -/

/-- A way whose region has nothing under way. -/
def wayQuiet (s : State) (k : Nat) : Bool :=
  let r := (getWay s k).addr
  (getWay s k).st.isEmpty && !(s.hc.evs.any fun e => e.way = k) && !(s.hst.steps.any fun x => regionOf s x.line = r)

/-- A way named for retirement is retired once it is empty (R180): RET, a Lumber entry, EV213 and a Tally record; until then what it holds
is released. -/
def retireOne (s : State) (k : Nat) : State :=
  if wayQuiet s k then
    let loc := wayLoc s k 0
    let s := { s with hc := { s.hc with retWant := s.hc.retWant.filter (· ≠ k) } }
    let x := addLumber (if isH1 s then 0 else 5) 0 loc 0 s
    if !x.1 then bgEnd 0xC300 k 4 x.2
    else
      let s := setWay k { (getWay x.2 k) with ret := true } x.2
      bgEnd 0xC300 k 0 (tallyAuto 35 0 213 0 (BitVec.ofNat 64 loc) (oVal loc) (fire 213 0 (oVal loc) s))
  else
    let ls := (wayLines s k).filter fun l => !stepOn s l && (mrOf s l).isNone
    ls.foldl (fun s l => releaseHosts l 7 (epochNow s) s) s

/-- Ways named for retirement go on, unless the background reserve is used up (R35). -/
def retireStep (s : State) : State := if shareLimit s 1 ≤ larUsed s 1 then s else inWork (fun s => s.hc.retWant.foldl retireOne s) s

/-- The ways of a pseudo-channel that hold lines. -/
def pcWays (g : Nat) (s : State) : List Nat := (s.hc.ways.filter fun e => e.1 / 16 % 128 = g && !e.2.st.isEmpty).map (·.1)

/-- One line of a pseudo-channel under retirement is released. -/
def pcUnit (g : Nat) (s : State) : State :=
  match ((pcWays g s).flatMap (wayLines s)).find? fun l => !stepOn s l && (mrOf s l).isNone with
  | none => s
  | some l => releaseHosts l 7 (epochNow s) s

/-- The record of a retired pseudo-channel: its Lumber entry, event and Tally record, and the end of its command. -/
def pcRecord (g src : Nat) (s : State) : State :=
  let x := addLumber 1 0 g 0 s
  bgEnd 0xC301 g 0 (tallyAuto 35 aHcPcmap src 0 (rd x.2 aHcPcmap) (oVal g) (fire src 0 (oVal g) x.2))

/-- PC_RETIRE_END (R181): the frames are mapped to the stack's spare region where that is unused; otherwise every one is retired. -/
def opPcRetireEnd (s : State) : State :=
  match taskOf s .pcRetire, s.hc.pcWant with
  | some t, some g =>
    if !(pcWays g s).isEmpty || s.hc.evs.any fun e => e.way / 16 % 128 = g then s
    else
      let s := endTask t { s with hc := { s.hc with pcWant := none } }
      if !rdBit s aHcPcmap (6 * (g % 4) + 5) then pcRecord g 214 (wrFld aHcPcmap (6 * (g % 4)) 6 (32 + g / 4) s)
      else pcRecord g 215 { s with hc := { s.hc with retPcs := s.hc.retPcs ++ [g] } }
  | _, _ => s

/-- The next line of a page that is moved is read, one at a time (R413). -/
def pageUnit (s : State) : State :=
  match s.prot.moving with
  | none => s
  | some (page, _, _, n) =>
    if n ≥ 64 || s.cel.ops.any fun o => o.dest = .page then s
    else
      let l := ownLine s (64 * page + n)
      let x := homeCopy l s
      if x.1 then cellarRead l .page x.2 else s

/-- PAGE_RETIRE_END (R413): the page is moved once its last line has been written in its new place. Its only event is EV287 of the command, and its
Tally record names source 0 (DESIGN CHOICE, log entry 125). -/
def opPageRetireEnd (s : State) : State :=
  match taskOf s .pageRetire, s.prot.moving with
  | some t, some (page, set, spare, n) =>
    if n < 64 ∨ (s.cel.ops.any fun o => isOwn s o.line && decide (laOf o.line / 64 = page)) = true then s
    else
      let s := endTask t { s with prot := { s.prot with moving := none } }
      let x := addLumber 4 0 page (spare % 1024 + set * 1024) s
      let ports := (setBits 8 (rdFld s (aDpIset set) 6 8)).filter fun d => (mget s.flash.serials (8 * set + d)).isNone
      let note := fun (m : SMap Word) d => mset m (8 * set + d) (mgetD 0 m (128 + d))
      let f := { x.2.flash with pages := mset x.2.flash.pages page (set, spare), serials := ports.foldl note x.2.flash.serials }
      bgEnd 0xC304 page 0 (tallyAuto 35 0 0 0 (BitVec.ofNat 64 page) (oVal page) { x.2 with flash := f })
  | _, _ => s

/-! ### Rebuilds (R391, R450) -/

/-- The next granule of a returned Strong-set port: read from the other ports and written whole. Granules without a key are passed. -/
def strongUnit (t : BgTask) (s : State) : State :=
  if t.next > t.last then s
  else if (krtOf s (t.next / 256)).isNone then setTask { t with next := (t.next / 256 + 1) * 256 } s
  else
    let x := moveLine (ownLine s t.next) s
    if x.1 then setTask { t with next := t.next + 4 } x.2 else x.2

/-- STRONG_REBUILD_END (R391): with the last Strong set of the port rebuilt, its event. -/
def opStrongRebuildEnd (d : DPort) (s : State) : State :=
  match taskOf s (.strongRebuild d) with
  | none => s
  | some t =>
    if t.next ≤ t.last ∨ (s.cel.ops.any fun o => o.dest = .move) = true then s
    else
      let s := endTask t s
      if (taskOf s (.strongRebuild d)).isSome then s
      else tallyAuto 35 0 (64 + 4 * d) 0 0 (oPort 1 d) (fire (64 + 4 * d) 2 (oPort 1 d) s)

/-- REBUILD_END (R450): ROOTED. The counter blocks lie outside the device: whether a root counter stands over any, and the largest major found,
are free values (log entry 42). -/
def opRebuildEnd (s : State) : State :=
  if rdFld s aSlStat 0 2 ≠ 1 then s
  else
    let root := fun (s : State) k =>
      let x := drawFree s
      wr (aSlRoot k) (BitVec.ofNat 64 ((Config.freeWord x.1).toNat % 2)) x.2
    let s := (List.range 8).foldl root s
    let x := drawFree s
    let s := wr aSlMajsrc (BitVec.ofNat 64 ((Config.freeWord x.1).toNat % (2 ^ 56 - 2) + 1)) x.2
    let s := wrFld aSlStat 0 2 2 s
    bgEnd 0xC104 0 0 (fire 233 1 oNone s)

/-! ### Units of work -/

/-- One unit of a task. -/
def workUnit (t : BgTask) (s : State) : State :=
  match t.kind with
  | .windowSweep p _ => windowUnit p t s
  | .domainSweep => domainUnit t s
  | .rangeFlush => purgeOne (inRange s t.next t.last) (drainOf (inRange s t.next t.last) s)
  | .hostReclaim p => reclaimUnit p s
  | .mirrorCopy => copyUnit t s
  | .rekey => rekeyUnit s
  | .keyRetire => purgeOne (ofSlot t.arg s) (drainOf (ofSlot t.arg s) s)
  | .sliceDrain => inWork (drainUnit t.next) s
  | .pageRetire => pageUnit s
  | .pcRetire => match s.hc.pcWant with
    | some g => inWork (pcUnit g) s
    | none => s
  | .maint => maintUnit s
  | .strongRebuild _ => strongUnit t s
  | .handback => handbackUnit t s
  | .probeDir => endTask t (probeDir s)
  | .probeHf => endTask t (probeHf s)

/-- The number of a task of the background engine (Table 06.7). A probe uses the slice's input alone (R115). -/
def taskNo (k : BgKind) : Nat := match k with
  | .rekey => 3
  | .sliceDrain => 6
  | .probeDir | .probeHf => 0
  | _ => 7

/-- BACKGROUND_WORK_UNIT (R257): the first task of the kind does one unit, whose transfers the background engine presents to the Boards. With the
background reserve used up it pauses (EV244, Table 01.8), but for a probe, which takes no cell. -/
def opBackgroundWorkUnit (k : BgKind) (s : State) : State :=
  match taskOf s k with
  | none => s
  | some t =>
    if t.paused then s
    else if decide (taskNo k ≠ 0) && decide (shareLimit s 1 ≤ larUsed s 1) then pauseFor k s
    else asTask (taskNo k) (workUnit t) s

/-- BACKGROUND_RESUME (Table 01.8): with cells freed, paused tasks go on. -/
def opBackgroundResume (s : State) : State :=
  if shareLimit s 1 ≤ larUsed s 1 then s else { s with bg := s.bg.map fun t => { t with paused := false } }

/-! ### What follows a command -/

/-- `FABRIC_JOIN` ends with the hub's admission (R328). -/
def joinGo (s : State) : State := if rdFld s aFbStat 0 2 = 2 then bgEnd 0xC201 0 0 s else s

/-- A pending pair is made once the named buddy is in the fabric (R338, DESIGN CHOICE, log entry 48): the mirror entries accepted so far go to it (R339),
and every Guarded range is copied (R345). -/
def pairGo (s : State) : State :=
  if rdFld s aFbBuddy 0 2 = 1 ∧ buddy s ∈ liveHubs s then
    copyAll (((List.range 8).filter fun n => rdBit s (aFbMir n) 0).foldl (fun s n => sendMirEntry n s) (wrFld aFbBuddy 0 2 2 s))
  else s

/-- Fences that can go on do, and the cellar path with what they start. -/
def fencesGo (s : State) : State := if s.ports.fences.isEmpty then s else settle (advanceFences s)

/-- What goes on by itself after a command: the cellar path, fences, retirements, a pair being made, a join, a planned takeover, a flush of R294. -/
def follow (s : State) : State := if running s then gpfGo (plannedGo (joinGo (pairGo (retireStep (fencesGo (settle s)))))) else s

/-- What goes on by itself after a command that brought state `s` to `t`, where it has set the cellar path, the mirror or a fence to work. -/
def followAfter (s t : State) : State :=
  if t.cel.ops = s.cel.ops ∧ t.cel.owed = s.cel.owed ∧ t.mir.applied = s.mir.applied ∧ t.ports.fences = s.ports.fences then t else follow t

end Sys2Proof.Machine
end

