-- ==== Sys2Proof/Machine/Heads.lean ====
section
/-! DEFINITION. Host links and heads (07 R290, 09 R356 to R378, 14 R556 to R562), SPDM (11 R452), and the enumeration of cellar ports (09 R374, R376). -/

namespace Sys2Proof.Machine

/-! ### Links of host ports -/

/-- A lead or single port that is enabled. -/
def inService (s : State) (p : Nat) : Bool := rdBit s (aHpCtl p) 0 && !nonLead s p

/-- L0 or, where a side has narrowed the port, L0p. -/
def activeLs (s : State) (p : Nat) : Nat := if mgetD 0 s.hst.narrow p = 0 then 3 else 4

/-- The link goes down without a port reset (R145, R358). -/
def hostLinkDown (p : Nat) (s : State) : State :=
  if !inService s p || !linkUp s p then s
  else
    let s := linkGone p 7 s
    if hostMode s p then hostDies p s else s

/-- HOST_LINK_DOWN (R145). -/
def opHostLinkDown (p : HPort) (s : State) : State := hostLinkDown p s

/-- The mailbox command in progress on page `p` ends with a return code and no effect. -/
def endForeground (rc : Nat) (s : State) (p : Nat) : State :=
  if rdBit s (aMbCtl p) 1 then wrFld (aMbCtl p) 1 1 0 (wrFld (aMbSts p) 0 16 rc s) else s

/-- MSI-X of head `p` at its reset values. -/
def msixReset (p : Nat) (s : State) : State :=
  { s with ev := { s.ev with msixMask := mdel s.ev.msixMask p, msixPend := mdel s.ev.msixPend p } }

/-- A head's configuration space, IDE streams and event logs at their reset values (Table 14.9). -/
def headReset (p : Nat) (s : State) : State :=
  let mine := fun (k : Nat) => decide (k / 4 = p)
  let e := { s.ev with logs := s.ev.logs.filter fun x => !mine x.1, logNext := s.ev.logNext.filter fun x => !mine x.1,
                       logOvf := s.ev.logOvf.filter fun k => !mine k }
  let s := msixReset p { s with ev := e }
  if rdBit s (aHpStat p) 8 then ideChanged p {} s else setHead p {} s

/-- PORT_RESET (R148, R557, Table 07.4): requests held at ingress are discarded, the host's lines reclaimed, the head returned to its reset values, and
the link is in L0 again, as it has trained (Table 09.1). With a peer that does not train the link is in training, and the host is not re-admitted. A port in
agent mode has no lines and no head to reset. Every reset clears every unlock (R478). -/
def opPortReset (a : HostTrain) (s : State) : State :=
  let p := a.port
  let t := a.train
  if !inService s p || (!peerTrains t && !linkUp s p) then s
  else
    let s := linkGone p 2 { s with ctl := { s.ctl with unlocks := [] } }
    let s := if peerTrains t then setHostLink p 3 (trainHost p t s) else s
    if !hostMode s p then s
    else
      let s := endForeground 5 (headReset p s) p
      let s := if hostDead s p then s else takeBack p s
      if !peerTrains t then s else
      let pr := s.hst.portReset
      readmit p { s with hst := { s.hst with portReset := if p.val ∈ pr then pr else pr ++ [p.val] } }

/-- FUNCTION_LEVEL_RESET (R557): the head's configuration registers, MSI-X and mailbox command; CXL.mem, windows and filter stay. -/
def opFunctionLevelReset (p : HPort) (s : State) : State :=
  if !inService s p || !hostMode s p then s
  else
    let h := head s p
    endForeground 5 (msixReset p (setHead p { h with vectors := [], config := [] } s)) p

/-- A side narrows the port, or no longer does: L0p entries are counted (HP_CNT5). -/
def narrowBy (p side width : Nat) (on : Bool) (s : State) : State :=
  let v := mgetD 0 s.hst.narrow p
  let new := if on then v ||| side else v &&& (3 - side)
  if new = v then s
  else
    let s := if v = 0 then count (aHpCnt p 5) 1 s else s
    setNarrow p new (wrFld (aHpStat p) 3 3 (min (trainedLanes s p) (Nat.log2 width)) s)

/-- The link takes L0p now: up, not in L1 or Recovery, and L0p allowed (R561). -/
def mayNarrow (s : State) (p : Nat) : Bool :=
  inService s p && linkUp s p && rdBit s (aHpCtl p) 5 && rdFld s (aHpStat p) 0 3 ≠ 5 && rdFld s (aHpStat p) 0 3 ≠ 6

/-- L0P_REQUEST (R561): the host narrows the port to `width` lanes; at full width it no longer does. -/
def opL0pRequest (p : HPort) (width : Nat) (s : State) : State :=
  if !mayNarrow s p || width = 0 then s else narrowBy p 1 width (decide (width < 2 ^ trainedLanes s p)) s

/-- L0P_IDLE_NARROW (R561): the hub narrows its own direction while its egress holds nothing. To how many lanes is a free value. -/
def opL0pIdleNarrow (p : HPort) (s : State) : State :=
  let b := 76 + p.val
  if !mayNarrow s p || !(mgetD [] s.brd.wait b).isEmpty || (mget s.brd.run b).isSome then s
  else
    let x := drawFree s
    narrowBy p 2 ((Config.freeWord x.1).toNat % (2 ^ trainedLanes s p - 1) + 1) true x.2

/-- L1_ENTRY (R562). -/
def opL1Entry (p : HPort) (s : State) : State :=
  if inService s p && linkUp s p && rdBit s (aHpCtl p) 6 && rdFld s (aHpStat p) 0 3 ≠ 6 then setHostLink p 5 s else s

/-- L1_EXIT (R562). -/
def opL1Exit (p : HPort) (s : State) : State := if rdFld s (aHpStat p) 0 3 = 5 then setHostLink p (activeLs s p) s else s

/-- Recovery of a host port's link (R378). -/
def hostRecovery (p : Nat) (s : State) : State :=
  if !inService s p || !linkUp s p || rdFld s (aHpStat p) 0 3 = 6 then s else setHostLink p 6 (count (aHpCnt p 6) 1 s)

/-- Recovery of a cellar port's link, with CAUSE 0 of EV065 + 4d (R376, R378). -/
def cellarRecovery (d : Nat) (s : State) : State :=
  let a := aDpStat d
  if !rdBit s (aDpCtl d) 0 || rdBit s a 9 || rdFld s a 0 3 = 6 then s
  else
    let s := count (aDpCnt d 5) 1 (setCellarLink d 6 s)
    fireSeq (65 + 4 * d) 0 (oPort 1 d) oNone (seqOf s a) s

/-- PCIE_LINK_RECOVERY (R378). -/
def opPcieLinkRecovery (port : PciePort) (s : State) : State :=
  match port with
  | .host p => hostRecovery p s
  | .cellar d => cellarRecovery d s

/-- HOST_LINK_RECOVERY_END (R378): back in L0, at the rate and width that Recovery has come to (Table 09.1). -/
def opHostLinkRecoveryEnd (p : HostTrain) (s : State) : State :=
  if rdFld s (aHpStat p.port) 0 3 = 6 && peerTrains p.train then setHostLink p.port (activeLs s p.port) (trainHost p.port p.train s) else s

/-! ### Configuration requests to heads (R362, R363) -/

/-- The bytes of `v` that `be` enables over `old`. -/
def mergeBytes (old v be : Nat) : Nat :=
  (List.range 4).foldl (fun n i => n + nfld (if be.testBit i then v else old) (8 * i) 8 * 2 ^ (8 * i)) 0

/-- A vector's mask bit (R511): a pending vector that is unmasked is sent. -/
def maskVec (p vec : Nat) (masked : Bool) (s : State) : State :=
  let m := mgetD 0 s.ev.msixMask p
  let q := mgetD 0 s.ev.msixPend p
  let s := { s with ev := { s.ev with msixMask := mput 0 s.ev.msixMask p (if masked then m ||| 2 ^ vec else m &&& (2 ^ 64 - 1 - 2 ^ vec)) } }
  if masked || !q.testBit vec then s
  else sendVector p vec { s with ev := { s.ev with msixPend := mput 0 s.ev.msixPend p (q &&& (2 ^ 64 - 1 - 2 ^ vec)) } }

/-- The GPF Phase 2 duration that the hub advertises, in µs (R295): its own flush time and the longest of its expanders'. -/
def gpfDuration (s : State) : Nat := (if isH1 s then 300000 else 1000) + s.pwr.gpfExp.foldl (fun m e => max m e.2) 0

/-- A duration in µs as CXL codes it, rounded up: base in bits 3:0, power of ten in bits 11:8 (PRESUMED, log entry 96). -/
def gpfCode (d : Nat) : Nat :=
  match (List.range 8).find? fun k => decide ((d + 10 ^ k - 1) / 10 ^ k ≤ 15) with
  | some k => (d + 10 ^ k - 1) / 10 ^ k + 256 * k
  | none => 15 + 256 * 7

/-- Dword `i` of a head's configuration space. A head shows itself as a Type 3 device (R1): its capability register says that it has CXL.io and CXL.mem
and no CXL.cache; its GPF register shows the Phase 2 duration of R295 (PRESUMED, log entry 96). -/
def headDword (s : State) (p i : Nat) : Nat :=
  let w : Word := BitVec.ofNat 64 (Config.headConfig p i (mgetD (2 ^ 32) (head s p).config i)).toNat
  let a := Config.cxlCap p
  let g := Config.gpfCap p
  let w := if a / 4 = i then setFld w (8 * (a % 4)) 3 6 else w
  (if g / 4 = i then setFld w (8 * (g % 4)) 12 (gpfCode (gpfDuration s)) else w).toNat

/-- What a configuration request does at a ready head. Standard registers' contents come from PCIe and CXL (Config.headConfig). -/
def configure (p : Nat) (c : HeadCfg) (s : State) : State :=
  let h := head s p
  match c with
  | .read off =>
    let i := off.toNat / 4
    emit (.cfgAns p false (headDword s p i)) s
  | .write off be v =>
    let i := off.toNat / 4
    let old := mgetD 0 h.config i
    emit (.cfgAns p false 0) (setHead p { h with config := mset h.config i (mergeBytes old v.toNat be.toNat) } s)
  | .commitDecoder base size => emit (.cfgAns p false 0) (setHead p { h with decoder := some (base.toNat, size.toNat) } s)
  | .maskVector vec masked => emit (.cfgAns p false 0) (if s.halted.isSome then s else maskVec p vec.toNat masked s)
  | .msixAddress vec addr data => emit (.cfgAns p false 0) (setHead p { h with vectors := mset h.vectors vec.toNat (addr, data) } s)

/-- HEAD_CONFIGURATION_REQUEST (R290, R363, Table 14.7): Configuration Request Retry Status until a cold reset is ready; no answer in a reset's flush and
until that reset is done; served in seal halt (Table 11.7). -/
def opHeadConfigurationRequest (p : HPort) (c : HeadCfg) (s : State) : State :=
  if !inService s p || !hostMode s p then s
  else match s.part.phase with
    | .cold => emit (.cfgAns p true 0) s
    | .ready => configure p c s
    | _ => s

/-- SPDM_MESSAGE (R452): a secured session is established once both sides have finished its key exchange, over a head's DOE or over MCTP; the fabric
mailbox has none. -/
def opSpdmMessage (mb : Mailbox) (m : SpdmMsg) (s : State) : State :=
  let on := fun (old : Bool) => match m with
    | .finish both => both || old
    | .endSession => false
    | .other => old
  if !mbServed s || !pelestUp s || mb.val = 17 then s
  else if mb.val = 16 then
    let x := on s.ctl.session
    emit (.spdm 16 x) { s with ctl := { s.ctl with session := x } }
  else if !inService s mb || !hostMode s mb then s
  else
    let h := head s mb
    let x := on h.session
    emit (.spdm mb x) (setHead mb { h with session := x } s)

/-! ### Enumeration of cellar ports (R374, R376, R391, R414) -/

/-- The page entries of interleave set `n` removed, each with a Tally record (R414). -/
def dropPages (n : Nat) (s : State) : State :=
  let mine := s.flash.pages.filter fun e => e.2.1 = n
  let f := { s.flash with pages := s.flash.pages.filter (fun e => e.2.1 ≠ n), serials := s.flash.serials.filter (fun e => !decide (e.1 / 8 = n) || decide (128 ≤ e.1)),
                          lumber := s.flash.lumber.filter fun e => !(fld e.1 0 4 = 4 && fld e.1 54 4 = n) }
  mine.foldl (fun s e => tallyAuto 34 0 0 (BitVec.ofNat 64 e.1) 0 (oVal e.1) s) { s with flash := f }

/-- The serial of the expander on port `d`: a set whose page entries name another on that port loses them. -/
def noteSerial (d : Nat) (serial : Word) (s : State) : State :=
  let bad := (List.range 16).filter fun n => match mget s.flash.serials (8 * n + d) with
    | some x => x ≠ serial
    | none => false
  let s := bad.foldl (fun s n => dropPages n s) s
  { s with flash := { s.flash with serials := mset s.flash.serials (128 + d) serial } }

/-- A port that has returned: the Strong sets that it serves are rebuilt (R391). -/
def rebuildOn (d : DPort) (s : State) : State :=
  let add := fun (s : State) n =>
    let w := rd s (aDpIset n)
    if bit w 0 && bit w 1 && bit w (6 + d.val) then
      let b := fld w 16 12 * 2 ^ 30
      { s with bg := s.bg ++ [⟨.strongRebuild d, b, b + fld w 32 13 * 2 ^ 30 - 1, 0, false⟩] }
    else s
  (List.range 16).foldl add s

/-- The expander on port `d` enumerated: capacity, latency, dirty shutdown count, GPF duration, and the port in service at the rate and width that it has
trained to, at most x8 (R295, R374, R376, Table 09.1). -/
def enumerated (d : DPort) (e : ExpanderInfo) (s : State) : State :=
  let a := aDpStat d
  let back := rdBit s a 9
  let s := noteSerial d e.serial s
  let s := wr (aDpCap d) (BitVec.ofNat 64 (e.cap.toNat % 2 ^ 52)) (wr (aDpEbnd d) (BitVec.ofNat 64 (satTo 65535 e.latency)) s)
  let s := wr (aDpDsc d) (mkWord [(0, 32, e.shutdownCount.toNat), (32, 1, e.persistent.toNat)]) s
  let s := { s with pwr := { s.pwr with gpfExp := mset s.pwr.gpfExp d e.gpfTime } }
  let s := setCellarLink d 3 (wrFld a 3 7 (min 3 e.train.width.toNat + 8 * e.train.rate.toNat + 32) s)
  let s := fireSeq (64 + 4 * d) 1 (oPort 1 d) oNone (seqOf s a) s
  if back then rebuildOn d s else s

/-- ENUMERATION_END (R374, R376): of an enumeration that a cold reset, EN or a failed port's EN has started. A failed port's that fails raises CAUSE 2,
after CAUSE 1 where it was the authentication that failed (Table 13.11). -/
def opEnumerationEnd (d : DPort) (e : ExpanderInfo) (s : State) : State :=
  let a := aDpStat d
  let ls := rdFld s a 0 3
  let up := s.halted.isNone && match s.part.phase with
    | .cold | .ready | .flush _ => true
    | _ => false
  if !up || !rdBit s (aDpCtl d) 0 || !(ls = 2 || (ls = 0 && !rdBit s a 8)) then s
  else if !e.trained || !peerTrains e.train then
    if rdBit s a 9 then
      let s := setCellarLink d 7 s
      fireSeq (67 + 4 * d) 2 (oPort 1 d) oNone (seqOf s a) s
    else setCellarLink d 1 s
  else if rdBit s (aDpCtl d) 1 && !e.authOk then
    let s := setCellarLink d 7 s
    let s := fireSeq (67 + 4 * d) 1 (oPort 1 d) oNone (seqOf s a) s
    if rdBit s a 9 then fireSeq (67 + 4 * d) 2 (oPort 1 d) oNone (seqOf s a) s else s
  else enumerated d e s

end Sys2Proof.Machine
end

