-- ==== Sys2Proof/Machine/Power.lean ====
section
/-! DEFINITION. Power, heat, clocks and calibration (14 R538 to R575), Pelest's restarts (12 R488, R493, R494), and the end of a cold reset. -/

namespace Sys2Proof.Machine

/-- Power events act: the part runs an image, and not in seal halt. -/
def awake (s : State) : Bool := s.halted.isNone && match s.part.phase with
  | .held | .noImage => false
  | _ => true

/-! ### Brace (R542 to R547) -/

/-- Brace entered: object the rail, or 5 for PWR_WARN_n (DESIGN CHOICE, log entry 44). -/
def enterBrace (what : Nat) (s : State) : State :=
  if inBrace s || !awake s then s
  else
    let old := rd s aPmStat
    let s := rsq aPmStat 5 (wrFld aPmStat 0 1 1 (easeFrom s))
    let s := fireSeq 256 0 (oVal what) oNone (seqOf s aPmStat) (count (aPmCnt 0) 1 s)
    drainAll (tallyAuto 35 aPmStat 256 old (rd s aPmStat) (oVal what) s)

/-- The nominal voltage of a rail in mV (Table 14.2). -/
def railNominal (n : Nat) : Nat := [750, 800, 900, 1100, 1200].getD n 0

/-- A monitor's reading in mV (R539, R541, R542): Brace below the warning level, a cold reset at the reset level. While PORST_n holds the device a
reading only tells where the rail stands. -/
def railRead (n mv : Nat) (s : State) : State :=
  if !isH1 s && n = 3 then s
  else
    let a := aPmRail n
    let low := rdFld s a 32 16
    let mv := satTo 65535 mv
    let s := wrFld a 16 16 mv (wrFld a 32 16 (if low = 0 ∨ mv < low then mv else low) s)
    let below := decide (200 * mv < railNominal n * (200 - rdFld s a 0 4))
    let l := s.pwr.low.filter (· ≠ n)
    let s := { s with pwr := { s.pwr with low := if below then l ++ [n] else l } }
    if 200 * mv ≤ railNominal n * (200 - rdFld s a 8 5) then
      if s.part.phase = .held then { s with pwr := { s.pwr with hold := s.pwr.hold || s.part.porstN } } else coldReset (1 + 8 * n) true s
    else if below then enterBrace n s else s

/-- RAIL_WARNING (R542). -/
def opRailWarning (rail : Fin 5) (mv : Nat) (s : State) : State := railRead rail mv s

/-- RAIL_RESET_LEVEL (R541). -/
def opRailResetLevel (rail : Fin 5) (mv : Nat) (s : State) : State := railRead rail mv s

/-- RAIL_ABOVE_WARNING (R545). -/
def opRailAboveWarning (rail : Fin 5) (mv : Nat) (s : State) : State := railRead rail mv s

/-- BRACE_EXIT_TIMER (R545, R546): MIN of each rail starts again. -/
def opBraceExitTimer (s : State) : State :=
  if !inBrace s || !s.pwr.low.isEmpty || (!s.part.pwrWarnN && rdBit s aPmCtl 0) || !awake s then s
  else
    let old := rd s aPmStat
    let s := wrFld aPmStat 0 1 0 s
    let s := (List.range 5).foldl (fun s n => wrFld (aPmRail n) 32 16 (rdFld s (aPmRail n) 16 16) s) s
    let s := fireSeq 257 0 oNone oNone (seqOf s aPmStat) s
    tallyAuto 35 aPmStat 257 old (rd s aPmStat) oNone s

/-- PWR_WARN_ASSERT (R542, R585): the pin has been low for 100 ns. -/
def opPwrWarnAssert (s : State) : State :=
  let s := { s with part := { s.part with pwrWarnN := false } }
  if rdBit s aPmCtl 0 then enterBrace 5 s else s

/-- PWR_WARN_DEASSERT (R545). -/
def opPwrWarnDeassert (s : State) : State := { s with part := { s.part with pwrWarnN := true } }

/-- PWR_WARN_SUSTAINED (R547): the flush of R294, with EV259. -/
def opPwrWarnSustained (s : State) : State :=
  if s.part.pwrWarnN || !rdBit s aPmCtl 1 then s
  else gpfStart { fireSeq 259 0 oNone oNone (seqOf s aPmStat) s with pwr := { s.pwr with pwHold := true } }

/-- PWR_WARN_RELEASE_TIMER (R547): admission goes on after a flush that PWR_WARN_n started. -/
def opPwrWarnReleaseTimer (s : State) : State :=
  if !s.pwr.pwHold || !s.part.pwrWarnN || s.pwr.flush then s
  else { s with pwr := { s.pwr with pwHold := false, gpfDone := false }, ports := { s.ports with closed := false } }

/-! ### Calibration records (R565 to R571) -/

/-- The record exists on this variant. -/
def hasRecord (s : State) (n : Nat) : Bool := n < 56 && (isH1 s || 16 ≤ n)

/-- The highest reading near a record's unit (DESIGN CHOICE, log entry 45): an HBM stack's sensor, or those of the quadrant. -/
def unitTemp (s : State) (n : Nat) : Int :=
  if n < 16 then sensor s (12 + n / 4)
  else
    let q := if n < 32 then (n - 16) / 4 else if n < 40 then (n - 32) / 2 else if n < 52 then (n - 40) / 3 else n - 52
    hottest s [2 * q, 2 * q + 1]

/-- The rail that a record's unit stands on (Table 14.2). -/
def unitRail (n : Nat) : Nat := if n < 16 then 3 else if n < 52 then 2 else 0

/-- The Board of a record's unit (Table 06.3). -/
def unitBoard (s : State) (n : Nat) : Nat :=
  if n < 16 then 32 + n else if n < 32 then hostBoard s (n - 16) else if n < 40 then 68 + (n - 32) else 56 + (n - 40)

/-- A record that has become valid for full load is saved, at most once in 10 minutes (R567). The flash keeps when under 64 + n. -/
def saveRecord (n : Nat) (s : State) : State :=
  let now := s.time.ft.toNat
  let soon := match mget s.flash.cal (64 + n) with
    | some t => decide (t.toNat ≤ now) && decide (now < t.toNat + 600000000000)
    | none => false
  if soon then s else { s with flash := { s.flash with cal := mset (mset s.flash.cal n (rd s (aPmCal n))) (64 + n) s.time.ft } }

/-- A record gathered now at a temperature, voltage and load band: valid, and for full load where that is its band. -/
def gather (n temp mv band : Nat) (s : State) : State :=
  let full := if band = 2 then 1 else 0
  let s := wr (aPmCal n) (mkWord [(0, 8, temp), (8, 12, mv), (20, 2, band), (22, 2, 1), (24, 1, full), (32, 32, fld s.time.ft 20 32)]) s
  let s := { s with pwr := { s.pwr with fails := mdel s.pwr.fails n } }
  if band = 2 then saveRecord n s else s

/-- The squares of a Board that retraining takes: a pair in every 64 (R257). -/
def retrainSquares : List Nat := (List.range 8).flatMap fun k => [64 * k, 64 * k + 1]

/-- The squares of the unit of a stale record are written into its Board (R570): TASK 2, under R254. -/
def retrainBoard (n : Nat) (s : State) : State :=
  let b := unitBoard s n
  let qs := retrainSquares.filter fun q => (mget s.pwr.squares (512 * b + q)).isNone && square s b q / 16 % 8 ≠ 2
  let s := { s with pwr := { s.pwr with squares := qs.foldl (fun m q => mset m (512 * b + q) (square s b q)) s.pwr.squares } }
  boardWrite 34 (qs.map fun q => (b, q, (0x20 : Word))) s

/-- The unit of a stale record starts to retrain (R570). -/
def startRetrain (n : Nat) (s : State) : State :=
  let s := fire 267 0 (oVal n) (wrFld (aPmCal n) 25 1 1 s)
  retrainBoard n (if n < 16 then fire (148 + 8 * (n / 4)) 0 (oNum (n / 4)) s else s)

/-- A unit has retrained (R570): its Board's squares are put back, unless another unit of the Board still retrains or they have been rewritten. -/
def endRetrain (n : Nat) (s : State) : State :=
  let b := unitBoard s n
  let s := fire 267 1 (oVal n) (count (aPmCnt 5) 1 (wrFld (aPmCal n) 25 1 0 s))
  let s := if n < 16 then fire (148 + 8 * (n / 4)) 1 (oNum (n / 4)) s else s
  if (List.range 52).any fun m => hasRecord s m && rdBit s (aPmCal m) 25 && unitBoard s m = b then s
  else
    let mine := s.pwr.squares.filter fun e => e.1 / 512 = b
    let still := fun (q : Nat) => square s b q = 0x20 || s.brd.deferred.any fun d => d.board = b && d.square = q && d.entry = 0x20
    let back := (mine.filter fun e => still (e.1 % 512)).map fun e => (b, e.1 % 512, BitVec.ofNat 64 e.2)
    boardWrite 34 back { s with pwr := { s.pwr with squares := s.pwr.squares.filter fun e => e.1 / 512 ≠ b } }

/-- A record becomes stale (R570): a droop record is no longer valid for full load until it is gathered again. -/
def makeStale (s : State) (n : Nat) : State :=
  let a := aPmCal n
  if rdFld s a 22 2 = 0 ∨ rdFld s a 22 2 = 2 then s
  else
    let s := fire 265 0 (oVal n) (wrFld a 22 2 2 s)
    if n < 52 then startRetrain n s else wrFld a 24 1 0 s

/-- A unit stands more than 10 °C from its record. -/
def drifted (s : State) (n : Nat) : Bool :=
  let t := (BitVec.ofNat 8 (rdFld s (aPmCal n) 0 8)).toInt
  hasRecord s n && decide (10 < (unitTemp s n - t).natAbs)

/-- The records that a load-corner verification checks (R569): valid, gathered at a lower band, and not failed three times. -/
def unverified (s : State) : List Nat :=
  (List.range 56).filter fun n => hasRecord s n && rdFld s (aPmCal n) 22 2 = 1 && !rdBit s (aPmCal n) 24 && decide (mgetD 0 s.pwr.fails n < 3)

/-- A verification starts under load above 60 % where a record needs it. -/
def startVerify (s : State) : State :=
  let l := unverified s
  if rdFld s aPmLoad 7 2 ≠ 2 ∨ rdBit s aPmStat 4 = true ∨ l.isEmpty = true then s
  else l.foldl (fun s n => wrFld (aPmCal n) 22 2 3 s) (wrFld aPmStat 4 1 1 s)

/-- A verification is interrupted (R569). -/
def stopVerify (s : State) : State := unverify (wrFld aPmStat 4 1 0 s)

/-- LOAD_BAND_CHANGE (R566, R569): the load in percent. -/
def opLoadBandChange (load : Nat) (s : State) : State :=
  if !awake s then s else
  let band := if load < 30 then 0 else if load ≤ 60 then 1 else 2
  let s := wr aPmLoad (mkWord [(0, 7, satTo 127 load), (7, 2, band)]) s
  if band = 2 then startVerify s else if rdBit s aPmStat 4 then stopVerify s else s

/-- One record's check has passed: it is valid for full load. -/
def passRecord (s : State) (n : Nat) : State := saveRecord n (wrFld (aPmCal n) 24 1 1 (wrFld (aPmCal n) 22 2 1 s))

/-- One record's check has failed: a droop detector is retuned for the next 2 ms, any other record is stale (EV151 + 8s for HBM). -/
def failRecord (s : State) (n : Nat) : State :=
  if n < 52 then
    let s := if n < 16 then fire (151 + 8 * (n / 4)) 0 (oVal n) s else s
    makeStale s n
  else wrFld (aPmCal n) 22 2 1 { s with pwr := { s.pwr with fails := mset s.pwr.fails n (mgetD 0 s.pwr.fails n + 1) } }

/-- LOAD_VERIFICATION_END (R569). -/
def opLoadVerificationEnd (failed : List (Fin 56)) (s : State) : State :=
  if !awake s || !rdBit s aPmStat 4 then s
  else
    let l := (List.range 56).filter fun n => hasRecord s n && rdFld s (aPmCal n) 22 2 = 3
    let bad := l.filter fun n => failed.any fun x => x.val = n
    let s := wrFld aPmStat 4 1 0 s
    let s := (l.filter fun n => n ∉ bad).foldl passRecord s
    let s := bad.foldl failRecord s
    match bad with
    | [] => startVerify (fireSeq 266 0 oNone oNone (seqOf s aPmStat) s)
    | n :: _ => startVerify (fireSeq 266 1 (oVal n) oNone (seqOf s aPmStat) (count (aPmCnt 4) 1 s))

/-- RETRAINING_END (R570): `params` holds TEMP and MV as PM_CAL does. -/
def opRetrainingEnd (record : Fin 56) (params : BitVec 32) (s : State) : State :=
  let n := record.val
  if !awake s || decide (52 ≤ n) || !rdBit s (aPmCal n) 25 then s
  else startVerify (endRetrain n (gather n (params.toNat % 256) (params.toNat / 256 % 4096) (rdFld s aPmLoad 7 2) s))

/-- DROOP_REGATHER_DONE (R570). -/
def opDroopRegatherDone (record : Fin 56) (params : BitVec 32) (s : State) : State :=
  let n := record.val
  if !awake s || decide (n < 52) || rdFld s (aPmCal n) 22 2 ≠ 2 then s
  else startVerify (gather n (params.toNat % 256) (params.toNat / 256 % 4096) (rdFld s aPmLoad 7 2) s)

/-! ### Temperature (R548 to R551) -/

/-- A thermal step of PM_STAT is entered at its level, or left below the level minus HYST (Table 14.4, R549). -/
def thermStep (b lo src cnt : Nat) (s : State) : State :=
  let level : Int := rdFld s aPmTherm lo 8
  let hyst : Int := rdFld s aPmTherm 24 4
  let old := rd s aPmStat
  if !bit old b && decide (level ≤ tj s) then
    let s := rsq aPmStat 6 (wrFld aPmStat b 1 1 (if b = 2 then easeFrom s else s))
    let s := fireSeq src 0 oNone oNone (seqOf s aPmStat) (count (aPmCnt cnt) 1 s)
    tallyAuto 35 aPmStat src old (rd s aPmStat) oNone s
  else if bit old b && decide (tj s < level - hyst) then
    let s := wrFld aPmStat b 1 0 s
    let s := fireSeq src 1 oNone oNone (seqOf s aPmStat) s
    tallyAuto 35 aPmStat src old (rd s aPmStat) oNone s
  else s

/-- The warning level (Table 14.4): EV260 where Tj reaches it. -/
def thermWarn (s : State) : State :=
  let level : Int := rdFld s aPmTherm 0 8
  let hyst : Int := rdFld s aPmTherm 24 4
  let put := fun (b : Bool) (s : State) => { s with pwr := { s.pwr with warned := b } }
  if !s.pwr.warned && decide (level ≤ tj s) then put true (fireSeq 260 0 oNone oNone (seqOf s aPmStat) s)
  else if s.pwr.warned && decide (tj s < level - hyst) then put false s else s

/-- The refresh rate of stack `k` (R551). -/
def refreshStep (s : State) (k : Nat) : State :=
  let t := sensor s (12 + k)
  let r := s.pwr.refresh
  if k ∉ r ∧ 85 < t then fire (150 + 8 * k) 0 (oNum k) { s with pwr := { s.pwr with refresh := r ++ [k] } }
  else if k ∈ r ∧ t < 82 then fire (150 + 8 * k) 1 (oNum k) { s with pwr := { s.pwr with refresh := r.filter (· ≠ k) } }
  else s

/-- The readings in PM_TEMP0 and PM_TEMP1; those of absent stacks read zero. -/
def setTemps (t : Vector (BitVec 8) 16) (s : State) : State :=
  let v := fun (k : Nat) => if isH1 s ∨ k < 12 then (t.toList.getD k 0).toNat else 0
  let w := fun (j : Nat) => mkWord ((List.range 8).map fun k => (8 * k, 8, v (8 * j + k)))
  wr (aPmTemp 1) (w 1) (wr (aPmTemp 0) (w 0) s)

/-- TEMP_SENSOR_READ (R548 to R551, R570): at 115 °C a cold reset with THERMTRIP_n. -/
def opTempSensorRead (temps : Vector (BitVec 8) 16) (s : State) : State :=
  let s := setTemps temps s
  if s.part.phase = .held then s
  else if 115 ≤ tj s then setTemps temps (coldReset 2 true { s with part := { s.part with thermtripN := false } })
  else if !awake s then s
  else
    let s := thermStep 2 16 262 3 (thermStep 1 8 261 2 (thermWarn s))
    let s := if isH1 s then (List.range 4).foldl refreshStep s else s
    ((List.range 56).filter (drifted s)).foldl makeStale s

/-! ### Dormant stacks (R563) -/

/-- A stack has accesses queued. -/
def stackBusy (s : State) (k : Nat) : Bool := s.hc.hbm.any fun e => e.1 % 4 = k && !e.2.isEmpty

/-- DORMANT_ENTRY (R563). -/
def opDormantEntry (stack : Fin 4) (s : State) : State :=
  let k := stack.val
  if !isH1 s || !rdBit s aPmDorm k || rdBit s aPmDorm (16 + k) || stackBusy s k then s
  else fire (149 + 8 * k) 0 (oNum k) (wrFld aPmDorm (16 + k) 1 1 s)

/-- DORMANT_EXIT (R563). -/
def opDormantExit (stack : Fin 4) (s : State) : State :=
  let k := stack.val
  if !isH1 s || !rdBit s aPmDorm (16 + k) then s
  else fire (149 + 8 * k) 1 (oNum k) (count (aPmCnt 6) 1 (wrFld aPmDorm (16 + k) 1 0 s))

/-! ### Restarts of Pelest (R488, R494, R558) -/

/-- Pelest restarts: foreground commands end with Retry Required, background commands that Pelest runs itself with Aborted, and unlocks are
cleared (R478, R488). -/
def pelestRestart (s : State) : State :=
  let s := fire 281 0 oNone (wrFld aGlStat 3 1 1 s)
  let s := (List.range 16).foldl (endForeground 5) { s with ctl := { s.ctl with unlocks := [], parts := [] } }
  let own := s.ctl.bg.filter fun e => e.2.opc = 0xC010 || e.2.opc = 0x0201 || e.2.opc = 0xC201
  own.foldl (fun s e => bgEndOn e.1 e.2 0x12 s) s

/-- PELEST_WATCHDOG (R558). -/
def opPelestWatchdog (s : State) : State :=
  match s.part.phase with
  | .held | .noImage => s
  | _ => if pelestUp s then pelestRestart s else s

/-- The end of a firmware activation on whichever mailbox asked for it. -/
def activationEnds (rc : Nat) (s : State) : State :=
  match s.ctl.bg.find? fun e => e.2.opc = 0xC011 || e.2.opc = 0x0202 with
  | some e => bgEndOn e.1 e.2 rc s
  | none => s

/-- PELEST_READY (R488, R494): mailboxes are served again; an image under activation takes over. -/
def opPelestReady (s : State) : State :=
  if !rdBit s aGlStat 3 || s.pwr.mgmtLost then s
  else
    let s := fire 281 1 oNone (wrFld aGlStat 3 1 0 s)
    match s.ctl.act with
    | none => s
    | some old =>
      let s := { s with flash := { s.flash with actB := !old }, ctl := { s.ctl with act := none } }
      let s := tallyAuto 34 aGlFw 280 (BitVec.ofNat 64 old.toNat) (BitVec.ofNat 64 (!old).toNat) oNone (fire 280 1 oNone s)
      activationEnds 0 s

/-- FW_ACTIVATE_TIMEOUT (R494): Pelest restarts from the previous image. -/
def opFwActivateTimeout (s : State) : State :=
  if s.ctl.act.isNone || !rdBit s aGlStat 3 then s
  else activationEnds 0xC (fire 280 2 oNone { s with ctl := { s.ctl with act := none } })

/-! ### Clocks (R38, R552, Table 14.5) -/

/-- What the loss of a domain of Table 01.10 leads to; cold resets are the caller's. -/
def clockAct (d : Nat) (s : State) : State :=
  if d < 16 then hostRecovery d s
  else if d < 32 then hostLinkDown (d - 16) s
  else if d < 48 then cellarRecovery ((d - 32) % 8) s
  else if d < 60 then retrain (d - 48) false s
  else if d < 72 then (if linkState s (d - 60) = 0 then s else failPort (d - 60) s)
  else if d < 88 ∨ (89 ≤ d ∧ d < 93) ∨ d = 94 then (if running s then damageReset 5 263 (oVal d) s else s)
  else if d = 93 ∨ d = 98 then { s with pwr := { s.pwr with mgmtLost := true } }
  else if d = 95 then { s with pwr := { s.pwr with altClk := true } }
  else s

/-- CLOCK_LOSS (R552): EV263 and the consequence, for the core's and the monitor's clock a cold reset. The HBM PHY domains are reserved on QD48-C1
(R38). -/
def opClockLoss (domain : Fin 100) (s : State) : State :=
  let d := domain.val
  if s.part.phase = .held then s
  else if d = 88 ∨ d = 99 then coldReset 3 true (if awake s then fire 263 0 (oVal d) s else s)
  else if !awake s || (!isH1 s && decide (72 ≤ d) && decide (d < 88)) then s
  else clockAct d (fire 263 0 (oVal d) s)

/-- TIME_REF_RESTORE (R552). -/
def opTimeRefRestore (s : State) : State := { s with pwr := { s.pwr with altClk := false } }

/-- MANAGEMENT_CLOCK_RETURN (R552). -/
def opManagementClockReturn (s : State) : State :=
  if !s.pwr.mgmtLost then s else pelestRestart { s with pwr := { s.pwr with mgmtLost := false } }

/-! ### Firmware staging (R492, R493) -/

/-- One part of an image written to the inactive slot: the return code. The first part starts at offset 0 and makes the slot invalid; the last
verifies the image. A part out of order is Out of Order and changes nothing. -/
def stagePart (part : FwPart) (s : State) : Nat × State :=
  let put := fun (i : Option Image) (st : Option Nat) =>
    let f := if s.flash.actB then { s.flash with slotA := i } else { s.flash with slotB := i }
    { s with flash := f, ctl := { s.ctl with staged := st } }
  let inOrder := part.offset = 0 || s.ctl.staged.any fun n => n < part.offset
  if !inOrder then (9, s)
  else if !part.last then (0, put none (some part.offset))
  else if part.verifies && decide (s.flash.minsv ≤ part.svn.toNat) then (0, put (some ⟨part.version, part.svn⟩) none)
  else (0xA, put none none)

/-- BOOT_RECOVERY_STAGE (R493): the boot ROM stages an image, makes it active when it verifies, and the cold reset goes on. -/
def opBootRecoveryStage (part : FwPart) (s : State) : State :=
  if s.part.phase ≠ .noImage ∨ s.halted.isSome then s
  else
    let x := stagePart part s
    let s := emit (.mailbox 16 x.1 []) x.2
    if part.last && x.1 = 0 then
      bootWith { s with flash := { s.flash with actB := !s.flash.actB }, pwr := { s.pwr with recovered := true } }
    else s

/-! ### The end of a cold reset (R410, R448, R452, R297, R553, R567) -/

/-- One Lumber entry applied to the zeroed arrays (R410): frames and ways get RET, pseudo-channels their spare or retirement. Rows, banks and pages
are remapped by the list itself. -/
def applyLumber (s : State) (e : Word × Word) : State :=
  let k := fld e.1 0 4
  let loc := fld e.1 8 36
  if k = 0 ∨ k = 5 then
    let w := (locWay s loc).1
    setWay w { getWay s w with ret := true } s
  else if k = 1 then
    if rdBit s aHcPcmap (6 * (loc % 4) + 5) then { s with hc := { s.hc with retPcs := s.hc.retPcs ++ [loc] } }
    else wrFld aHcPcmap (6 * (loc % 4)) 6 (32 + loc / 4) s
  else s

/-- A key slot restored (R452): LOADED with a persisted key, else EMPTY at its generation. -/
def restoreSlot (s : State) (e : Nat × Word) : State :=
  match mget s.flash.keys e.1 with
  | some k => wr (aSlKs e.1) e.2 { s with sl := { s.sl with keys := mset s.sl.keys e.1 k } }
  | none => wr (aSlKs e.1) (mkWord [(2, 8, fld e.2 2 8)]) s

/-- R297: the dirty shutdown count raised where the last shutdown was dirty or an expander's count has risen; counts recorded, and the state clean. -/
def countShutdown (s : State) : State :=
  let f := s.flash
  let ds := (List.range 8).filter fun d => rdBit s (aDpStat d) 8
  let rose := ds.any fun d => match mget f.expDsc d with
    | some n => decide (n < rdFld s (aDpDsc d) 0 32)
    | none => false
  let n := if f.dirty || rose then satTo (2 ^ 32 - 1) (f.dsc + 1) else f.dsc
  let rec' := ds.foldl (fun m d => mset m d (rdFld s (aDpDsc d) 0 32)) f.expDsc
  tallyAuto 34 0 0 (BitVec.ofNat 64 f.dsc) (BitVec.ofNat 64 n) oNone { s with flash := { f with dirty := false, dsc := n, expDsc := rec' } }

/-- The temperature of a record's unit as PM_CAL holds it. -/
def tempByte (s : State) (n : Nat) : Nat := (BitVec.ofInt 8 (unitTemp s n)).toNat

/-- Calibration at a cold reset (R567): HBM and SerDes trained in full, light band; a droop record from the flash if it is valid for full load and
its temperature near, else gathered. -/
def calibrate (s : State) (n : Nat) : State :=
  if !hasRecord s n then s
  else
    let fresh := gather n (tempByte s n) (rdFld s (aPmRail (unitRail n)) 16 16) 0 s
    if n < 52 then fresh
    else match mget s.flash.cal n with
      | some w =>
        let near := (unitTemp s n - (BitVec.ofNat 8 (fld w 0 8)).toInt).natAbs
        if bit w 24 && decide (near ≤ 10) then wr (aPmCal n) (setFld (setFld w 22 2 1) 25 1 0) s else fresh
      | none => fresh

/-- WARM_RESET_READY (R554): ready again, once PERST_n no longer holds a warm reset. A unit whose retraining the reset met goes on with it, in squares written
anew, since the reset has returned the Boards (Table 14.9). -/
def opWarmResetReady (s : State) : State :=
  match s.part.phase with
  | .resetting hub =>
    if s.halted.isSome || (!hub && !s.part.perstN) then s
    else
      let s := { s with part := { s.part with phase := .ready } }
      let s := fire 264 hub.toNat oNone (count (aPmCnt 7) 1 s)
      ((List.range 52).filter fun n => hasRecord s n && rdBit s (aPmCal n) 25).foldl (fun s n => retrainBoard n s) s
  | _ => s

/-- The guard band in which the device leaves a cold reset (R567, R568), with its budgets. -/
def firstGuard (s : State) : State :=
  if wantsGuard s then budgetBoards.foldl (fun s b => recompute b s) (wrFld aPmStat 3 1 1 s) else s

/-- COLD_RESET_READY (R553, Table 14.7). The enabled host ports' links have trained (DESIGN CHOICE, log entry 43). -/
def opColdResetReady (s : State) : State :=
  if s.part.phase ≠ .cold ∨ s.halted.isSome then s
  else
    let s := s.flash.lumber.foldl applyLumber s
    let s := restoreRoot (s.flash.slots.foldl restoreSlot s)
    let s := countShutdown s
    let s := firstGuard ((List.range 56).foldl calibrate s)
    let s := if isH1 s then (List.range 4).foldl (fun s k => fire (148 + 8 * k) 1 (oNum k) (fire (148 + 8 * k) 0 (oNum k) s)) s else s
    let s := if rdFld s aPmLastc 0 3 = 0 then s else fire 258 0 oNone s
    let s := if s.pwr.recovered then tallyAuto 34 aGlFw 0 0 (BitVec.ofNat 64 s.flash.actB.toNat) oNone s else s
    let s := { s with part := { s.part with phase := .ready }, pwr := { s.pwr with recovered := false } }
    ((List.range 16).filter (inService s)).foldl (fun s p => setHostLink p 3 (trainHost p ⟨3, 4, true⟩ s)) s

end Sys2Proof.Machine
end

