-- ==== Sys2Proof/Machine/Mailboxes.lean ====
section
/-! DEFINITION. The mailbox commands (12 R484 to R503; Tables 12.9, 12.10) and the fabric mailbox's messages. Output words that CXL 3.1 lays out and this
manual does not are free values (Config.cxlAnswer); where the manual names what an answer holds, the output is those values, a word each (DESIGN
CHOICE, log entry 46). -/

namespace Sys2Proof.Machine

/-! ### Shared actions -/

/-- An answer whose contents CXL 3.1 alone defines. -/
def stdAnswer (s : State) : Ans × State :=
  let x := drawFree s
  (.done (Config.cxlAnswer x.1), x.2)

/-- A command that only reads. -/
def mbRead (mb : Mailbox) (tag : BitVec 16) (opc : Nat) (f : State → Ans × State) (s : State) : State := mbRun mb tag opc 0 false false f s

/-- A background command that ends in the cycle in which it starts, with a return code. -/
def mbOnce (mb : Mailbox) (tag : BitVec 16) (opc grp rc : Nat) (f : State → Ans × State) (s : State) : State :=
  let busy := (mget s.ctl.bg mb.val).isSome
  let s := mbRun mb tag opc grp true true f s
  if busy then s
  else match mget s.ctl.bg mb.val with
    | some b => bgEndOn mb b rc s
    | none => s

/-! ### Standard commands (Table 12.9) -/

/-- IDENTIFY. -/
def opIdentify (mb : Mailbox) (tag : BitVec 16) (s : State) : State := mbRead mb tag 0x0001 stdAnswer s

/-- BACKGROUND_OPERATION_STATUS: MB_BGST. -/
def opBackgroundOperationStatus (mb : Mailbox) (tag : BitVec 16) (s : State) : State :=
  mbRead mb tag 0x0002 (fun s => (.done [bgStat s mb], s)) s

/-- GET_EVENT_RECORDS (R513): how many records the log holds and whether it has overflowed, then each record's handle and words 0 to 3. -/
def opGetEventRecords (mb : Mailbox) (tag : BitVec 16) (log : Fin 4) (s : State) : State :=
  let k := 4 * mb.val + log.val
  let l := mgetD [] s.ev.logs k
  let out := mkWord [(0, 16, l.length), (16, 1, (decide (k ∈ s.ev.logOvf)).toNat)] :: l.flatMap fun r => BitVec.ofNat 64 r.handle :: r.words
  mbRead mb tag 0x0100 (fun s => (.done out, s)) s

/-- CLEAR_EVENT_RECORDS (R513): every record of the log, or those named. -/
def opClearEventRecords (mb : Mailbox) (tag : BitVec 16) (log : Fin 4) (all : Bool) (handles : List Nat) (s : State) : State :=
  let k := 4 * mb.val + log.val
  let act := fun (s : State) =>
    let l := mgetD [] s.ev.logs k
    if !all && handles.any (fun h => !(l.any fun r => r.handle = h)) then (Ans.code 0xE, s)
    else (Ans.done [], { s with ev := { s.ev with logs := mput [] s.ev.logs k (l.filter fun r => !(all || decide (r.handle ∈ handles))),
                                                  logOvf := s.ev.logOvf.filter (· ≠ k) } })
  mbRun mb tag 0x0101 0 true false act s

/-- GET_EVENT_INTERRUPT_POLICY. -/
def opGetEventInterruptPolicy (mb : Mailbox) (tag : BitVec 16) (s : State) : State :=
  mbRead mb tag 0x0102 (fun s => (.done [(head s mb).policy], s)) s

/-- SET_EVENT_INTERRUPT_POLICY. -/
def opSetEventInterruptPolicy (mb : Mailbox) (tag : BitVec 16) (v : Word) (s : State) : State :=
  mbRun mb tag 0x0103 0 true false (fun s => (.done [], setHead mb { head s mb with policy := v } s)) s

/-- GET_FW_INFO: the two slots and their versions, as GL_FW shows them. -/
def opGetFwInfo (mb : Mailbox) (tag : BitVec 16) (s : State) : State := mbRead mb tag 0x0200 (fun s => (.done [glFw s], s)) s

/-- GET_TIMESTAMP: FT with the head's offset. -/
def opGetTimestamp (mb : Mailbox) (tag : BitVec 16) (s : State) : State :=
  mbRead mb tag 0x0300 (fun s => (.done [s.time.ft + (head s mb).tsOff], s)) s

/-- SET_TIMESTAMP: the head's offset; FT is never changed. -/
def opSetTimestamp (mb : Mailbox) (tag : BitVec 16) (t : Word) (s : State) : State :=
  mbRun mb tag 0x0301 4 true false (fun s => (.done [], setHead mb { head s mb with tsOff := t - s.time.ft } s)) s

/-- GET_SUPPORTED_LOGS. -/
def opGetSupportedLogs (mb : Mailbox) (tag : BitVec 16) (s : State) : State := mbRead mb tag 0x0400 stdAnswer s

/-- GET_LOG. -/
def opGetLog (mb : Mailbox) (tag : BitVec 16) (s : State) : State := mbRead mb tag 0x0401 stdAnswer s

/-- The size of a window in bytes, 0 where it is not valid (Table 02.2). -/
def windowSize (s : State) (p n : Nat) : Nat :=
  if rdBit s (aHpWin p n) 0 then 2 ^ rdFld s (aHpWin p n) 8 6 else 0

/-- IDENTIFY_MEMORY_DEVICE (R363): the sum of the port's valid windows, volatile or persistent. -/
def opIdentifyMemoryDevice (mb : Mailbox) (tag : BitVec 16) (s : State) : State :=
  let cap := if mb.val < 16 then (List.range 256).foldl (fun n k => n + windowSize s mb k) 0 else 0
  let p := decide (mb.val < 16) && rdBit s (aHpCtl mb) 4
  let w := fun (n : Nat) => BitVec.ofNat 64 n
  mbRead mb tag 0x4000 (fun s => (.done [w cap, w (if p then 0 else cap), w (if p then cap else 0)], s)) s

/-- GET_HEALTH_INFO. -/
def opGetHealthInfo (mb : Mailbox) (tag : BitVec 16) (s : State) : State := mbRead mb tag 0x4200 stdAnswer s

/-- GET_ALERT_CONFIG. -/
def opGetAlertConfig (mb : Mailbox) (tag : BitVec 16) (s : State) : State :=
  mbRead mb tag 0x4201 (fun s => (.done [(head s mb).alertCfg], s)) s

/-- SET_ALERT_CONFIG. -/
def opSetAlertConfig (mb : Mailbox) (tag : BitVec 16) (v : Word) (s : State) : State :=
  mbRun mb tag 0x4202 0 true false (fun s => (.done [], setHead mb { head s mb with alertCfg := v } s)) s

/-- GET_SHUTDOWN_STATE (R296): the state and the dirty shutdown count. -/
def opGetShutdownState (mb : Mailbox) (tag : BitVec 16) (s : State) : State :=
  mbRead mb tag 0x4203 (fun s => (.done [BitVec.ofNat 64 s.flash.dirty.toNat, BitVec.ofNat 64 s.flash.dsc], s)) s

/-- Every live host in host mode has last set the shutdown state clean (R296). -/
def allClean (s : State) : Bool :=
  (List.range 16).all fun p => !(inService s p && hostMode s p && !hostDead s p) || (head s p).clean

/-- SET_SHUTDOWN_STATE (R296). -/
def opSetShutdownState (mb : Mailbox) (tag : BitVec 16) (dirty : Bool) (s : State) : State :=
  let act := fun (s : State) =>
    let s := setHead mb { head s mb with clean := !dirty } s
    let d := if dirty then true else if allClean s then false else s.flash.dirty
    (Ans.done [], { s with flash := { s.flash with dirty := d } })
  mbRun mb tag 0x4204 0 true false act s

/-- The own lines that the correction logs of the cellar ports report as poisoned. -/
def poisonLines (s : State) : List Word :=
  (List.range 8).flatMap fun d => (List.range 64).filterMap fun i =>
    let e := rd s (aEcLog (8 + d) i)
    if bit e 63 && fld e 48 4 = 0 && fld e 52 3 = 3 then some (BitVec.ofNat 64 (fld e 0 48)) else none

/-- GET_POISON_LIST. -/
def opGetPoisonList (mb : Mailbox) (tag : BitVec 16) (s : State) : State := mbRead mb tag 0x4300 (fun s => (.done (poisonLines s), s)) s

/-- The opcodes of Tables 12.9 and 12.10. -/
def knownOpcodes : List Nat :=
  [0x0001, 0x0002, 0x0100, 0x0101, 0x0102, 0x0103, 0x0200, 0x0201, 0x0202, 0x0300, 0x0301, 0x0400, 0x0401, 0x4000, 0x4200, 0x4201, 0x4202, 0x4203,
   0x4204, 0x4300, 0xC000, 0xC001, 0xC002, 0xC003, 0xC004, 0xC010, 0xC011, 0xC012, 0xC020, 0xC021, 0xC030, 0xC040, 0xC100, 0xC101, 0xC102, 0xC103,
   0xC104, 0xC200, 0xC201, 0xC202, 0xC203, 0xC300, 0xC301, 0xC302, 0xC303, 0xC304, 0xC305]

/-- UNSUPPORTED_COMMAND (R490): any other opcode. -/
def opUnsupportedCommand (mb : Mailbox) (tag opcode : BitVec 16) (s : State) : State :=
  if opcode.toNat ∈ knownOpcodes then s else mbRun mb tag opcode.toNat 0 false false (fun s => (.code 3, s)) s

/-! ### Information, registers, reset and firmware (groups 0 to 2) -/

/-- PELEST_INFO. -/
def opPelestInfo (mb : Mailbox) (tag : BitVec 16) (s : State) : State :=
  mbRead mb tag 0xC000 (fun s => (.done [now s (mbOrigin mb) aGlId, s.part.serial, glFw s, BitVec.ofNat 64 s.flash.boots], s)) s

/-- REG_READ (R469): 1 to 255 aligned words. -/
def opRegRead (mb : Mailbox) (tag : BitVec 16) (a : BitVec 24) (n : Nat) (s : State) : State :=
  let o := mbOrigin mb
  mbRead mb tag 0xC001 (fun s =>
    if n = 0 ∨ 255 < n ∨ a.toNat % 8 ≠ 0 then (.refused, s)
    else (.done ((List.range n).map fun k => readReg s o (a.toNat + 8 * k)), s)) s

/-- The pairs of a REG_WRITE, in order, with each result. -/
def writePairs (o : Nat) : List (BitVec 24 × Word) → State → List Word × State
  | [], s => ([], s)
  | (a, v) :: t, s =>
    let s := writeBytes o a.toNat 8 v.toNat s
    let r := lastRes s o
    let x := writePairs o t s
    (BitVec.ofNat 64 r :: x.1, x.2)

/-- REG_WRITE (R469): up to 127 pairs. -/
def opRegWrite (mb : Mailbox) (tag : BitVec 16) (pairs : List (BitVec 24 × Word)) (s : State) : State :=
  mbRun mb tag 0xC002 1 true false (fun s =>
    if 127 < pairs.length then (.refused, s)
    else
      let x := writePairs (mbOrigin mb) pairs s
      (.done x.1, x.2)) s

/-- HUB_RESET (R290, R554): admission stops and the flush starts; in a flush that runs, the reset shares it (R559). -/
def opHubReset (mb : Mailbox) (tag : BitVec 16) (s : State) : State :=
  mbRun mb tag 0xC003 2 true true (fun s => (.started 0, flushGo (beginReset true 2 { s with cel := { s.cel with lost := false } }))) s

/-- PELEST_RESTART (R488). -/
def opPelestRestart (mb : Mailbox) (tag : BitVec 16) (s : State) : State :=
  mbRun mb tag 0xC004 2 true false (fun s => (.done [], pelestRestart s)) s

/-- An activation is pending or under way. -/
def actPending (s : State) : Bool := s.flash.pend || s.ctl.act.isSome

/-- A staging command (R492): refused while an activation is pending; on I3C with no image the boot ROM serves it (R493). -/
def stageOn (mb : Mailbox) (tag : BitVec 16) (opc : Nat) (part : FwPart) (s : State) : State :=
  mbOnce mb tag opc 2 (stagePart part s).1 (fun s => if actPending s then (.refused, s) else (.started 0, (stagePart part s).2)) s

/-- TRANSFER_FW. -/
def opTransferFw (mb : Mailbox) (tag : BitVec 16) (part : FwPart) (s : State) : State := stageOn mb tag 0x0201 part s

/-- FW_STAGE (R492, R493). -/
def opFwStage (mb : Mailbox) (tag : BitVec 16) (part : FwPart) (s : State) : State :=
  if mb.val = 16 ∧ s.part.phase = .noImage then opBootRecoveryStage part s else stageOn mb tag 0xC010 part s

/-- The inactive slot holds an image that may run. -/
def stagedReady (s : State) : Bool := mayBoot s.flash (!s.flash.actB) && !actPending s

/-- An online activation (R494): Pelest restarts from the staged slot. -/
def activateOn (mb : Mailbox) (tag : BitVec 16) (opc : Nat) (s : State) : State :=
  mbRun mb tag opc 2 true true (fun s =>
    if !stagedReady s then (.refused, s)
    else (.started 0, pelestRestart { s with ctl := { s.ctl with act := some s.flash.actB } })) s

/-- An offline activation (R494): the staged slot becomes active at the next cold reset. -/
def activateLater (mb : Mailbox) (tag : BitVec 16) (opc : Nat) (s : State) : State :=
  mbOnce mb tag opc 2 0 (fun s => if !stagedReady s then (.refused, s) else (.started 0, { s with flash := { s.flash with pend := true } })) s

/-- FW_ACTIVATE. -/
def opFwActivate (mb : Mailbox) (tag : BitVec 16) (s : State) : State := activateOn mb tag 0xC011 s

/-- FW_ACTIVATE with the offline flag. -/
def opFwActivateOffline (mb : Mailbox) (tag : BitVec 16) (s : State) : State := activateLater mb tag 0xC011 s

/-- ACTIVATE_FW. -/
def opActivateFw (mb : Mailbox) (tag : BitVec 16) (online : Bool) (s : State) : State :=
  if online then activateOn mb tag 0x0202 s else activateLater mb tag 0x0202 s

/-- FW_COMMIT (R496). -/
def opFwCommit (mb : Mailbox) (tag : BitVec 16) (s : State) : State :=
  mbRun mb tag 0xC012 2 true false (fun s =>
    if actPending s then (.refused, s)
    else
      let svn := ((if s.flash.actB then s.flash.slotB else s.flash.slotA).map fun i => i.svn.toNat).getD 0
      (.done [], { s with flash := { s.flash with minsv := max s.flash.minsv svn } })) s

/-! ### The Tally, time and Boards (groups 3 and 4) -/

/-- The words of an exported record. -/
def recWordsOf (r : BitVec 512) : List Word := (List.range 8).map fun k => BitVec.ofNat 64 (r.toNat >>> (64 * k))

/-- How many records of a run verify, in order, before the first that fails (R501). -/
def verified (key : BitVec 256) : Word → List (BitVec 512) → Nat
  | _, [] => 0
  | prev, r :: t =>
    let ws := recWordsOf r
    let prev := if fld (ws.getD 1 0) 38 4 = 3 then 0 else prev
    let mac := ws.getD 7 0
    if Config.cmac key (ws.take 7 ++ [prev]) = mac then verified key mac t + 1 else 0

/-- TALLY_VERIFY (R501): up to 31 records. -/
def opTallyVerify (mb : Mailbox) (tag : BitVec 16) (boot : BitVec 32) (mac : Word) (recs : List (BitVec 512)) (s : State) : State :=
  mbRun mb tag 0xC020 3 false false (fun s =>
    if 31 < recs.length then (.refused, s) else (.done [BitVec.ofNat 64 (verified (Config.tallyKey boot) mac recs)], s)) s

/-- TALLY_CHECKPOINT (R503). -/
def opTallyCheckpoint (mb : Mailbox) (tag : BitVec 16) (s : State) : State :=
  mbRun mb tag 0xC021 3 true false (fun s => (.done [], checkpoint s)) s

/-- The hubs of the fabric that have not armed within 1 ms (R482). The manual names no message that arms another hub: which hubs they are is a free
value (log entry 47). -/
def unarmed : List HubId → State → List Word × State
  | [], s => ([], s)
  | h :: t, s =>
    let x := drawFree s
    let y := unarmed t x.2
    (if (Config.freeWord x.1).toNat % 2 = 1 then BitVec.ofNat 64 h.toNat :: y.1 else y.1, y.2)

/-- SNAPSHOT_AT (R482): refused with Busy while a snapshot is armed. -/
def opSnapshotAt (mb : Mailbox) (tag : BitVec 16) (t : Word) (fabric : Bool) (s : State) : State :=
  mbRun mb tag 0xC030 4 true false (fun s =>
    if rdBit s aGlSnapst 0 then (.code 6, s)
    else
      let s := schedule t .snapshot (wr aGlSnapat t (wrFld aGlSnapst 0 1 1 s))
      if !fabric then (.done [], s)
      else
        let x := unarmed (liveHubs s) s
        (.done x.1, x.2)) s

/-- BOARD_WRITE (R490): up to 240 triples, at once or at an FT value, by Pelest (log entry 87). -/
def opBoardWrite (mb : Mailbox) (tag : BitVec 16) (triples : List (Nat × Nat × Word)) (at_ : Option Word) (s : State) : State :=
  mbRun mb tag 0xC040 4 true false (fun s =>
    if 240 < triples.length then (.refused, s)
    else match at_ with
      | none => (.done [], boardWrite 34 triples s)
      | some t => (.done [], schedule t (.board triples 34) s)) s

/-! ### Keys and sealing (group 5) -/

/-- The command came inside an SPDM secured session, over a head's DOE or over MCTP (R452). -/
def inSession (s : State) (mb : Nat) : Bool := if mb < 16 then (head s mb).session else decide (mb = 16) && s.ctl.session

/-- KEY_LOAD (R452): an EMPTY slot takes a generated key, or one supplied inside a secured session. -/
def opKeyLoad (mb : Mailbox) (tag : BitVec 16) (slot : BitVec 10) (key : Option (BitVec 256)) (persist : Bool) (s : State) : State :=
  let n := slot.toNat
  let a := aSlKs n
  mbRun mb tag 0xC100 5 true false (fun s =>
    if rdFld s a 0 2 ≠ 0 ∨ (key.isSome && !inSession s mb) = true then (.refused, s)
    else
      let x := drawFree s
      let k := key.getD (Config.entropy x.1)
      let s := if key.isSome then s else x.2
      let w := mkWord [(0, 2, 1), (2, 8, rdFld s a 2 8), (10, 1, persist.toNat), (11, 1, key.isSome.toNat)]
      let f := if persist then { s.flash with keys := mset s.flash.keys n k, slots := mset s.flash.slots n w } else s.flash
      (.done [], fire 229 0 (oKey n) (wr a w { s with sl := { s.sl with keys := mset s.sl.keys n k }, flash := f }))) s

/-- A KEY_RETIRE that R455 refuses, but for another retirement that runs. -/
def retireRefused (s : State) (n : Nat) : Bool :=
  let a := aSlKs n
  let gen := if rdFld s a 2 8 = 255 then 1 else rdFld s a 2 8 + 1
  let c := rd s aSlRkctl
  rdFld s a 0 2 ≠ 1 || (bit c 31 && (fld c 12 10 = n || rdFld s (aSlKrt (fld c 0 12)) 3 10 = n)) ||
    ((List.range 8).any fun i => rdBit s (aFbMir i) 0 && rdFld s (aFbMir i + 8) 16 10 = n) ||
    ((krtValid s).any fun e => fld e.2.1 3 10 = n && fld e.2.1 13 8 = gen)

/-- KEY_RETIRE (R453, R455, R486): while another retirement runs, Busy. -/
def opKeyRetire (mb : Mailbox) (tag : BitVec 16) (slot : BitVec 10) (s : State) : State :=
  let n := slot.toNat
  mbRun mb tag 0xC101 5 true true (fun s =>
    if rdBit s aSlStat 2 then (.code 6, s)
    else if retireRefused s n then (.refused, s)
    else
      let s := wrFld aSlStat 2 11 (1 + 2 * n) (wrFld (aSlKs n) 0 2 2 s)
      (.started n, { s with bg := s.bg ++ [⟨.keyRetire, 0, 0, n, false⟩] })) s

/-- LINK_KEY (R459), inside a secured session. -/
def opLinkKey (mb : Mailbox) (tag : BitVec 16) (p : IPort) (key : BitVec 256) (s : State) : State :=
  mbRun mb tag 0xC102 5 true false (fun s => if inSession s mb then (.done [], loadLinkKey p key s) else (.refused, s)) s

/-- A new tree key from the entropy source. -/
def newTree (s : State) : State :=
  let x := drawFree s
  { x.2 with sl := { x.2.sl with tree := Config.entropy x.1, cache := [], order := [], pins := [], struck := [] } }

/-- SEAL_INIT (R449), on an UNROOTED home. -/
def opSealInit (mb : Mailbox) (tag : BitVec 16) (s : State) : State :=
  mbRun mb tag 0xC103 5 true false (fun s =>
    if rdFld s aSlStat 0 2 ≠ 0 then (.refused, s)
    else
      let s := (List.range 8).foldl (fun s k => wr (aSlRoot k) 0 s) (newTree s)
      (.done [], fire 237 0 oNone (wrFld aSlStat 0 2 2 (wr aSlMajsrc 1 s)))) s

/-- SEAL_REBUILD (R450), on an UNROOTED home: REBUILDING, with EV233. -/
def opSealRebuild (mb : Mailbox) (tag : BitVec 16) (s : State) : State :=
  mbRun mb tag 0xC104 5 true true (fun s =>
    if rdFld s aSlStat 0 2 ≠ 0 then (.refused, s) else (.started 0, fire 233 0 oNone (wrFld aSlStat 0 2 1 (newTree s)))) s

/-! ### The fabric (group 6) -/

/-- ROUTE_SET (R321): up to 127 entries, each judged as a write of FB_RT by Pelest (R478; log entry 87). -/
def opRouteSet (mb : Mailbox) (tag : BitVec 16) (entries : List (HubId × Word)) (s : State) : State :=
  mbRun mb tag 0xC200 6 true false (fun s =>
    if 127 < entries.length then (.refused, s)
    else (.done [], entries.foldl (fun s e => writeReg 34 (aFbRt e.1.toNat) e.2 none s) s)) s

/-- FABRIC_JOIN (R327, R328): refused without a hub ID or a root, and for a hub that has joined. -/
def opFabricJoin (mb : Mailbox) (tag : BitVec 16) (s : State) : State :=
  mbRun mb tag 0xC201 6 true true (fun s =>
    if !rdBit s aFbHubid 12 || rdFld s aFbStat 0 2 ≠ 0 then (.refused, s)
    else
      let t := wrFld aFbStat 0 2 1 s
      if isRoot s then (.started 0, askJoin (hubId s) t)
      else match rootId s with
        | some r => (.started 0, sendMgt .jnReq r 0 0 0 t)
        | none => (.refused, s)) s

/-- BUDDY_PAIR (R338): one buddy, and not this hub; an exposed pair may be made again. It is pending until the buddy is in the fabric. -/
def opBuddyPair (mb : Mailbox) (tag : BitVec 16) (hub : HubId) (s : State) : State :=
  let pst := rdFld s aFbBuddy 0 2
  mbRun mb tag 0xC202 6 true false (fun s =>
    if hub = hubId s ∨ pst = 1 ∨ pst = 2 ∨ (rdBit s aFbBuddy 2 && hub ≠ buddy s) = true then (.refused, s)
    else
      let m := { s.mir with next := 1, sent := [], tries := 0, held := [], expect := 1, early := [], applied := [], copies := [] }
      (.done [], wrFld aFbBuddy 3 12 hub.toNat (wrFld aFbBuddy 0 2 1 { s with mir := m }))) s

/-- Something of the pair remains: a valid Guarded entry, an enabled mirror entry of either hub, or an entry in service (R338). -/
def pairInUse (s : State) : Bool :=
  rdBit s aFbBuddy 2 || ((krtValid s).any fun e => fld e.2.1 1 2 = 1) || (List.range 8).any fun n => rdBit s (aFbMir n) 0 || rdBit s (aFbPmir n) 0

/-- BUDDY_PAIR to unpair (R338). -/
def opBuddyUnpair (mb : Mailbox) (tag : BitVec 16) (s : State) : State :=
  mbRun mb tag 0xC202 6 true false (fun s =>
    if rdFld s aFbBuddy 0 2 = 0 ∨ pairInUse s = true then (.refused, s) else (.done [], wr aFbBuddy 0 s)) s

/-- TAKEOVER (R351). -/
def opTakeover (mb : Mailbox) (tag : BitVec 16) (s : State) : State :=
  mbRun mb tag 0xC203 6 true true (fun s =>
    if s.mir.planned ≠ 0 then (.code 6, s)
    else if !mirrorOn s then (.refused, s)
    else (.started 0, { s with mir := { s.mir with planned := 1 } })) s

/-- TAKEOVER with the hand-back flag (R352): by a serving hub whose partner is paired again. -/
def opTakeoverHandback (mb : Mailbox) (tag : BitVec 16) (s : State) : State :=
  mbRun mb tag 0xC203 6 true true (fun s =>
    if s.mir.back then (.code 6, s)
    else if !rdBit s aFbBuddy 2 || !mirrorOn s then (.refused, s)
    else (.started 1, { s with mir := { s.mir with back := true }, bg := s.bg ++ [⟨.handback, 0, 0, 0, false⟩] })) s

/-! ### Retirement and repair (group 7) -/

/-- A retirement with the Lumber list full is refused with EV285 (R410). -/
def unlessFull (f : State → Ans × State) (s : State) : Ans × State :=
  if s.flash.lumber.length ≥ 4096 then (.refused, fire 285 1 oNone s) else f s

/-- RETIRE_FRAME (R180): a frame way, or a way of QD48-C1; `set` counts over all slices. -/
def opRetireFrame (mb : Mailbox) (tag : BitVec 16) (set way : Nat) (s : State) : State :=
  let k := 16 * set + way
  mbRun mb tag 0xC300 7 true true (unlessFull fun s =>
    if 16 ≤ way ∨ (if isH1 s then 2097152 else 229376) ≤ set ∨ (getWay s k).ret = true ∨ k ∈ s.hc.retWant then (.refused, s)
    else (.started k, { s with hc := { s.hc with retWant := s.hc.retWant ++ [k] } })) s

/-- RETIRE_PC (R181): stack [1:0] and pseudo-channel [6:2], on QD48-H1. -/
def opRetirePc (mb : Mailbox) (tag : BitVec 16) (pc : Nat) (s : State) : State :=
  mbRun mb tag 0xC301 7 true true (unlessFull fun s =>
    if s.hc.pcWant.isSome then (.code 6, s)
    else if !isH1 s || decide (128 ≤ pc) || decide (pc ∈ s.hc.retPcs) then (.refused, s)
    else (.started pc, { s with hc := { s.hc with pcWant := some pc }, bg := s.bg ++ [⟨.pcRetire, 0, 0, 0, false⟩] })) s

/-- SPARE_ROW (R403): `row` is layer [1:0], slice [6:2] and row [15:7]. -/
def opSpareRow (mb : Mailbox) (tag : BitVec 16) (unit : Fin 16) (row : Nat) (s : State) : State :=
  mbRun mb tag 0xC302 7 true true (unlessFull fun s =>
    if 65536 ≤ row then (.refused, s)
    else
      let x := startRow unit row 0 s
      (if x.1 then .started row else .refused, x.2)) s

/-- The spare bank of the quadrant of a bank (layer [1:0], slice [6:2]) is in use (R412). -/
def spareBankUsed (s : State) (bank : Nat) : Bool :=
  let same := fun (b : Nat) => b % 4 = bank % 4 && b / 32 = bank / 32
  (s.flash.lumber.any fun e => fld e.1 0 4 = 3 && same (fld e.1 8 36)) || s.prot.banks.any same

/-- SPARE_BANK (R412). -/
def opSpareBank (mb : Mailbox) (tag : BitVec 16) (bank : Nat) (s : State) : State :=
  mbRun mb tag 0xC303 7 true true (unlessFull fun s =>
    if 128 ≤ bank then (.refused, s)
    else if spareBankUsed s bank then (.refused, fire (179 + 4 * (bank % 4)) 1 (oVal bank) s)
    else (.started bank, { s with prot := { s.prot with banks := s.prot.banks ++ [bank] } })) s

/-- The next unused page of a set's spare region: one beyond the last that a page has been moved to. -/
def nextSpare (s : State) (set : Nat) : Nat :=
  (s.flash.lumber.filter fun e => fld e.1 0 4 = 4 && fld e.1 54 4 = set).foldl (fun m e => max m (fld e.1 44 10 + 1)) 0

/-- RETIRE_PAGE (R413): a page LA[47:12]; one move at a time, and at most 1,024 moved pages. -/
def opRetirePage (mb : Mailbox) (tag : BitVec 16) (page : Nat) (s : State) : State :=
  mbRun mb tag 0xC304 7 true true (unlessFull fun s =>
    if s.prot.moving.isSome then (.code 6, s)
    else match isetOf s (64 * page) with
      | none => (.refused, s)
      | some n =>
        let spare := nextSpare s n
        if 1024 ≤ s.flash.pages.length ∨ 1024 ≤ spare ∨ !populated s (64 * page) = true then (.refused, s)
        else (.started page, { s with prot := { s.prot with moving := some (page, n, spare, 0) }, bg := s.bg ++ [⟨.pageRetire, 0, 0, 0, false⟩] })) s

/-- SLICE_DRAIN (R572, R574). -/
def opSliceDrain (mb : Mailbox) (tag : BitVec 16) (slice : Fin 32) (hold : Bool) (s : State) : State :=
  mbRun mb tag 0xC305 7 true true (fun s =>
    if rdBit s aPmDrain 0 || rdBit s aPmDrain 6 then (.refused, s)
    else
      let s := wrFld aPmDrain 8 32 (sliceLeft slice s) (wrFld aPmDrain 0 6 (1 + 2 * slice.val) s)
      (.started slice, { s with bg := s.bg ++ [⟨.sliceDrain, slice, 0, hold.toNat, false⟩] })) s

/-- SLICE_DRAIN with the release flag (R573, R574). -/
def opSliceDrainRelease (mb : Mailbox) (tag : BitVec 16) (slice : Fin 32) (s : State) : State :=
  mbOnce mb tag 0xC305 7 0 (fun s =>
    if !rdBit s aPmDrain 6 || rdFld s aPmDrain 1 5 ≠ slice.val then (.refused, s) else (.started 0, wrFld aPmDrain 6 1 0 s)) s

/-! ### Messages of the fabric mailbox (R484, R339) -/

/-- The hubs whose `MbMsg` the fabric mailbox takes (MB_FMSRC). -/
def fmSource (s : State) (h : HubId) : Bool :=
  let w := rd s aMbFmsrc
  if bit w 12 then decide (h ∈ liveHubs s) else decide (fld w 0 12 = h.toNat)

/-- What an `MbMsg` brings: the buddy's mirror entry (log entry 32), or one part of a fabric-mailbox command or of its answer, kept until the command
runs. -/
def mbPart (h : Hdr) (payload : BitVec 512) (s : State) : State :=
  if h.xtra.toNat ≥ 2 ^ 63 then
    if h.src ≠ buddy s ∨ rdFld s aFbBuddy 0 2 = 0 then s
    else
      let a := aFbPmir (h.xtra.toNat % 8)
      wr a (BitVec.ofNat 64 payload.toNat) (wr (a + 8) (BitVec.ofNat 64 (payload.toNat >>> 64)) s)
  else if !fmSource s h.src then s
  else { s with ctl := { s.ctl with parts := mupd [] s.ctl.parts h.src.toNat fun l => l ++ [payload], src := h.src.toNat } }

/-- MBMSG: its payload passes through a Larder cell of its class (R20, R32); it waits in its receive buffer while there is none (R35). -/
def opMbmsg (h : Hdr) (payload : BitVec 512) (s : State) : State :=
  withPayload (.mbmsg h payload) .mbMsg h (fun cs s => doneReading cs (mbPart h payload s)) s

end Sys2Proof.Machine
end

