-- ==== Sys2Proof/Machine/Retry.lean ====
section
/-! DEFINITION. The held requests of the Larder tried again (R249): each goes back to the row it came in by. -/

namespace Sys2Proof.Machine

/-- A held command takes its own path again; the rows that are never held leave the state. -/
def runHeld (i : Instr) (s : State) : State :=
  match i with
  | .memrdSnpdata r => opMemrdSnpdata r s
  | .memrddata r => opMemrddata r s
  | .memrdSnpinv r => opMemrdSnpinv r s
  | .meminv r nt => opMeminv r nt s
  | .memrdSnpcur r => opMemrdSnpcur r s
  | .memspecrd r => opMemspecrd r s
  | .memclnevct r => opMemclnevct r s
  | .memwrExclusive r w => opMemwrExclusive r w s
  | .memwrOtherHost r w => opMemwrOtherHost r w s
  | .snoopWriteBack r w => opSnoopWriteBack r w s
  | .agentMemoryRead r n t => opAgentMemoryRead r n t s
  | .agentPostedWrite r w ro t => opAgentPostedWrite r w ro t s
  | .agentAtomicop r op sz a b => opAgentAtomicop r op sz a b s
  | .apertureIssue p slot => opApertureIssue p slot s
  | .rds h => opRds h s
  | .rdx h => opRdx h s
  | .rdo h => opRdo h s
  | .upg h => opUpg h s
  | .wrl h d => opWrl h d s
  | .wrp h d => opWrp h d s
  | .atm h d => opAtm h d s
  | .wbd h d => opWbd h d s
  | .snps h => opSnps h s
  | .snpx h => opSnpx h s
  | .snpi h => opSnpi h s
  | .snpbc h => opSnpbc h s
  | .mrw h d => opMrw h d s
  | .mbmsg h payload => opMbmsg h payload s
  | .tknote h payload => opTknote h payload s
  | .jnadmit h payload => opJnadmit h payload s
  | .dsreport h payload => opDsreport h payload s
  | .ackd h d => opAckd h d s
  | .dats h d => opDats h d s
  | .datf h d => opDatf h d s
  | .date h d => opDate h d s
  | .datm h d => opDatm h d s
  | .fwds h d => opFwds h d s
  | .fwdx h d => opFwdx h d s
  | _ => s

/-- ADMISSION_RETRY (R249): every held request is tried again, oldest first; what still finds no room is held again. So are messages in transit that
wait in their receive buffers for a cell (R35), and the cleaning writes of fences (R284). -/
def opAdmissionRetry (s : State) : State := s.rx.foldl passOn (retryHeld runHeld (cleanRetry s))

/-! ### The accesses behind a pop (R288, R527) -/

/-- A held access of port `p` to the management window is performed. -/
def runAccess (p : Nat) (s : State) (x : Nat × WinAcc) : State :=
  if h : p < 16 then
    match x.2 with
    | .bytes a size v => writeBytes p a size v s
    | .pop q ok => opPop ⟨p, h⟩ (BitVec.ofNat 13 q) ok s
  else s

/-- The accesses held by port `p`, none of whose pops waits any more, in their order: those behind a pop that waits again are held again. -/
def releasePort (s : State) (p : Nat) : State :=
  if s.ev.queues.any fun e => e.2.waiting.any fun x => x.1 = p then s
  else (s.ev.behind.filter fun x => x.1 = p).foldl (runAccess p) { s with ev := { s.ev with behind := s.ev.behind.filter fun x => x.1 ≠ p } }

/-- Each port's held accesses performed as far as no pop of the port waits; one that ends another port's pop lets that port's follow. -/
def releaseAll : Nat → State → State
  | 0, s => s
  | n + 1, s => if s.ev.behind.isEmpty then s else releaseAll n ((List.range 16).foldl releasePort s)

/-- After a command that may have ended a waiting pop, having brought state `s` to `t`: what was held behind it follows (R527). -/
def windowAfter (s t : State) : State :=
  if s.ev.behind = [] then t else followAfter t (releaseAll s.ev.behind.length t)

end Sys2Proof.Machine
end

