-- ==== Sys2Proof/Machine/Commands.lean ====
section
/-! DEFINITION. The meaning of each command: its operation on the state, run while the block runs (`live`), or in every phase (`always`). -/

namespace Sys2Proof.Machine

/-- MEMRD_SNPDATA (R101). -/
def execMemrdSnpdata (r : HostReq) (s : State) : Host.Outcome State Fault Refusal := live s (fun s => follow (opMemrdSnpdata r s))

/-- MEMRDDATA (R101). -/
def execMemrddata (r : HostReq) (s : State) : Host.Outcome State Fault Refusal := live s (fun s => follow (opMemrddata r s))

/-- MEMRD_SNPINV (R101). -/
def execMemrdSnpinv (r : HostReq) (s : State) : Host.Outcome State Fault Refusal := live s (fun s => follow (opMemrdSnpinv r s))

/-- MEMINV (R101). -/
def execMeminv (r : HostReq) (nt : Bool) (s : State) : Host.Outcome State Fault Refusal := live s (fun s => follow (opMeminv r nt s))

/-- MEMRD_SNPCUR (R101). -/
def execMemrdSnpcur (r : HostReq) (s : State) : Host.Outcome State Fault Refusal := live s (fun s => follow (opMemrdSnpcur r s))

/-- MEMSPECRD (R101). -/
def execMemspecrd (r : HostReq) (s : State) : Host.Outcome State Fault Refusal := live s (fun s => follow (opMemspecrd r s))

/-- MEMCLNEVCT (R101). -/
def execMemclnevct (r : HostReq) (s : State) : Host.Outcome State Fault Refusal := live s (fun s => follow (opMemclnevct r s))

/-- MEMWR_EXCLUSIVE (R101). -/
def execMemwrExclusive (r : HostReq) (w : HostWr) (s : State) : Host.Outcome State Fault Refusal := live s (fun s => follow (opMemwrExclusive r w s))

/-- MEMWR_OTHER_HOST (R101). -/
def execMemwrOtherHost (r : HostReq) (w : HostWr) (s : State) : Host.Outcome State Fault Refusal := live s (fun s => follow (opMemwrOtherHost r w s))

/-- SNOOP_WRITE_BACK (R102). -/
def execSnoopWriteBack (r : HostReq) (w : HostWr) (s : State) : Host.Outcome State Fault Refusal := live s (fun s => follow (opSnoopWriteBack r w s))

/-- BIRSP (R102). -/
def execBirsp (p : HPort) (hpa : Hpa) (rsp : BiRsp) (s : State) : Host.Outcome State Fault Refusal := live s (fun s => follow (opBirsp p hpa rsp s))

/-- BICONFLICT (R140). -/
def execBiconflict (p : HPort) (hpa : Hpa) (tag : BitVec 16) (s : State) : Host.Outcome State Fault Refusal := live s (opBiconflict p hpa tag)

/-- AGENT_MEMORY_READ (R367). -/
def execAgentMemoryRead (r : HostReq) (lines : Nat) (tph : Option (BitVec 8)) (s : State) : Host.Outcome State Fault Refusal := live s (fun s => follow (opAgentMemoryRead r lines tph s))

/-- AGENT_POSTED_WRITE (R271). -/
def execAgentPostedWrite (r : HostReq) (w : HostWr) (ro : Bool) (tph : Option (BitVec 8)) (s : State) : Host.Outcome State Fault Refusal := live s (fun s => follow (opAgentPostedWrite r w ro tph s))

/-- AGENT_WRITE_RELEASE (R271). -/
def execAgentWriteRelease (p : HPort) (s : State) : Host.Outcome State Fault Refusal := live s (fun s => follow (opAgentWriteRelease p s))

/-- AGENT_ATOMICOP (R369). -/
def execAgentAtomicop (r : HostReq) (op : AtomicOp) (size : Nat) (a : BitVec 128) (b : BitVec 128) (s : State) : Host.Outcome State Fault Refusal := live s (fun s => follow (opAgentAtomicop r op size a b s))

/-- AGENT_INTERRUPT_WRITE (R370). -/
def execAgentInterruptWrite (p : HPort) (hpa : Hpa) (data : List (BitVec 8)) (s : State) : Host.Outcome State Fault Refusal := live s (opAgentInterruptWrite p hpa data)

/-- AGENT_PASID_ATS_REQUEST (R368). -/
def execAgentPasidAtsRequest (p : HPort) (tag : BitVec 16) (s : State) : Host.Outcome State Fault Refusal := live s (opAgentPasidAtsRequest p tag)

/-- CONFIG_REQUEST (R366). -/
def execConfigRequest (o : Origin) (p : HPort) (v : Word) (s : State) : Host.Outcome State Fault Refusal := live s (opConfigRequest o p v)

/-- CONFIG_COMPLETION (R366). -/
def execConfigCompletion (p : HPort) (cs : BitVec 3) (data : BitVec 32) (s : State) : Host.Outcome State Fault Refusal := live s (opConfigCompletion p cs data)

/-- CONFIG_TIMEOUT (R366). -/
def execConfigTimeout (p : HPort) (s : State) : Host.Outcome State Fault Refusal := live s (opConfigTimeout p)

/-- HOST_IDE_FAILURE (R463). -/
def execHostIdeFailure (p : HPort) (s : State) : Host.Outcome State Fault Refusal := live s (fun s => follow (opHostIdeFailure p s))

/-- IDE_KM_MESSAGE (R462). -/
def execIdeKmMessage (p : HPort) (m : IdeKm) (s : State) : Host.Outcome State Fault Refusal := live s (opIdeKmMessage p m)

/-- GPF_PHASE2_REQUEST (R294). -/
def execGpfPhase2Request (p : HPort) (s : State) : Host.Outcome State Fault Refusal := live s (fun s => follow (opGpfPhase2Request p s))

/-- HOST_LINK_DOWN (R145). -/
def execHostLinkDown (p : HPort) (s : State) : Host.Outcome State Fault Refusal := live s (fun s => follow (opHostLinkDown p s))

/-- PORT_RESET (R557). -/
def execPortReset (p : HostTrain) (s : State) : Host.Outcome State Fault Refusal := live s (fun s => follow (opPortReset p s))

/-- FUNCTION_LEVEL_RESET (R557). -/
def execFunctionLevelReset (p : HPort) (s : State) : Host.Outcome State Fault Refusal := live s (opFunctionLevelReset p)

/-- L0P_REQUEST (R561). -/
def execL0pRequest (p : HPort) (width : Nat) (s : State) : Host.Outcome State Fault Refusal := live s (opL0pRequest p width)

/-- L0P_IDLE_NARROW (R561). -/
def execL0pIdleNarrow (p : HPort) (s : State) : Host.Outcome State Fault Refusal := live s (opL0pIdleNarrow p)

/-- L1_ENTRY (R562). -/
def execL1Entry (p : HPort) (s : State) : Host.Outcome State Fault Refusal := live s (opL1Entry p)

/-- ADMISSION_RETRY (R249). -/
def execAdmissionRetry (s : State) : Host.Outcome State Fault Refusal := live s (fun s => follow (opAdmissionRetry s))

/-- CELL_FREE (R27). -/
def execCellFree (cell : Nat) (s : State) : Host.Outcome State Fault Refusal := live s (opCellFree cell)

/-- HAND_OVER (R210). -/
def execHandOver (p : HPort) (region : Nat) (stride : Int) (s : State) : Host.Outcome State Fault Refusal := live s (opHandOver p region stride)

/-- SSD_IDLE_TIMEOUT (R197). -/
def execSsdIdleTimeout (p : HPort) (s : State) : Host.Outcome State Fault Refusal := live s (opSsdIdleTimeout p)

/-- RDS (R105). -/
def execRds (h : Hdr) (s : State) : Host.Outcome State Fault Refusal := live s (fun s => follow (opRds h s))

/-- RDX (R105). -/
def execRdx (h : Hdr) (s : State) : Host.Outcome State Fault Refusal := live s (fun s => follow (opRdx h s))

/-- RDO (R105). -/
def execRdo (h : Hdr) (s : State) : Host.Outcome State Fault Refusal := live s (fun s => follow (opRdo h s))

/-- UPG (R105). -/
def execUpg (h : Hdr) (s : State) : Host.Outcome State Fault Refusal := live s (fun s => follow (opUpg h s))

/-- WRL (R598). -/
def execWrl (h : Hdr) (d : Data) (s : State) : Host.Outcome State Fault Refusal := live s (fun s => follow (opWrl h d s))

/-- WRP (R598). -/
def execWrp (h : Hdr) (d : Data) (s : State) : Host.Outcome State Fault Refusal := live s (fun s => follow (opWrp h d s))

/-- ATM (R159). -/
def execAtm (h : Hdr) (d : Data) (s : State) : Host.Outcome State Fault Refusal := live s (fun s => follow (opAtm h d s))

/-- FNC_HUB (R276). -/
def execFncHub (h : Hdr) (s : State) : Host.Outcome State Fault Refusal := live s (fun s => follow (opFncHub h s))

/-- FNC_HOME_STEP (R285). -/
def execFncHomeStep (h : Hdr) (s : State) : Host.Outcome State Fault Refusal := live s (fun s => follow (opFncHomeStep h s))

/-- EVC (R133). -/
def execEvc (h : Hdr) (s : State) : Host.Outcome State Fault Refusal := live s (fun s => follow (opEvc h s))

/-- WBD (R133). -/
def execWbd (h : Hdr) (d : Data) (s : State) : Host.Outcome State Fault Refusal := live s (fun s => follow (opWbd h d s))

/-- MRW (R343). -/
def execMrw (h : Hdr) (d : Data) (s : State) : Host.Outcome State Fault Refusal := live s (fun s => follow (opMrw h d s))

/-- MRCTL (R345). -/
def execMrctl (h : Hdr) (start : Bool) (entry : Fin 8) (s : State) : Host.Outcome State Fault Refusal := live s (fun s => follow (opMrctl h start entry s))

/-- SNPS (R109). -/
def execSnps (h : Hdr) (s : State) : Host.Outcome State Fault Refusal := live s (fun s => follow (opSnps h s))

/-- SNPX (R109). -/
def execSnpx (h : Hdr) (s : State) : Host.Outcome State Fault Refusal := live s (fun s => follow (opSnpx h s))

/-- SNPI (R109). -/
def execSnpi (h : Hdr) (s : State) : Host.Outcome State Fault Refusal := live s (fun s => follow (opSnpi h s))

/-- SNPBC (R109). -/
def execSnpbc (h : Hdr) (s : State) : Host.Outcome State Fault Refusal := live s (fun s => follow (opSnpbc h s))

/-- DATS (R110). -/
def execDats (h : Hdr) (d : Data) (s : State) : Host.Outcome State Fault Refusal := live s (fun s => follow (opDats h d s))

/-- DATF (R110). -/
def execDatf (h : Hdr) (d : Data) (s : State) : Host.Outcome State Fault Refusal := live s (fun s => follow (opDatf h d s))

/-- DATE (R110). -/
def execDate (h : Hdr) (d : Data) (s : State) : Host.Outcome State Fault Refusal := live s (fun s => follow (opDate h d s))

/-- DATM (R110). -/
def execDatm (h : Hdr) (d : Data) (s : State) : Host.Outcome State Fault Refusal := live s (fun s => follow (opDatm h d s))

/-- FWDS (R110). -/
def execFwds (h : Hdr) (d : Data) (s : State) : Host.Outcome State Fault Refusal := live s (fun s => follow (opFwds h d s))

/-- FWDX (R110). -/
def execFwdx (h : Hdr) (d : Data) (s : State) : Host.Outcome State Fault Refusal := live s (fun s => follow (opFwdx h d s))

/-- ACKD (R137). -/
def execAckd (h : Hdr) (d : Data) (s : State) : Host.Outcome State Fault Refusal := live s (fun s => follow (opAckd h d s))

/-- GNTX (R110). -/
def execGntx (h : Hdr) (s : State) : Host.Outcome State Fault Refusal := live s (fun s => follow (opGntx h s))

/-- ACK (R137). -/
def execAck (h : Hdr) (s : State) : Host.Outcome State Fault Refusal := live s (fun s => follow (opAck h s))

/-- ACKE (R134). -/
def execAcke (h : Hdr) (s : State) : Host.Outcome State Fault Refusal := live s (fun s => follow (opAcke h s))

/-- CMP (R598). -/
def execCmp (h : Hdr) (s : State) : Host.Outcome State Fault Refusal := live s (fun s => follow (opCmp h s))

/-- CMP_FENCE (R123). -/
def execCmpFence (h : Hdr) (s : State) : Host.Outcome State Fault Refusal := live s (fun s => follow (opCmpFence h s))

/-- WBACK (R132). -/
def execWback (h : Hdr) (s : State) : Host.Outcome State Fault Refusal := live s (fun s => follow (opWback h s))

/-- FIN (R98). -/
def execFin (h : Hdr) (s : State) : Host.Outcome State Fault Refusal := live s (fun s => follow (opFin h s))

/-- MRACK (R344). -/
def execMrack (h : Hdr) (s : State) : Host.Outcome State Fault Refusal := live s (fun s => follow (opMrack h s))

/-- RDR (R352). -/
def execRdr (h : Hdr) (s : State) : Host.Outcome State Fault Refusal := live s (fun s => follow (opRdr h s))

/-- KEEP_WINDOW_CLOSE (R126). -/
def execKeepWindowClose (line : LineAddr) (s : State) : Host.Outcome State Fault Refusal := live s (fun s => follow (opKeepWindowClose line s))

/-- WAITER_DECISION (R120). -/
def execWaiterDecision (line : LineAddr) (s : State) : Host.Outcome State Fault Refusal := live s (fun s => follow (opWaiterDecision line s))

/-- PLNOTE (R168). -/
def execPlnote (h : Hdr) (s : State) : Host.Outcome State Fault Refusal := live s (fun s => follow (opPlnote h s))

/-- RELEASE_AFTER_MISS (R82). -/
def execReleaseAfterMiss (line : LineAddr) (s : State) : Host.Outcome State Fault Refusal := live s (fun s => follow (opReleaseAfterMiss line s))

/-- MISS_REGISTER_FREE (R185). -/
def execMissRegisterFree (slice : Fin 32) (s : State) : Host.Outcome State Fault Refusal := live s (fun s => follow (opMissRegisterFree slice s))

/-- HTT_ENTRY_FREE (R122). -/
def execHttEntryFree (slice : Fin 32) (s : State) : Host.Outcome State Fault Refusal := live s (fun s => follow (opHttEntryFree slice s))

/-- DIRECTORY_WAY_FREE (R142). -/
def execDirectoryWayFree (slice : Fin 32) (set : Nat) (s : State) : Host.Outcome State Fault Refusal := live s (fun s => follow (opDirectoryWayFree slice set s))

/-- HOST_FILTER_WAY_FREE (R94). -/
def execHostFilterWayFree (slice : Fin 32) (set : Nat) (s : State) : Host.Outcome State Fault Refusal := live s (fun s => follow (opHostFilterWayFree slice set s))

/-- CACHE_WAY_FREE (R191). -/
def execCacheWayFree (line : LineAddr) (s : State) : Host.Outcome State Fault Refusal := live s (fun s => follow (opCacheWayFree line s))

/-- MERGING_ENTRY_FREE (R201). -/
def execMergingEntryFree (slice : Fin 32) (s : State) : Host.Outcome State Fault Refusal := live s (fun s => follow (opMergingEntryFree slice s))

/-- EVICTION_ENTRY_FREE (R204). -/
def execEvictionEntryFree (slice : Fin 32) (s : State) : Host.Outcome State Fault Refusal := live s (fun s => follow (opEvictionEntryFree slice s))

/-- FRAME_EVICTION_DONE (R204). -/
def execFrameEvictionDone (slice : Fin 32) (set : Nat) (way : Nat) (s : State) : Host.Outcome State Fault Refusal := live s (fun s => follow (opFrameEvictionDone slice set way s))

/-- FRAME_TAG_FETCH_DONE (R177). -/
def execFrameTagFetchDone (slice : Fin 32) (set : Nat) (ecc : Ecc) (s : State) : Host.Outcome State Fault Refusal := live s (fun s => follow (opFrameTagFetchDone slice set ecc s))

/-- HBM_ACCESS_DONE (R23). -/
def execHbmAccessDone (pc : Nat) (ecc : Ecc) (s : State) : Host.Outcome State Fault Refusal := live s (fun s => followAfter s (opHbmAccessDone pc ecc s))

/-- FLUSH_PENDING_APPLY (R214). -/
def execFlushPendingApply (line : LineAddr) (s : State) : Host.Outcome State Fault Refusal := live s (fun s => follow (opFlushPendingApply line s))

/-- MERGING_BUFFER_AGE (R202). -/
def execMergingBufferAge (granule : Nat) (s : State) : Host.Outcome State Fault Refusal := live s (fun s => follow (opMergingBufferAge granule s))

/-- MERGING_DRAIN_QUEUED (R203). -/
def execMergingDrainQueued (granule : Nat) (s : State) : Host.Outcome State Fault Refusal := live s (fun s => follow (opMergingDrainQueued granule s))

/-- CELLAR_RESPONSE (R441). -/
def execCellarResponse (r : CellarResp) (s : State) : Host.Outcome State Fault Refusal := live s (fun s => follow (opCellarResponse r s))

/-- CELLAR_WRITE_COMPLETION (R282). -/
def execCellarWriteCompletion (granule : Nat) (s : State) : Host.Outcome State Fault Refusal := live s (fun s => follow (opCellarWriteCompletion granule s))

/-- RESEAL_DONE (R439). -/
def execResealDone (block : Nat) (s : State) : Host.Outcome State Fault Refusal := live s (fun s => follow (opResealDone block s))

/-- SEAL_WRITEBACK_DUE (R436). -/
def execSealWritebackDue (level : Nat) (index : Nat) (s : State) : Host.Outcome State Fault Refusal := live s (fun s => follow (opSealWritebackDue level index s))

/-- MESSAGE_ROUTE_RESUME (R318). -/
def execMessageRouteResume (s : State) : Host.Outcome State Fault Refusal := live s (fun s => follow (opMessageRouteResume s))

/-- BI_SNOOP_TIMEOUT (R144). -/
def execBiSnoopTimeout (p : HPort) (line : LineAddr) (s : State) : Host.Outcome State Fault Refusal := live s (fun s => follow (opBiSnoopTimeout p line s))

/-- SNOOP_TIMEOUT (R149). -/
def execSnoopTimeout (line : LineAddr) (hub : HubId) (s : State) : Host.Outcome State Fault Refusal := live s (fun s => follow (opSnoopTimeout line hub s))

/-- RESPONSE_RESEND_TIMEOUT (R149). -/
def execResponseResendTimeout (line : LineAddr) (s : State) : Host.Outcome State Fault Refusal := live s (fun s => followAfter s (opResponseResendTimeout line s))

/-- RESPONSE_RETENTION_EXPIRY (R149). -/
def execResponseRetentionExpiry (line : LineAddr) (s : State) : Host.Outcome State Fault Refusal := live s (fun s => follow (opResponseRetentionExpiry line s))

/-- DEAD_HOME_WAIT_EXPIRY (R153). -/
def execDeadHomeWaitExpiry (hub : HubId) (s : State) : Host.Outcome State Fault Refusal := live s (fun s => follow (opDeadHomeWaitExpiry hub s))

/-- PROBE_TIMER (R335). -/
def execProbeTimer (s : State) : Host.Outcome State Fault Refusal := live s opProbeTimer

/-- TAKEOVER_WAIT_EXPIRY (R347). -/
def execTakeoverWaitExpiry (s : State) : Host.Outcome State Fault Refusal := live s (fun s => follow (opTakeoverWaitExpiry s))

/-- MIRROR_RESEND_TIMEOUT (R346). -/
def execMirrorResendTimeout (s : State) : Host.Outcome State Fault Refusal := live s (fun s => followAfter s (opMirrorResendTimeout s))

/-- DSREPORT (R327). -/
def execDsreport (h : Hdr) (payload : BitVec 512) (s : State) : Host.Outcome State Fault Refusal := live s (opDsreport h payload)

/-- DSASSIGN (R327). -/
def execDsassign (h : Hdr) (payload : BitVec 512) (s : State) : Host.Outcome State Fault Refusal := live s (opDsassign h payload)

/-- JNREQ (R328). -/
def execJnreq (h : Hdr) (payload : BitVec 512) (s : State) : Host.Outcome State Fault Refusal := live s (fun s => followAfter s (opJnreq h payload s))

/-- JOIN_ADMIT_DUE (R157). -/
def execJoinAdmitDue (hub : HubId) (s : State) : Host.Outcome State Fault Refusal := live s (fun s => followAfter s (opJoinAdmitDue hub s))

/-- JNADMIT (R328). -/
def execJnadmit (h : Hdr) (payload : BitVec 512) (s : State) : Host.Outcome State Fault Refusal := live s (fun s => follow (opJnadmit h payload s))

/-- DHRPT (R330). -/
def execDhrpt (h : Hdr) (payload : BitVec 512) (s : State) : Host.Outcome State Fault Refusal := live s (fun s => followAfter s (opDhrpt h payload s))

/-- DHNOTE (R152). -/
def execDhnote (h : Hdr) (payload : BitVec 512) (s : State) : Host.Outcome State Fault Refusal := live s (fun s => follow (opDhnote h payload s))

/-- HUB_RECLAIM_END (R336). -/
def execHubReclaimEnd (hub : HubId) (s : State) : Host.Outcome State Fault Refusal := live s (fun s => follow (opHubReclaimEnd hub s))

/-- DHDONE (R336). -/
def execDhdone (h : Hdr) (payload : BitVec 512) (s : State) : Host.Outcome State Fault Refusal := live s (fun s => follow (opDhdone h payload s))

/-- DHCLEAR (R349). -/
def execDhclear (h : Hdr) (payload : BitVec 512) (s : State) : Host.Outcome State Fault Refusal := live s (fun s => follow (opDhclear h payload s))

/-- TKNOTE (R350). -/
def execTknote (h : Hdr) (payload : BitVec 512) (s : State) : Host.Outcome State Fault Refusal := live s (fun s => follow (opTknote h payload s))

/-- TKBACK (R352). -/
def execTkback (h : Hdr) (payload : BitVec 512) (s : State) : Host.Outcome State Fault Refusal := live s (fun s => follow (opTkback h payload s))

/-- LKSEQQ (R311). -/
def execLkseqq (h : Hdr) (payload : BitVec 512) (s : State) : Host.Outcome State Fault Refusal := live s (opLkseqq h payload)

/-- LKSEQR (R311). -/
def execLkseqr (h : Hdr) (payload : BitVec 512) (s : State) : Host.Outcome State Fault Refusal := live s (opLkseqr h payload)

/-- LKSEQ_TIMEOUT (R311). -/
def execLkseqTimeout (p : IPort) (s : State) : Host.Outcome State Fault Refusal := live s (opLkseqTimeout p)

/-- MBMSG (R484). -/
def execMbmsg (h : Hdr) (payload : BitVec 512) (s : State) : Host.Outcome State Fault Refusal := live s (fun s => follow (opMbmsg h payload s))

/-- DATA_FLIT (R306). -/
def execDataFlit (p : IPort) (f : FlitHead) (ps : List FlitPiece) (s : State) : Host.Outcome State Fault Refusal := live s (opDataFlit p f ps)

/-- CONTROL_FLIT (R305). -/
def execControlFlit (p : IPort) (f : FlitHead) (s : State) : Host.Outcome State Fault Refusal := live s (opControlFlit p f)

/-- NAK (R306). -/
def execNak (p : IPort) (f : FlitHead) (s : State) : Host.Outcome State Fault Refusal := live s (opNak p f)

/-- ACK_TIMEOUT (R306). -/
def execAckTimeout (p : IPort) (s : State) : Host.Outcome State Fault Refusal := live s (opAckTimeout p)

/-- ACK_REPORT_TIMER (R306). -/
def execAckReportTimer (p : IPort) (s : State) : Host.Outcome State Fault Refusal := live s (opAckReportTimer p)

/-- BEACON (R323). -/
def execBeacon (p : FlitIn) (b : Beacon) (rxt : Word) (s : State) : Host.Outcome State Fault Refusal := live s (opBeacon p b rxt)

/-- BEACON_TIMER (R223). -/
def execBeaconTimer (s : State) : Host.Outcome State Fault Refusal := live s opBeaconTimer

/-- HALT_FLIT (R312). -/
def execHaltFlit (p : FlitIn) (sender : HubId) (cause : BitVec 4) (s : State) : Host.Outcome State Fault Refusal := live s (fun s => followAfter s (opHaltFlit p sender cause s))

/-- PEER_DETECTED (R308). -/
def execPeerDetected (p : IPort) (s : State) : Host.Outcome State Fault Refusal := live s (opPeerDetected p)

/-- LINK_TRAINED (R308). -/
def execLinkTrained (p : IPort) (peer : PeerParams) (s : State) : Host.Outcome State Fault Refusal := live s (fun s => follow (opLinkTrained p peer s))

/-- TRAIN_TIMEOUT (R308). -/
def execTrainTimeout (p : IPort) (s : State) : Host.Outcome State Fault Refusal := live s (opTrainTimeout p)

/-- RETRAIN_DONE (R308). -/
def execRetrainDone (p : IPort) (s : State) : Host.Outcome State Fault Refusal := live s (opRetrainDone p)

/-- FAST_RETRAIN_TIMEOUT (R308). -/
def execFastRetrainTimeout (p : IPort) (s : State) : Host.Outcome State Fault Refusal := live s (opFastRetrainTimeout p)

/-- RETRAIN_FAIL_TIMEOUT (R308). -/
def execRetrainFailTimeout (p : IPort) (s : State) : Host.Outcome State Fault Refusal := live s (opRetrainFailTimeout p)

/-- FEC_LOCK_LOSS (R309). -/
def execFecLockLoss (p : IPort) (s : State) : Host.Outcome State Fault Refusal := live s (opFecLockLoss p)

/-- LANE_FAULT (R310). -/
def execLaneFault (p : IPort) (lane : Nat) (lost : Bool) (s : State) : Host.Outcome State Fault Refusal := live s (opLaneFault p lane lost)

/-- ROUTE_LOSS_TIMEOUT (R332). -/
def execRouteLossTimeout (hub : HubId) (s : State) : Host.Outcome State Fault Refusal := live s (fun s => follow (opRouteLossTimeout hub s))

/-- ROOT_SEQUENCE_TICK (R325). -/
def execRootSequenceTick (s : State) : Host.Outcome State Fault Refusal := live s opRootSequenceTick

/-- ROOT_SILENCE_TIMEOUT (R326). -/
def execRootSilenceTimeout (s : State) : Host.Outcome State Fault Refusal := live s (fun s => followAfter s (opRootSilenceTimeout s))

/-- ROOT_ELECTION (R324). -/
def execRootElection (s : State) : Host.Outcome State Fault Refusal := live s (fun s => follow (opRootElection s))

/-- TIME_PPS_EDGE (R222). -/
def execTimePpsEdge (s : State) : Host.Outcome State Fault Refusal := live s opTimePpsEdge

/-- ORIGIN_ARM_EXPIRY (R222). -/
def execOriginArmExpiry (s : State) : Host.Outcome State Fault Refusal := live s opOriginArmExpiry

/-- BEACON_LOSS_TIMEOUT (R224). -/
def execBeaconLossTimeout (s : State) : Host.Outcome State Fault Refusal := live s opBeaconLossTimeout

/-- HOLDOVER_TIMEOUT (R224). -/
def execHoldoverTimeout (s : State) : Host.Outcome State Fault Refusal := live s opHoldoverTimeout

/-- SCHEDULED_EVENT_RUN (R227). -/
def execScheduledEventRun (s : State) : Host.Outcome State Fault Refusal := live s opScheduledEventRun

/-- SQUARE_START (R238). -/
def execSquareStart (board : Fin 92) (s : State) : Host.Outcome State Fault Refusal := live s (fun s => follow (opSquareStart board s))

/-- ROUND_START (R253). -/
def execRoundStart (s : State) : Host.Outcome State Fault Refusal := live s opRoundStart

/-- WATCHDOG_BITE (R243). -/
def execWatchdogBite (board : Fin 92) (s : State) : Host.Outcome State Fault Refusal := live s (opWatchdogBite board)

/-- WATCHDOG_RESET_END (R244). -/
def execWatchdogResetEnd (board : Fin 92) (s : State) : Host.Outcome State Fault Refusal := live s (opWatchdogResetEnd board)

/-- DOORBELL_RING (R280). -/
def execDoorbellRing (p : HPort) (slot : BitVec 12) (v : Word) (s : State) : Host.Outcome State Fault Refusal := live s (fun s => follow (opDoorbellRing p slot v s))

/-- FENCE_COMPLETE (R281). -/
def execFenceComplete (p : HPort) (slot : BitVec 12) (s : State) : Host.Outcome State Fault Refusal := live s (fun s => follow (opFenceComplete p slot s))

/-- FENCE_LIMIT_EXPIRY (R278). -/
def execFenceLimitExpiry (p : HPort) (slot : BitVec 12) (s : State) : Host.Outcome State Fault Refusal := live s (opFenceLimitExpiry p slot)

/-- APERTURE_DESCRIPTOR (R165). -/
def execApertureDescriptor (p : HPort) (slot : BitVec 12) (d : BitVec 512) (s : State) : Host.Outcome State Fault Refusal := live s (fun s => follow (opApertureDescriptor p slot d s))

/-- APERTURE_ISSUE (R166). -/
def execApertureIssue (p : HPort) (slot : BitVec 12) (s : State) : Host.Outcome State Fault Refusal := live s (fun s => follow (opApertureIssue p slot s))

/-- PORST_ASSERT (R553). -/
def execPorstAssert (s : State) : Host.Outcome State Fault Refusal := always s opPorstAssert

/-- PORST_DEASSERT (R553). -/
def execPorstDeassert (straps : Straps) (s : State) : Host.Outcome State Fault Refusal := always s (opPorstDeassert straps)

/-- COLD_RESET_READY (R553). -/
def execColdResetReady (s : State) : Host.Outcome State Fault Refusal := always s opColdResetReady

/-- PERST_ASSERT (R290). -/
def execPerstAssert (s : State) : Host.Outcome State Fault Refusal := always s (fun s => follow (opPerstAssert s))

/-- RESET_FLUSH_END (R554). -/
def execResetFlushEnd (s : State) : Host.Outcome State Fault Refusal := live s (fun s => follow (opResetFlushEnd s))

/-- FLUSH_TIME_LIMIT (R290). -/
def execFlushTimeLimit (s : State) : Host.Outcome State Fault Refusal := live s opFlushTimeLimit

/-- WARM_RESET_READY (R554). -/
def execWarmResetReady (s : State) : Host.Outcome State Fault Refusal := always s opWarmResetReady

/-- GPF_TIME_EXPIRY (R295). -/
def execGpfTimeExpiry (s : State) : Host.Outcome State Fault Refusal := live s (fun s => follow (opGpfTimeExpiry s))

/-- RAIL_WARNING (R542). -/
def execRailWarning (rail : Fin 5) (mv : Nat) (s : State) : Host.Outcome State Fault Refusal := always s (fun s => follow (opRailWarning rail mv s))

/-- BRACE_EXIT_TIMER (R545). -/
def execBraceExitTimer (s : State) : Host.Outcome State Fault Refusal := always s opBraceExitTimer

/-- RAIL_RESET_LEVEL (R541). -/
def execRailResetLevel (rail : Fin 5) (mv : Nat) (s : State) : Host.Outcome State Fault Refusal := always s (fun s => follow (opRailResetLevel rail mv s))

/-- INTERNAL_RELEASE (R584). -/
def execInternalRelease (straps : Straps) (s : State) : Host.Outcome State Fault Refusal := always s (opInternalRelease straps)

/-- PWR_WARN_ASSERT (R542). -/
def execPwrWarnAssert (s : State) : Host.Outcome State Fault Refusal := always s (fun s => follow (opPwrWarnAssert s))

/-- PWR_WARN_SUSTAINED (R547). -/
def execPwrWarnSustained (s : State) : Host.Outcome State Fault Refusal := live s (fun s => follow (opPwrWarnSustained s))

/-- PWR_WARN_RELEASE_TIMER (R547). -/
def execPwrWarnReleaseTimer (s : State) : Host.Outcome State Fault Refusal := always s opPwrWarnReleaseTimer

/-- TEMP_SENSOR_READ (R548). -/
def execTempSensorRead (temps : Vector (BitVec 8) 16) (s : State) : Host.Outcome State Fault Refusal := always s (opTempSensorRead temps)

/-- CLOCK_LOSS (R552). -/
def execClockLoss (domain : Fin 100) (s : State) : Host.Outcome State Fault Refusal := always s (fun s => followAfter s (opClockLoss domain s))

/-- TIME_REF_RESTORE (R552). -/
def execTimeRefRestore (s : State) : Host.Outcome State Fault Refusal := always s opTimeRefRestore

/-- MANAGEMENT_CLOCK_RETURN (R552). -/
def execManagementClockReturn (s : State) : Host.Outcome State Fault Refusal := always s opManagementClockReturn

/-- JTAG_INSTRUCTION (R421). -/
def execJtagInstruction (ir : JtagIr) (s : State) : Host.Outcome State Fault Refusal := always s (opJtagInstruction ir)

/-- PELEST_WATCHDOG (R558). -/
def execPelestWatchdog (s : State) : Host.Outcome State Fault Refusal := always s opPelestWatchdog

/-- PELEST_READY (R488). -/
def execPelestReady (s : State) : Host.Outcome State Fault Refusal := always s opPelestReady

/-- FW_ACTIVATE_TIMEOUT (R494). -/
def execFwActivateTimeout (s : State) : Host.Outcome State Fault Refusal := always s opFwActivateTimeout

/-- DORMANT_ENTRY (R563). -/
def execDormantEntry (stack : Fin 4) (s : State) : Host.Outcome State Fault Refusal := live s (opDormantEntry stack)

/-- DORMANT_EXIT (R563). -/
def execDormantExit (stack : Fin 4) (s : State) : Host.Outcome State Fault Refusal := live s (opDormantExit stack)

/-- LOAD_BAND_CHANGE (R569). -/
def execLoadBandChange (load : Nat) (s : State) : Host.Outcome State Fault Refusal := always s (opLoadBandChange load)

/-- LOAD_VERIFICATION_END (R569). -/
def execLoadVerificationEnd (failed : List (Fin 56)) (s : State) : Host.Outcome State Fault Refusal := always s (opLoadVerificationEnd failed)

/-- RETRAINING_END (R570). -/
def execRetrainingEnd (record : Fin 56) (params : BitVec 32) (s : State) : Host.Outcome State Fault Refusal := always s (opRetrainingEnd record params)

/-- DROOP_REGATHER_DONE (R570). -/
def execDroopRegatherDone (record : Fin 56) (params : BitVec 32) (s : State) : Host.Outcome State Fault Refusal := always s (opDroopRegatherDone record params)

/-- CELLAR_COMMAND_TIMEOUT (R376). -/
def execCellarCommandTimeout (d : DPort) (s : State) : Host.Outcome State Fault Refusal := live s (fun s => follow (opCellarCommandTimeout d s))

/-- CELLAR_RETRAIN_DONE (R376). -/
def execCellarRetrainDone (d : DPort) (s : State) : Host.Outcome State Fault Refusal := live s (fun s => follow (opCellarRetrainDone d s))

/-- CELLAR_RETRAIN_TIMEOUT (R292). -/
def execCellarRetrainTimeout (d : DPort) (s : State) : Host.Outcome State Fault Refusal := live s (fun s => follow (opCellarRetrainTimeout d s))

/-- GMER_POLL (R394). -/
def execGmerPoll (d : DPort) (records : List GmerRec) (s : State) : Host.Outcome State Fault Refusal := live s (opGmerPoll d records)

/-- SCRUB_STEP (R408). -/
def execScrubStep (f : ScrubFind) (s : State) : Host.Outcome State Fault Refusal := live s (fun s => follow (opScrubStep f s))

/-- CORRECT_AND_WRITE (R402). -/
def execCorrectAndWrite (unit : Fin 16) (addr : BitVec 48) (s : State) : Host.Outcome State Fault Refusal := live s (fun s => follow (opCorrectAndWrite unit addr s))

/-- ROW_SPARE_DONE (R403). -/
def execRowSpareDone (unit : Fin 16) (addr : BitVec 48) (s : State) : Host.Outcome State Fault Refusal := live s (fun s => follow (opRowSpareDone unit addr s))

/-- BANK_SPARE_DONE (R412). -/
def execBankSpareDone (bank : Nat) (s : State) : Host.Outcome State Fault Refusal := live s (fun s => follow (opBankSpareDone bank s))

/-- BUCKET_LEAK (R395). -/
def execBucketLeak (bucket : Fin 69) (s : State) : Host.Outcome State Fault Refusal := live s (opBucketLeak bucket)

/-- WATCH_ENTRY_EXPIRY (R401). -/
def execWatchEntryExpiry (unit : Fin 16) (addr : BitVec 48) (s : State) : Host.Outcome State Fault Refusal := live s (opWatchEntryExpiry unit addr)

/-- BACKGROUND_WORK_UNIT (R257). -/
def execBackgroundWorkUnit (k : BgKind) (s : State) : Host.Outcome State Fault Refusal := live s (fun s => follow (opBackgroundWorkUnit k s))

/-- BACKGROUND_RESUME (R257). -/
def execBackgroundResume (s : State) : Host.Outcome State Fault Refusal := live s (fun s => follow (opBackgroundResume s))

/-- WINDOW_SWEEP_END (R53). -/
def execWindowSweepEnd (p : HPort) (n : BitVec 8) (s : State) : Host.Outcome State Fault Refusal := live s (fun s => follow (opWindowSweepEnd p n s))

/-- DOMAIN_SWEEP_END (R61). -/
def execDomainSweepEnd (s : State) : Host.Outcome State Fault Refusal := live s (fun s => follow (opDomainSweepEnd s))

/-- RANGE_FLUSH_END (R77). -/
def execRangeFlushEnd (s : State) : Host.Outcome State Fault Refusal := live s (fun s => follow (opRangeFlushEnd s))

/-- HOST_RECLAIM_END (R146). -/
def execHostReclaimEnd (p : HPort) (s : State) : Host.Outcome State Fault Refusal := live s (fun s => follow (opHostReclaimEnd p s))

/-- MIRROR_COPY_END (R345). -/
def execMirrorCopyEnd (s : State) : Host.Outcome State Fault Refusal := live s (fun s => follow (opMirrorCopyEnd s))

/-- REKEY_SWEEP_END (R457). -/
def execRekeySweepEnd (s : State) : Host.Outcome State Fault Refusal := live s (fun s => follow (opRekeySweepEnd s))

/-- KEY_RETIRE_END (R453). -/
def execKeyRetireEnd (s : State) : Host.Outcome State Fault Refusal := live s (fun s => follow (opKeyRetireEnd s))

/-- SLICE_DRAIN_END (R573). -/
def execSliceDrainEnd (s : State) : Host.Outcome State Fault Refusal := live s (fun s => follow (opSliceDrainEnd s))

/-- REBUILD_END (R450). -/
def execRebuildEnd (s : State) : Host.Outcome State Fault Refusal := live s (fun s => follow (opRebuildEnd s))

/-- STRONG_REBUILD_END (R391). -/
def execStrongRebuildEnd (d : DPort) (s : State) : Host.Outcome State Fault Refusal := live s (fun s => follow (opStrongRebuildEnd d s))

/-- MAINTENANCE_OP_END (R212). -/
def execMaintenanceOpEnd (s : State) : Host.Outcome State Fault Refusal := live s (fun s => follow (opMaintenanceOpEnd s))

/-- PAGE_RETIRE_END (R413). -/
def execPageRetireEnd (s : State) : Host.Outcome State Fault Refusal := live s (fun s => follow (opPageRetireEnd s))

/-- PC_RETIRE_END (R181). -/
def execPcRetireEnd (s : State) : Host.Outcome State Fault Refusal := live s (fun s => follow (opPcRetireEnd s))

/-- TEST_FIRING (R509). -/
def execTestFiring (o : Origin) (src : BitVec 9) (s : State) : Host.Outcome State Fault Refusal := live s (opTestFiring o src)

/-- MSIX_HOLDOFF_EXPIRY (R511). -/
def execMsixHoldoffExpiry (src : BitVec 9) (s : State) : Host.Outcome State Fault Refusal := live s (opMsixHoldoffExpiry src)

/-- BANK_SWAP (R518). -/
def execBankSwap (q : BitVec 13) (s : State) : Host.Outcome State Fault Refusal := live s (fun s => windowAfter s (opBankSwap q s))

/-- POP (R520). -/
def execPop (p : HPort) (q : BitVec 13) (ok : Bool) (s : State) : Host.Outcome State Fault Refusal := live s (fun s => windowAfter s (opPop p q ok s))

/-- POST (R528). -/
def execPost (p : HPort) (q : BitVec 13) (off : Nat) (bytes : List (BitVec 8)) (s : State) : Host.Outcome State Fault Refusal := live s (opPost p q off bytes)

/-- RECORD_OWNERSHIP_LAPSE (R520). -/
def execRecordOwnershipLapse (q : BitVec 13) (s : State) : Host.Outcome State Fault Refusal := live s (fun s => windowAfter s (opRecordOwnershipLapse q s))

/-- POP_STALL_EXPIRY (R524). -/
def execPopStallExpiry (q : BitVec 13) (s : State) : Host.Outcome State Fault Refusal := live s (fun s => windowAfter s (opPopStallExpiry q s))

/-- COUNTER_GATHER (R530). -/
def execCounterGather (s : State) : Host.Outcome State Fault Refusal := live s opCounterGather

/-- TALLY_EXPORT (R498). -/
def execTallyExport (s : State) : Host.Outcome State Fault Refusal := live s opTallyExport

/-- AUTO_CHECKPOINT (R503). -/
def execAutoCheckpoint (s : State) : Host.Outcome State Fault Refusal := live s opAutoCheckpoint

/-- UNLOCK_EXPIRY (R476). -/
def execUnlockExpiry (o : Origin) (s : State) : Host.Outcome State Fault Refusal := live s (opUnlockExpiry o)

/-- REGISTER_WRITE (R472). -/
def execRegisterWrite (o : Origin) (a : BitVec 24) (size : Nat) (v : BitVec 512) (s : State) : Host.Outcome State Fault Refusal := live s (fun s => windowAfter s (followAfter s (opRegisterWrite o a size v s)))

/-- STAGED_WORD_WRITE (R51). -/
def execStagedWordWrite (o : Origin) (a : BitVec 24) (v : Word) (s : State) : Host.Outcome State Fault Refusal := live s (fun s => followAfter s (opStagedWordWrite o a v s))

/-- STATUS_CLEAR (R480). -/
def execStatusClear (o : Origin) (a : BitVec 24) (v : Word) (s : State) : Host.Outcome State Fault Refusal := live s (fun s => followAfter s (opStatusClear o a v s))

/-- GL_UNLOCK (R476). -/
def execGlUnlock (o : Origin) (block : BitVec 5) (key : BitVec 16) (s : State) : Host.Outcome State Fault Refusal := live s (opGlUnlock o block key)

/-- SNAPSHOT (R481). -/
def execSnapshot (o : Origin) (s : State) : Host.Outcome State Fault Refusal := live s (opSnapshot o)

/-- MOP_CLEAN (R211). -/
def execMopClean (o : Origin) (range : Bool) (s : State) : Host.Outcome State Fault Refusal := live s (fun s => follow (opMopClean o range s))

/-- MOP_FLUSH (R211). -/
def execMopFlush (o : Origin) (range : Bool) (s : State) : Host.Outcome State Fault Refusal := live s (fun s => follow (opMopFlush o range s))

/-- DIE_RESEED (R193). -/
def execDieReseed (o : Origin) (v : Word) (s : State) : Host.Outcome State Fault Refusal := live s (opDieReseed o v)

/-- DR_PROBE (R115). -/
def execDrProbe (o : Origin) (v : Word) (s : State) : Host.Outcome State Fault Refusal := live s (opDrProbe o v)

/-- HF_PROBE (R115). -/
def execHfProbe (o : Origin) (v : Word) (s : State) : Host.Outcome State Fault Refusal := live s (opHfProbe o v)

/-- ORIGIN_ARM (R222). -/
def execOriginArm (o : Origin) (v : Word) (s : State) : Host.Outcome State Fault Refusal := live s (opOriginArm o v)

/-- ORIGIN_DISARM (R222). -/
def execOriginDisarm (o : Origin) (s : State) : Host.Outcome State Fault Refusal := live s (opOriginDisarm o)

/-- LINK_RETRAIN_REQUEST (R309). -/
def execLinkRetrainRequest (o : Origin) (p : IPort) (s : State) : Host.Outcome State Fault Refusal := live s (opLinkRetrainRequest o p)

/-- IDIOR_PORT_ENABLE (R308). -/
def execIdiorPortEnable (o : Origin) (p : IPort) (s : State) : Host.Outcome State Fault Refusal := live s (opIdiorPortEnable o p)

/-- HOST_PORT_DISABLE (R358). -/
def execHostPortDisable (o : Origin) (p : HPort) (s : State) : Host.Outcome State Fault Refusal := live s (fun s => followAfter s (opHostPortDisable o p s))

/-- HOST_PORT_ENABLE (R358). -/
def execHostPortEnable (o : Origin) (p : HPort) (s : State) : Host.Outcome State Fault Refusal := live s (opHostPortEnable o p)

/-- CELLAR_PORT_ENABLE (R376). -/
def execCellarPortEnable (o : Origin) (d : DPort) (s : State) : Host.Outcome State Fault Refusal := live s (opCellarPortEnable o d)

/-- REKEY_START (R456). -/
def execRekeyStart (o : Origin) (v : Word) (s : State) : Host.Outcome State Fault Refusal := live s (opRekeyStart o v)

/-- QUEUE_FLUSH (R523). -/
def execQueueFlush (o : Origin) (q : BitVec 13) (s : State) : Host.Outcome State Fault Refusal := live s (fun s => windowAfter s (opQueueFlush o q s))

/-- QUEUE_ENABLE (R516). -/
def execQueueEnable (o : Origin) (q : BitVec 13) (size : BitVec 4) (s : State) : Host.Outcome State Fault Refusal := live s (opQueueEnable o q size)

/-- QUEUE_DISABLE (R516). -/
def execQueueDisable (o : Origin) (q : BitVec 13) (s : State) : Host.Outcome State Fault Refusal := live s (fun s => windowAfter s (opQueueDisable o q s))

/-- WRAP_CLEAR_ONE (R531). -/
def execWrapClearOne (o : Origin) (idx : BitVec 12) (s : State) : Host.Outcome State Fault Refusal := live s (opWrapClearOne o idx)

/-- WRAP_CLEAR_ALL (R531). -/
def execWrapClearAll (o : Origin) (s : State) : Host.Outcome State Fault Refusal := live s (opWrapClearAll o)

/-- SAMPLING_CONTROL (R532). -/
def execSamplingControl (o : Origin) (v : Word) (s : State) : Host.Outcome State Fault Refusal := live s (opSamplingControl o v)

/-- WINDOW_ENABLE (R47). -/
def execWindowEnable (o : Origin) (p : HPort) (n : BitVec 8) (v : Word) (s : State) : Host.Outcome State Fault Refusal := live s (opWindowEnable o p n v)

/-- WINDOW_DISABLE (R53). -/
def execWindowDisable (o : Origin) (p : HPort) (n : BitVec 8) (v : Word) (s : State) : Host.Outcome State Fault Refusal := live s (opWindowDisable o p n v)

/-- MEMBERSHIP_SET (R60). -/
def execMembershipSet (o : Origin) (hub : HubId) (s : State) : Host.Outcome State Fault Refusal := live s (opMembershipSet o hub)

/-- MEMBERSHIP_CLEAR (R61). -/
def execMembershipClear (o : Origin) (hub : HubId) (s : State) : Host.Outcome State Fault Refusal := live s (opMembershipClear o hub)

/-- KEY_RANGE_TYPE_CHANGE (R77). -/
def execKeyRangeTypeChange (o : Origin) (n : BitVec 12) (type : BitVec 2) (s : State) : Host.Outcome State Fault Refusal := live s (opKeyRangeTypeChange o n type)

/-- SQUARE_WRITE (R252). -/
def execSquareWrite (o : Origin) (board : Fin 92) (square : Nat) (v : Word) (s : State) : Host.Outcome State Fault Refusal := live s (opSquareWrite o board square v)

/-- MIRROR_ENTRY_WRITE (R339). -/
def execMirrorEntryWrite (o : Origin) (n : Fin 8) (v : BitVec 128) (s : State) : Host.Outcome State Fault Refusal := live s (opMirrorEntryWrite o n v)

/-- IDENTIFY (R489). -/
def execIdentify (mb : Mailbox) (tag : BitVec 16) (s : State) : Host.Outcome State Fault Refusal := always s (opIdentify mb tag)

/-- BACKGROUND_OPERATION_STATUS (R486). -/
def execBackgroundOperationStatus (mb : Mailbox) (tag : BitVec 16) (s : State) : Host.Outcome State Fault Refusal := always s (opBackgroundOperationStatus mb tag)

/-- GET_EVENT_RECORDS (R513). -/
def execGetEventRecords (mb : Mailbox) (tag : BitVec 16) (log : Fin 4) (s : State) : Host.Outcome State Fault Refusal := always s (opGetEventRecords mb tag log)

/-- CLEAR_EVENT_RECORDS (R513). -/
def execClearEventRecords (mb : Mailbox) (tag : BitVec 16) (log : Fin 4) (all : Bool) (handles : List Nat) (s : State) : Host.Outcome State Fault Refusal := always s (opClearEventRecords mb tag log all handles)

/-- GET_EVENT_INTERRUPT_POLICY (R489). -/
def execGetEventInterruptPolicy (mb : Mailbox) (tag : BitVec 16) (s : State) : Host.Outcome State Fault Refusal := always s (opGetEventInterruptPolicy mb tag)

/-- SET_EVENT_INTERRUPT_POLICY (R489). -/
def execSetEventInterruptPolicy (mb : Mailbox) (tag : BitVec 16) (v : Word) (s : State) : Host.Outcome State Fault Refusal := always s (opSetEventInterruptPolicy mb tag v)

/-- GET_FW_INFO (R491). -/
def execGetFwInfo (mb : Mailbox) (tag : BitVec 16) (s : State) : Host.Outcome State Fault Refusal := always s (opGetFwInfo mb tag)

/-- TRANSFER_FW (R492). -/
def execTransferFw (mb : Mailbox) (tag : BitVec 16) (part : FwPart) (s : State) : Host.Outcome State Fault Refusal := always s (opTransferFw mb tag part)

/-- ACTIVATE_FW (R494). -/
def execActivateFw (mb : Mailbox) (tag : BitVec 16) (online : Bool) (s : State) : Host.Outcome State Fault Refusal := always s (opActivateFw mb tag online)

/-- GET_TIMESTAMP (R489). -/
def execGetTimestamp (mb : Mailbox) (tag : BitVec 16) (s : State) : Host.Outcome State Fault Refusal := always s (opGetTimestamp mb tag)

/-- SET_TIMESTAMP (R489). -/
def execSetTimestamp (mb : Mailbox) (tag : BitVec 16) (t : Word) (s : State) : Host.Outcome State Fault Refusal := always s (opSetTimestamp mb tag t)

/-- GET_SUPPORTED_LOGS (R489). -/
def execGetSupportedLogs (mb : Mailbox) (tag : BitVec 16) (s : State) : Host.Outcome State Fault Refusal := always s (opGetSupportedLogs mb tag)

/-- GET_LOG (R489). -/
def execGetLog (mb : Mailbox) (tag : BitVec 16) (s : State) : Host.Outcome State Fault Refusal := always s (opGetLog mb tag)

/-- IDENTIFY_MEMORY_DEVICE (R363). -/
def execIdentifyMemoryDevice (mb : Mailbox) (tag : BitVec 16) (s : State) : Host.Outcome State Fault Refusal := always s (opIdentifyMemoryDevice mb tag)

/-- GET_HEALTH_INFO (R489). -/
def execGetHealthInfo (mb : Mailbox) (tag : BitVec 16) (s : State) : Host.Outcome State Fault Refusal := always s (opGetHealthInfo mb tag)

/-- GET_ALERT_CONFIG (R489). -/
def execGetAlertConfig (mb : Mailbox) (tag : BitVec 16) (s : State) : Host.Outcome State Fault Refusal := always s (opGetAlertConfig mb tag)

/-- SET_ALERT_CONFIG (R489). -/
def execSetAlertConfig (mb : Mailbox) (tag : BitVec 16) (v : Word) (s : State) : Host.Outcome State Fault Refusal := always s (opSetAlertConfig mb tag v)

/-- GET_SHUTDOWN_STATE (R296). -/
def execGetShutdownState (mb : Mailbox) (tag : BitVec 16) (s : State) : Host.Outcome State Fault Refusal := always s (opGetShutdownState mb tag)

/-- SET_SHUTDOWN_STATE (R296). -/
def execSetShutdownState (mb : Mailbox) (tag : BitVec 16) (dirty : Bool) (s : State) : Host.Outcome State Fault Refusal := always s (opSetShutdownState mb tag dirty)

/-- GET_POISON_LIST (R489). -/
def execGetPoisonList (mb : Mailbox) (tag : BitVec 16) (s : State) : Host.Outcome State Fault Refusal := always s (opGetPoisonList mb tag)

/-- UNSUPPORTED_COMMAND (R490). -/
def execUnsupportedCommand (mb : Mailbox) (tag : BitVec 16) (opcode : BitVec 16) (s : State) : Host.Outcome State Fault Refusal := always s (opUnsupportedCommand mb tag opcode)

/-- PELEST_INFO (R490). -/
def execPelestInfo (mb : Mailbox) (tag : BitVec 16) (s : State) : Host.Outcome State Fault Refusal := always s (opPelestInfo mb tag)

/-- REG_READ (R469). -/
def execRegRead (mb : Mailbox) (tag : BitVec 16) (a : BitVec 24) (n : Nat) (s : State) : Host.Outcome State Fault Refusal := always s (opRegRead mb tag a n)

/-- REG_WRITE (R469). -/
def execRegWrite (mb : Mailbox) (tag : BitVec 16) (pairs : List (BitVec 24 × Word)) (s : State) : Host.Outcome State Fault Refusal := always s (fun s => windowAfter s (followAfter s (opRegWrite mb tag pairs s)))

/-- HUB_RESET (R554). -/
def execHubReset (mb : Mailbox) (tag : BitVec 16) (s : State) : Host.Outcome State Fault Refusal := always s (fun s => follow (opHubReset mb tag s))

/-- PELEST_RESTART (R488). -/
def execPelestRestart (mb : Mailbox) (tag : BitVec 16) (s : State) : Host.Outcome State Fault Refusal := always s (opPelestRestart mb tag)

/-- FW_STAGE (R492). -/
def execFwStage (mb : Mailbox) (tag : BitVec 16) (part : FwPart) (s : State) : Host.Outcome State Fault Refusal := always s (opFwStage mb tag part)

/-- BOOT_RECOVERY_STAGE (R493). -/
def execBootRecoveryStage (part : FwPart) (s : State) : Host.Outcome State Fault Refusal := always s (opBootRecoveryStage part)

/-- FW_ACTIVATE (R494). -/
def execFwActivate (mb : Mailbox) (tag : BitVec 16) (s : State) : Host.Outcome State Fault Refusal := always s (opFwActivate mb tag)

/-- FW_ACTIVATE_OFFLINE (R494). -/
def execFwActivateOffline (mb : Mailbox) (tag : BitVec 16) (s : State) : Host.Outcome State Fault Refusal := always s (opFwActivateOffline mb tag)

/-- FW_COMMIT (R496). -/
def execFwCommit (mb : Mailbox) (tag : BitVec 16) (s : State) : Host.Outcome State Fault Refusal := always s (opFwCommit mb tag)

/-- TALLY_VERIFY (R501). -/
def execTallyVerify (mb : Mailbox) (tag : BitVec 16) (boot : BitVec 32) (mac : Word) (recs : List (BitVec 512)) (s : State) : Host.Outcome State Fault Refusal := always s (opTallyVerify mb tag boot mac recs)

/-- TALLY_CHECKPOINT (R503). -/
def execTallyCheckpoint (mb : Mailbox) (tag : BitVec 16) (s : State) : Host.Outcome State Fault Refusal := always s (opTallyCheckpoint mb tag)

/-- SNAPSHOT_AT (R482). -/
def execSnapshotAt (mb : Mailbox) (tag : BitVec 16) (t : Word) (fabric : Bool) (s : State) : Host.Outcome State Fault Refusal := always s (opSnapshotAt mb tag t fabric)

/-- BOARD_WRITE (R490). -/
def execBoardWrite (mb : Mailbox) (tag : BitVec 16) (triples : List (Nat × Nat × Word)) (at_ : Option Word) (s : State) : Host.Outcome State Fault Refusal := always s (opBoardWrite mb tag triples at_)

/-- KEY_LOAD (R452). -/
def execKeyLoad (mb : Mailbox) (tag : BitVec 16) (slot : BitVec 10) (key : Option (BitVec 256)) (persist : Bool) (s : State) : Host.Outcome State Fault Refusal := always s (opKeyLoad mb tag slot key persist)

/-- KEY_RETIRE (R453). -/
def execKeyRetire (mb : Mailbox) (tag : BitVec 16) (slot : BitVec 10) (s : State) : Host.Outcome State Fault Refusal := always s (fun s => follow (opKeyRetire mb tag slot s))

/-- LINK_KEY (R459). -/
def execLinkKey (mb : Mailbox) (tag : BitVec 16) (p : IPort) (key : BitVec 256) (s : State) : Host.Outcome State Fault Refusal := always s (opLinkKey mb tag p key)

/-- SEAL_INIT (R449). -/
def execSealInit (mb : Mailbox) (tag : BitVec 16) (s : State) : Host.Outcome State Fault Refusal := always s (fun s => follow (opSealInit mb tag s))

/-- SEAL_REBUILD (R450). -/
def execSealRebuild (mb : Mailbox) (tag : BitVec 16) (s : State) : Host.Outcome State Fault Refusal := always s (fun s => follow (opSealRebuild mb tag s))

/-- ROUTE_SET (R321). -/
def execRouteSet (mb : Mailbox) (tag : BitVec 16) (entries : List (HubId × Word)) (s : State) : Host.Outcome State Fault Refusal := always s (opRouteSet mb tag entries)

/-- FABRIC_JOIN (R328). -/
def execFabricJoin (mb : Mailbox) (tag : BitVec 16) (s : State) : Host.Outcome State Fault Refusal := always s (fun s => follow (opFabricJoin mb tag s))

/-- BUDDY_PAIR (R338). -/
def execBuddyPair (mb : Mailbox) (tag : BitVec 16) (hub : HubId) (s : State) : Host.Outcome State Fault Refusal := always s (fun s => follow (opBuddyPair mb tag hub s))

/-- BUDDY_UNPAIR (R338). -/
def execBuddyUnpair (mb : Mailbox) (tag : BitVec 16) (s : State) : Host.Outcome State Fault Refusal := always s (fun s => follow (opBuddyUnpair mb tag s))

/-- TAKEOVER (R351). -/
def execTakeover (mb : Mailbox) (tag : BitVec 16) (s : State) : Host.Outcome State Fault Refusal := always s (fun s => follow (opTakeover mb tag s))

/-- TAKEOVER_HANDBACK (R352). -/
def execTakeoverHandback (mb : Mailbox) (tag : BitVec 16) (s : State) : Host.Outcome State Fault Refusal := always s (fun s => follow (opTakeoverHandback mb tag s))

/-- RETIRE_FRAME (R180). -/
def execRetireFrame (mb : Mailbox) (tag : BitVec 16) (set : Nat) (way : Nat) (s : State) : Host.Outcome State Fault Refusal := always s (fun s => follow (opRetireFrame mb tag set way s))

/-- RETIRE_PC (R181). -/
def execRetirePc (mb : Mailbox) (tag : BitVec 16) (pc : Nat) (s : State) : Host.Outcome State Fault Refusal := always s (fun s => follow (opRetirePc mb tag pc s))

/-- SPARE_ROW (R403). -/
def execSpareRow (mb : Mailbox) (tag : BitVec 16) (unit : Fin 16) (row : Nat) (s : State) : Host.Outcome State Fault Refusal := always s (fun s => follow (opSpareRow mb tag unit row s))

/-- SPARE_BANK (R412). -/
def execSpareBank (mb : Mailbox) (tag : BitVec 16) (bank : Nat) (s : State) : Host.Outcome State Fault Refusal := always s (fun s => follow (opSpareBank mb tag bank s))

/-- RETIRE_PAGE (R413). -/
def execRetirePage (mb : Mailbox) (tag : BitVec 16) (page : Nat) (s : State) : Host.Outcome State Fault Refusal := always s (fun s => follow (opRetirePage mb tag page s))

/-- SLICE_DRAIN (R572). -/
def execSliceDrain (mb : Mailbox) (tag : BitVec 16) (slice : Fin 32) (hold : Bool) (s : State) : Host.Outcome State Fault Refusal := always s (fun s => follow (opSliceDrain mb tag slice hold s))

/-- SLICE_DRAIN_RELEASE (R573). -/
def execSliceDrainRelease (mb : Mailbox) (tag : BitVec 16) (slice : Fin 32) (s : State) : Host.Outcome State Fault Refusal := always s (fun s => follow (opSliceDrainRelease mb tag slice s))

/-- PERST_DEASSERT (R554). -/
def execPerstDeassert (s : State) : Host.Outcome State Fault Refusal := always s opPerstDeassert

/-- PWR_WARN_DEASSERT (R545). -/
def execPwrWarnDeassert (s : State) : Host.Outcome State Fault Refusal := always s opPwrWarnDeassert

/-- RAIL_ABOVE_WARNING (R545). -/
def execRailAboveWarning (rail : Fin 5) (mv : Nat) (s : State) : Host.Outcome State Fault Refusal := always s (opRailAboveWarning rail mv)

/-- L1_EXIT (R562). -/
def execL1Exit (p : HPort) (s : State) : Host.Outcome State Fault Refusal := live s (opL1Exit p)

/-- ENUMERATION_END (R376). -/
def execEnumerationEnd (d : DPort) (e : ExpanderInfo) (s : State) : Host.Outcome State Fault Refusal := always s (fun s => follow (opEnumerationEnd d e s))

/-- HEAD_CONFIGURATION_REQUEST (R363). -/
def execHeadConfigurationRequest (p : HPort) (c : HeadCfg) (s : State) : Host.Outcome State Fault Refusal := always s (opHeadConfigurationRequest p c)

/-- SPDM_MESSAGE (R452). -/
def execSpdmMessage (mb : Mailbox) (m : SpdmMsg) (s : State) : Host.Outcome State Fault Refusal := always s (opSpdmMessage mb m)

/-- IDIOR_PORT_DISABLE (R308). -/
def execIdiorPortDisable (o : Origin) (p : IPort) (s : State) : Host.Outcome State Fault Refusal := live s (opIdiorPortDisable o p)

/-- AGENT_AER_MESSAGE (R378). -/
def execAgentAerMessage (p : HPort) (s : State) : Host.Outcome State Fault Refusal := live s (opAgentAerMessage p)

/-- PCIE_LINK_RECOVERY (R378). -/
def execPcieLinkRecovery (port : PciePort) (s : State) : Host.Outcome State Fault Refusal := live s (opPcieLinkRecovery port)

/-- HOST_LINK_RECOVERY_END (R378). -/
def execHostLinkRecoveryEnd (p : HostTrain) (s : State) : Host.Outcome State Fault Refusal := live s (opHostLinkRecoveryEnd p)

end Sys2Proof.Machine
end

