-- ==== Sys2Proof/Machine/Dispatch.lean ====
section
/-! DEFINITION. The dispatcher: one arm for each command. -/

namespace Sys2Proof.Machine

/-- A command's effect on everything but the queue. -/
def exec (i : Instr) (s : State) : Host.Outcome State Fault Refusal :=
  match i with
  | .memrdSnpdata r => Sys2Proof.Machine.execMemrdSnpdata r s
  | .memrddata r => Sys2Proof.Machine.execMemrddata r s
  | .memrdSnpinv r => Sys2Proof.Machine.execMemrdSnpinv r s
  | .meminv r nt => Sys2Proof.Machine.execMeminv r nt s
  | .memrdSnpcur r => Sys2Proof.Machine.execMemrdSnpcur r s
  | .memspecrd r => Sys2Proof.Machine.execMemspecrd r s
  | .memclnevct r => Sys2Proof.Machine.execMemclnevct r s
  | .memwrExclusive r w => Sys2Proof.Machine.execMemwrExclusive r w s
  | .memwrOtherHost r w => Sys2Proof.Machine.execMemwrOtherHost r w s
  | .snoopWriteBack r w => Sys2Proof.Machine.execSnoopWriteBack r w s
  | .birsp p hpa rsp => Sys2Proof.Machine.execBirsp p hpa rsp s
  | .biconflict p hpa tag => Sys2Proof.Machine.execBiconflict p hpa tag s
  | .agentMemoryRead r lines tph => Sys2Proof.Machine.execAgentMemoryRead r lines tph s
  | .agentPostedWrite r w ro tph => Sys2Proof.Machine.execAgentPostedWrite r w ro tph s
  | .agentWriteRelease p => Sys2Proof.Machine.execAgentWriteRelease p s
  | .agentAtomicop r op size a b => Sys2Proof.Machine.execAgentAtomicop r op size a b s
  | .agentInterruptWrite p hpa data => Sys2Proof.Machine.execAgentInterruptWrite p hpa data s
  | .agentPasidAtsRequest p tag => Sys2Proof.Machine.execAgentPasidAtsRequest p tag s
  | .configRequest o p v => Sys2Proof.Machine.execConfigRequest o p v s
  | .configCompletion p cs data => Sys2Proof.Machine.execConfigCompletion p cs data s
  | .configTimeout p => Sys2Proof.Machine.execConfigTimeout p s
  | .hostIdeFailure p => Sys2Proof.Machine.execHostIdeFailure p s
  | .ideKmMessage p m => Sys2Proof.Machine.execIdeKmMessage p m s
  | .gpfPhase2Request p => Sys2Proof.Machine.execGpfPhase2Request p s
  | .hostLinkDown p => Sys2Proof.Machine.execHostLinkDown p s
  | .portReset p => Sys2Proof.Machine.execPortReset p s
  | .functionLevelReset p => Sys2Proof.Machine.execFunctionLevelReset p s
  | .l0pRequest p width => Sys2Proof.Machine.execL0pRequest p width s
  | .l0pIdleNarrow p => Sys2Proof.Machine.execL0pIdleNarrow p s
  | .l1Entry p => Sys2Proof.Machine.execL1Entry p s
  | .admissionRetry => Sys2Proof.Machine.execAdmissionRetry s
  | .cellFree cell => Sys2Proof.Machine.execCellFree cell s
  | .handOver p region stride => Sys2Proof.Machine.execHandOver p region stride s
  | .ssdIdleTimeout p => Sys2Proof.Machine.execSsdIdleTimeout p s
  | .rds h => Sys2Proof.Machine.execRds h s
  | .rdx h => Sys2Proof.Machine.execRdx h s
  | .rdo h => Sys2Proof.Machine.execRdo h s
  | .upg h => Sys2Proof.Machine.execUpg h s
  | .wrl h d => Sys2Proof.Machine.execWrl h d s
  | .wrp h d => Sys2Proof.Machine.execWrp h d s
  | .atm h d => Sys2Proof.Machine.execAtm h d s
  | .fncHub h => Sys2Proof.Machine.execFncHub h s
  | .fncHomeStep h => Sys2Proof.Machine.execFncHomeStep h s
  | .evc h => Sys2Proof.Machine.execEvc h s
  | .wbd h d => Sys2Proof.Machine.execWbd h d s
  | .mrw h d => Sys2Proof.Machine.execMrw h d s
  | .mrctl h start entry => Sys2Proof.Machine.execMrctl h start entry s
  | .snps h => Sys2Proof.Machine.execSnps h s
  | .snpx h => Sys2Proof.Machine.execSnpx h s
  | .snpi h => Sys2Proof.Machine.execSnpi h s
  | .snpbc h => Sys2Proof.Machine.execSnpbc h s
  | .dats h d => Sys2Proof.Machine.execDats h d s
  | .datf h d => Sys2Proof.Machine.execDatf h d s
  | .date h d => Sys2Proof.Machine.execDate h d s
  | .datm h d => Sys2Proof.Machine.execDatm h d s
  | .fwds h d => Sys2Proof.Machine.execFwds h d s
  | .fwdx h d => Sys2Proof.Machine.execFwdx h d s
  | .ackd h d => Sys2Proof.Machine.execAckd h d s
  | .gntx h => Sys2Proof.Machine.execGntx h s
  | .ack h => Sys2Proof.Machine.execAck h s
  | .acke h => Sys2Proof.Machine.execAcke h s
  | .cmp h => Sys2Proof.Machine.execCmp h s
  | .cmpFence h => Sys2Proof.Machine.execCmpFence h s
  | .wback h => Sys2Proof.Machine.execWback h s
  | .fin h => Sys2Proof.Machine.execFin h s
  | .mrack h => Sys2Proof.Machine.execMrack h s
  | .rdr h => Sys2Proof.Machine.execRdr h s
  | .keepWindowClose line => Sys2Proof.Machine.execKeepWindowClose line s
  | .waiterDecision line => Sys2Proof.Machine.execWaiterDecision line s
  | .plnote h => Sys2Proof.Machine.execPlnote h s
  | .releaseAfterMiss line => Sys2Proof.Machine.execReleaseAfterMiss line s
  | .missRegisterFree slice => Sys2Proof.Machine.execMissRegisterFree slice s
  | .httEntryFree slice => Sys2Proof.Machine.execHttEntryFree slice s
  | .directoryWayFree slice set => Sys2Proof.Machine.execDirectoryWayFree slice set s
  | .hostFilterWayFree slice set => Sys2Proof.Machine.execHostFilterWayFree slice set s
  | .cacheWayFree line => Sys2Proof.Machine.execCacheWayFree line s
  | .mergingEntryFree slice => Sys2Proof.Machine.execMergingEntryFree slice s
  | .evictionEntryFree slice => Sys2Proof.Machine.execEvictionEntryFree slice s
  | .frameEvictionDone slice set way => Sys2Proof.Machine.execFrameEvictionDone slice set way s
  | .frameTagFetchDone slice set ecc => Sys2Proof.Machine.execFrameTagFetchDone slice set ecc s
  | .hbmAccessDone pc ecc => Sys2Proof.Machine.execHbmAccessDone pc ecc s
  | .flushPendingApply line => Sys2Proof.Machine.execFlushPendingApply line s
  | .mergingBufferAge granule => Sys2Proof.Machine.execMergingBufferAge granule s
  | .mergingDrainQueued granule => Sys2Proof.Machine.execMergingDrainQueued granule s
  | .cellarResponse r => Sys2Proof.Machine.execCellarResponse r s
  | .cellarWriteCompletion granule => Sys2Proof.Machine.execCellarWriteCompletion granule s
  | .resealDone block => Sys2Proof.Machine.execResealDone block s
  | .sealWritebackDue level index => Sys2Proof.Machine.execSealWritebackDue level index s
  | .messageRouteResume => Sys2Proof.Machine.execMessageRouteResume s
  | .biSnoopTimeout p line => Sys2Proof.Machine.execBiSnoopTimeout p line s
  | .snoopTimeout line hub => Sys2Proof.Machine.execSnoopTimeout line hub s
  | .responseResendTimeout line => Sys2Proof.Machine.execResponseResendTimeout line s
  | .responseRetentionExpiry line => Sys2Proof.Machine.execResponseRetentionExpiry line s
  | .deadHomeWaitExpiry hub => Sys2Proof.Machine.execDeadHomeWaitExpiry hub s
  | .probeTimer => Sys2Proof.Machine.execProbeTimer s
  | .takeoverWaitExpiry => Sys2Proof.Machine.execTakeoverWaitExpiry s
  | .mirrorResendTimeout => Sys2Proof.Machine.execMirrorResendTimeout s
  | .dsreport h payload => Sys2Proof.Machine.execDsreport h payload s
  | .dsassign h payload => Sys2Proof.Machine.execDsassign h payload s
  | .jnreq h payload => Sys2Proof.Machine.execJnreq h payload s
  | .joinAdmitDue hub => Sys2Proof.Machine.execJoinAdmitDue hub s
  | .jnadmit h payload => Sys2Proof.Machine.execJnadmit h payload s
  | .dhrpt h payload => Sys2Proof.Machine.execDhrpt h payload s
  | .dhnote h payload => Sys2Proof.Machine.execDhnote h payload s
  | .hubReclaimEnd hub => Sys2Proof.Machine.execHubReclaimEnd hub s
  | .dhdone h payload => Sys2Proof.Machine.execDhdone h payload s
  | .dhclear h payload => Sys2Proof.Machine.execDhclear h payload s
  | .tknote h payload => Sys2Proof.Machine.execTknote h payload s
  | .tkback h payload => Sys2Proof.Machine.execTkback h payload s
  | .lkseqq h payload => Sys2Proof.Machine.execLkseqq h payload s
  | .lkseqr h payload => Sys2Proof.Machine.execLkseqr h payload s
  | .lkseqTimeout p => Sys2Proof.Machine.execLkseqTimeout p s
  | .mbmsg h payload => Sys2Proof.Machine.execMbmsg h payload s
  | .dataFlit p f ps => Sys2Proof.Machine.execDataFlit p f ps s
  | .controlFlit p f => Sys2Proof.Machine.execControlFlit p f s
  | .nak p f => Sys2Proof.Machine.execNak p f s
  | .ackTimeout p => Sys2Proof.Machine.execAckTimeout p s
  | .ackReportTimer p => Sys2Proof.Machine.execAckReportTimer p s
  | .beacon p b rxt => Sys2Proof.Machine.execBeacon p b rxt s
  | .beaconTimer => Sys2Proof.Machine.execBeaconTimer s
  | .haltFlit p sender cause => Sys2Proof.Machine.execHaltFlit p sender cause s
  | .peerDetected p => Sys2Proof.Machine.execPeerDetected p s
  | .linkTrained p peer => Sys2Proof.Machine.execLinkTrained p peer s
  | .trainTimeout p => Sys2Proof.Machine.execTrainTimeout p s
  | .retrainDone p => Sys2Proof.Machine.execRetrainDone p s
  | .fastRetrainTimeout p => Sys2Proof.Machine.execFastRetrainTimeout p s
  | .retrainFailTimeout p => Sys2Proof.Machine.execRetrainFailTimeout p s
  | .fecLockLoss p => Sys2Proof.Machine.execFecLockLoss p s
  | .laneFault p lane lost => Sys2Proof.Machine.execLaneFault p lane lost s
  | .routeLossTimeout hub => Sys2Proof.Machine.execRouteLossTimeout hub s
  | .rootSequenceTick => Sys2Proof.Machine.execRootSequenceTick s
  | .rootSilenceTimeout => Sys2Proof.Machine.execRootSilenceTimeout s
  | .rootElection => Sys2Proof.Machine.execRootElection s
  | .timePpsEdge => Sys2Proof.Machine.execTimePpsEdge s
  | .originArmExpiry => Sys2Proof.Machine.execOriginArmExpiry s
  | .beaconLossTimeout => Sys2Proof.Machine.execBeaconLossTimeout s
  | .holdoverTimeout => Sys2Proof.Machine.execHoldoverTimeout s
  | .scheduledEventRun => Sys2Proof.Machine.execScheduledEventRun s
  | .squareStart board => Sys2Proof.Machine.execSquareStart board s
  | .roundStart => Sys2Proof.Machine.execRoundStart s
  | .watchdogBite board => Sys2Proof.Machine.execWatchdogBite board s
  | .watchdogResetEnd board => Sys2Proof.Machine.execWatchdogResetEnd board s
  | .doorbellRing p slot v => Sys2Proof.Machine.execDoorbellRing p slot v s
  | .fenceComplete p slot => Sys2Proof.Machine.execFenceComplete p slot s
  | .fenceLimitExpiry p slot => Sys2Proof.Machine.execFenceLimitExpiry p slot s
  | .apertureDescriptor p slot d => Sys2Proof.Machine.execApertureDescriptor p slot d s
  | .apertureIssue p slot => Sys2Proof.Machine.execApertureIssue p slot s
  | .porstAssert => Sys2Proof.Machine.execPorstAssert s
  | .porstDeassert straps => Sys2Proof.Machine.execPorstDeassert straps s
  | .coldResetReady => Sys2Proof.Machine.execColdResetReady s
  | .perstAssert => Sys2Proof.Machine.execPerstAssert s
  | .resetFlushEnd => Sys2Proof.Machine.execResetFlushEnd s
  | .flushTimeLimit => Sys2Proof.Machine.execFlushTimeLimit s
  | .warmResetReady => Sys2Proof.Machine.execWarmResetReady s
  | .gpfTimeExpiry => Sys2Proof.Machine.execGpfTimeExpiry s
  | .railWarning rail mv => Sys2Proof.Machine.execRailWarning rail mv s
  | .braceExitTimer => Sys2Proof.Machine.execBraceExitTimer s
  | .railResetLevel rail mv => Sys2Proof.Machine.execRailResetLevel rail mv s
  | .internalRelease straps => Sys2Proof.Machine.execInternalRelease straps s
  | .pwrWarnAssert => Sys2Proof.Machine.execPwrWarnAssert s
  | .pwrWarnSustained => Sys2Proof.Machine.execPwrWarnSustained s
  | .pwrWarnReleaseTimer => Sys2Proof.Machine.execPwrWarnReleaseTimer s
  | .tempSensorRead temps => Sys2Proof.Machine.execTempSensorRead temps s
  | .clockLoss domain => Sys2Proof.Machine.execClockLoss domain s
  | .timeRefRestore => Sys2Proof.Machine.execTimeRefRestore s
  | .managementClockReturn => Sys2Proof.Machine.execManagementClockReturn s
  | .jtagInstruction ir => Sys2Proof.Machine.execJtagInstruction ir s
  | .pelestWatchdog => Sys2Proof.Machine.execPelestWatchdog s
  | .pelestReady => Sys2Proof.Machine.execPelestReady s
  | .fwActivateTimeout => Sys2Proof.Machine.execFwActivateTimeout s
  | .dormantEntry stack => Sys2Proof.Machine.execDormantEntry stack s
  | .dormantExit stack => Sys2Proof.Machine.execDormantExit stack s
  | .loadBandChange load => Sys2Proof.Machine.execLoadBandChange load s
  | .loadVerificationEnd failed => Sys2Proof.Machine.execLoadVerificationEnd failed s
  | .retrainingEnd record params => Sys2Proof.Machine.execRetrainingEnd record params s
  | .droopRegatherDone record params => Sys2Proof.Machine.execDroopRegatherDone record params s
  | .cellarCommandTimeout d => Sys2Proof.Machine.execCellarCommandTimeout d s
  | .cellarRetrainDone d => Sys2Proof.Machine.execCellarRetrainDone d s
  | .cellarRetrainTimeout d => Sys2Proof.Machine.execCellarRetrainTimeout d s
  | .gmerPoll d records => Sys2Proof.Machine.execGmerPoll d records s
  | .scrubStep f => Sys2Proof.Machine.execScrubStep f s
  | .correctAndWrite unit addr => Sys2Proof.Machine.execCorrectAndWrite unit addr s
  | .rowSpareDone unit addr => Sys2Proof.Machine.execRowSpareDone unit addr s
  | .bankSpareDone bank => Sys2Proof.Machine.execBankSpareDone bank s
  | .bucketLeak bucket => Sys2Proof.Machine.execBucketLeak bucket s
  | .watchEntryExpiry unit addr => Sys2Proof.Machine.execWatchEntryExpiry unit addr s
  | .backgroundWorkUnit k => Sys2Proof.Machine.execBackgroundWorkUnit k s
  | .backgroundResume => Sys2Proof.Machine.execBackgroundResume s
  | .windowSweepEnd p n => Sys2Proof.Machine.execWindowSweepEnd p n s
  | .domainSweepEnd => Sys2Proof.Machine.execDomainSweepEnd s
  | .rangeFlushEnd => Sys2Proof.Machine.execRangeFlushEnd s
  | .hostReclaimEnd p => Sys2Proof.Machine.execHostReclaimEnd p s
  | .mirrorCopyEnd => Sys2Proof.Machine.execMirrorCopyEnd s
  | .rekeySweepEnd => Sys2Proof.Machine.execRekeySweepEnd s
  | .keyRetireEnd => Sys2Proof.Machine.execKeyRetireEnd s
  | .sliceDrainEnd => Sys2Proof.Machine.execSliceDrainEnd s
  | .rebuildEnd => Sys2Proof.Machine.execRebuildEnd s
  | .strongRebuildEnd d => Sys2Proof.Machine.execStrongRebuildEnd d s
  | .maintenanceOpEnd => Sys2Proof.Machine.execMaintenanceOpEnd s
  | .pageRetireEnd => Sys2Proof.Machine.execPageRetireEnd s
  | .pcRetireEnd => Sys2Proof.Machine.execPcRetireEnd s
  | .testFiring o src => Sys2Proof.Machine.execTestFiring o src s
  | .msixHoldoffExpiry src => Sys2Proof.Machine.execMsixHoldoffExpiry src s
  | .bankSwap q => Sys2Proof.Machine.execBankSwap q s
  | .pop p q ok => Sys2Proof.Machine.execPop p q ok s
  | .post p q off bytes => Sys2Proof.Machine.execPost p q off bytes s
  | .recordOwnershipLapse q => Sys2Proof.Machine.execRecordOwnershipLapse q s
  | .popStallExpiry q => Sys2Proof.Machine.execPopStallExpiry q s
  | .counterGather => Sys2Proof.Machine.execCounterGather s
  | .tallyExport => Sys2Proof.Machine.execTallyExport s
  | .autoCheckpoint => Sys2Proof.Machine.execAutoCheckpoint s
  | .unlockExpiry o => Sys2Proof.Machine.execUnlockExpiry o s
  | .registerWrite o a size v => Sys2Proof.Machine.execRegisterWrite o a size v s
  | .stagedWordWrite o a v => Sys2Proof.Machine.execStagedWordWrite o a v s
  | .statusClear o a v => Sys2Proof.Machine.execStatusClear o a v s
  | .glUnlock o block key => Sys2Proof.Machine.execGlUnlock o block key s
  | .snapshot o => Sys2Proof.Machine.execSnapshot o s
  | .mopClean o range => Sys2Proof.Machine.execMopClean o range s
  | .mopFlush o range => Sys2Proof.Machine.execMopFlush o range s
  | .dieReseed o v => Sys2Proof.Machine.execDieReseed o v s
  | .drProbe o v => Sys2Proof.Machine.execDrProbe o v s
  | .hfProbe o v => Sys2Proof.Machine.execHfProbe o v s
  | .originArm o v => Sys2Proof.Machine.execOriginArm o v s
  | .originDisarm o => Sys2Proof.Machine.execOriginDisarm o s
  | .linkRetrainRequest o p => Sys2Proof.Machine.execLinkRetrainRequest o p s
  | .idiorPortEnable o p => Sys2Proof.Machine.execIdiorPortEnable o p s
  | .hostPortDisable o p => Sys2Proof.Machine.execHostPortDisable o p s
  | .hostPortEnable o p => Sys2Proof.Machine.execHostPortEnable o p s
  | .cellarPortEnable o d => Sys2Proof.Machine.execCellarPortEnable o d s
  | .rekeyStart o v => Sys2Proof.Machine.execRekeyStart o v s
  | .queueFlush o q => Sys2Proof.Machine.execQueueFlush o q s
  | .queueEnable o q size => Sys2Proof.Machine.execQueueEnable o q size s
  | .queueDisable o q => Sys2Proof.Machine.execQueueDisable o q s
  | .wrapClearOne o idx => Sys2Proof.Machine.execWrapClearOne o idx s
  | .wrapClearAll o => Sys2Proof.Machine.execWrapClearAll o s
  | .samplingControl o v => Sys2Proof.Machine.execSamplingControl o v s
  | .windowEnable o p n v => Sys2Proof.Machine.execWindowEnable o p n v s
  | .windowDisable o p n v => Sys2Proof.Machine.execWindowDisable o p n v s
  | .membershipSet o hub => Sys2Proof.Machine.execMembershipSet o hub s
  | .membershipClear o hub => Sys2Proof.Machine.execMembershipClear o hub s
  | .keyRangeTypeChange o n type => Sys2Proof.Machine.execKeyRangeTypeChange o n type s
  | .squareWrite o board square v => Sys2Proof.Machine.execSquareWrite o board square v s
  | .mirrorEntryWrite o n v => Sys2Proof.Machine.execMirrorEntryWrite o n v s
  | .identify mb tag => Sys2Proof.Machine.execIdentify mb tag s
  | .backgroundOperationStatus mb tag => Sys2Proof.Machine.execBackgroundOperationStatus mb tag s
  | .getEventRecords mb tag log => Sys2Proof.Machine.execGetEventRecords mb tag log s
  | .clearEventRecords mb tag log all handles => Sys2Proof.Machine.execClearEventRecords mb tag log all handles s
  | .getEventInterruptPolicy mb tag => Sys2Proof.Machine.execGetEventInterruptPolicy mb tag s
  | .setEventInterruptPolicy mb tag v => Sys2Proof.Machine.execSetEventInterruptPolicy mb tag v s
  | .getFwInfo mb tag => Sys2Proof.Machine.execGetFwInfo mb tag s
  | .transferFw mb tag part => Sys2Proof.Machine.execTransferFw mb tag part s
  | .activateFw mb tag online => Sys2Proof.Machine.execActivateFw mb tag online s
  | .getTimestamp mb tag => Sys2Proof.Machine.execGetTimestamp mb tag s
  | .setTimestamp mb tag t => Sys2Proof.Machine.execSetTimestamp mb tag t s
  | .getSupportedLogs mb tag => Sys2Proof.Machine.execGetSupportedLogs mb tag s
  | .getLog mb tag => Sys2Proof.Machine.execGetLog mb tag s
  | .identifyMemoryDevice mb tag => Sys2Proof.Machine.execIdentifyMemoryDevice mb tag s
  | .getHealthInfo mb tag => Sys2Proof.Machine.execGetHealthInfo mb tag s
  | .getAlertConfig mb tag => Sys2Proof.Machine.execGetAlertConfig mb tag s
  | .setAlertConfig mb tag v => Sys2Proof.Machine.execSetAlertConfig mb tag v s
  | .getShutdownState mb tag => Sys2Proof.Machine.execGetShutdownState mb tag s
  | .setShutdownState mb tag dirty => Sys2Proof.Machine.execSetShutdownState mb tag dirty s
  | .getPoisonList mb tag => Sys2Proof.Machine.execGetPoisonList mb tag s
  | .unsupportedCommand mb tag opcode => Sys2Proof.Machine.execUnsupportedCommand mb tag opcode s
  | .pelestInfo mb tag => Sys2Proof.Machine.execPelestInfo mb tag s
  | .regRead mb tag a n => Sys2Proof.Machine.execRegRead mb tag a n s
  | .regWrite mb tag pairs => Sys2Proof.Machine.execRegWrite mb tag pairs s
  | .hubReset mb tag => Sys2Proof.Machine.execHubReset mb tag s
  | .pelestRestart mb tag => Sys2Proof.Machine.execPelestRestart mb tag s
  | .fwStage mb tag part => Sys2Proof.Machine.execFwStage mb tag part s
  | .bootRecoveryStage part => Sys2Proof.Machine.execBootRecoveryStage part s
  | .fwActivate mb tag => Sys2Proof.Machine.execFwActivate mb tag s
  | .fwActivateOffline mb tag => Sys2Proof.Machine.execFwActivateOffline mb tag s
  | .fwCommit mb tag => Sys2Proof.Machine.execFwCommit mb tag s
  | .tallyVerify mb tag boot mac recs => Sys2Proof.Machine.execTallyVerify mb tag boot mac recs s
  | .tallyCheckpoint mb tag => Sys2Proof.Machine.execTallyCheckpoint mb tag s
  | .snapshotAt mb tag t fabric => Sys2Proof.Machine.execSnapshotAt mb tag t fabric s
  | .boardWrite mb tag triples at_ => Sys2Proof.Machine.execBoardWrite mb tag triples at_ s
  | .keyLoad mb tag slot key persist => Sys2Proof.Machine.execKeyLoad mb tag slot key persist s
  | .keyRetire mb tag slot => Sys2Proof.Machine.execKeyRetire mb tag slot s
  | .linkKey mb tag p key => Sys2Proof.Machine.execLinkKey mb tag p key s
  | .sealInit mb tag => Sys2Proof.Machine.execSealInit mb tag s
  | .sealRebuild mb tag => Sys2Proof.Machine.execSealRebuild mb tag s
  | .routeSet mb tag entries => Sys2Proof.Machine.execRouteSet mb tag entries s
  | .fabricJoin mb tag => Sys2Proof.Machine.execFabricJoin mb tag s
  | .buddyPair mb tag hub => Sys2Proof.Machine.execBuddyPair mb tag hub s
  | .buddyUnpair mb tag => Sys2Proof.Machine.execBuddyUnpair mb tag s
  | .takeover mb tag => Sys2Proof.Machine.execTakeover mb tag s
  | .takeoverHandback mb tag => Sys2Proof.Machine.execTakeoverHandback mb tag s
  | .retireFrame mb tag set way => Sys2Proof.Machine.execRetireFrame mb tag set way s
  | .retirePc mb tag pc => Sys2Proof.Machine.execRetirePc mb tag pc s
  | .spareRow mb tag unit row => Sys2Proof.Machine.execSpareRow mb tag unit row s
  | .spareBank mb tag bank => Sys2Proof.Machine.execSpareBank mb tag bank s
  | .retirePage mb tag page => Sys2Proof.Machine.execRetirePage mb tag page s
  | .sliceDrain mb tag slice hold => Sys2Proof.Machine.execSliceDrain mb tag slice hold s
  | .sliceDrainRelease mb tag slice => Sys2Proof.Machine.execSliceDrainRelease mb tag slice s
  | .perstDeassert => Sys2Proof.Machine.execPerstDeassert s
  | .pwrWarnDeassert => Sys2Proof.Machine.execPwrWarnDeassert s
  | .railAboveWarning rail mv => Sys2Proof.Machine.execRailAboveWarning rail mv s
  | .l1Exit p => Sys2Proof.Machine.execL1Exit p s
  | .enumerationEnd d e => Sys2Proof.Machine.execEnumerationEnd d e s
  | .headConfigurationRequest p c => Sys2Proof.Machine.execHeadConfigurationRequest p c s
  | .spdmMessage mb m => Sys2Proof.Machine.execSpdmMessage mb m s
  | .idiorPortDisable o p => Sys2Proof.Machine.execIdiorPortDisable o p s
  | .agentAerMessage p => Sys2Proof.Machine.execAgentAerMessage p s
  | .pcieLinkRecovery port => Sys2Proof.Machine.execPcieLinkRecovery port s
  | .hostLinkRecoveryEnd p => Sys2Proof.Machine.execHostLinkRecoveryEnd p s

end Sys2Proof.Machine
end

