-- ==== Sys2Proof/Machine/Pins.lean ====
section
/-! DEFINITION. The output pins that follow from the state (13 R512, 11 R445, 15 R593). THERMTRIP_n is a pin of the state's own (R550). -/

namespace Sys2Proof.Machine

/-- A source with AL = 1 has its status bit set. -/
def alertSource (s : State) : Bool :=
  (List.range 288).any fun n => rdBit s (aEvRt n) 27 && bit (mgetD 0 s.ev.evStat (n / 48)) (n % 48)

/-- ALERT_n is asserted (R512): by a source with AL = 1, throughout a seal halt, and while no image runs after both failed to verify (R491). -/
def alertAsserted (s : State) : Bool :=
  s.halted.isSome || decide (s.part.phase = .noImage) || (decide (s.part.phase = .cold) && s.pwr.recovered) || alertSource s

/-- HALT_n is asserted (R445): throughout a seal halt. -/
def haltAsserted (s : State) : Bool := s.halted.isSome

/-- What TDO shifts out under the JTAG instruction IDCODE (R593): stepping B0, the part, and Quagitil's manufacturer code. -/
def jtagIdcode (s : State) : BitVec 32 := if isH1 s then 0x10481A3B else 0x10482A3B

end Sys2Proof.Machine
end

