-- ==== Sys2Proof/Safety.lean ====
section
/-! DEFINITION. What counts as a safe state and as a frozen block, in the terms that statements use. -/

namespace Sys2Proof

open Machine

/-- A step that ends in a next state which passes the test. -/
def NextIs (o : Host.Outcome State Fault Refusal) (p : State → Prop) : Prop :=
  match o with
  | .next t => p t
  | _ => False

/-- The hub is in service: out of reset, with no seal halt. -/
def InService (s : State) : Prop := s.halted = none ∧ s.part.phase = .ready

/-- What a seal halt stops (Table 11.7): `t` stands where `s` stood in its keys, seal state, hub cache, directory, host filter, home, requests, Larder,
Boards, cellar path, mirror, links, counters, event queues and Tally. -/
def Frozen (s t : State) : Prop :=
  t.halted = s.halted ∧ t.sl = s.sl ∧ t.hc = s.hc ∧ t.dir = s.dir ∧ t.hf = s.hf ∧ t.home = s.home ∧ t.req = s.req ∧ t.lar = s.lar ∧
    t.brd = s.brd ∧ t.cel = s.cel ∧ t.mir = s.mir ∧ t.links = s.links ∧ t.cnt = s.cnt ∧ t.ev.queues = s.ev.queues ∧
    t.ev.evStat = s.ev.evStat ∧ t.tly = s.tly

/-- The block held in a cold reset, whose seal halt it has ended (R446). -/
def ColdHeld (t : State) : Prop := t.halted = none ∧ t.part.phase = .held

/-- A mailbox takes a command of group `grp` (R485 to R490, R499): ready, no seal halt, Pelest up, the lead port's page, the group authorised, the Tally
not blocking, and no background command on it. -/
def MbAccepts (s : State) (mb : Mailbox) (grp : Nat) : Prop :=
  InService s ∧ pelestUp s = true ∧ (mb.val < 16 → nonLead s mb = false) ∧ (mbAuth s mb).testBit grp = true ∧
    blockedByTally s (mbOrigin mb) = false ∧ mget s.ctl.bg mb.val = none

/-- A request of class `tc` for a line, charged to epoch `e`, is not held at its input (R246, R249, R250): admission is open, nothing of its input and
class waits before it, its line stays at this home, best effort is not eased, and a timed class has its budget. -/
def Admits (s : State) (input tc : Nat) (line : LineAddr) (e : Nat) : Prop :=
  admitting s = true ∧ (∀ h, h ∈ s.lar.held → h.2 ≠ (input, tc)) ∧ leaving s line = false ∧ (4 ≤ tc → easing s = false) ∧
    (tc < 4 → refusingBoard s (sliceOf line) tc e (if input < 16 then some input else none) = none)

/-- A request has been accepted (R246, R247): no line has changed, and a timed class is charged on its slice's Board. -/
def Passed (s z : State) (line : LineAddr) (tc e : Nat) : Prop :=
  z.dir = s.dir ∧ z.home = s.home ∧ z.req = s.req ∧ z.cel = s.cel ∧ (tc < 4 → used z (sliceOf line) tc e = used s (sliceOf line) tc e + 1)

/-- Nothing of coherence or of the stored data has changed: directory, host filter, home, miss registers and waiting demands, hub cache, cellar path,
mirror, aperture slots, host steps, Larder, sweeps, background work and protection. -/
def Untouched (s t : State) : Prop :=
  t.dir = s.dir ∧ t.hf = s.hf ∧ t.home = s.home ∧ t.req = s.req ∧ t.hc = s.hc ∧ t.cel = s.cel ∧ t.mir = s.mir ∧ t.slots = s.slots ∧ t.hst = s.hst ∧
    t.lar = s.lar ∧ t.sweep = s.sweep ∧ t.bg = s.bg ∧ t.prot = s.prot

/-- The commands of an Idior link that only move flits or its state. -/
def linkCommand (c : Instr) : Bool := match c with
  | .dataFlit .. | .controlFlit .. | .nak .. | .ackTimeout .. | .ackReportTimer .. | .peerDetected .. | .trainTimeout .. | .retrainDone .. |
    .fastRetrainTimeout .. | .retrainFailTimeout .. | .fecLockLoss .. | .laneFault .. | .lkseqq .. | .lkseqr .. | .lkseqTimeout .. => true
  | _ => false

/-- The commands of fabric time, event queues, counters and the Tally that software does not send. -/
def recordCommand (c : Instr) : Bool := match c with
  | .beacon .. | .beaconTimer | .timePpsEdge | .originArmExpiry | .beaconLossTimeout | .holdoverTimeout | .scheduledEventRun | .msixHoldoffExpiry .. |
    .bankSwap .. | .pop .. | .post .. | .recordOwnershipLapse .. | .popStallExpiry .. | .counterGather | .tallyExport | .autoCheckpoint |
    .unlockExpiry .. => true
  | _ => false

/-- Square `q` of every Board after a reset, as SB_SQ codes it (R236): TM = 0xF; in square 16k + 15 the task of k mod 6. -/
def defaultSquare (q : Nat) : Nat := 15 + 16 * (if q % 16 = 15 then [1, 3, 4, 5, 6, 7].getD (q / 16 % 6) 0 else 0)

/-- Every Board of the part holds the default squares. -/
def DefaultSquares (s : State) : Prop :=
  ∀ b q, b < 92 → q < 512 → (isH1 s = false → b < 32 ∨ 48 ≤ b) → square s b q = defaultSquare q

/-- An origin's write to the register at `a` is judged by the register itself: its window is open and no pop holds it, the Tally does not block it, and it is not denied. -/
def Reaches (s : State) (o a : Nat) : Prop :=
  (o < 16 → windowPort s o = true ∧ popWaits s o = false) ∧ blockedByTally s o = false ∧ denied s o a (locate a) = false

end Sys2Proof
end

