-- ==== Sys2Proof/WellFormed.lean ====
section
/-! DEFINITION. Well-formed commands: an operand that the spec gives fewer values than its Lean type has lies within them. The types hold the
rest (a port, a slice, a mailbox, a bit field of a message). The block itself answers an ill-formed command as the spec says; no step refuses one. -/

namespace Sys2Proof

/-- The command's operands lie within what the spec gives them. -/
def Instr.wf (i : Instr) : Bool :=
  match i with
  | .memrdSnpdata _ => true
  | .memrddata _ => true
  | .memrdSnpinv _ => true
  | .meminv _ _ => true
  | .memrdSnpcur _ => true
  | .memspecrd _ => true
  | .memclnevct _ => true
  | .memwrExclusive _ _ => true
  | .memwrOtherHost _ _ => true
  | .snoopWriteBack _ _ => true
  | .birsp _ _ _ => true
  | .biconflict _ _ _ => true
  | .agentMemoryRead _ lines _ => decide (1 ≤ lines) && decide (lines ≤ 64)
  | .agentPostedWrite _ _ _ _ => true
  | .agentWriteRelease _ => true
  | .agentAtomicop _ _ size _ _ => size == 4 || size == 8 || size == 16
  | .agentInterruptWrite _ _ data => decide (data.length ≤ 64)
  | .agentPasidAtsRequest _ _ => true
  | .configRequest _ _ _ => true
  | .configCompletion _ _ _ => true
  | .configTimeout _ => true
  | .hostIdeFailure _ => true
  | .ideKmMessage _ _ => true
  | .gpfPhase2Request _ => true
  | .hostLinkDown _ => true
  | .portReset _ => true
  | .functionLevelReset _ => true
  | .l0pRequest _ width => width == 1 || width == 2 || width == 4 || width == 8 || width == 16
  | .l0pIdleNarrow _ => true
  | .l1Entry _ => true
  | .admissionRetry => true
  | .cellFree cell => decide (cell < 1048576)
  | .handOver _ region _ => decide (region < 2 ^ 48)
  | .ssdIdleTimeout _ => true
  | .rds _ => true
  | .rdx _ => true
  | .rdo _ => true
  | .upg _ => true
  | .wrl _ _ => true
  | .wrp _ _ => true
  | .atm _ _ => true
  | .fncHub _ => true
  | .fncHomeStep _ => true
  | .evc _ => true
  | .wbd _ _ => true
  | .mrw _ _ => true
  | .mrctl _ _ _ => true
  | .snps _ => true
  | .snpx _ => true
  | .snpi _ => true
  | .snpbc _ => true
  | .dats _ _ => true
  | .datf _ _ => true
  | .date _ _ => true
  | .datm _ _ => true
  | .fwds _ _ => true
  | .fwdx _ _ => true
  | .ackd _ _ => true
  | .gntx _ => true
  | .ack _ => true
  | .acke _ => true
  | .cmp _ => true
  | .cmpFence _ => true
  | .wback _ => true
  | .fin _ => true
  | .mrack _ => true
  | .rdr _ => true
  | .keepWindowClose _ => true
  | .waiterDecision _ => true
  | .plnote _ => true
  | .releaseAfterMiss _ => true
  | .missRegisterFree _ => true
  | .httEntryFree _ => true
  | .directoryWayFree _ set => decide (set < 32768)
  | .hostFilterWayFree _ set => decide (set < 32768)
  | .cacheWayFree _ => true
  | .mergingEntryFree _ => true
  | .evictionEntryFree _ => true
  | .frameEvictionDone _ set way => decide (set < 65536) && decide (way < 16)
  | .frameTagFetchDone _ set _ => decide (set < 65536)
  | .hbmAccessDone pc _ => decide (pc < 128)
  | .flushPendingApply _ => true
  | .mergingBufferAge granule => decide (granule < 2 ^ 40)
  | .mergingDrainQueued granule => decide (granule < 2 ^ 40)
  | .cellarResponse _ => true
  | .cellarWriteCompletion granule => decide (granule < 2 ^ 40)
  | .resealDone block => decide (block < 2 ^ 34)
  | .sealWritebackDue level _ => decide (level ≤ 11)
  | .messageRouteResume => true
  | .biSnoopTimeout _ _ => true
  | .snoopTimeout _ _ => true
  | .responseResendTimeout _ => true
  | .responseRetentionExpiry _ => true
  | .deadHomeWaitExpiry _ => true
  | .probeTimer => true
  | .takeoverWaitExpiry => true
  | .mirrorResendTimeout => true
  | .dsreport _ _ => true
  | .dsassign _ _ => true
  | .jnreq _ _ => true
  | .joinAdmitDue _ => true
  | .jnadmit _ _ => true
  | .dhrpt _ _ => true
  | .dhnote _ _ => true
  | .hubReclaimEnd _ => true
  | .dhdone _ _ => true
  | .dhclear _ _ => true
  | .tknote _ _ => true
  | .tkback _ _ => true
  | .lkseqq _ _ => true
  | .lkseqr _ _ => true
  | .lkseqTimeout _ => true
  | .mbmsg _ _ => true
  | .dataFlit _ _ ps => decide ((ps.map FlitPiece.size).sum = 7) && ps.all fun x => decide (0 < x.size)
  | .controlFlit _ _ => true
  | .nak _ _ => true
  | .ackTimeout _ => true
  | .ackReportTimer _ => true
  | .beacon _ _ _ => true
  | .beaconTimer => true
  | .haltFlit _ _ _ => true
  | .peerDetected _ => true
  | .linkTrained _ _ => true
  | .trainTimeout _ => true
  | .retrainDone _ => true
  | .fastRetrainTimeout _ => true
  | .retrainFailTimeout _ => true
  | .fecLockLoss _ => true
  | .laneFault _ lane _ => decide (lane < 16)
  | .routeLossTimeout _ => true
  | .rootSequenceTick => true
  | .rootSilenceTimeout => true
  | .rootElection => true
  | .timePpsEdge => true
  | .originArmExpiry => true
  | .beaconLossTimeout => true
  | .holdoverTimeout => true
  | .scheduledEventRun => true
  | .squareStart _ => true
  | .roundStart => true
  | .watchdogBite _ => true
  | .watchdogResetEnd _ => true
  | .doorbellRing _ _ _ => true
  | .fenceComplete _ _ => true
  | .fenceLimitExpiry _ _ => true
  | .apertureDescriptor _ _ _ => true
  | .apertureIssue _ _ => true
  | .porstAssert => true
  | .porstDeassert _ => true
  | .coldResetReady => true
  | .perstAssert => true
  | .resetFlushEnd => true
  | .flushTimeLimit => true
  | .warmResetReady => true
  | .gpfTimeExpiry => true
  | .railWarning _ mv => decide (mv < 65536)
  | .braceExitTimer => true
  | .railResetLevel _ mv => decide (mv < 65536)
  | .internalRelease _ => true
  | .pwrWarnAssert => true
  | .pwrWarnSustained => true
  | .pwrWarnReleaseTimer => true
  | .tempSensorRead _ => true
  | .clockLoss _ => true
  | .timeRefRestore => true
  | .managementClockReturn => true
  | .jtagInstruction _ => true
  | .pelestWatchdog => true
  | .pelestReady => true
  | .fwActivateTimeout => true
  | .dormantEntry _ => true
  | .dormantExit _ => true
  | .loadBandChange load => decide (load ≤ 127)
  | .loadVerificationEnd _ => true
  | .retrainingEnd _ _ => true
  | .droopRegatherDone _ _ => true
  | .cellarCommandTimeout _ => true
  | .cellarRetrainDone _ => true
  | .cellarRetrainTimeout _ => true
  | .gmerPoll _ _ => true
  | .scrubStep _ => true
  | .correctAndWrite _ _ => true
  | .rowSpareDone _ _ => true
  | .bankSpareDone bank => decide (bank < 128)
  | .bucketLeak _ => true
  | .watchEntryExpiry _ _ => true
  | .backgroundWorkUnit _ => true
  | .backgroundResume => true
  | .windowSweepEnd _ _ => true
  | .domainSweepEnd => true
  | .rangeFlushEnd => true
  | .hostReclaimEnd _ => true
  | .mirrorCopyEnd => true
  | .rekeySweepEnd => true
  | .keyRetireEnd => true
  | .sliceDrainEnd => true
  | .rebuildEnd => true
  | .strongRebuildEnd _ => true
  | .maintenanceOpEnd => true
  | .pageRetireEnd => true
  | .pcRetireEnd => true
  | .testFiring _ _ => true
  | .msixHoldoffExpiry _ => true
  | .bankSwap _ => true
  | .pop _ _ _ => true
  | .post _ _ off bytes => decide (bytes.length ≤ 64) && decide (off < 4096)
  | .recordOwnershipLapse _ => true
  | .popStallExpiry _ => true
  | .counterGather => true
  | .tallyExport => true
  | .autoCheckpoint => true
  | .unlockExpiry _ => true
  | .registerWrite _ _ size _ => size == 4 || size == 8 || size == 64
  | .stagedWordWrite _ _ _ => true
  | .statusClear _ _ _ => true
  | .glUnlock _ _ _ => true
  | .snapshot _ => true
  | .mopClean _ _ => true
  | .mopFlush _ _ => true
  | .dieReseed _ _ => true
  | .drProbe _ _ => true
  | .hfProbe _ _ => true
  | .originArm _ _ => true
  | .originDisarm _ => true
  | .linkRetrainRequest _ _ => true
  | .idiorPortEnable _ _ => true
  | .hostPortDisable _ _ => true
  | .hostPortEnable _ _ => true
  | .cellarPortEnable _ _ => true
  | .rekeyStart _ _ => true
  | .queueFlush _ _ => true
  | .queueEnable _ _ _ => true
  | .queueDisable _ _ => true
  | .wrapClearOne _ _ => true
  | .wrapClearAll _ => true
  | .samplingControl _ _ => true
  | .windowEnable _ _ _ _ => true
  | .windowDisable _ _ _ _ => true
  | .membershipSet _ _ => true
  | .membershipClear _ _ => true
  | .keyRangeTypeChange _ _ _ => true
  | .squareWrite _ _ square _ => decide (square < 512)
  | .mirrorEntryWrite _ _ _ => true
  | .identify _ _ => true
  | .backgroundOperationStatus _ _ => true
  | .getEventRecords _ _ _ => true
  | .clearEventRecords _ _ _ _ handles => decide (handles.length ≤ 255)
  | .getEventInterruptPolicy _ _ => true
  | .setEventInterruptPolicy _ _ _ => true
  | .getFwInfo _ _ => true
  | .transferFw _ _ _ => true
  | .activateFw _ _ _ => true
  | .getTimestamp _ _ => true
  | .setTimestamp _ _ _ => true
  | .getSupportedLogs _ _ => true
  | .getLog _ _ => true
  | .identifyMemoryDevice _ _ => true
  | .getHealthInfo _ _ => true
  | .getAlertConfig _ _ => true
  | .setAlertConfig _ _ _ => true
  | .getShutdownState _ _ => true
  | .setShutdownState _ _ _ => true
  | .getPoisonList _ _ => true
  | .unsupportedCommand _ _ _ => true
  | .pelestInfo _ _ => true
  | .regRead _ _ _ n => decide (1 ≤ n) && decide (n ≤ 255)
  | .regWrite _ _ pairs => decide (pairs.length ≤ 127)
  | .hubReset _ _ => true
  | .pelestRestart _ _ => true
  | .fwStage _ _ _ => true
  | .bootRecoveryStage _ => true
  | .fwActivate _ _ => true
  | .fwActivateOffline _ _ => true
  | .fwCommit _ _ => true
  | .tallyVerify _ _ _ _ recs => decide (1 ≤ recs.length) && decide (recs.length ≤ 31)
  | .tallyCheckpoint _ _ => true
  | .snapshotAt _ _ _ _ => true
  | .boardWrite _ _ triples _ => decide (triples.length ≤ 240)
  | .keyLoad _ _ _ _ _ => true
  | .keyRetire _ _ _ => true
  | .linkKey _ _ _ _ => true
  | .sealInit _ _ => true
  | .sealRebuild _ _ => true
  | .routeSet _ _ entries => decide (entries.length ≤ 127)
  | .fabricJoin _ _ => true
  | .buddyPair _ _ _ => true
  | .buddyUnpair _ _ => true
  | .takeover _ _ => true
  | .takeoverHandback _ _ => true
  | .retireFrame _ _ set way => decide (set < 2 ^ 21) && decide (way < 16)
  | .retirePc _ _ pc => decide (pc < 128)
  | .spareRow _ _ _ row => decide (row < 65536)
  | .spareBank _ _ bank => decide (bank < 128)
  | .retirePage _ _ page => decide (page < 2 ^ 36)
  | .sliceDrain _ _ _ _ => true
  | .sliceDrainRelease _ _ _ => true
  | .perstDeassert => true
  | .pwrWarnDeassert => true
  | .railAboveWarning _ mv => decide (mv < 65536)
  | .l1Exit _ => true
  | .enumerationEnd _ _ => true
  | .headConfigurationRequest _ _ => true
  | .spdmMessage _ _ => true
  | .idiorPortDisable _ _ => true
  | .agentAerMessage _ => true
  | .pcieLinkRecovery _ => true
  | .hostLinkRecoveryEnd _ => true

end Sys2Proof
end

