-- ==== Sys2Proof/Certificates/Slice0/Obligations.lean ====
section
/-! DEFINITION. The statements for the provers. Each docstring names the rules of spec/ that it rests on. -/

section

open Sys2Proof Sys2Proof.Machine

/-- R472 to R480, by command: a taken write of IP_CTL, HP_CTL or DP_CTL enables, disables or retrains the port. What the port does then is
`setLinkState`, `enableHost`, `disableHost` and `setCellarLink`. -/
def Obligations.PortControlWrites : Prop :=
  ∀ (o : Origin) (s : State) (cur new act c1 v1 : Word) (rsv st : Bool), running s = true →
    (∀ p : IPort, verdict o (aIpCtl p) (setBit (now s o (aIpCtl p)) 0 true) none s = .taken cur new act c1 v1 false rsv st →
      ∃ t, exec (.idiorPortEnable o p) s = .next t ∧ rdBit t (aIpCtl p) 0 = true ∧
        linkState t p = (if linkState s p = 0 ∨ linkState s p = 5 then 1 else linkState s p)) ∧
    (∀ p : IPort, verdict o (aIpCtl p) (setBit (now s o (aIpCtl p)) 0 false) none s = .taken cur new act c1 v1 false rsv st →
      ∃ t, exec (.idiorPortDisable o p) s = .next t ∧ rdBit t (aIpCtl p) 0 = false ∧ linkState t p = 0) ∧
    (∀ p : IPort, verdict o (aIpCtl p) (setBit (now s o (aIpCtl p)) 2 true) none s = .taken cur new act c1 v1 false rsv st →
      rdBit s (aIpCtl p) 0 = true →
      ∃ t, exec (.linkRetrainRequest o p) s = .next t ∧
        linkState t p = (if linkState s p = 3 then 4 else if linkState s p = 0 ∨ linkState s p = 5 then 1 else linkState s p)) ∧
    (∀ p : HPort, verdict o (aHpCtl p) (setBit (now s o (aHpCtl p)) 0 false) none s = .taken cur new act c1 v1 false rsv st → bit cur 0 = true →
      ∃ res old nv, bit new 0 = false ∧
        exec (.hostPortDisable o p) s = .next (followAfter s (finish o (aHpCtl p) 0 res old nv (disableHost p (wr (aHpCtl p) new s))))) ∧
    (∀ p : HPort, verdict o (aHpCtl p) (setBit (now s o (aHpCtl p)) 0 true) none s = .taken cur new act c1 v1 false rsv st → bit cur 0 = false →
      ∃ res old nv, bit new 0 = true ∧
        exec (.hostPortEnable o p) s = .next (finish o (aHpCtl p) 0 res old nv (enableHost p (wr (aHpCtl p) new s)))) ∧
    (∀ d : DPort, verdict o (aDpCtl d) (setBit (now s o (aDpCtl d)) 0 true) none s = .taken cur new act c1 v1 false rsv st →
      (bit cur 0 = false ∨ rdBit s (aDpStat d) 9 = true) →
      ∃ t, exec (.cellarPortEnable o d) s = .next t ∧ rdBit t (aDpCtl d) 0 = true ∧ rdFld t (aDpStat d) 0 3 = 2)

/-- R115, R193, R211, R222, R366, R456, R481, R509, R532: a taken write of a unit's control register starts what the register controls. -/
def Obligations.UnitControlWrites : Prop :=
  ∀ (o : Origin) (v : Word) (s : State) (cur new act c1 v1 : Word) (g rsv st : Bool), running s = true →
    (verdict o aGlSnap 1 none s = .taken cur new act c1 v1 g rsv st →
      ∃ t, exec (.snapshot o) s = .next t ∧ t.cnt.hold = liveNow s ∧ rd t aGlSnapft = s.time.ft ∧ rdBit t aGlSnapst 1 = false) ∧
    (verdict o aTbOrigin v none s = .taken cur new act c1 v1 g rsv st →
      ∃ t, exec (.originArm o v) s = .next t ∧ rd t aTbOrigin = v ∧ rdBit t aTbStat 2 = true) ∧
    (verdict o aTbCtl (setBit (now s o aTbCtl) 4 true) none s = .taken cur new act c1 v1 g rsv st →
      ∃ t, exec (.originDisarm o) s = .next t ∧ rdBit t aTbStat 2 = false) ∧
    (verdict o aHcDieseed v none s = .taken cur new act c1 v1 g rsv st →
      ∃ t, exec (.dieReseed o v) s = .next t ∧
        ∀ k, k < 32 → die t k = BitVec.ofNat 64 (if fld v 0 32 ^^^ k = 0 then 1 else fld v 0 32 ^^^ k)) ∧
    (verdict o aDrProbe v none s = .taken cur new act c1 v1 g rsv st →
      ∃ t, exec (.drProbe o v) s = .next t ∧ rdBit t aDrProbe 48 = false ∧ rdBit t aDrProbe 49 = false ∧ rd t aDrProbed = 0 ∧
        ∃ b, b ∈ t.bg ∧ b.kind = .probeDir) ∧
    (verdict o aHfProbe v none s = .taken cur new act c1 v1 g rsv st →
      ∃ t, exec (.hfProbe o v) s = .next t ∧ rdBit t aHfProbe 60 = false ∧ rdBit t aHfProbe 61 = false ∧ rd t aHfProbed = 0 ∧
        ∃ b, b ∈ t.bg ∧ b.kind = .probeHf) ∧
    (verdict o aSlRkctl (setBit v 30 true) none s = .taken cur new act c1 v1 g rsv st →
      ∃ t, exec (.rekeyStart o v) s = .next t ∧ rdBit t aSlRkctl 31 = true ∧ ∃ b, b ∈ t.bg ∧ b.kind = .rekey) ∧
    (verdict o aPcSmpctl v none s = .taken cur new act c1 v1 g rsv st →
      ∃ t, exec (.samplingControl o v) s = .next t ∧ rd t aPcSmpctl = new ∧ rdBit t aPcSmpctl 0 = bit v 0) ∧
    (∀ src, verdict o aEvTest (mkWord [(0, 9, src.toNat), (9, 1, 1)]) none s = .taken cur new act c1 v1 g rsv st →
      evReserved s src.toNat = false →
      ∃ t, exec (.testFiring o src) s = .next t ∧ bit (mgetD 0 t.ev.evStat (src.toNat / 48)) (src.toNat % 48) = true) ∧
    (∀ p : HPort, verdict o (aHpCfga p) (setBit v 25 true) none s = .taken cur new act c1 v1 g rsv st →
      ∃ t, exec (.configRequest o p v) s = .next t ∧ rdBit t (aHpCfga p) 26 = true ∧ ∃ d w x, Sent.cfg p d w x ∈ t.out)

/-- R211 to R214: a taken write of HC_MOPC with GO starts a maintenance operation with BUSY: one of a single line walks by address; one of a range takes n
granules from its base, by address on QD48-H1 up to 2^21 of them and else by set, and marks the open miss registers it covers whose fill is still to come.
Its work is one background task. What goes on by itself after a command (`follow`) then runs. -/
def Obligations.MaintenanceStarts : Prop :=
  ∀ (o : Origin) (range : Bool) (s : State) (cur new act c1 v1 : Word) (g rsv st : Bool) (m : Maint), running s = true →
    m = { flush := m.flush, byAddr := !range || (isH1 s && decide (rdFld s aHcMopl 0 48 ≤ 2 ^ 21)), base := rdFld s aHcMopa 6 54,
          count := if range then 64 * rdFld s aHcMopl 0 48 else 1 } →
    verdict o aHcMopc (mkWord [(0, 2, m.flush.toNat), (2, 1, range.toNat), (3, 1, 1), (48, 16, seqOf s aHcMopc)]) none s = .taken cur new act c1 v1 g rsv st →
    ∃ u, (m.flush = false → exec (.mopClean o range) s = .next (follow u)) ∧ (m.flush = true → exec (.mopFlush o range) s = .next (follow u)) ∧
      rdBit u aHcMopc 4 = true ∧ u.hc.maint = some m ∧ u.bg = s.bg ++ [⟨.maint, 0, 0, 0, false⟩] ∧
      u.req.mrs = s.req.mrs.map (fun e => if range && maintCovers s m e.2.line && !carries e.2 then (e.1, { e.2 with flush := true }) else e)

/-- R516, R523, R524, R531: what a taken write of EQ_CTL or PC_WRAPCLR does to the queue or the WRAP bits. -/
def Obligations.QueueAndWrapWrites : Prop :=
  ∀ (o : Origin) (q : BitVec 13) (s : State) (cur new act c1 v1 : Word) (g rsv st : Bool), running s = true →
    (∀ size : BitVec 4, verdict o (aEqCtl q.toNat) (setFld (setBit (now s o (aEqCtl q.toNat)) 0 true) 2 4 size.toNat) none s = .taken cur new act c1 v1 g rsv st →
      bit cur 0 = false →
      ∃ t, exec (.queueEnable o q size) s = .next t ∧ rdBit t (aEqCtl q.toNat) 0 = true ∧ t.ev.eqUsed = s.ev.eqUsed + 2 * 2 ^ size.toNat) ∧
    (verdict o (aEqCtl q.toNat) (setBit (now s o (aEqCtl q.toNat)) 0 false) none s = .taken cur new act c1 v1 g rsv st → bit cur 0 = true →
      s.ev.behind = [] → ∃ t, exec (.queueDisable o q) s = .next t ∧ rdBit t (aEqCtl q.toNat) 0 = false ∧ (queue t q.toNat).drain = [] ∧ (queue t q.toNat).waiting = [] ∧
        ∀ p, p ∈ (queue s q.toNat).waiting → ∃ w, Sent.pop p.1 q.toNat w false ∈ t.out) ∧
    (verdict o (aEqCtl q.toNat) (setBit (now s o (aEqCtl q.toNat)) 1 true) none s = .taken cur new act c1 v1 g rsv st →
      bit new 0 = bit cur 0 → s.ev.behind = [] →
      ∃ t, exec (.queueFlush o q) s = .next t ∧ (queue t q.toNat).drain = [] ∧ (queue t q.toNat).cur = none ∧ (queue t q.toNat).waiting = [] ∧
        ∀ p, p ∈ (queue s q.toNat).waiting → ∃ w, Sent.pop p.1 q.toNat w false ∈ t.out) ∧
    (∀ idx : BitVec 12, verdict o aPcWrapclr (mkWord [(0, 12, idx.toNat), (12, 1, 1)]) none s = .taken cur new act c1 v1 g rsv st →
      ∃ t, exec (.wrapClearOne o idx) s = .next t ∧ idx.toNat ∉ t.cnt.wrap ∧ ∀ i, i ≠ idx.toNat → (i ∈ t.cnt.wrap ↔ i ∈ s.cnt.wrap)) ∧
    (verdict o aPcWrapclr (mkWord [(13, 1, 1)]) none s = .taken cur new act c1 v1 g rsv st →
      ∃ t, exec (.wrapClearAll o) s = .next t ∧ t.cnt.wrap = [])

/-- R47, R53, R60, R61, R77, R252, R339: a taken write of an address map, of the membership, of a square or of a mirror entry changes it; a window
that loses V retires under a sweep, and a hub that leaves the snoop domain joins the domain's sweep. -/
def Obligations.MapWrites : Prop :=
  ∀ (o : Origin) (s : State) (cur new act c1 v1 : Word) (g rsv st : Bool), running s = true →
    (∀ (p : HPort) (n : BitVec 8) (v : Word), verdict o (aHpWin p n.toNat) (setBit v 0 true) none s = .taken cur new act c1 v1 g rsv st → bit cur 0 = false →
      ∃ t, exec (.windowEnable o p n v) s = .next t ∧ rdBit t (aHpWin p n.toNat) 0 = true ∧ rd t (aHpWin p n.toNat + 8) = v1) ∧
    (∀ (p : HPort) (n : BitVec 8) (v : Word), verdict o (aHpWin p n.toNat) (setBit v 0 false) none s = .taken cur new act c1 v1 g rsv st → bit cur 0 = true →
      ∃ t, exec (.windowDisable o p n v) s = .next t ∧ rdBit t (aHpWin p n.toNat) 0 = false ∧ rdBit t (aHpWinstat p (n.toNat / 64)) (n.toNat % 64) = true ∧
        ∃ b, b ∈ t.bg ∧ b.kind = .windowSweep p n) ∧
    (∀ hub : HubId, verdict o (aDrSdom (hub.toNat / 64)) (setBit (now s o (aDrSdom (hub.toNat / 64))) (hub.toNat % 64) true) none s
        = .taken cur new act c1 v1 g rsv st →
      ∃ t, exec (.membershipSet o hub) s = .next t ∧ rdBit t (aDrSdom (hub.toNat / 64)) (hub.toNat % 64) = true) ∧
    (∀ hub : HubId, verdict o (aDrSdom (hub.toNat / 64)) (setBit (now s o (aDrSdom (hub.toNat / 64))) (hub.toNat % 64) false) none s
        = .taken cur new act c1 v1 g rsv st → hub ≠ hubId s → rdBit s (aDrSdom (hub.toNat / 64)) (hub.toNat % 64) = true →
      ∃ t, exec (.membershipClear o hub) s = .next t ∧ rdBit t (aDrSdom (hub.toNat / 64)) (hub.toNat % 64) = false ∧ hub ∈ t.sweep ∧
        ∃ b, b ∈ t.bg ∧ b.kind = .domainSweep) ∧
    (∀ (n : BitVec 12) (type : BitVec 2),
      verdict o (aSlKrt n.toNat) (setFld (now s o (aSlKrt n.toNat)) 1 2 type.toNat) none s = .taken cur new act c1 v1 g rsv st →
      type.toNat ≠ 1 → ∃ t, exec (.keyRangeTypeChange o n type) s = .next t ∧ rdFld t (aSlKrt n.toNat) 1 2 = type.toNat ∧
        (bit cur 0 = true → bit new 0 = true → type.toNat = 2 → fld cur 1 2 ≠ 2 → ∃ b, b ∈ t.bg ∧ b.kind = .rangeFlush)) ∧
    (∀ (b : Fin 92) (q : Nat) (v : Word), q < 512 → verdict o (aSbSq b (q / 8)) v none s = .taken cur new act c1 v1 g rsv st →
      ∃ res old nv, exec (.squareWrite o b q v) s
        = .next (finish o (aSbSq b (q / 8)) 0 res old nv (writeSquares b (q / 8) new (if g then { s with ctl := { s.ctl with unlocks := mdel s.ctl.unlocks o } } else s)))) ∧
    (∀ (n : Fin 8) (v : BitVec 128), o.val = 35 →
      ∃ t, exec (.mirrorEntryWrite o n v) s = .next t ∧ rd t (aFbPmir n) = BitVec.ofNat 64 v.toNat ∧ rd t (aFbPmir n + 8) = BitVec.ofNat 64 (v.toNat / 2 ^ 64)) ∧
    (∀ (n : Fin 8) (v : BitVec 128), o.val ≠ 35 → rdFld s aFbBuddy 0 2 < 2 →
      verdict o (aFbMir n) (BitVec.ofNat 64 v.toNat) (some (BitVec.ofNat 64 (v.toNat / 2 ^ 64))) s = .taken cur new act c1 v1 g rsv st →
      ∃ t, exec (.mirrorEntryWrite o n v) s = .next t ∧ rd t (aFbMir n) = new ∧ rd t (aFbMir n + 8) = v1)

/-- R51, R470 to R480: how the write commands end by what they are judged: a plain word stored, a staged word kept, a status bit cleared, an unlock
held by its origin and lost when it expires; a narrow write only has its result. -/
def Obligations.RegisterWriteForms : Prop :=
  ∀ (o : Origin) (a : BitVec 24) (v : Word) (s : State) (cur new act c1 v1 : Word) (g rsv st : Bool), running s = true → a.toNat % 8 = 0 →
    (∀ r, locate a.toNat = some r → r.base ∈ [aGlTlyidx, aHcPfctl, aHcMrq, aLdWdog, aEcRepctl, aPmTherm, aPmLpctl] → verdict o a.toNat v none s = .taken cur new act c1 v1 g rsv st →
      s.ev.behind = [] → ∃ t, exec (.registerWrite o a 8 (v.zeroExtend 512)) s = .next t ∧ rd t a.toNat = new ∧ (mgetD (0, 0) t.ctl.last o).1 ∈ [0, 3]) ∧
    (o.val ≥ 16 → s.ev.behind = [] → ∃ t, exec (.registerWrite o a 4 (v.zeroExtend 512)) s = .next t ∧ lastRes t o = (if blockedByTally s o then 10 else 6) ∧ t.regs = s.regs) ∧
    (∀ x r, locate a.toNat = some r → stagedReg r = true → verdict o a.toNat v none s = .staged x rsv →
      ∃ t, exec (.stagedWordWrite o a v) s = .next t ∧ mget t.staged (a.toNat / 8) = some x ∧ t.regs = s.regs) ∧
    (a.toNat = aHcMopc → fld v 48 16 = seqOf s aHcMopc → bit v 3 = false → verdict o a.toNat v none s = .taken cur new act c1 v1 g rsv st →
      ∃ t, exec (.statusClear o a v) s = .next t ∧ rdBit t aHcMopc 5 = false ∧ seqOf t aHcMopc = seqOf s aHcMopc) ∧
    (∀ (block : BitVec 5) (key : BitVec 16), unlockKeys[block.toNat]? = some key.toNat →
      verdict o aGlUnlock (mkWord [(0, 16, key.toNat), (16, 5, block.toNat)]) none s = .unlock →
      ∃ t, exec (.glUnlock o block key) s = .next t ∧ mget t.ctl.unlocks o = some block.toNat) ∧
    (∃ t, exec (.unlockExpiry o) s = .next t ∧ mget t.ctl.unlocks o = none ∧ t.regs = s.regs ∧ t.out = s.out)

/-- R221 to R227, R322 to R325, R591: what the timers and edges of fabric time do. A beacon on an active port of the grandmaster and root is noted: the
peer's distance to the grandmaster and what it says of the root. -/
def Obligations.FabricTimeEvents : Prop :=
  ∀ s : State, running s = true →
    (∃ t, exec .originArmExpiry s = .next t ∧ rdBit t aTbStat 2 = false ∧ t.time = s.time) ∧
    (timeState s = 2 → ∃ t, exec .beaconLossTimeout s = .next t ∧ timeState t = 3 ∧ rdBit t aTbStat 16 = true ∧ t.time.ft = s.time.ft) ∧
    (∃ t, exec .holdoverTimeout s = .next t ∧ timeState t = 0 ∧ t.time.ft = s.time.ft) ∧
    (grandmaster s = true → (∀ l, s.time.lastPps = some l → s.time.ft.toNat < l.toNat ∨ l.toNat + 900000000 ≤ s.time.ft.toNat) →
      (rdBit s aTbStat 2 = true →
        exec .timePpsEdge s = .next (applyOrigin { s with time := { s.time with lastPps := some s.time.ft } }) ∧
          (s.time.sched = [] → s.brd.wait = [] → s.brd.run = [] → s.home.input = [] →
            ∃ t, exec .timePpsEdge s = .next t ∧ t.time.ft = rd s aTbOrigin ∧ rdBit t aTbStat 2 = false ∧ timeState t = 0)) ∧
      (rdBit s aTbStat 2 = false → rdBit s aTbCtl 1 = true → exec .timePpsEdge s =
        .next (onOffset (secondOffset s.time.ft.toNat) none { s with time := { s.time with lastPps := some s.time.ft } })) ∧
      (rdBit s aTbStat 2 = false → rdBit s aTbCtl 1 = false → exec .timePpsEdge s =
        .next { s with time := { s.time with lastPps := some s.time.ft } })) ∧
    (∀ l, grandmaster s = true → s.time.lastPps = some l → l.toNat ≤ s.time.ft.toNat → s.time.ft.toNat < l.toNat + 900000000 →
      ∃ t, exec .timePpsEdge s = .next t ∧ t.time = s.time ∧ t.regs = s.regs) ∧
    (rdBit s aTbCtl 2 = true → ∃ t, exec .beaconTimer s = .next t ∧
      ∀ p, p < 12 → portActive s p = true → ∃ b : Beacon, b.txt = BitVec.ofNat 64 (s.time.ft.toNat * 8) ∧ Sent.beacon p (lastGood (link s p)) b ∈ t.out) ∧
    (∃ t, exec .scheduledEventRun s = .next t ∧ t = runSched 0 s ∧ t.time.ft = s.time.ft ∧
      t.time.sched = s.time.sched.filter fun e => decide (s.time.ft.toNat < e.1.toNat)) ∧
    (∀ (p : IPort) (f : FlitHead) (b : Beacon) (rxt : Word), portActive s p = true → f.fecOk = true → f.crcOk = true → f.tagOk = true →
      grandmaster s = true → isRoot s = true →
      ∃ t, exec (.beacon ⟨p, f⟩ b rxt) s = .next t ∧ (link t p).retry = ((link s p).retry.filter fun e => seqAfter e.1 f.ack.toNat) ∧ mget t.time.links p = some ⟨b.gm, if b.gm then 0 else b.hops.toNat, b.txt, rxt⟩ ∧
        mget t.fab.roots p = (if b.rknown then some (b.rid, b.rseq.toNat, b.rhop.toNat) else none) ∧ t.time.ft = s.time.ft)

/-- R238 to R240, R243, R244, R253 to R255, R257: a square's start gives its Board's grants; while nothing is in progress on a Board and one requester waits
that may go, the first square with room for a transfer puts it in progress; a transfer of a background task goes in its task's squares within their burst
and, where its task has squares, in no other; a retraining square grants nothing. A bite takes the transfer in progress off the Board and raises EV240, and the
end of the reset puts it back at the front once, poisoned. A round's start ends the deferral of a square whose round has come and leaves no old entry. -/
def Obligations.BoardEvents : Prop :=
  ∀ (s : State) (b : Fin 92), running s = true →
    (∀ (q : Nat) (w : Waiter), mget s.brd.run b = none → mgetD [] s.brd.wait b = [w] → mayGo s b w = true → square s b q / 16 % 8 ≠ 2 →
      reqIndex w < 512 → w.task = 0 → mget (grant b q s).brd.run b = some w ∧ mgetD [] (grant b q s).brd.wait b = []) ∧
    (∀ (q : Nat) (w : Waiter), mget s.brd.run b = none → mgetD [] s.brd.wait b = [w] → mayGo s b w = true → w.task ≠ 0 → w.task ≠ 2 →
      (square s b q / 16 % 8 = w.task → burstLeft s b w.task = true →
        mget (grant b q s).brd.run b = some w ∧ mgetD [] (grant b q s).brd.wait b = [] ∧
          mgetD 0 (grant b q s).brd.burst b = mgetD 0 s.brd.burst b + 1) ∧
      (hasSquare s b w.task = true → (square s b q / 16 % 8 ≠ w.task ∨ burstLeft s b w.task = false) → grant b q s = s)) ∧
    (∀ q : Nat, square (complete b s) b q / 16 % 8 = 2 → grant b q s = complete b s) ∧
    (∃ t, exec .roundStart s = .next t ∧ t.brd.olds = [] ∧ t.brd.heldOnce = [] ∧
      (∀ d, d ∈ t.brd.deferred → ∃ e, e ∈ s.brd.deferred ∧ 1 < e.left ∧ d.left = e.left - 1)) ∧
    (boardOff s b = false → mget s.brd.biting b = none →
      ∃ u, exec (.squareStart b) s = .next (follow u) ∧
        u = (if h : b.val < 32 then inputGrants ⟨b.val, h⟩ (boardK s b) s
          else grants (boardK s b) b (fld s.time.ft 3 9) { s with brd := { s.brd with burst := mdel s.brd.burst b } })) ∧
    (∀ w, mget s.brd.run b = some w → ∃ t, exec (.watchdogBite b) s = .next t ∧ mget t.brd.run b = none ∧ mget t.brd.biting b = some w ∧
      rdBit t aLdWdstat 7 = true ∧ rdFld t aLdWdstat 0 7 = b.val) ∧
    (∀ w, mget s.brd.biting b = some w → w.bites = 0 → ∃ t, exec (.watchdogResetEnd b) s = .next t ∧ mget t.brd.biting b = none ∧
      mget t.brd.wait b = some ({ w with item := poisonItem w.item, bites := 1 } :: mgetD [] s.brd.wait b))

/-- R509: a source that fires sets its status bit, whatever its routing. -/
def Obligations.FiringSetsStatus : Prop :=
  ∀ (s : State) (n c : Nat) (o1 o2 : Obj) (q : Nat), evReserved s n = false →
    bit (mgetD 0 (fireSeq n c o1 o2 q s).ev.evStat (n / 48)) (n % 48) = true

/-- R511, R516 to R528: message hold-off, bank swap, pops and posts, and what a waiting pop holds: later accesses of its port to the window wait behind it in
their order (R288, R527), and follow once it has ended. -/
def Obligations.QueueCommands : Prop :=
  ∀ (s : State), running s = true →
    (s.ev.behind = [] →
    (∀ src : BitVec 9, src.toNat ∈ s.ev.msixOwed → ∃ t, exec (.msixHoldoffExpiry src) s = .next t ∧ src.toNat ∉ t.ev.msixOwed ∧
      ((mgetD 0 s.ev.msixMask (fld (rd s (aEvRt src.toNat)) 17 4)).testBit (fld (rd s (aEvRt src.toNat)) 21 6) = false →
        Sent.msix (fld (rd s (aEvRt src.toNat)) 17 4) (fld (rd s (aEvRt src.toNat)) 21 6) ∈ t.out)) ∧
    (∀ q : BitVec 13, (queue s q.toNat).drain = [] → (queue s q.toNat).drainGap = none → (queue s q.toNat).cur = none → (queue s q.toNat).fill ≠ [] →
      (queue s q.toNat).waiting = [] →
      ∃ t, exec (.bankSwap q) s = .next t ∧ (queue t q.toNat).drain = (queue s q.toNat).fill ∧ (queue t q.toNat).fill = [] ∧
        (queue t q.toNat).drainGap = (queue s q.toNat).fillGap ∧ t.out = s.out) ∧
    (∀ (p : HPort) (q : BitVec 13) (ok : Bool), windowPort s p = true → rdBit s (aEqAcc q.toNat) p = true → rdBit s (aEqCtl q.toNat) 0 = true → popWaits s p = false →
      (queue s q.toNat).waiting = [] → ∀ r, popNow s q.toNat p (queue s q.toNat) = some r → (ok = true ∨ r.2.1 = true) →
      ∃ t, exec (.pop p q ok) s = .next t ∧ t.out = s.out ++ [.pop p q.toNat r.1 false] ∧ queue t q.toNat = r.2.2) ∧
    (∀ (p : HPort) (q : BitVec 13) (ok : Bool), windowPort s p = true → rdBit s (aEqAcc q.toNat) p = true → rdBit s (aEqCtl q.toNat) 0 = true → popWaits s p = false →
      popNow s q.toNat p (queue s q.toNat) = none → rdFld s (aEqCtl q.toNat) 8 7 ≠ 0 →
      ∃ t, exec (.pop p q ok) s = .next t ∧ t.out = s.out ∧ (queue t q.toNat).waiting = (queue s q.toNat).waiting ++ [(p.val, ok)]) ∧
    (∀ q : BitVec 13, ∀ c, (queue s q.toNat).cur = some c → (queue s q.toNat).waiting = [] →
      ∃ t, exec (.recordOwnershipLapse q) s = .next t ∧ (queue t q.toNat).cur = none) ∧
    (∀ q : BitVec 13, ∀ p ok rest, (queue s q.toNat).waiting = (p, ok) :: rest →
      ∃ t, exec (.popStallExpiry q) s = .next t ∧ (queue t q.toNat).waiting = rest ∧
        t.out = s.out ++ [.pop p q.toNat (loneWord s q.toNat 15 0 s.time.ft) false]) ∧
    (∀ (p : HPort) (q : BitVec 13) (n : Nat) (bytes : List (BitVec 8)), windowPort s p = true → rdBit s (aEqAcc q.toNat) (16 + p) = true → popWaits s p = false →
      bytes.length = 8 * n → 1 ≤ n → n ≤ 8 → rdBit s (aEqCtl q.toNat) 0 = true →
      recWords (queue s q.toNat).fill + n + 1 ≤ bankWords (rd s (aEqCtl q.toNat)) →
      ∃ t, exec (.post p q 0x100 bytes) s = .next t ∧
        ∃ len, (queue t q.toNat).fill = (queue s q.toNat).fill ++ [⟨rdFld s (aEqCtl q.toNat) 6 2, false, len :: wordsOf bytes⟩]) ∧
    (∀ (p : HPort) (o : Origin), o.val = p.val → windowPort s p = true → popWaits s p = true →
      (∀ (q : BitVec 13) (ok : Bool), exec (.pop p q ok) s = .next (holdAccess p (.pop q.toNat ok) s)) ∧
      (∀ (a : BitVec 24) (size : Nat) (v : BitVec 512), exec (.registerWrite o a size v) s = .next (holdAccess p (.bytes a.toNat size v.toNat) s)) ∧
      (∀ n : Fin 92, exec (.squareWrite o n 0 0) s = .next (holdAccess p (.bytes (aSbSq n 0) 8 0) s)))) ∧
    (∀ (q q2 : BitVec 13) (p : HPort) (ok ok2 : Bool), windowPort s p = true → (queue s q.toNat).waiting = [(p.val, ok)] →
      (∀ e, e ∈ (setQueue q.toNat { queue s q.toNat with waiting := [] } s).ev.queues → e.2.waiting = []) →
      s.ev.behind = [(p.val, .pop q2.toNat ok2)] → rdBit s (aEqAcc q2.toNat) p = true → rdBit s (aEqCtl q2.toNat) 0 = false →
      ∃ t, exec (.popStallExpiry q) s = .next t ∧ t.ev.behind = [] ∧
        t.out = s.out ++ [.pop p q.toNat (loneWord s q.toNat 15 0 s.time.ft) false, .pop p q2.toNat (loneWord s q2.toNat 15 0 s.time.ft) false])

/-- R498, R501, R503, R530: the counter reader's image holds each counter's value with its WRAP bit and the FT of the gathering; the next Tally record goes
with its MAC to its queue where that has room; with 4,096 records since the last, the automatic checkpoint writes one checkpoint record and three
continuation records. -/
def Obligations.RecordEngines : Prop :=
  ∀ (s : State), running s = true →
    (∃ t, exec .counterGather s = .next t ∧ t = wr aPcImgft s.time.ft { s with cnt := { s.cnt with image := t.cnt.image } } ∧
      (∀ k v i, (k, v) ∈ liveNow s → cntIdx (8 * k) = some i → (∀ e ∈ liveNow s, cntIdx (8 * e.1) = some i → e = (k, v)) →
        mgetD 0 t.cnt.image i = setBit (BitVec.ofNat 64 (v % 2 ^ 48)) 48 (decide (i ∈ s.cnt.wrap))) ∧
      (∀ i, (∀ e ∈ liveNow s, cntIdx (8 * e.1) ≠ some i) → mgetD 0 t.cnt.image i = setBit 0 48 (decide (i ∈ s.cnt.wrap)))) ∧
    (∀ q r, q = rdFld s aGlTlyctl 2 13 → r = macRec s (exportRec s s.tly.exported) → rdBit s aGlTlyctl 1 = true → rdBit s (aEqCtl q) 0 = true →
      s.tly.exported < s.tly.next → recWords (queue s q).fill + 9 ≤ bankWords (rd s (aEqCtl q)) →
      ∃ t, exec .tallyExport s = .next t ∧ t.tly.exported = s.tly.exported + 1 ∧ t.tly.next = s.tly.next ∧ t.tly.lastMac = r.mac ∧
        (queue t q).fill = (queue s q).fill ++
          [⟨rdFld s (aEqCtl q) 6 2, true, lenWord 1 9 (rdFld s (aEqCtl q) 6 2) 0 s.time.ft :: tlyWords r⟩]) ∧
    (4096 ≤ s.tly.sinceChk → ∃ t, exec .autoCheckpoint s = .next t ∧ t.tly.next = s.tly.next + 4 ∧ t.tly.sinceChk = 0 ∧
      t.flash.chkNum = some (s.tly.exported - 1) ∧ t.tly.chkFirst = s.tly.exported ∧
      ∀ i, i < 4 → ∃ r, mget t.tly.store ((s.tly.next + i) % 65536) = some r ∧ r.num = s.tly.next + i ∧ r.orig = 34 ∧ r.kind = (if i = 0 then 4 else 5) ∧
        [r.target, r.old, r.new, r.aux, r.w6] = (List.range 5).map fun j => (Config.checkpointWords s.part.serial (BitVec.ofNat 32 s.flash.boots)
          (BitVec.ofNat 32 s.tly.chkFirst) (BitVec.ofNat 32 (s.tly.exported - 1))).getD (5 * i + j) 0) ∧
    (s.tly.sinceChk < 4096 → exec .autoCheckpoint s = .next s)

/-- R446, R541, R553: PORST_n asserted, or a rail at its reset level, puts the device in cold reset from every state: no seal halt, no store, no
register but PM_LASTC kept, the boot flash kept. The monitors' and the pins' own state stands. -/
def Obligations.ColdResetAlways : Prop :=
  ∀ s : State,
    (∃ t, exec .porstAssert s = .next t ∧ ColdHeld t ∧ t.part.porstN = false ∧ t.hc = State.reset.hc ∧ t.dir = [] ∧ t.sl.keys = [] ∧ t.ev = State.reset.ev ∧
      t.flash.keys = s.flash.keys ∧ t.flash.rootRec = s.flash.rootRec ∧ t.pending = s.pending) ∧
    (∀ (rail : Fin 5) (mv : Nat), (isH1 s = true ∨ rail.val ≠ 3) → s.part.phase ≠ .held →
      200 * satTo 65535 mv ≤ railNominal rail * (200 - rdFld s (aPmRail rail) 8 5) →
      (∃ t, exec (.railResetLevel rail mv) s = .next t ∧ ColdHeld t ∧ rd t aPmLastc = BitVec.ofNat 64 (1 + 8 * rail.val)))

/-- R8, R193, R491, R553, R584: the release of a cold reset samples the straps, the profile among them, seeds the dies, counts the boot, and goes on with the
active image, else with the other, else waits for an image. -/
def Obligations.ColdResetReleased : Prop :=
  ∀ (s : State) (straps : Straps),
    (s.part.porstN = false → s.pwr.hold = false → s.flash.pend = false → mayBoot s.flash s.flash.actB = true →
      ∃ t, exec (.porstDeassert straps) s = .next t ∧ t.part.phase = .cold ∧ t.part.latched = straps ∧ t.part.porstN = true ∧
        t.flash.boots = (s.flash.boots + 1) % 2 ^ 32 ∧ t.flash.actB = s.flash.actB ∧ t.tly.next = 1 ∧ t.part.profile = straps.profile ∧
        ∀ k, k < 32 → die t k ≠ 0) ∧
    (s.part.porstN = false → s.pwr.hold = false → s.flash.pend = false → mayBoot s.flash true = false → mayBoot s.flash false = false →
      ∃ t, exec (.porstDeassert straps) s = .next t ∧ t.part.phase = .noImage) ∧
    (s.pwr.hold = true → s.pwr.low = [] → s.part.thermtripN = true → s.part.porstN = true → s.flash.pend = false → mayBoot s.flash s.flash.actB = true →
      ∃ t, exec (.internalRelease straps) s = .next t ∧ t.part.phase = .cold ∧ t.part.latched = straps ∧ t.pwr.hold = false) ∧
    (s.part.phase = .noImage → s.halted = none → ∀ part : FwPart, part.offset = 0 → part.last = true → part.verifies = true → s.flash.minsv ≤ part.svn.toNat →
      ∃ t, exec (.bootRecoveryStage part) s = .next t ∧ t.part.phase = .cold ∧ t.flash.actB = (!s.flash.actB) ∧ t.pwr.recovered = true)

/-- R297, R448, R553: at the end of a cold reset the device is ready; a root record is restored and erased, and the shutdown state is clean. -/
def Obligations.ColdResetEnds : Prop :=
  ∀ s : State, s.part.phase = .cold → s.halted = none →
    ∃ t, exec .coldResetReady s = .next t ∧ t.part.phase = .ready ∧ t.flash.rootRec = none ∧ t.flash.dirty = false ∧ t.pwr.recovered = false

/-- R290, R554, R559: a warm reset begins with a flush that stops admission and takes over one that runs; a flush that is abandoned leaves the shutdown
state dirty and the device resetting, after a hub that resets as planned has reported itself and its report has left (R331); what still resets is ready
again when its time has come, with EV264. -/
def Obligations.WarmResets : Prop :=
  ∀ s : State,
    (s.halted = none → s.part.phase = .ready →
      ∃ u, exec .perstAssert s = .next (follow u) ∧ ∃ v, u = flushGo v ∧ v.part.phase = .flush false ∧ v.part.perstN = false ∧ v.ports.closed = true ∧ v.pwr.cause = 1) ∧
    (∀ hub, s.halted = none → s.part.phase = .resetting hub →
      ∃ t, exec .perstAssert s = .next t ∧ t.part.phase = .resetting false ∧ t.part.perstN = false ∧ rd t aGlStat = 1) ∧
    (∃ t, exec .perstDeassert s = .next t ∧ t = { s with part := { s.part with perstN := true } }) ∧
    (∀ hub, s.halted = none → s.part.phase = .resetting hub → (hub = true ∨ s.part.perstN = true) →
      ∃ t, exec .warmResetReady s = .next t ∧ t.part.phase = .ready ∧ t.hc = s.hc ∧
        ((∀ n, n < 52 → rdBit s (aPmCal n) 25 = false) → t.regs = s.regs)) ∧
    (∀ hub, running s = true → s.part.phase = .flush hub → ((s.pwr.cause ≠ 1 ∧ s.pwr.cause ≠ 2) ∨ rdFld s aFbStat 0 2 = 3) →
      ∃ t, exec .flushTimeLimit s = .next t ∧ t.part.phase = .resetting hub ∧ t.flash.dirty = true ∧ t.hf = [] ∧ t.dir = []) ∧
    (∀ hub, running s = true → s.part.phase = .flush hub → (s.pwr.cause = 1 ∨ s.pwr.cause = 2) → rdFld s aFbStat 0 2 ≠ 3 →
      ∃ t, exec .flushTimeLimit s = .next t ∧ t.flash.dirty = true ∧
        (t.part.phase = .resetting hub ∨ (t.part.phase = .flush hub ∧ rdFld t aFbStat 0 2 = 3 ∧ selfReportWaits t = true))) ∧
    (∀ hub, running s = true → s.part.phase = .flush hub → flushDone (flushGo s) = true →
      (((flushGo s).pwr.cause ≠ 1 ∧ (flushGo s).pwr.cause ≠ 2) ∨ (rdFld (flushGo s) aFbStat 0 2 = 3 ∧ selfReportWaits (flushGo s) = false)) →
      ∃ u, exec .resetFlushEnd s = .next (follow u) ∧ u.part.phase = .resetting hub ∧ u.hf = [] ∧ u.hc.evt = []) ∧
    (∀ hub, running s = true → s.part.phase = .flush hub → flushDone (flushGo s) = true →
      ((flushGo s).pwr.cause = 1 ∨ (flushGo s).pwr.cause = 2) → rdFld (flushGo s) aFbStat 0 2 ≠ 3 →
      ∃ u, exec .resetFlushEnd s = .next (follow u) ∧
        (u.part.phase = .resetting hub ∨ (u.part.phase = .flush hub ∧ rdFld u aFbStat 0 2 = 3 ∧ selfReportWaits u = true)))

/-- R294, R295, R547: the flush of a Global Persistent Flush is asked for by a head or by PWR_WARN_n, closes admission, and its limit marks the shutdown
state dirty. -/
def Obligations.PersistentFlush : Prop :=
  ∀ s : State, running s = true →
    (∀ p : HPort, windowPort s p = true → s.pwr.flush = true → p.val ∉ s.pwr.gpf →
      ∃ u, exec (.gpfPhase2Request p) s = .next (follow u) ∧ u = { s with pwr := { s.pwr with gpf := s.pwr.gpf ++ [p.val] } }) ∧
    (∀ p : HPort, windowPort s p = true → s.pwr.flush = false →
      ∃ u v, exec (.gpfPhase2Request p) s = .next (follow u) ∧ u = gpfGo v ∧ v.ports.closed = true ∧ v.pwr.flush = true ∧ p.val ∈ v.pwr.gpf) ∧
    (s.part.pwrWarnN = false → rdBit s aPmCtl 1 = true → s.pwr.flush = true →
      ∃ u, exec .pwrWarnSustained s = .next (follow u) ∧ u.pwr.pwHold = true ∧ u.pwr.flush = true ∧ u.regs = s.regs) ∧
    (s.part.pwrWarnN = false → rdBit s aPmCtl 1 = true → s.pwr.flush = false →
      ∃ u v, exec .pwrWarnSustained s = .next (follow u) ∧ u = gpfGo v ∧ v.pwr.pwHold = true ∧ v.pwr.flush = true ∧ v.ports.closed = true ∧
        bit (mgetD 0 v.ev.evStat 5) 19 = true ∧ v.pwr.gpf = s.pwr.gpf) ∧
    (s.pwr.flush = true → ∃ u, exec .gpfTimeExpiry s = .next (follow u) ∧ u = markDirty s) ∧
    (s.pwr.pwHold = true → s.part.pwrWarnN = true → s.pwr.flush = false →
      ∃ t, exec .pwrWarnReleaseTimer s = .next t ∧ t.ports.closed = false ∧ t.pwr.pwHold = false ∧ t.regs = s.regs)

/-- R541 to R546: a rail's reading is kept with its lowest value; below the warning level the device enters Brace with EV256, a Tally record and its count, and
starts the drains of R293; it leaves Brace with EV257 and a Tally record once every rail has risen, where MIN of each rail starts again. PWR_WARN_n enters
Brace in the same way where PM_CTL.PWEN allows it. -/
def Obligations.BraceEvents : Prop :=
  ∀ s : State, awake s = true →
    (∀ (rail : Fin 5) (mv : Nat), (isH1 s = true ∨ rail.val ≠ 3) → mv < 65536 → railNominal rail * (200 - rdFld s (aPmRail rail) 8 5) < 200 * mv →
      200 * mv < railNominal rail * (200 - rdFld s (aPmRail rail) 0 4) → inBrace s = true →
      ∃ u, exec (.railWarning rail mv) s = .next (follow u) ∧ rdFld u (aPmRail rail) 16 16 = mv ∧ rail.val ∈ u.pwr.low ∧ inBrace u = true ∧
        rdFld u (aPmRail rail) 32 16 = (if rdFld s (aPmRail rail) 32 16 = 0 ∨ mv < rdFld s (aPmRail rail) 32 16 then mv else rdFld s (aPmRail rail) 32 16)) ∧
    (∀ (rail : Fin 5) (mv : Nat), (isH1 s = true ∨ rail.val ≠ 3) → mv < 65536 → railNominal rail * (200 - rdFld s (aPmRail rail) 8 5) < 200 * mv →
      200 * mv < railNominal rail * (200 - rdFld s (aPmRail rail) 0 4) → inBrace s = false →
      ∃ u v, exec (.railWarning rail mv) s = .next (follow u) ∧ u = drainAll v ∧ inBrace v = true ∧ bit (mgetD 0 v.ev.evStat 5) 16 = true ∧
        v.tly.next = s.tly.next + 1 ∧ mgetD 0 v.cnt.live (aPmCnt 0 / 8) = (mgetD 0 s.cnt.live (aPmCnt 0 / 8) + 1) % 2 ^ 48 ∧
        rdFld v (aPmRail rail) 16 16 = mv ∧ rail.val ∈ v.pwr.low ∧ v.hc = s.hc ∧
        rdFld v (aPmRail rail) 32 16 = (if rdFld s (aPmRail rail) 32 16 = 0 ∨ mv < rdFld s (aPmRail rail) 32 16 then mv else rdFld s (aPmRail rail) 32 16)) ∧
    (∀ (rail : Fin 5) (mv : Nat), (isH1 s = true ∨ rail.val ≠ 3) → mv < 65536 → railNominal rail * (200 - rdFld s (aPmRail rail) 0 4) ≤ 200 * mv →
      railNominal rail * (200 - rdFld s (aPmRail rail) 8 5) < 200 * mv →
      ∃ t, exec (.railAboveWarning rail mv) s = .next t ∧ rdFld t (aPmRail rail) 16 16 = mv ∧ rail.val ∉ t.pwr.low ∧ t.out = s.out ∧
        rdFld t (aPmRail rail) 32 16 = (if rdFld s (aPmRail rail) 32 16 = 0 ∨ mv < rdFld s (aPmRail rail) 32 16 then mv else rdFld s (aPmRail rail) 32 16)) ∧
    (inBrace s = true → s.pwr.low = [] → (s.part.pwrWarnN = true ∨ rdBit s aPmCtl 0 = false) →
      ∃ t, exec .braceExitTimer s = .next t ∧ inBrace t = false ∧ bit (mgetD 0 t.ev.evStat 5) 17 = true ∧ t.tly.next = s.tly.next + 1 ∧ t.hc = s.hc ∧
        ∀ n, n < 5 → rdFld t (aPmRail n) 32 16 = rdFld s (aPmRail n) 16 16) ∧
    ((inBrace s = false ∨ s.pwr.low ≠ [] ∨ (s.part.pwrWarnN = false ∧ rdBit s aPmCtl 0 = true)) → exec .braceExitTimer s = .next s) ∧
    ((inBrace s = true ∨ rdBit s aPmCtl 0 = false) →
      ∃ u, exec .pwrWarnAssert s = .next (follow u) ∧ u = { s with part := { s.part with pwrWarnN := false } }) ∧
    (inBrace s = false → rdBit s aPmCtl 0 = true →
      ∃ u v, exec .pwrWarnAssert s = .next (follow u) ∧ u = drainAll v ∧ inBrace v = true ∧ v.part.pwrWarnN = false ∧ v.hc = s.hc ∧
        bit (mgetD 0 v.ev.evStat 5) 16 = true ∧ v.tly.next = s.tly.next + 1 ∧
        mgetD 0 v.cnt.live (aPmCnt 0 / 8) = (mgetD 0 s.cnt.live (aPmCnt 0 / 8) + 1) % 2 ^ 48) ∧
    (∃ t, exec .pwrWarnDeassert s = .next t ∧ t = { s with part := { s.part with pwrWarnN := true } })

/-- R548 to R551: a sensor reading stands in PM_TEMP; at 115 °C the device takes a cold reset with THERMTRIP_n. -/
def Obligations.TemperatureReading : Prop :=
  ∀ (s : State) (temps : Vector (BitVec 8) 16), s.part.phase ≠ .held →
    (115 ≤ tj (setTemps temps s) → ∃ t, exec (.tempSensorRead temps) s = .next t ∧ ColdHeld t ∧ t.part.thermtripN = false ∧
      rd t aPmTherm = resetWord t.part aPmTherm) ∧
    (tj (setTemps temps s) < 115 → awake s = true →
      ∃ t, exec (.tempSensorRead temps) s = .next t ∧ rd t (aPmTemp 0) = rd (setTemps temps s) (aPmTemp 0) ∧ t.hc = s.hc ∧ t.dir = s.dir)

/-- R563, R566 to R570: Dormant stacks, load bands, and the ends of verification, retraining and regathering. -/
def Obligations.CalibrationEvents : Prop :=
  ∀ s : State, running s = true →
    (∀ k : Fin 4, isH1 s = true → rdBit s aPmDorm k = true → rdBit s aPmDorm (16 + k) = false → stackBusy s k = false →
      ∃ t, exec (.dormantEntry k) s = .next t ∧ rdBit t aPmDorm (16 + k) = true) ∧
    (∀ k : Fin 4, isH1 s = true → rdBit s aPmDorm (16 + k) = true → ∃ t, exec (.dormantExit k) s = .next t ∧ rdBit t aPmDorm (16 + k) = false) ∧
    (∀ load : Nat, load ≤ 60 → rdBit s aPmStat 4 = false → ∃ t, exec (.loadBandChange load) s = .next t ∧ rdFld t aPmLoad 0 7 = load ∧
      rdFld t aPmLoad 7 2 = (if load < 30 then 0 else 1)) ∧
    (∀ load : Nat, load ≤ 60 → rdBit s aPmStat 4 = true → ∃ t, exec (.loadBandChange load) s = .next t ∧ rdBit t aPmStat 4 = false ∧
      rdFld t aPmLoad 0 7 = load) ∧
    (∀ load : Nat, 60 < load → ∃ t v, exec (.loadBandChange load) s = .next t ∧ t = startVerify v ∧ v.pwr = s.pwr ∧ rdFld v aPmLoad 7 2 = 2 ∧
      rdFld v aPmLoad 0 7 = min load 127) ∧
    (rdBit s aPmStat 4 = true → (∀ n, n < 56 → hasRecord s n = true → rdFld s (aPmCal n) 22 2 ≠ 1 ∨ rdBit s (aPmCal n) 24 = true) →
      (∀ n, n < 56 → hasRecord s n = true → rdFld s (aPmCal n) 22 2 ≠ 3) →
      ∃ t, exec (.loadVerificationEnd []) s = .next t ∧ rdBit t aPmStat 4 = false) ∧
    (∀ (n : Fin 56) (w : BitVec 32), n.val < 52 → rdBit s (aPmCal n) 25 = true →
      ∃ t, exec (.retrainingEnd n w) s = .next t ∧
        t = startVerify (endRetrain n (gather n (w.toNat % 256) (w.toNat / 256 % 4096) (rdFld s aPmLoad 7 2) s))) ∧
    (∀ (n : Fin 56) (w : BitVec 32), 52 ≤ n.val → rdFld s (aPmCal n) 22 2 = 2 → rdFld s aPmLoad 7 2 < 2 →
      ∃ t, exec (.droopRegatherDone n w) s = .next t ∧ rdFld t (aPmCal n) 0 8 = w.toNat % 256 ∧ rdFld t (aPmCal n) 8 12 = w.toNat / 256 % 4096 ∧
        rdFld t (aPmCal n) 22 2 = 1)

/-- R488, R494, R552, R558: Pelest's restart and return, the activation of an image, and the clocks. -/
def Obligations.PelestAndClocks : Prop :=
  ∀ s : State, running s = true →
    (pelestUp s = true → ∃ t, exec .pelestWatchdog s = .next t ∧ t = pelestRestart s ∧ t.ctl.unlocks = [] ∧ t.hc = s.hc) ∧
    (rdBit s aGlStat 3 = true → s.pwr.mgmtLost = false → s.ctl.act = none →
      ∃ t, exec .pelestReady s = .next t ∧ rdBit t aGlStat 3 = false ∧ t.flash = s.flash) ∧
    (∀ b, rdBit s aGlStat 3 = true → s.ctl.act = some b → s.ctl.bg = [] →
      ∃ t, exec .fwActivateTimeout s = .next t ∧ t.ctl.act = none ∧ t.flash = s.flash) ∧
    (∃ t, exec (.clockLoss 88) s = .next t ∧ ColdHeld t ∧ rd t aPmLastc = 3) ∧
    (∃ t, exec (.clockLoss 93) s = .next t ∧ t.pwr.mgmtLost = true ∧ t.regs = s.regs ∧ bit (mgetD 0 t.ev.evStat 5) 23 = true) ∧
    (∃ t, exec (.clockLoss 95) s = .next t ∧ t.pwr.altClk = true ∧ t.regs = s.regs ∧ bit (mgetD 0 t.ev.evStat 5) 23 = true) ∧
    (∃ t, exec .timeRefRestore s = .next t ∧ t = { s with pwr := { s.pwr with altClk := false } }) ∧
    (s.pwr.mgmtLost = true → ∃ t, exec .managementClockReturn s = .next t ∧ t.pwr.mgmtLost = false ∧ t.ctl.unlocks = [])

/-- R357 to R363, R378, R557, R561, R562: what happens to a host port's link and to its head. -/
def Obligations.HostLinkEvents : Prop :=
  ∀ (s : State) (p : HPort), running s = true → inService s p = true →
    (linkUp s p = true → hostMode s p = false → ∃ u, exec (.hostLinkDown p) s = .next (follow u) ∧ u = linkGone p 7 s) ∧
    (linkUp s p = true → hostMode s p = true → ∃ u, exec (.hostLinkDown p) s = .next (follow u) ∧ u = hostDies p (linkGone p 7 s)) ∧
    (∀ tr : PcieTrain, hostMode s p = false → peerTrains tr = true → ∃ u, exec (.portReset ⟨p, tr⟩) s = .next (follow u) ∧ rdFld u (aHpStat p) 0 3 = 3 ∧
      rdFld u (aHpStat p) 3 3 = min (Nat.log2 (lanesOf s p)) tr.width.toNat ∧ rdFld u (aHpStat p) 6 2 = tr.rate.toNat) ∧
    (∀ tr : PcieTrain, hostMode s p = true → peerTrains tr = true →
      ∃ u v, exec (.portReset ⟨p, tr⟩) s = .next (follow u) ∧ u = readmit p v ∧ p.val ∈ v.hst.portReset ∧ v.ctl.unlocks = []) ∧
    (∀ tr : PcieTrain, hostMode s p = false → peerTrains tr = false → linkUp s p = true →
      ∃ u, exec (.portReset ⟨p, tr⟩) s = .next (follow u) ∧ rdFld u (aHpStat p) 0 3 = 2) ∧
    (hostMode s p = true → rdBit s (aMbCtl p) 1 = false →
      ∃ t, exec (.functionLevelReset p) s = .next t ∧ mget t.ev.msixMask p = none ∧ t.hf = s.hf ∧ t.regs = s.regs ∧ t.lar = s.lar) ∧
    (∀ width, mayNarrow s p = true → 0 < width → width < 2 ^ trainedLanes s p → mgetD 0 s.hst.narrow p = 0 →
      ∃ t, exec (.l0pRequest p width) s = .next t ∧ rdFld t (aHpStat p) 0 3 = 4 ∧ mget t.hst.narrow p = some 1) ∧
    (mayNarrow s p = true → mgetD [] s.brd.wait (76 + p) = [] → mget s.brd.run (76 + p) = none → mgetD 0 s.hst.narrow p = 0 →
      ∃ t, exec (.l0pIdleNarrow p) s = .next t ∧ rdFld t (aHpStat p) 0 3 = 4 ∧ mget t.hst.narrow p = some 2 ∧ t.free = s.free + 1) ∧
    (linkUp s p = true → rdBit s (aHpCtl p) 6 = true → rdFld s (aHpStat p) 0 3 ≠ 6 →
      ∃ t, exec (.l1Entry p) s = .next t ∧ rdFld t (aHpStat p) 0 3 = 5) ∧
    (rdFld s (aHpStat p) 0 3 = 5 → ∃ t, exec (.l1Exit p) s = .next t ∧ rdFld t (aHpStat p) 0 3 = activeLs s p) ∧
    (linkUp s p = true → rdFld s (aHpStat p) 0 3 ≠ 6 → ∃ t, exec (.pcieLinkRecovery (.host p)) s = .next t ∧ rdFld t (aHpStat p) 0 3 = 6) ∧
    (∀ tr : PcieTrain, rdFld s (aHpStat p) 0 3 = 6 → peerTrains tr = true →
      ∃ t, exec (.hostLinkRecoveryEnd ⟨p, tr⟩) s = .next t ∧ rdFld t (aHpStat p) 0 3 = activeLs s p ∧
        rdFld t (aHpStat p) 3 3 = min (Nat.log2 (lanesOf s p)) tr.width.toNat ∧ rdFld t (aHpStat p) 6 2 = tr.rate.toNat)

/-- R376, R378, R374: the recovery of a cellar port's link, and an enumeration that succeeds for a port without a failure: rate and width
of Table 09.1, the capacity, and the GPF time of R295. -/
def Obligations.CellarLinkEvents : Prop :=
  ∀ (s : State) (d : DPort), running s = true → rdBit s (aDpCtl d) 0 = true → rdBit s (aDpStat d) 9 = false →
    (rdFld s (aDpStat d) 0 3 ≠ 6 → ∃ t, exec (.pcieLinkRecovery (.cellar d)) s = .next t ∧ rdFld t (aDpStat d) 0 3 = 6 ∧ t.cel = s.cel) ∧
    (∀ e : ExpanderInfo, rdFld s (aDpStat d) 0 3 = 2 → e.trained = true → peerTrains e.train = true → (rdBit s (aDpCtl d) 1 = false ∨ e.authOk = true) → s.flash.serials = [] →
      ∃ u, exec (.enumerationEnd d e) s = .next (follow u) ∧ rdFld u (aDpStat d) 0 3 = 3 ∧ rdBit u (aDpStat d) 8 = true ∧
        rdFld u (aDpCap d) 0 52 = e.cap.toNat % 2 ^ 52 ∧ mget u.pwr.gpfExp d = some e.gpfTime ∧
        rdFld u (aDpStat d) 3 3 = min 3 e.train.width.toNat ∧ rdFld u (aDpStat d) 6 2 = e.train.rate.toNat)

/-- R290, R363, R452, R462: a head's configuration requests and secured sessions. -/
def Obligations.HeadRequests : Prop :=
  ∀ (s : State) (p : HPort), inService s p = true → hostMode s p = true →
    (∀ c, s.part.phase = .cold → ∃ t, exec (.headConfigurationRequest p c) s = .next t ∧ t = emit (.cfgAns p true 0) s) ∧
    (∀ off be v, s.part.phase = .ready → ∃ t, exec (.headConfigurationRequest p (.write off be v)) s = .next t ∧ Sent.cfgAns p false 0 ∈ t.out ∧
      (mget (head t p).config (off.toNat / 4)).isSome = true ∧ t.regs = s.regs) ∧
    (∀ base size, s.part.phase = .ready → ∃ t, exec (.headConfigurationRequest p (.commitDecoder base size)) s = .next t ∧
      (head t p).decoder = some (base.toNat, size.toNat) ∧ t.regs = s.regs) ∧
    (mbServed s = true → pelestUp s = true → ∃ t, exec (.spdmMessage (p.castLE (by decide)) (.finish true)) s = .next t ∧ (head t p).session = true ∧
      Sent.spdm p true ∈ t.out) ∧
    (mbServed s = true → pelestUp s = true → ∃ t, exec (.spdmMessage (p.castLE (by decide)) .endSession) s = .next t ∧ (head t p).session = false)

/-- R53, R61, R77, R146, R148: the ends of sweeps and reclaims: with nothing left the task is over, its status clears and its event is raised. -/
def Obligations.SweepsEnd : Prop :=
  ∀ s : State, running s = true →
    (∀ (p : HPort) (n : BitVec 8) (t : BgTask), taskOf s (.windowSweep p n) = some t → windowLeft p t s = [] → windowAsked p t s = false →
      ∃ u, exec (.windowSweepEnd p n) s = .next (follow u) ∧ rdBit u (aHpWinstat p (n.toNat / 64)) (n.toNat % 64) = false ∧ u.bg.length + 1 = s.bg.length ∧
        bit (mgetD 0 u.ev.evStat 4) 5 = true) ∧
    (∀ t : BgTask, taskOf s .domainSweep = some t → 2 ^ 24 ≤ t.next →
      (∀ x, x ∈ s.home.opened → x.rq = .home → x.opc ≠ .snpBc) →
      ∃ u, exec .domainSweepEnd s = .next (follow u) ∧ u.sweep = [] ∧ rdBit u aDrSweep 0 = false ∧ rdBit u aDrSweep 1 = true ∧ u.bg.length + 1 = s.bg.length) ∧
    (∀ t : BgTask, s.bg = [t] → t.kind = .rangeFlush → purged (inRange s t.next t.last) s = true → fillsIn (inRange s t.next t.last) s = false →
      ∃ u, exec .rangeFlushEnd s = .next (follow u) ∧ u.bg = [] ∧ bit (mgetD 0 u.ev.evStat 4) 5 = true) ∧
    (∀ (p : HPort) (t : BgTask), taskOf s (.hostReclaim p) = some t → hostLines p s = [] →
      ∃ u v, exec (.hostReclaimEnd p) s = .next (follow u) ∧ u = readmit p v ∧ p.val ∈ v.hst.reclaimed ∧ v.bg.length + 1 = s.bg.length)

/-- R212, R345, R450, R453, R457: the ends of a maintenance operation, a mirror copy (`MrCtl` (end) with the next MSEQ, and EV201), a rekey sweep, a key retirement and a rebuild. A retired key's
slot is EMPTY, and its generation has risen by one, 255 followed by 1. -/
def Obligations.KeyAndCopyTasksEnd : Prop :=
  ∀ s : State, running s = true →
    (∀ t : BgTask, taskOf s .maint = some t → maintDone s = true →
      ∃ u, exec .maintenanceOpEnd s = .next (follow u) ∧ u.hc.maint = none ∧ rdBit u aHcMopc 4 = false ∧ rdBit u aHcMopc 5 = true ∧ seqOf u aHcMopc = (seqOf s aHcMopc + 1) % 2 ^ 16) ∧
    (∀ t : BgTask, s.bg = [t] → t.kind = .mirrorCopy → mirrorOn s = false → copiesRead s = true →
      ∃ u, exec .mirrorCopyEnd s = .next (follow u) ∧ u = { s with bg := [] }) ∧
    (∀ t : BgTask, s.bg = [t] → t.kind = .mirrorCopy → mirrorOn s = true → t.last < t.next → copiesRead s = true →
      ∃ u m, exec .mirrorCopyEnd s = .next (follow u) ∧ u.bg = [] ∧ u.mir.next = (s.mir.next + 1) % 2 ^ 32 ∧ bit (mgetD 0 u.ev.evStat 4) 9 = true ∧
        m.opc = .mrCtl ∧ m.dst = buddy s ∧ (if s.mir.sent.length < 4096 then (s.mir.next, m) ∈ u.mir.sent else m ∈ u.mir.held) ∧ u.hc = s.hc ∧ u.dir = s.dir) ∧
    (∀ t : BgTask, taskOf s .rekey = some t →
      rdFld s (aSlKrt (fld (rd s aSlRkctl) 0 12) + 8) 0 34 < rdFld s aSlRkptr 0 34 → s.sl.reseals = [] →
      ∃ u, exec .rekeySweepEnd s = .next (follow u) ∧ rdBit u aSlRkctl 31 = false ∧
        rdFld u (aSlKrt (fld (rd s aSlRkctl) 0 12)) 3 10 = fld (rd s aSlRkctl) 12 10 ∧ rdFld u (aSlKrt (fld (rd s aSlRkctl) 0 12)) 13 8 = fld (rd s aSlRkctl) 22 8) ∧
    (∀ t : BgTask, taskOf s .keyRetire = some t → t.arg < 1024 → purged (ofSlot t.arg s) s = true → storedAll (ofSlot t.arg s) s = true →
      rdFld s (aSlKs t.arg) 2 8 ≠ 0 → s.ctl.bg = [] →
      ∃ u, exec .keyRetireEnd s = .next (follow u) ∧ mget u.sl.keys t.arg = none ∧ mget u.flash.keys t.arg = none ∧ rdFld u (aSlKs t.arg) 0 2 = 0 ∧
        rdFld u (aSlKs t.arg) 2 8 = (if rdFld s (aSlKs t.arg) 2 8 = 255 then 1 else rdFld s (aSlKs t.arg) 2 8 + 1) ∧ rdFld u (aSlKs t.arg) 2 8 ≠ 0) ∧
    (rdFld s aSlStat 0 2 = 1 → s.ctl.bg = [] → ∃ u, exec .rebuildEnd s = .next (follow u) ∧ rdFld u aSlStat 0 2 = 2 ∧ u.free = s.free + 9)

/-- R180, R181, R391, R413, R573: the ends of a slice drain, a page move, a pseudo-channel's retirement and a Strong-set rebuild. -/
def Obligations.RetirementTasksEnd : Prop :=
  ∀ s : State, running s = true → s.ctl.bg = [] → s.flash.lumber.length < 4095 →
    (∀ t : BgTask, taskOf s .sliceDrain = some t → t.next < 32 → t.arg < 2 → sliceEmpty t.next s = true →
      ∃ u, exec .sliceDrainEnd s = .next (follow u) ∧ rdBit u aPmDrain 0 = false ∧ rdFld u aPmDrain 6 1 = t.arg ∧ rdFld u aPmDrain 8 32 = 0 ∧ rdBit u aPmDrain 7 = true) ∧
    (∀ (t : BgTask) page set spare, taskOf s .pageRetire = some t → s.prot.moving = some (page, set, spare, 64) → s.cel.ops = [] →
      ∃ u, exec .pageRetireEnd s = .next (follow u) ∧ u.prot.moving = none ∧ mget u.flash.pages page = some (set, spare) ∧ u.flash.lumber.length = s.flash.lumber.length + 1) ∧
    (∀ (t : BgTask) g, taskOf s .pcRetire = some t → s.hc.pcWant = some g → g < 128 → pcWays g s = [] → s.hc.evs = [] → rdBit s aHcPcmap (6 * (g % 4) + 5) = true →
      ∃ u, exec .pcRetireEnd s = .next (follow u) ∧ u.hc.pcWant = none ∧ g ∈ u.hc.retPcs ∧ u.flash.lumber.length = s.flash.lumber.length + 1) ∧
    (∀ (d : DPort) (t : BgTask), s.bg = [t] → t.kind = .strongRebuild d → t.last < t.next → s.cel.ops = [] →
      ∃ u, exec (.strongRebuildEnd d) s = .next (follow u) ∧ u.bg = [] ∧ bit (mgetD 0 u.ev.evStat ((64 + 4 * d.val) / 48)) ((64 + 4 * d.val) % 48) = true)

/-- R115, R257 and Table 01.8: one unit of a task's work, whose transfers are the background engine's; with the background reserve used up it pauses with
EV244, and with cells freed it goes on. A probe, which takes no cell, looks its line up and is then done. -/
def Obligations.BackgroundUnits : Prop :=
  ∀ (s : State), running s = true →
    (∀ (k : BgKind) (t : BgTask), taskOf s k = some t → t.paused = false → (larUsed s 1 < shareLimit s 1 ∨ taskNo k = 0) →
      ∃ u, exec (.backgroundWorkUnit k) s = .next (follow u) ∧ u = asTask (taskNo k) (workUnit t) s) ∧
    (∀ t, taskOf s .probeDir = some t → t.paused = false → ∃ u, exec (.backgroundWorkUnit .probeDir) s = .next (follow u) ∧ rdBit u aDrProbe 48 = true ∧
      u.bg.length + 1 = s.bg.length ∧ u.dir = s.dir ∧
      (dirFindIn s (ownLine s (rdFld s aDrProbe 6 42)) 16 0 = none → rdBit u aDrProbe 49 = false ∧ rd u aDrProbed = 0) ∧
      (∀ k, dirFindIn s (ownLine s (rdFld s aDrProbe 6 42)) 16 0 = some k → rdBit u aDrProbe 49 = true ∧ rdFld u aDrProbe 50 4 = k % 16 ∧
        rd u aDrProbed = dirWord (mgetD {} s.dir k))) ∧
    (∀ t, taskOf s .probeHf = some t → t.paused = false → ∃ u, exec (.backgroundWorkUnit .probeHf) s = .next (follow u) ∧ rdBit u aHfProbe 60 = true ∧
      u.bg.length + 1 = s.bg.length ∧ u.hf = s.hf ∧
      (hfFindIn s (inLine s (BitVec.ofNat 54 (rdFld s aHfProbe 6 54))) 16 0 = none → rdBit u aHfProbe 61 = false ∧ rd u aHfProbed = 0) ∧
      (∀ k, hfFindIn s (inLine s (BitVec.ofNat 54 (rdFld s aHfProbe 6 54))) 16 0 = some k → rdBit u aHfProbe 61 = true ∧
        rd u aHfProbed = hfWord (mgetD {} s.hf k))) ∧
    (∀ (k : BgKind) (t : BgTask), taskOf s k = some t → t.paused = false → taskNo k ≠ 0 → shareLimit s 1 ≤ larUsed s 1 →
      ∃ u, exec (.backgroundWorkUnit k) s = .next (follow u) ∧ (∃ t', taskOf u k = some t' ∧ t'.paused = true) ∧ u.hc = s.hc ∧ u.dir = s.dir) ∧
    (larUsed s 1 < shareLimit s 1 → ∃ u, exec .backgroundResume s = .next (follow u) ∧ (∀ t, t ∈ u.bg → t.paused = false) ∧ u.bg.length = s.bg.length)

/-- R382, R394 to R403, R408: corrections are counted and logged, and leaks, expiries, correct-and-writes and spares end as the protection rules say. -/
def Obligations.ProtectionEvents : Prop :=
  ∀ s : State, running s = true →
    (∀ pc op x, hbmNext s pc = some (op, x) → rdBit s aPmDorm (16 + pc % 4) = false →
      ∃ t u rest, exec (.hbmAccessDone pc .clean) s = .next (followAfter s t) ∧ takeFirst (fun y => y = op) (mgetD [] s.hc.hbm pc) = some (op, rest) ∧
        mgetD [] u.hc.hbm pc = rest ∧ u.dir = s.dir ∧
        (∀ k l part cells c, op = .write k l part cells c → t = doneReading cells u) ∧
        (∀ k l c outs d, op = .read k l c outs d → t = outs.foldl (fun s o => enqueue o.1 o.2 s) u)) ∧
    (∀ (k : Fin 32) (set : Nat), isH1 s = true → 65536 * k.val + set % 65536 ∈ s.hc.fetch →
      ∃ u, exec (.frameTagFetchDone k set .clean) s = .next (follow u) ∧ u = tagLoaded (65536 * k.val + set % 65536)
        { s with hc := { s.hc with fetch := s.hc.fetch.filter (· ≠ 65536 * k.val + set % 65536) } }) ∧
    (∀ d : DPort, inStandard s d = false → ∀ l, ∃ t, exec (.gmerPoll d l) s = .next t ∧ t = s) ∧
    (∀ (d : DPort) (r : GmerRec), inStandard s d = true → pageAt s d r.dpa.toNat = none → cntLive s (aEcCcnt (8 + d)) + 1 < 2 ^ 48 →
      ∃ t, exec (.gmerPoll d [r]) s = .next t ∧ cntLive t (aEcCcnt (8 + d)) = cntLive s (aEcCcnt (8 + d)) + 1) ∧
    (∀ f : ScrubFind, f.unit.val ≠ 7 → scrubs f s = true → shareLimit s 1 ≤ larUsed s 1 →
      ∃ u, exec (.scrubStep f) s = .next (follow u) ∧ u = fire 244 0 oNone s) ∧
    (∀ f : ScrubFind, f.unit.val < 7 → f.ecc = .clean → scrubs f s = true → larUsed s 1 < shareLimit s 1 →
      ∃ u, exec (.scrubStep f) s = .next (follow u) ∧ u = scrubPass (scrubRegion s f.unit) s ∧ u.hc = s.hc) ∧
    (∀ (unit : Fin 16) (addr : BitVec 48) k, unit.val < 8 → s.prot.fixes = [(unit.val, k, addr.toNat)] →
      ∃ u, exec (.correctAndWrite unit addr) s = .next (follow u) ∧ u.prot.fixes = [] ∧ u.hc = s.hc) ∧
    (∀ (unit : Fin 16) (addr : BitVec 48) c, s.prot.rows = [(unit.val, addr.toNat % 65536, c)] → s.flash.lumber.length < 4095 → s.ctl.bg = [] →
      ∃ u, exec (.rowSpareDone unit addr) s = .next (follow u) ∧ u.prot.rows = [] ∧ u.flash.lumber.length = s.flash.lumber.length + 1) ∧
    (∀ bank, s.prot.banks = [bank] → s.flash.lumber.length < 4095 → s.ctl.bg = [] →
      ∃ u, exec (.bankSpareDone bank) s = .next (follow u) ∧ u.prot.banks = [] ∧ u.flash.lumber.length = s.flash.lumber.length + 1) ∧
    (∀ b : Fin 69, b.val < 5 → ∃ t, exec (.bucketLeak b) s = .next t ∧ rdFld t (aEcBkt b) 28 8 = rdFld s (aEcBkt b) 28 8 - 1 ∧ t.out = s.out) ∧
    (∀ (unit : Fin 16) (addr : BitVec 48), ∃ t, exec (.watchEntryExpiry unit addr) s = .next t ∧
      (∀ e, e ∈ mgetD [] t.prot.reps unit → e.addr = addr.toNat → e.watch = none) ∧ t.regs = s.regs)

/-- R462, R463: link encryption of host ports: its failure, and the messages that set it up. -/
def Obligations.SecurityEvents : Prop :=
  ∀ s : State, running s = true →
    (∀ p : HPort, rdBit s (aHpCtl p) 0 = true → nonLead s p = false → hostMode s p = false →
      ∃ u, exec (.hostIdeFailure p) s = .next (follow u) ∧ p.val ∈ u.ports.agentOff ∧ (head u p).ideIo = 0 ∧ rdBit u (aHpStat p) 8 = false) ∧
    (∀ p : HPort, rdBit s (aHpCtl p) 0 = true → nonLead s p = false → hostMode s p = true →
      ∃ u v, exec (.hostIdeFailure p) s = .next (follow u) ∧ u = hostDies p v ∧ (head v p).ideMem = 0 ∧ (head v p).ideIo = 0) ∧
    (∀ (p : HPort) (mem : Bool), (head s p).session = true → (if mem then (head s p).ideMem else (head s p).ideIo) = 0 →
      ∃ t, exec (.ideKmMessage p (.keyProg mem)) s = .next t ∧ (if mem then (head t p).ideMem else (head t p).ideIo) = 1 ∧ t.regs = s.regs)

/-- R485, R490, R513, R296, R363, R469, R501: a mailbox that takes commands answers each command that only reads with Success, or with Started where it
runs on, and changes neither the hub cache, nor the directory, nor the keys, nor the Tally. An unknown opcode is answered Unsupported. -/
def Obligations.MailboxReads : Prop :=
  ∀ (s : State) (mb : Mailbox) (tag : BitVec 16), MbAccepts s mb 0 →
    (∃ t n, exec (.identify mb tag) s = .next t ∧ Sent.mailbox mb 0 (Config.cxlAnswer n) ∈ t.out ∧ t.hc = s.hc ∧ t.dir = s.dir ∧ t.sl = s.sl ∧ t.tly = s.tly) ∧
    (∃ t n, exec (.getSupportedLogs mb tag) s = .next t ∧ Sent.mailbox mb 0 (Config.cxlAnswer n) ∈ t.out ∧ t.hc = s.hc ∧ t.dir = s.dir ∧ t.sl = s.sl ∧ t.tly = s.tly) ∧
    (∃ t n, exec (.getLog mb tag) s = .next t ∧ Sent.mailbox mb 0 (Config.cxlAnswer n) ∈ t.out ∧ t.hc = s.hc ∧ t.dir = s.dir ∧ t.sl = s.sl ∧ t.tly = s.tly) ∧
    (∃ t n, exec (.getHealthInfo mb tag) s = .next t ∧ Sent.mailbox mb 0 (Config.cxlAnswer n) ∈ t.out ∧ t.hc = s.hc ∧ t.dir = s.dir ∧ t.sl = s.sl ∧ t.tly = s.tly) ∧
    (∃ t, exec (.backgroundOperationStatus mb tag) s = .next t ∧ Sent.mailbox mb 0 [bgStat s mb] ∈ t.out ∧ t.tly = s.tly) ∧
    (∀ log : Fin 4, ∃ t w, exec (.getEventRecords mb tag log) s = .next t ∧
      w = mkWord [(0, 16, (mgetD [] s.ev.logs (4 * mb.val + log.val)).length), (16, 1, (decide (4 * mb.val + log.val ∈ s.ev.logOvf)).toNat)] ∧
      Sent.mailbox mb 0 (w :: (mgetD [] s.ev.logs (4 * mb.val + log.val)).flatMap fun r => BitVec.ofNat 64 r.handle :: r.words) ∈ t.out ∧ t.tly = s.tly) ∧
    (∃ t, exec (.getEventInterruptPolicy mb tag) s = .next t ∧ Sent.mailbox mb 0 [(head s mb).policy] ∈ t.out ∧ t.tly = s.tly) ∧
    (∃ t, exec (.getFwInfo mb tag) s = .next t ∧ Sent.mailbox mb 0 [glFw s] ∈ t.out ∧ t.flash = s.flash ∧ t.tly = s.tly) ∧
    (∃ t, exec (.getTimestamp mb tag) s = .next t ∧ Sent.mailbox mb 0 [s.time.ft + (head s mb).tsOff] ∈ t.out ∧ t.time = s.time ∧ t.tly = s.tly) ∧
    (∃ t x y z, exec (.identifyMemoryDevice mb tag) s = .next t ∧ Sent.mailbox mb 0 [x, y, z] ∈ t.out ∧ (x = y ∨ x = z) ∧ t.tly = s.tly ∧
      (mb.val < 16 → x = BitVec.ofNat 64 ((List.range 256).foldl (fun n k => n + windowSize s mb k) 0) ∧
        (y, z) = (if rdBit s (aHpCtl mb) 4 then (0, x) else (x, 0)))) ∧
    (∃ t, exec (.getAlertConfig mb tag) s = .next t ∧ Sent.mailbox mb 0 [(head s mb).alertCfg] ∈ t.out ∧ t.tly = s.tly) ∧
    (∃ t, exec (.getShutdownState mb tag) s = .next t ∧
      Sent.mailbox mb 0 [BitVec.ofNat 64 s.flash.dirty.toNat, BitVec.ofNat 64 s.flash.dsc] ∈ t.out ∧ t.flash = s.flash ∧ t.tly = s.tly) ∧
    (∃ t, exec (.getPoisonList mb tag) s = .next t ∧ Sent.mailbox mb 0 (poisonLines s) ∈ t.out ∧ t.tly = s.tly) ∧
    (∃ t w, exec (.pelestInfo mb tag) s = .next t ∧ w = now s (mbOrigin mb) aGlId ∧ Sent.mailbox mb 0 [w, s.part.serial, glFw s, BitVec.ofNat 64 s.flash.boots] ∈ t.out ∧ t.tly = s.tly) ∧
    (∀ (a : BitVec 24) n, 1 ≤ n → n ≤ 255 → a.toNat % 8 = 0 →
      ∃ t out, exec (.regRead mb tag a n) s = .next t ∧ Sent.mailbox mb 0 out ∈ t.out ∧ out.length = n ∧ t.tly = s.tly ∧
        (mb.val < 16 → out = (List.range n).map fun k => readReg s (mbOrigin mb) (a.toNat + 8 * k))) ∧
    (∀ opcode : BitVec 16, opcode.toNat ∉ knownOpcodes → ∃ t, exec (.unsupportedCommand mb tag opcode) s = .next t ∧ Sent.mailbox mb 3 [] ∈ t.out)

/-- R296, R469, R485, R497, R513: the standard commands that set something, and their record in the Tally; REG_WRITE makes its writes one after the
other and answers the result of each. -/
def Obligations.MailboxSettings : Prop :=
  ∀ (s : State) (mb : Mailbox) (tag : BitVec 16),
    (MbAccepts s mb 0 →
      (∀ log : Fin 4, ∃ t, exec (.clearEventRecords mb tag log true []) s = .next t ∧ Sent.mailbox mb 0 [] ∈ t.out ∧ t.tly.next = s.tly.next + 1 ∧
        (mb.val < 16 → rdBit s (aMbCtl mb) 10 = false → tlyHeld s.tly < 60000 →
          mgetD [] t.ev.logs (4 * mb.val + log.val) = [] ∧ 4 * mb.val + log.val ∉ t.ev.logOvf)) ∧
      (∀ v, ∃ t, exec (.setEventInterruptPolicy mb tag v) s = .next t ∧ (head t mb).policy = v ∧ t.tly.next = s.tly.next + 1) ∧
      (∀ v, ∃ t, exec (.setAlertConfig mb tag v) s = .next t ∧ (head t mb).alertCfg = v ∧ t.tly.next = s.tly.next + 1) ∧
      (∃ t, exec (.setShutdownState mb tag true) s = .next t ∧ t.flash.dirty = true ∧ (head t mb).clean = false ∧ t.tly.next = s.tly.next + 1) ∧
      (∃ t, exec (.setShutdownState mb tag false) s = .next t ∧ (head t mb).clean = true ∧ (t.flash.dirty = true → s.flash.dirty = true) ∧
        t.tly.next = s.tly.next + 1)) ∧
    (MbAccepts s mb 4 → ∀ v, ∃ t, exec (.setTimestamp mb tag v) s = .next t ∧ t.time.ft = s.time.ft ∧ t.time.ft + (head t mb).tsOff = v) ∧
    (MbAccepts s mb 1 → s.ev.behind = [] → ∀ pairs, List.length pairs ≤ 127 →
      ∃ u out, exec (.regWrite mb tag pairs) s = .next (followAfter s u) ∧ Sent.mailbox mb 0 out ∈ u.out ∧ out.length = pairs.length ∧
        (mb.val < 16 → ∃ v, (out, v) = writePairs (mbOrigin mb) pairs s ∧ u.hc = v.hc ∧ u.brd = v.brd ∧ u.sl = v.sl ∧ u.time = v.time))

/-- R485, R487, R488, R490, R499: what a mailbox turns away, each with its return code and without an effect on the keys, the hub cache or the flash. -/
def Obligations.MailboxGates : Prop :=
  ∀ (s : State) (mb : Mailbox) (tag : BitVec 16), s.halted = none → s.part.phase = .ready → (mb.val < 16 → nonLead s mb = false) →
    (pelestUp s = false → ∃ t, exec (.fwCommit mb tag) s = .next t ∧ Sent.mailbox mb 6 [] ∈ t.out ∧ t.flash = s.flash ∧ t.tly.next = s.tly.next + 1) ∧
    (pelestUp s = true → (mbAuth s mb).testBit 2 = false →
      ∃ t, exec (.fwCommit mb tag) s = .next t ∧ Sent.mailbox mb 3 [] ∈ t.out ∧ t.flash = s.flash ∧ t.tly.next = s.tly.next + 1) ∧
    (pelestUp s = true → (mbAuth s mb).testBit 2 = true → blockedByTally s (mbOrigin mb) = true →
      ∃ t, exec (.fwCommit mb tag) s = .next t ∧ Sent.mailbox mb 2 [] ∈ t.out ∧ t.flash = s.flash ∧ t.tly = s.tly) ∧
    (pelestUp s = true → (mbAuth s mb).testBit 5 = true → blockedByTally s (mbOrigin mb) = false → (mget s.ctl.bg mb.val).isSome = true →
      ∀ slot, ∃ u, exec (.keyRetire mb tag slot) s = .next (follow u) ∧ Sent.mailbox mb 6 [] ∈ u.out ∧ u.sl = s.sl ∧ u.bg = s.bg)

/-- R290, R488, R492 to R496, R554: resets and firmware by command. -/
def Obligations.FirmwareCommands : Prop :=
  ∀ (s : State) (mb : Mailbox) (tag : BitVec 16), MbAccepts s mb 2 →
    (∃ u, exec (.hubReset mb tag) s = .next (follow u) ∧ Sent.mailbox mb 1 [] ∈ u.out ∧ u.part.phase = .flush true ∧ u.pwr.cause = 2 ∧ u.ports.closed = true) ∧
    (∃ t, exec (.pelestRestart mb tag) s = .next t ∧ rdBit t aGlStat 3 = true ∧ t.ctl.unlocks = [] ∧ t.hc = s.hc ∧ t.sl = s.sl) ∧
    (actPending s = false → ∀ part : FwPart, part.offset = 0 → part.last = false →
      ∃ t t', exec (.fwStage mb tag part) s = .next t ∧ exec (.transferFw mb tag part) s = .next t' ∧ t.ctl.staged = some 0 ∧ t'.flash = t.flash ∧
        t.flash = (if s.flash.actB then { s.flash with slotA := none } else { s.flash with slotB := none }) ∧ mget t.ctl.bg mb.val = none) ∧
    (actPending s = false → ∀ part : FwPart, part.offset = 0 → part.last = true → part.verifies = true → s.flash.minsv ≤ part.svn.toNat →
      ∃ t t', exec (.fwStage mb tag part) s = .next t ∧ exec (.transferFw mb tag part) s = .next t' ∧ t'.flash = t.flash ∧ t.flash.actB = s.flash.actB ∧
        (if s.flash.actB then t.flash.slotA else t.flash.slotB) = some ⟨part.version, part.svn⟩) ∧
    (stagedReady s = true →
      (∃ t t', exec (.fwActivate mb tag) s = .next t ∧ exec (.activateFw mb tag true) s = .next t' ∧ t.ctl.act = some s.flash.actB ∧
        t'.ctl.act = some s.flash.actB ∧ rdBit t aGlStat 3 = true ∧ rdBit t' aGlStat 3 = true ∧ t.flash = s.flash ∧ t'.flash = s.flash) ∧
      (∃ t t', exec (.fwActivateOffline mb tag) s = .next t ∧ exec (.activateFw mb tag false) s = .next t' ∧ t.flash = { s.flash with pend := true } ∧
        t'.flash = t.flash ∧ rdBit t aGlStat 3 = false)) ∧
    (actPending s = false → ∃ t, exec (.fwCommit mb tag) s = .next t ∧ s.flash.minsv ≤ t.flash.minsv ∧
      (∀ i, (if s.flash.actB then s.flash.slotB else s.flash.slotA) = some i → t.flash.minsv = max s.flash.minsv i.svn.toNat))

/-- R482, R490, R501, R503: the Tally's commands, snapshots and Boards by command. -/
def Obligations.TallyAndTimeCommands : Prop :=
  ∀ (s : State) (mb : Mailbox) (tag : BitVec 16),
    (MbAccepts s mb 3 →
      (∀ boot mac recs, List.length recs ≤ 31 →
        ∃ t, exec (.tallyVerify mb tag boot mac recs) s = .next t ∧
          Sent.mailbox mb 0 [BitVec.ofNat 64 (verified (Config.tallyKey boot) mac recs)] ∈ t.out ∧ t.tly = s.tly) ∧
      (∃ t, exec (.tallyCheckpoint mb tag) s = .next t ∧ t.flash.chkNum = some (s.tly.exported - 1) ∧ t.tly.chkFirst = s.tly.exported ∧
        t.tly.next = s.tly.next + 5)) ∧
    (MbAccepts s mb 4 →
      (∀ (w : Word) (fabric : Bool), rdBit s aGlSnapst 0 = false → s.time.ft.toNat ≤ w.toNat →
        ∃ t out, exec (.snapshotAt mb tag w fabric) s = .next t ∧ Sent.mailbox mb 0 out ∈ t.out ∧ rdBit t aGlSnapst 0 = true ∧ rd t aGlSnapat = w ∧
          t.time.sched = s.time.sched ++ [(w, .snapshot)]) ∧
      (∀ (w : Word) (fabric : Bool), rdBit s aGlSnapst 0 = true →
        ∃ t, exec (.snapshotAt mb tag w fabric) s = .next t ∧ Sent.mailbox mb 6 [] ∈ t.out ∧ t.time.sched = s.time.sched) ∧
      (∀ triples (w : Word), List.length triples ≤ 240 → s.time.ft.toNat ≤ w.toNat →
        ∃ t, exec (.boardWrite mb tag triples (some w)) s = .next t ∧ t.time.sched = s.time.sched ++ [(w, .board triples 34)] ∧ (mb.val ≤ 16 → t.brd = s.brd)) ∧
      (∀ triples, List.length triples ≤ 240 → mb.val < 16 →
        ∃ t, exec (.boardWrite mb tag triples none) s = .next t ∧ t.brd = (boardWrite 34 triples s).brd))

/-- R449, R450, R452, R453, R459: the commands of keys and sealing. -/
def Obligations.KeyCommands : Prop :=
  ∀ (s : State) (mb : Mailbox) (tag : BitVec 16), MbAccepts s mb 5 →
    (∀ (slot : BitVec 10) (key : Option (BitVec 256)) (persist : Bool), rdFld s (aSlKs slot.toNat) 0 2 = 0 → (key.isSome = true → inSession s mb = true) →
      ∃ t k, exec (.keyLoad mb tag slot key persist) s = .next t ∧ rdFld t (aSlKs slot.toNat) 0 2 = 1 ∧
        rdFld t (aSlKs slot.toNat) 2 8 = rdFld s (aSlKs slot.toNat) 2 8 ∧ mget t.sl.keys slot.toNat = some k ∧ (∀ k', key = some k' → k = k') ∧
        (persist = true → mget t.flash.keys slot.toNat = some k) ∧ (persist = false → t.flash = s.flash)) ∧
    (∀ slot : BitVec 10, rdBit s aSlStat 2 = false → retireRefused s slot.toNat = false →
      ∃ u, exec (.keyRetire mb tag slot) s = .next (follow u) ∧ rdBit u aSlStat 2 = true ∧ rdFld u aSlStat 3 10 = slot.toNat ∧
        rdFld u (aSlKs slot.toNat) 0 2 = 2 ∧ u.bg = s.bg ++ [⟨.keyRetire, 0, 0, slot.toNat, false⟩] ∧ u.sl.keys = s.sl.keys) ∧
    (∀ (p : IPort) (key : BitVec 256), inSession s mb = true →
      ∃ t, exec (.linkKey mb tag p key) s = .next t ∧ Sent.mailbox mb 0 [] ∈ t.out ∧ (link t p).psk = some key ∧
        linkState t p = (if linkState s p = 3 then 4 else if linkState s p = 0 ∨ linkState s p = 4 then linkState s p else 1)) ∧
    (∀ (p : IPort) (key : BitVec 256), inSession s mb = false →
      ∃ t, exec (.linkKey mb tag p key) s = .next t ∧ Sent.mailbox mb 2 [] ∈ t.out ∧ (link t p).psk = (link s p).psk) ∧
    (rdFld s aSlStat 0 2 = 0 →
      (∃ u, exec (.sealInit mb tag) s = .next (follow u) ∧ rdFld u aSlStat 0 2 = 2 ∧ (∀ k, k < 8 → rd u (aSlRoot k) = 0) ∧ rd u aSlMajsrc = 1) ∧
      (∃ u, exec (.sealRebuild mb tag) s = .next (follow u) ∧ rdFld u aSlStat 0 2 = 1 ∧ u.sl.cache = []))

/-- R321, R327, R338, R339, R351, R352, R484: the commands of the fabric; ROUTE_SET writes each entry as a write of FB_RT. A message of the fabric mailbox passes through a Larder cell of its class; it is kept for
its hub where MB_FMSRC takes it, and a mirror entry of the buddy is set; with no cell left it waits. -/
def Obligations.FabricCommands : Prop :=
  (∀ (s : State) (mb : Mailbox) (tag : BitVec 16), MbAccepts s mb 6 →
    (∀ entries, List.length entries ≤ 127 → ∃ t, exec (.routeSet mb tag entries) s = .next t ∧ Sent.mailbox mb 0 [] ∈ t.out ∧
      (mb.val < 16 → ∀ h : HubId, rd t (aFbRt h.toNat) = rd (entries.foldl (fun s e => writeReg 34 (aFbRt e.1.toNat) e.2 none s) s) (aFbRt h.toNat))) ∧
    (rdBit s aFbHubid 12 = true → rdFld s aFbStat 0 2 = 0 → ∀ r, isRoot s = false → rootId s = some r →
      ∃ u, exec (.fabricJoin mb tag) s = .next (follow u) ∧ rdFld u aFbStat 0 2 = 1 ∧ Sent.mailbox mb 1 [] ∈ u.out) ∧
    (∀ hub : HubId, hub ≠ hubId s → rdFld s aFbBuddy 0 2 = 0 → rdBit s aFbBuddy 2 = false →
      ∃ u, exec (.buddyPair mb tag hub) s = .next (follow u) ∧ rdFld u aFbBuddy 0 2 = 1 ∧ buddy u = hub ∧ u.mir.next = 1 ∧ u.mir.sent = []) ∧
    (rdFld s aFbBuddy 0 2 ≠ 0 → pairInUse s = false → ∃ u, exec (.buddyUnpair mb tag) s = .next (follow u) ∧ rd u aFbBuddy = 0) ∧
    (s.mir.planned = 0 → mirrorOn s = true → ∃ u, exec (.takeover mb tag) s = .next (follow u) ∧ u.mir = { s.mir with planned := 1 }) ∧
    (s.mir.back = false → rdBit s aFbBuddy 2 = true → mirrorOn s = true →
      ∃ u, exec (.takeoverHandback mb tag) s = .next (follow u) ∧ u.mir.back = true ∧ u.bg = s.bg ++ [⟨.handback, 0, 0, 0, false⟩])) ∧
  (∀ (s : State) (h : Hdr) (payload : BitVec 512), running s = true →
    (takeCells h.tc.toNat 1 1 s = none → ∃ u, exec (.mbmsg h payload) s = .next (follow u) ∧
      u = { s with lar := { s.lar with held := s.lar.held ++ [(.mbmsg h payload, 60, h.tc.toNat)] } }) ∧
    ((takeCells h.tc.toNat 1 1 s).isSome = true → h.xtra.toNat < 2 ^ 63 → fmSource s h.src = true →
      ∃ u, exec (.mbmsg h payload) s = .next (follow u) ∧ u.ctl.src = h.src.toNat ∧
        mgetD [] u.ctl.parts h.src.toNat = mgetD [] s.ctl.parts h.src.toNat ++ [payload]) ∧
    (h.xtra.toNat < 2 ^ 63 → fmSource s h.src = false → ∃ u, exec (.mbmsg h payload) s = .next (follow u) ∧ u.ctl = s.ctl) ∧
    ((takeCells h.tc.toNat 1 1 s).isSome = true → 2 ^ 63 ≤ h.xtra.toNat → h.src = buddy s → rdFld s aFbBuddy 0 2 ≠ 0 →
      ∃ u, exec (.mbmsg h payload) s = .next (follow u) ∧ rd u (aFbPmir (h.xtra.toNat % 8)) = BitVec.ofNat 64 payload.toNat ∧
        rd u (aFbPmir (h.xtra.toNat % 8) + 8) = BitVec.ofNat 64 (payload.toNat / 2 ^ 64)))

/-- R180, R181, R403, R412, R413, R572 to R574: the commands of retirement and repair; a full Lumber list refuses them with EV285. -/
def Obligations.RetirementCommands : Prop :=
  ∀ (s : State) (mb : Mailbox) (tag : BitVec 16), MbAccepts s mb 7 →
    (s.flash.lumber.length < 4096 →
      (∀ set way, way < 16 → set < (if isH1 s then 2097152 else 229376) → (getWay s (16 * set + way)).ret = false → 16 * set + way ∉ s.hc.retWant →
        ∃ u, exec (.retireFrame mb tag set way) s = .next (follow u) ∧ u.hc.retWant = s.hc.retWant ++ [16 * set + way] ∧ Sent.mailbox mb 1 [] ∈ u.out) ∧
      (∀ pc, s.hc.pcWant = none → isH1 s = true → pc < 128 → pc ∉ s.hc.retPcs →
        ∃ u, exec (.retirePc mb tag pc) s = .next (follow u) ∧ u.hc.pcWant = some pc ∧ u.bg = s.bg ++ [⟨.pcRetire, 0, 0, 0, false⟩]) ∧
      (∀ (unit : Fin 16) row, row < 65536 → rowsUsed s (row % 4) (row / 4 % 32) < 8 →
        ∃ u, exec (.spareRow mb tag unit row) s = .next (follow u) ∧ u.prot.rows = s.prot.rows ++ [(unit.val, row, 0)]) ∧
      (∀ bank, bank < 128 → spareBankUsed s bank = false →
        ∃ u, exec (.spareBank mb tag bank) s = .next (follow u) ∧ u.prot.banks = s.prot.banks ++ [bank]) ∧
      (∀ page n, s.prot.moving = none → isetOf s (64 * page) = some n → s.flash.pages.length < 1024 → nextSpare s n < 1024 →
        populated s (64 * page) = true →
        ∃ u, exec (.retirePage mb tag page) s = .next (follow u) ∧ u.prot.moving = some (page, n, nextSpare s n, 0) ∧
          u.bg = s.bg ++ [⟨.pageRetire, 0, 0, 0, false⟩])) ∧
    (4096 ≤ s.flash.lumber.length → ∀ bank, ∃ u, exec (.spareBank mb tag bank) s = .next (follow u) ∧ Sent.mailbox mb 2 [] ∈ u.out ∧ u.prot = s.prot) ∧
    (∀ (slice : Fin 32) (hold : Bool), rdBit s aPmDrain 0 = false → rdBit s aPmDrain 6 = false →
      ∃ u, exec (.sliceDrain mb tag slice hold) s = .next (follow u) ∧ rdBit u aPmDrain 0 = true ∧ rdFld u aPmDrain 1 5 = slice.val ∧
        u.bg = s.bg ++ [⟨.sliceDrain, slice, 0, hold.toNat, false⟩]) ∧
    (∀ slice : Fin 32, rdBit s aPmDrain 6 = true → rdFld s aPmDrain 1 5 = slice.val →
      ∃ u, exec (.sliceDrainRelease mb tag slice) s = .next (follow u) ∧ rdBit u aPmDrain 6 = false ∧ mget u.ctl.bg mb.val = none)

/-- R301, R303, R305, R306, R460: a port that is not ACTIVE takes no flit; a flit that the FEC could not correct is discarded with one NAK; a wrong tag halts the
device; the next flit in sequence is taken, and a message that continues into it is at ingress once its last slot has come; a link header returns credits and acknowledges; NAK and the timers send again, each flit sealed anew under the
link's key as a wire unit of its own. -/
def Obligations.LinkFlits : Prop :=
  ∀ (s : State) (p : IPort), running s = true →
    (rdFld s (aIpStat p) 0 3 ≠ 3 → ∀ f ms, exec (.dataFlit p f ms) s = .next s ∧ exec (.controlFlit p f) s = .next s ∧ exec (.nak p f) s = .next s ∧
      exec (.ackTimeout p) s = .next s ∧ exec (.ackReportTimer p) s = .next s) ∧
    (rdFld s (aIpStat p) 0 3 = 3 → (link s p).wires + 1 < 2 ^ 64 →
      (∀ f ms, FlitHead.fecOk f = false → (link s p).nakSent = false →
        ∃ t, exec (.dataFlit p f ms) s = .next t ∧ Sent.nak p (((link s p).expect + 1023) % 1024) ∈ t.out ∧ (link t p).nakSent = true ∧
          (link t p).expect = (link s p).expect ∧ t.rx = s.rx) ∧
      (∀ f ms, FlitHead.fecOk f = true → FlitHead.crcOk f = true → FlitHead.tagOk f = false →
        ∃ t, exec (.dataFlit p f ms) s = .next t ∧ t.halted = some 4 ∧ t.sl.keys = []) ∧
      (∀ f : FlitHead, f.fecOk = true → f.crcOk = true → f.tagOk = true → f.seq.toNat = (link s p).expect → (link s p).sinceAck + 1 < 16 →
        (∃ t, exec (.dataFlit p f []) s = .next t ∧ (link t p).expect = ((link s p).expect + 1) % 1024 ∧ (link t p).nakSent = false ∧
          (link t p).sinceAck = (link s p).sinceAck + 1 ∧ t.rx = s.rx) ∧
        (∀ (m : Msg) k, classOf m.opc < 5 → rdBit s aSlLpsk p = true → m.dst = hubId s → accepts s m.h = true →
          ∃ t, exec (.dataFlit p f (.part m (slotsOf m) :: List.replicate k .pad)) s = .next t ∧
            t.rx.map (fun x => x.m) = s.rx.map (fun x => x.m) ++ [m] ∧ (link t p).part = none) ∧
        (∀ (m : Msg) n, (link s p).part = none → n < slotsOf m →
          ∃ t, exec (.dataFlit p f [.part m n]) s = .next t ∧ t.rx = s.rx ∧ (link t p).part = some (m, n)) ∧
        (∀ (m : Msg) j n, (link s p).part = some (m, j) → slotsOf m ≤ j + n → classOf m.opc < 5 → rdBit s aSlLpsk p = true → m.dst = hubId s →
          accepts s m.h = true →
          ∃ t, exec (.dataFlit p f [.part m n]) s = .next t ∧ t.rx.map (fun x => x.m) = s.rx.map (fun x => x.m) ++ [m] ∧ (link t p).part = none)) ∧
      (∀ f : FlitHead, f.fecOk = true → f.crcOk = true → f.tagOk = true → f.nak = false →
        ∃ t, exec (.controlFlit p f) s = .next t ∧
          (let pool := if f.csh then 12 else f.cvc.toNat
           mgetD 0 (link t p).used pool = mgetD 0 (link s p).used pool - f.ccnt.toNat) ∧
          (link t p).retry = (link s p).retry.filter fun e => seqAfter e.1 f.ack.toNat) ∧
      (∀ f : FlitHead, f.fecOk = true → f.crcOk = true → f.tagOk = true → rdFld s (aIpCtl p) 12 4 ≤ 1 →
        ∃ t, exec (.nak p f) s = .next t ∧ rdFld t (aIpStat p) 0 3 = 4) ∧
      (∀ f : FlitHead, f.fecOk = true → f.crcOk = true → f.tagOk = true → (link s p).naks = 0 → 1 < rdFld s (aIpCtl p) 12 4 →
        (link s p).wires + (link s p).retry.length < 2 ^ 64 →
        ∃ t, exec (.nak p f) s = .next t ∧ rdFld t (aIpStat p) 0 3 = 3 ∧
          ∀ e, e ∈ (link s p).retry → seqAfter e.1 f.ack.toNat = true → ∀ m, m ∈ e.2 → Sent.xfer (56 + p.val) (.msg m) ∈ t.out) ∧
      ((link s p).wires + (link s p).retry.length < 2 ^ 64 →
        ∃ t, exec (.ackTimeout p) s = .next t ∧ link t p = { link s p with wires := (link s p).wires + (link s p).retry.length } ∧
          (∀ e, e ∈ (link s p).retry → ∀ m, m ∈ e.2 → Sent.xfer (56 + p.val) (.msg m) ∈ t.out) ∧
          ∀ i e, (link s p).retry[i]? = some e →
            let key := (link s p).key.getD 0
            let iv := BitVec.ofNat 96 (s.part.serial.toNat % 2 ^ 32 * 2 ^ 64 + ((link s p).wires + i))
            let slots := Config.linkSlots key iv e.2
            let head := dataHead e.1 (lastGood (link s p))
            Sent.flit p.val head slots (Config.linkTag key iv head slots) ∈ t.out) ∧
      ((link s p).owe = [] → ∃ t, exec (.ackReportTimer p) s = .next t ∧ (link t p).sinceAck = 0 ∧
        Sent.control p (((link s p).expect + 1023) % 1024) 0 0 false ∈ t.out))

/-- R308 to R312, R458, R459: how the state of an Idior port changes, IP_STAT.STATE: 0 DISABLED, 1 DETECT, 2 TRAIN, 3 ACTIVE, 4 RETRAIN, 5 FAILED. -/
def Obligations.LinkTraining : Prop :=
  ∀ (s : State) (p : IPort), running s = true →
    (rdBit s (aIpCtl p) 0 = true → rdFld s (aIpStat p) 0 3 = 1 → ∃ t, exec (.peerDetected p) s = .next t ∧ rdFld t (aIpStat p) 0 3 = 2 ∧ t.links = s.links) ∧
    (rdFld s (aIpStat p) 0 3 = 2 → (link s p).retry = [] → ∃ t, exec (.trainTimeout p) s = .next t ∧ rdFld t (aIpStat p) 0 3 = 5) ∧
    (rdFld s (aIpStat p) 0 3 = 2 → ∀ peer : PeerParams, peer.authOk = true →
      ∃ u, exec (.linkTrained p peer) s = .next (follow u) ∧ rdFld u (aIpStat p) 0 3 = 3 ∧ rd u (aIpPser p) = peer.serial ∧
        rdFld u (aIpPeer p) 0 12 = peer.hub.toNat ∧ rdBit u (aIpPeer p) 16 = true ∧ (link u p).retry = [] ∧ (link u p).expect = 0 ∧
        (link u p).key = some (Config.linkKey p peer.serial ((link s p).psk.getD 0) (drawFree s).1) ∧ rdBit u aSlLpsk p = (link s p).psk.isSome) ∧
    (rdFld s (aIpStat p) 0 3 = 2 → (link s p).retry = [] → ∀ peer : PeerParams, peer.authOk = false →
      ∃ u, exec (.linkTrained p peer) s = .next (follow u) ∧ rdFld u (aIpStat p) 0 3 = 5 ∧ (link u p).key = (link s p).key) ∧
    (rdFld s (aIpStat p) 0 3 = 4 → (link s p).full = false → (link s p).wires + (link s p).retry.length < 2 ^ 64 →
      ∃ t, exec (.retrainDone p) s = .next t ∧ rdFld t (aIpStat p) 0 3 = 3 ∧ (link t p).retry = (link s p).retry ∧
        ∀ e, e ∈ (link s p).retry → ∀ m, m ∈ e.2 → Sent.xfer (56 + p.val) (.msg m) ∈ t.out) ∧
    (rdFld s (aIpStat p) 0 3 = 4 → ∃ t, exec (.fastRetrainTimeout p) s = .next t ∧ rdFld t (aIpStat p) 0 3 = 4 ∧ (link t p).full = true) ∧
    (rdFld s (aIpStat p) 0 3 = 4 → (link s p).retry = [] → ∃ t, exec (.retrainFailTimeout p) s = .next t ∧ rdFld t (aIpStat p) 0 3 = 5) ∧
    (rdFld s (aIpStat p) 0 3 = 4 → (link s p).retry ≠ [] → rdBit s (aIpPeer p) 16 = true →
      ∃ t, exec (.retrainFailTimeout p) s = .next t ∧ rdFld t (aIpStat p) 0 3 = 5 ∧ (link t p).lkWait = true ∧ (link t p).retry = (link s p).retry) ∧
    (rdFld s (aIpStat p) 0 3 = 3 → ∃ t, exec (.fecLockLoss p) s = .next t ∧ rdFld t (aIpStat p) 0 3 = 4 ∧ (link t p).full = false ∧ t.hc = s.hc) ∧
    (rdFld s (aIpStat p) 0 3 = 3 → ∀ lane : Nat,
      (rdBit s (aIpCtl p) 1 = true → (link s p).spare = true → rdBit s (aIpStat p) 3 = false →
        ∃ t, exec (.laneFault p lane true) s = .next t ∧ rdFld t (aIpStat p) 0 3 = 4 ∧ rdBit t (aIpStat p) 3 = true ∧ rdFld t (aIpStat p) 4 2 = lane % 4) ∧
      (rdBit s (aIpCtl p) 1 = false → (link s p).retry = [] → ∃ t, exec (.laneFault p lane true) s = .next t ∧ rdFld t (aIpStat p) 0 3 = 5) ∧
      (rdFld s (aIpCtl p) 4 8 = 0 → ∃ t, exec (.laneFault p lane false) s = .next t ∧ t = s)) ∧
    (rdFld s (aIpStat p) 0 3 = 3 → ∀ (f : FlitHead) (hub : HubId) (cause : BitVec 4),
      (f.fecOk = true → f.crcOk = true → f.tagOk = true →
        ∃ t v, exec (.haltFlit ⟨p, f⟩ hub cause) s = .next t ∧ t = followAfter s (declareDead hub 2 v) ∧ rdFld v (aIpStat p) 0 3 = 5 ∧ v.hc = s.hc ∧ v.dir = s.dir) ∧
      (f.fecOk = false → (link s p).wires + 1 < 2 ^ 64 →
        ∃ t, exec (.haltFlit ⟨p, f⟩ hub cause) s = .next t ∧ rdFld t (aIpStat p) 0 3 = 3 ∧ (link t p).nakSent = true ∧ t.fab = s.fab))

/-- R311, R318, R332: the search for what a failed link delivered: it is asked over another route, answered with the last sequence number taken, and what followed
that number is sent again; without an answer it is discarded. A
message that waits for an output leaves once there is one, and then those in transit in the receive buffers; a hub without any active output for 1 ms is declared dead. -/
def Obligations.LinkRecoveryAndRoutes : Prop :=
  ∀ s : State, running s = true →
    (∀ p : IPort, (link s p).lkWait = true → ∃ t, exec (.lkseqTimeout p) s = .next t ∧ (link t p).retry = [] ∧ (link t p).lkWait = false ∧ t.out = s.out) ∧
    (∀ p : IPort, (link s p).lkWait = false → ∃ t, exec (.lkseqTimeout p) s = .next t ∧ t = s) ∧
    (∀ (h : Hdr) payload, h.xtra.toNat % 16 < 12 → s.rx = [] →
      ∃ t m, exec (.lkseqq h payload) s = .next t ∧ t = dispatch (sliceInput (sliceOf m.h.line)) [] m s ∧ m.opc = .lkSeqR ∧ m.dst = h.src ∧
        m.h.xtra.toNat / 16 = ((link s (h.xtra.toNat % 16)).expect + 1023) % 1024) ∧
    (∀ (h : Hdr) payload, h.xtra.toNat % 16 < 12 → s.rx = [] → (link s (h.xtra.toNat % 16)).lkWait = true →
      ∃ t, exec (.lkseqr h payload) s = .next t ∧ (link t (h.xtra.toNat % 16)).retry = [] ∧ (link t (h.xtra.toNat % 16)).lkWait = false ∧ t.hc = s.hc) ∧
    ((∀ m, m ∈ s.routeWait → outPort s m.1.dst (channelOf m.1) = none) → ∃ u, exec .messageRouteResume s = .next (follow u) ∧ u = s.rx.foldl passOn s) ∧
    (∀ m p, s.routeWait = [m] → outPort s m.1.dst (channelOf m.1) = some p →
      ∃ u : State, exec .messageRouteResume s = .next (follow (u.rx.foldl passOn u)) ∧ u.routeWait = [] ∧ u.rx = s.rx ∧
        (mgetD [] u.brd.wait (56 + p)).length = (mgetD [] s.brd.wait (56 + p)).length + 1) ∧
    (∀ hub : HubId, (∃ p, p < 12 ∧ bit (route s hub) p = true ∧ portActive s p = true) → ∃ u, exec (.routeLossTimeout hub) s = .next (follow u) ∧ u = s) ∧
    (∀ hub : HubId, (∀ p, p < 12 → bit (route s hub) p = true → portActive s p = false) →
      ∃ u, exec (.routeLossTimeout hub) s = .next (follow u) ∧ u = declareDead hub 1 s)

/-- R151, R152, R330, R331: a hub that is not live, or this hub, is not declared dead; a declared death is recorded in the Tally, and the reclaim of a
dead hub is applied once. A notice that names this hub resets it with its shutdown state dirty. -/
def Obligations.DeathNotices : Prop :=
  ∀ s : State, running s = true →
    (∀ (line : LineAddr) (hub : HubId), txnOf s (inLine s line) = none → ∃ u, exec (.snoopTimeout line hub) s = .next (follow u) ∧ u = s) ∧
    (∀ (line : LineAddr) (hub : HubId) t x, txnOf s (inLine s line) = some t → t.snps = [x] → x.hub = hub → x.ans = none →
      (3 ≤ x.tries → ∃ u, exec (.snoopTimeout line hub) s = .next (follow u) ∧ u = declareDead hub 0 s) ∧
      (x.tries < 3 → ∃ u, exec (.snoopTimeout line hub) s = .next (follow u) ∧
        u.home.opened = (setTxn { t with snps := [{ x with tries := x.tries + 1 }] } s).home.opened ∧ u.dir = s.dir ∧ u.hc = s.hc)) ∧
    (∀ (line : LineAddr) (hub : HubId) t x, txnOf s (inLine s line) = some t → t.snps = [x] → x.hub = hub → x.ans = none → 3 ≤ x.tries →
      (hub = hubId s ∨ hubLive s hub = false) → ∃ u, exec (.snoopTimeout line hub) s = .next (follow u) ∧ u = s) ∧
    (∀ (h : Hdr) payload, s.rx = [] → hubIn h = hubId s → s.part.phase = .ready →
      ∃ u, exec (.dhnote h payload) s = .next (follow u) ∧ u.part.phase = .flush true ∧ u.flash.dirty = true ∧ rdFld u aFbStat 0 2 = 3 ∧ u.pwr.cause = 6) ∧
    (∀ (h : Hdr) payload, s.rx = [] → hubIn h ≠ hubId s →
      ∃ u v, exec (.dhnote h payload) s = .next (follow u) ∧ u = noteEffects (hubIn h) (h.xtra.toNat / 2 ^ 12 % 16) v ∧ v.hc = s.hc ∧ v.regs = s.regs) ∧
    (∀ (h : Hdr) payload, s.rx = [] → isRoot s = false → ∃ t, exec (.dhrpt h payload) s = .next t ∧ t = s) ∧
    (∀ (h : Hdr) payload, s.rx = [] → isRoot s = true → (mget s.fab.deaths (hubIn h).toNat).isSome = true → ∃ t, exec (.dhrpt h payload) s = .next t ∧ t = s) ∧
    (∀ (h : Hdr) payload, s.rx = [] → isRoot s = true → mget s.fab.deaths (hubIn h).toNat = none →
      ∃ t v, exec (.dhrpt h payload) s = .next t ∧ t = followAfter s (dropOwing (hubIn h) (takeNote (hubIn h) (h.xtra.toNat / 2 ^ 12 % 16) v)) ∧
        (mget v.fab.deaths (hubIn h).toNat).map (fun d => d.1) = some s.time.ft)

/-- R20, R153, R336, R347, R349, R350, R352: the ends of waits and reclaims. A takeover, which follows a notice of the partner's death only, sets SRV and RB in
every complete entry, with two Tally records; a `TkNote` is recorded in the first free entry, once its payload finds a cell; a `TkBack` clears them. -/
def Obligations.ReclaimsAndTakeovers : Prop :=
  ∀ s : State, running s = true →
    (∀ hub : HubId, deadWait s hub = 1 → s.req.mrs = [] → s.req.waits = [] →
      ∃ u, exec (.deadHomeWaitExpiry hub) s = .next (follow u) ∧ deadWait u hub = 2 ∧ u.hc = s.hc ∧ u.regs = s.regs) ∧
    (∀ hub : HubId, deadWait s hub ≠ 1 → ∃ u, exec (.deadHomeWaitExpiry hub) s = .next (follow u) ∧ u = s) ∧
    (∀ hub : HubId, hub ∈ s.fab.reclaims → reclaimLeft hub s = false → isRoot s = false →
      ∃ u, exec (.hubReclaimEnd hub) s = .next (follow u) ∧ u.fab.reclaims = s.fab.reclaims.filter (· ≠ hub) ∧ u.dir = s.dir) ∧
    (∀ hub : HubId, reclaimLeft hub s = true → ∃ u, exec (.hubReclaimEnd hub) s = .next (follow u) ∧ u = s) ∧
    (∀ (h : Hdr) payload w, s.rx = [] → isRoot s = true → mget s.fab.deaths (hubIn h).toNat = some (w, [h.src]) →
      ∃ u, exec (.dhdone h payload) s = .next (follow u) ∧ mget u.fab.deaths (hubIn h).toNat = some (w, [])) ∧
    (∀ (h : Hdr) payload, s.rx = [] → isRoot s = false → ∃ u, exec (.dhdone h payload) s = .next (follow u) ∧ u = s) ∧
    (∀ (h : Hdr) payload, s.rx = [] → buddy s = hubIn h →
      ∃ u, exec (.dhclear h payload) s = .next (follow u) ∧ (∀ n, n < 8 → rdBit u (aFbMir n) 2 = false) ∧ u.dir = s.dir) ∧
    (∀ (h : Hdr) payload, s.rx = [] → buddy s ≠ hubIn h → ∃ u, exec (.dhclear h payload) s = .next (follow u) ∧ u = s) ∧
    (s.home.opened.any forwardedOpen = false → ∃ t, exec .probeTimer s = .next t ∧ t = s) ∧
    (∀ t q, s.home.opened = [t] → forwardedOpen t = true → t.rq = .remote q → hubLive s q.rqh = true →
      ∃ u t', exec .probeTimer s = .next u ∧ u.home.opened = [t'] ∧ t'.probing = true ∧ t'.snps = t.snps ++ [⟨q.rqh, .snpX, true, false, 1, none, (outPort s q.rqh (2 * classOf .snpX)).toList⟩]) ∧
    (s.mir.await = true → isRoot s = false →
      ∃ u, exec .takeoverWaitExpiry s = .next (follow u) ∧ u.mir.await = false ∧
        (∀ n, n < 8 → rdBit s (aFbMir n) 0 = true → rdBit s (aFbMir n) 3 = true → rdBit s (aFbMir n) 1 = false →
          rdBit u (aFbMir n) 1 = true ∧ rdBit u (aFbMir n) 2 = true ∧ rdBit u aFbBuddy 2 = true ∧ u.tly.next = s.tly.next + 2)) ∧
    (s.mir.await = false → ∃ u, exec .takeoverWaitExpiry s = .next (follow u) ∧ u = s) ∧
    (∀ (h : Hdr) payload i, s.rx = [] → isRoot s = false → deadWait s (BitVec.ofNat 12 h.xtra.toNat) ≠ 1 → i < 64 → rdBit s (aFbTko i) 0 = false →
      (∀ j, j < i → rdBit s (aFbTko j) 0 = true) → (takeCells h.tc.toNat 1 1 s).isSome = true →
      ∃ u, exec (.tknote h payload) s = .next (follow u) ∧ rdBit u (aFbTko i) 0 = true ∧ rdFld u (aFbTko i) 1 12 = h.xtra.toNat % 2 ^ 12 ∧
        rdFld u (aFbTko i) 13 12 = h.xtra.toNat / 2 ^ 12 % 2 ^ 12 ∧ u.hc = s.hc) ∧
    (∀ (h : Hdr) payload, takeCells h.tc.toNat 1 1 s = none →
      ∃ u, exec (.tknote h payload) s = .next (follow u) ∧ u = { s with lar := { s.lar with held := s.lar.held ++ [(.tknote h payload, 60, h.tc.toNat)] } }) ∧
    (∀ (h : Hdr) payload, s.rx = [] → isRoot s = false →
      ∃ u, exec (.tkback h payload) s = .next (follow u) ∧ u.hc = s.hc ∧
        ∀ i, i < 64 → rdBit u (aFbTko i) 0 = true → rdFld u (aFbTko i) 1 12 ≠ (hubIn h).toNat)

/-- R157, R327, R328: IDs and joins. A hub that may not be admitted yet waits; one whose death the root does not know of is declared dead first. -/
def Obligations.Joining : Prop :=
  ∀ s : State, running s = true → s.rx = [] →
    (∀ (h : Hdr) payload, isRoot s = false → exec (.jnreq h payload) s = .next s ∧
      ∃ t, exec (.dsreport h payload) s = .next t ∧ t.fab = s.fab ∧ t.brd = s.brd ∧ t.hc = s.hc) ∧
    (∀ (h : Hdr) payload, isRoot s = true → mayJoin s h.src = true → ∃ t, exec (.jnreq h payload) s = .next t ∧ t = followAfter s (admitJoin h.src s)) ∧
    (∀ (h : Hdr) payload v, isRoot s = true → mayJoin s h.src = false → h.src ∉ s.fab.joins →
      v = { s with fab := { s.fab with joins := s.fab.joins ++ [h.src] } } →
      ((mget s.fab.deaths h.src.toNat).isSome = true → exec (.jnreq h payload) s = .next v) ∧
      (mget s.fab.deaths h.src.toNat = none → exec (.jnreq h payload) s =
        .next (followAfter s (dropOwing h.src (takeNote h.src 0 (rootDeclare h.src 0 v)))))) ∧
    (∀ hub : HubId, isRoot s = true → hub ∈ s.fab.joins → mayJoin s hub = true →
      ∃ t v, exec (.joinAdmitDue hub) s = .next t ∧ t = followAfter s v ∧ v = admitJoin hub s ∧ hub ∉ v.fab.joins) ∧
    (∀ hub : HubId, mayJoin s hub = false → ∃ t, exec (.joinAdmitDue hub) s = .next t ∧ t = s) ∧
    (∀ (h : Hdr) payload, hubIn h ≠ hubId s →
      ∃ u, exec (.jnadmit h payload) s = .next (follow u) ∧ incOf u (hubIn h) = h.xtra.toNat / 2 ^ 16 % 256 ∧ deadWait u (hubIn h) = 0 ∧
        ((hubLive s (hubIn h) = false ∨ incOf s (hubIn h) = h.xtra.toNat / 2 ^ 16 % 256) → u.hc = s.hc)) ∧
    (∀ (h : Hdr) payload, hubIn h = hubId s → rdFld s aFbHubid 16 8 ≠ h.xtra.toNat / 2 ^ 16 % 256 → (takeCells h.tc.toNat 1 1 s).isSome = true →
      ∃ u, exec (.jnadmit h payload) s = .next (follow u) ∧ rdFld u aFbStat 0 2 = 2 ∧ rdFld u aFbHubid 16 8 = h.xtra.toNat / 2 ^ 16 % 256) ∧
    (∀ (h : Hdr) payload, isRoot s = true → takeCells h.tc.toNat 1 1 s = none →
      ∃ t, exec (.dsreport h payload) s = .next t ∧ t = { s with lar := { s.lar with held := s.lar.held ++ [(.dsreport h payload, 60, h.tc.toNat)] } }) ∧
    (∀ (h : Hdr) payload, isRoot s = true → (takeCells h.tc.toNat 1 1 s).isSome = true →
      ∃ t v r rest, exec (.dsreport h payload) s = .next t ∧ t = assignIds v ∧ v.fab.reports = rest ++ [r] ∧
        DsRep.serial r = BitVec.ofNat 64 payload.toNat ∧ DsRep.peer r = BitVec.ofNat 64 (payload.toNat / 2 ^ 64)) ∧
    (∀ (h : Hdr) payload, h.xtra.toNat.testBit 15 = false → rdBit s aFbHubid 12 = false →
      ∃ t, exec (.dsassign h payload) s = .next t ∧ rdBit t aFbHubid 12 = true ∧ hubId t = hubIn h) ∧
    (∀ (h : Hdr) payload, h.xtra.toNat.testBit 15 = true →
      ∃ t, exec (.dsassign h payload) s = .next t ∧ rdBit t aFbHubid 12 = false ∧ t.hc = s.hc)

/-- R324 to R326: the root's sequence, its election and its standby. A hub that is not the standby knows no live root after the silence, so that an election may
begin (DEDUCED, log entry 118). -/
def Obligations.RootEvents : Prop :=
  ∀ s : State, running s = true →
    (isRoot s = true → ∃ t, exec .rootSequenceTick s = .next t ∧ rd t aFbRseq = BitVec.ofNat 64 ((rdFld s aFbRseq 0 32 + 1) % 2 ^ 32) ∧ t.out = s.out) ∧
    (isRoot s = false → exec .rootSequenceTick s = .next s) ∧
    (isRoot s = false → rootId s = none → rdBit s aFbRoot 8 = true → rdFld s aFbRoot 9 12 = (hubId s).toNat →
      ∃ t, exec .rootSilenceTimeout s = .next t ∧ isRoot t = true ∧ rootId t = some (hubId s) ∧ rdFld t aFbRseq 0 32 = (rdFld s aFbRseq 0 32 + 2 ^ 20) % 2 ^ 32) ∧
    (∀ r, isRoot s = false → rootId s = some r → rdBit s aFbRoot 8 = true → rdFld s aFbRoot 9 12 = (hubId s).toNat →
      ∃ t v, exec .rootSilenceTimeout s = .next t ∧ t = followAfter s (declareDead r 4 v) ∧ isRoot v = true ∧ rootId v = some (hubId s)) ∧
    (isRoot s = false → (rdBit s aFbRoot 8 = false ∨ rdFld s aFbRoot 9 12 ≠ (hubId s).toNat) →
      ∃ t, exec .rootSilenceTimeout s = .next t ∧ isRoot t = false ∧ rootId t = none ∧ t.fab.calm = 0 ∧ t.fab.best = 0) ∧
    (rootId s = none → 64 ≤ s.fab.calm → (s.fab.best = 0 ∨ ownKey s < s.fab.best) →
      ∃ u, exec .rootElection s = .next (follow u) ∧ isRoot u = true ∧ rootId u = some (hubId s) ∧ rdFld u aFbRseq 0 32 = rdFld s aFbRseq 0 32) ∧
    ((rootId s).isSome = true → ∃ u, exec .rootElection s = .next (follow u) ∧ u = s)

/-- R343 to R346: mirror messages in order, copies begun and ended, acknowledgements, and the resend limit. -/
def Obligations.MirrorMessages : Prop :=
  ∀ s : State, running s = true →
    (∀ (h : Hdr) (d : Data) c v, accepts s h = true → h.src = buddy s → rdFld s aFbBuddy 0 2 = 2 → h.xtra.toNat % 2 ^ 32 = s.mir.expect → s.mir.early = [] →
      takeProto h.tc.toNat 1 s = some (c, v) →
      ∃ u, exec (.mrw h d) s = .next (follow u) ∧ u.mir.expect = (s.mir.expect + 1) % 2 ^ 32 ∧
        u.mir.applied = s.mir.applied ++ [(s.mir.expect, (mirTarget s h.line).map fun _ => s.cel.next, h.tc.toNat, h.epoch.toNat)]) ∧
    (∀ (h : Hdr) (d : Data), accepts s h = true → takeProto h.tc.toNat 1 s = none →
      ∃ u, exec (.mrw h d) s = .next (follow u) ∧ u.mir = s.mir ∧ u.cel = s.cel ∧ u.lar.held = s.lar.held ++ [(.mrw h d, 60, h.tc.toNat)]) ∧
    (∀ (h : Hdr) (entry : Fin 8), accepts s h = true → h.src = buddy s → rdFld s aFbBuddy 0 2 = 2 → h.xtra.toNat % 2 ^ 32 = s.mir.expect → s.mir.early = [] →
      (∃ u, exec (.mrctl h true entry) s = .next (follow u) ∧ u.mir.copies = s.mir.copies ++ [entry.val] ∧ rdBit u (aFbMir entry) 3 = false) ∧
      (entry.val ∉ s.mir.copies.erase entry.val →
        ∃ u, exec (.mrctl h false entry) s = .next (follow u) ∧ rdBit u (aFbMir entry) 3 = true ∧ u.mir.expect = (s.mir.expect + 1) % 2 ^ 32)) ∧
    (∀ h : Hdr, accepts s h = true → h.src = buddy s → s.mir.held = [] → s.cel.owed = [] →
      ∃ u, exec (.mrack h) s = .next (follow u) ∧ u.mir.tries = 0 ∧ u.mir.sent = s.mir.sent.filter fun e => !mseqUpTo e.1 (h.xtra.toNat % 2 ^ 32)) ∧
    (∀ h : Hdr, accepts s h = false → ∃ u, exec (.mrack h) s = .next (follow u) ∧ u.mir = s.mir ∧ u.cel = s.cel) ∧
    (rdFld s aFbBuddy 0 2 = 2 → s.mir.sent ≠ [] → 2 ≤ s.mir.tries → ∃ t, exec .mirrorResendTimeout s = .next t ∧ t = followAfter s (declareDead (buddy s) 0 s)) ∧
    (rdFld s aFbBuddy 0 2 = 2 → s.mir.sent ≠ [] → s.mir.tries < 2 →
      ∃ t, exec .mirrorResendTimeout s = .next t ∧ t.mir.tries = s.mir.tries + 1 ∧ t.mir.sent = s.mir.sent ∧ t.hc = s.hc) ∧
    (rdFld s aFbBuddy 0 2 ≠ 2 → exec .mirrorResendTimeout s = .next s)

/-- R195, R202, R282, R292, R376, R436, R438, R441, R443: responses, persisted writes, re-seals, the merging buffer, and the failures of cellar ports. -/
def Obligations.CellarEvents : Prop :=
  ∀ s : State, running s = true →
    (∀ r : CellarResp, s.sl.reseals = [] → (∀ o, o ∈ s.cel.ops → o.issued = false) → ∃ u, exec (.cellarResponse r) s = .next (follow u) ∧ u = s) ∧
    (∀ r : CellarResp, s.sl.reseals = [] → (todo s r.granule.toNat).any (fun o => o.issued) = true →
      ∃ u, exec (.cellarResponse r) s = .next (follow u) ∧ u = granuleRead r (noteLate r (answered (CellCmd.reads r.granule.toNat) s))) ∧
    (∀ (r : CellarResp) c v, s.sl.reseals = [] → (todo s r.granule.toNat).any (fun o => o.issued) = true →
      heldState r.blocks r.granule.toNat (noteLate r (answered (CellCmd.reads r.granule.toNat) s)) = (.stop c, v) → v.halted = none →
      ∃ u, exec (.cellarResponse r) s = .next (follow u) ∧ u.halted = some c ∧ u.sl.keys = []) ∧
    (∀ granule : Nat, s.ports.fences = [] →
      ∃ u, exec (.cellarWriteCompletion granule) s = .next (follow u) ∧
        u.cel.ops = s.cel.ops.filter (fun o => !(granOf o.line = granule && o.written && o.covered)) ∧ u.sl = s.sl) ∧
    (∀ block : Nat, s.sl.reseals.any (fun x => x.block = block && x.left.isEmpty) = true →
      ∃ u, exec (.resealDone block) s = .next (follow u) ∧ ∀ y, y ∈ u.sl.reseals → y.block ≠ block) ∧
    (∀ (block : Nat) x, s.sl.reseals.find? (fun x => x.block = block && x.left.isEmpty) = some x →
      ∃ u v b, exec (.resealDone block) s = .next (follow u) ∧ u = writeBack_ 0 block v ∧ getBlk v 0 block = some b ∧ b.dirty = true ∧
        b.bits = resealBits x (match getBlk s 0 block with | some c => c.bits | none => 0)) ∧
    (∀ block : Nat, s.sl.reseals.any (fun x => x.block = block && x.left.isEmpty) = false → ∃ u, exec (.resealDone block) s = .next (follow u) ∧ u = s) ∧
    (∀ level index : Nat, blkKey level index ∈ s.sl.due → tooSoon s (blkKey level index) = false → orphan s level index = false →
      ∃ u v, exec (.sealWritebackDue level index) s = .next (follow u) ∧ u = writeBlk level index v ∧ blkKey level index ∉ v.sl.due ∧ v.cel = s.cel) ∧
    (∀ level index : Nat, (blkKey level index ∉ s.sl.due ∨ tooSoon s (blkKey level index) = true ∨ orphan s level index = true) → ∃ u, exec (.sealWritebackDue level index) s = .next (follow u) ∧ u = s) ∧
    (∀ (granule : Nat) e, s.hc.mbuf = [e] → e.granule = granule → e.draining = false →
      ∃ u, exec (.mergingBufferAge granule) s = .next (follow u) ∧ u.hc.mbuf = [{ e with draining := true }]) ∧
    (∀ (granule : Nat) e, s.hc.mbuf = [e] → e.granule = granule → e.draining = true →
      ∃ u v, exec (.mergingDrainQueued granule) s = .next (follow u) ∧ u = advanceFences v ∧ v.hc.mbuf = []) ∧
    (∀ granule : Nat, s.hc.mbuf = [] → ∃ u, exec (.mergingDrainQueued granule) s = .next (follow u) ∧ u = s) ∧
    (∀ d : DPort, rdBit s (aDpStat d) 9 = false → ∃ u, exec (.cellarCommandTimeout d) s = .next (follow u) ∧ rdFld u (aDpStat d) 0 3 = 6 ∧ u.cel = s.cel) ∧
    (∀ d : DPort, rdFld s (aDpStat d) 0 3 = 6 →
      (∃ u, exec (.cellarRetrainDone d) s = .next (follow u) ∧ rdFld u (aDpStat d) 0 3 = 3 ∧ u.cel.ops.length = s.cel.ops.length) ∧
      (∃ u v, exec (.cellarRetrainTimeout d) s = .next (follow u) ∧ u = advanceFences (failedAccesses d v) ∧ rdFld v (aDpStat d) 0 3 = 7 ∧
        rdBit v (aDpStat d) 9 = true ∧ v.cel = s.cel)) ∧
    (∀ d : DPort, rdFld s (aDpStat d) 0 3 ≠ 6 →
      (∃ u, exec (.cellarRetrainDone d) s = .next (follow u) ∧ u = s) ∧ (∃ u, exec (.cellarRetrainTimeout d) s = .next (follow u) ∧ u = s))

/-- R49, R101, R196, R246, R274, R283: a host request that its port takes and admission accepts goes to its slice as a demand of its window's class with
the cells it took; a write that is no snoop's write-back takes a number at decode and is outstanding; the home that a port's write is sent to enters the
port's vector. -/
def Obligations.HostRequests : Prop :=
  ∀ (s : State) (r : HostReq) (w0 w1 : Word), running s = true → portServes s r.port = true → hostMode s r.port = true →
    hostRefusal s r.port r.hpa = none → winOf s r.port r.hpa = some (w0, w1) →
    Admits s r.port (fld w0 2 3) (lineOf (winFpa w0 w1 r.hpa.toNat)) (epochNow s) →
    let l := lineOf (winFpa w0 w1 r.hpa.toNat)
    let e := epochNow s
    let d := fun (k : DKind) (cs : List Nat) => { hostDemand r w0 w1 k none with epoch := e, cells := cs, acc := s.time.ft }
    (∀ cs v, takeCells (fld w0 2 3) 1 1 s = some (cs, v) → ∃ z, Passed s z l (fld w0 2 3) e ∧ z.hc = s.hc ∧
      exec (.memrdSnpdata r) s = .next (follow (issue (d .rdS cs) z)) ∧
      exec (.memrddata r) s = .next (follow (issue (d .rdData cs) z)) ∧
      exec (.memrdSnpinv r) s = .next (follow (issue (d .rdX cs) z)) ∧
      exec (.memrdSnpcur r) s = .next (follow (issue (d .cur cs) z)) ∧
      ∀ nt, exec (.meminv r nt) s = .next (follow (issue (d .inv cs) z))) ∧
    (∃ z, Passed s z l (fld w0 2 3) e ∧ z.hc = s.hc ∧
      exec (.memspecrd r) s = .next (follow (issue (d .spec []) z)) ∧
      exec (.memclnevct r) s = .next (follow (issue (d .evict []) z))) ∧
    (∀ (w : HostWr) cs v, bit w0 1 = false → stepFor s r.port r.hpa = none →
      (∀ x, x ∈ s.ports.decoded → x.1 ≠ .memwrExclusive r w ∧ x.1 ≠ .memwrOtherHost r w ∧ x.1 ≠ .snoopWriteBack r w) → takeCells (fld w0 2 3) 1 1 s = some (cs, v) → ∃ z y, Passed s z l (fld w0 2 3) e ∧
      y.line = l ∧ y.kind = .write ∧ y.tc = fld w0 2 3 ∧ y.epoch = e ∧ y.cells = cs ∧
      y.w = some (if w.data.pz = 0 then w else { w with data := { w.data with pz := 0xFF } }) ∧
      mget z.ports.outst y.id = some r.port.val ∧ y.acc = s.time.ft ∧
      exec (.memwrExclusive r w) s = .next (follow (issue y z)) ∧ exec (.memwrOtherHost r w) s = .next (follow (issue y z)) ∧
      exec (.snoopWriteBack r w) s = .next (follow (issue y z))) ∧
    (∀ w : HostWr, bit w0 1 = true → stepFor s r.port r.hpa = none → (∀ x, x ∈ s.ports.decoded → x.1 ≠ .memwrOtherHost r w) → ∃ u, exec (.memwrOtherHost r w) s = .next (follow u) ∧ u.dir = s.dir ∧ u.hc = { s.hc with ssd := u.hc.ssd } ∧ u.req = s.req ∧ u.cel = s.cel ∧
      (mgetD [] u.brd.wait (hostBoard s r.port)).length = (mgetD [] s.brd.wait (hostBoard s r.port)).length + 1) ∧
    (∀ (x : Demand) (h : HubId) q, x.src ≠ .hub → h ∈ mgetD [] (noteSent x h s).ports.written x.port ∧
      ∀ g, g ∈ mgetD [] s.ports.written q → g ∈ mgetD [] (noteSent x h s).ports.written q)

/-- R27, R49, R139, R140, R144, R146, R197, R210, R249: what a host port does besides accepting: it holds what admission does not take, refuses with
EV001, and takes the answers to its snoops; and the rows of cells, trackers and detectors. -/
def Obligations.HostPortEvents : Prop :=
  ∀ s : State, running s = true →
    (∀ (r : HostReq) w0 w1, portServes s r.port = true → hostMode s r.port = true → hostRefusal s r.port r.hpa = none →
      winOf s r.port r.hpa = some (w0, w1) → admitting s = false →
      ∃ u, exec (.memrdSnpcur r) s = .next (follow u) ∧ u.lar.held = s.lar.held ++ [(.memrdSnpcur r, r.port.val, fld w0 2 3)] ∧ u.req = s.req ∧
        u.dir = s.dir) ∧
    (∀ (r : HostReq) c, portServes s r.port = true → hostMode s r.port = true → hostRefusal s r.port r.hpa = some c →
      ∃ u, exec (.memspecrd r) s = .next (follow u) ∧ u.req = s.req ∧ u.dir = s.dir ∧ u.brd = s.brd ∧
        cntLive u (aHpCnt r.port 4) = (cntLive s (aHpCnt r.port 4) + 1) % 2 ^ 48) ∧
    (∀ (r : HostReq) (w : HostWr) x, stepFor s r.port r.hpa = some x → readOnlyAt s r.port r.hpa = true →
      ∃ u, exec (.snoopWriteBack r w) s = .next (follow u) ∧ exec (.memwrExclusive r w) s = .next (follow u) ∧
        exec (.memwrOtherHost r w) s = .next (follow u) ∧ u.dir = s.dir ∧ u.hst = s.hst ∧ u.cel = s.cel ∧
        (mgetD [] u.brd.wait (hostBoard s r.port)).length = (mgetD [] s.brd.wait (hostBoard s r.port)).length + 1) ∧
    (∀ (r : HostReq) (w w' : HostWr) x, stepFor s r.port r.hpa = some x → readOnlyAt s r.port r.hpa = false →
      w' = (if w.data.pz = 0 then w else { w with data := { w.data with pz := 0xFF } }) →
      (∀ c v, takeProto x.tc 1 s = some (c, v) →
        ∃ u, u = doneReading [c] (writeBack x r.port r.tag w' (passDetector r.port w'.full (outLine v x.line) v).2) ∧
          exec (.snoopWriteBack r w) s = .next (follow u) ∧ exec (.memwrExclusive r w) s = .next (follow u) ∧
          exec (.memwrOtherHost r w) s = .next (follow u)) ∧
      (takeProto x.tc 1 s = none →
        exec (.snoopWriteBack r w) s = .next (follow (hold (.snoopWriteBack r w) r.port 7 (fire 243 0 oNone s))))) ∧
    (∀ (p : HPort) hpa rsp, stepFor s p hpa = none → ∃ u, exec (.birsp p hpa rsp) s = .next (follow u) ∧ u = s) ∧
    (∀ (p : HPort) hpa rsp x, stepFor s p hpa = some x → ∃ u, exec (.birsp p hpa rsp) s = .next (follow u) ∧ u = hostAnswered p x.line rsp s) ∧
    (∀ (p : HPort) hpa tag, ∃ t, exec (.biconflict p hpa tag) s = .next t ∧ t.hst = s.hst ∧ t.hf = s.hf ∧ (s.hc.hbm = [] →
      (mgetD [] t.brd.wait (hostBoard s p)).length = (mgetD [] s.brd.wait (hostBoard s p)).length + 1)) ∧
    (∀ (p : HPort) (l : LineAddr) x b hpa, s.hst.steps = [x] → x.line = l → x.snps = [b] → b.port = p.val → 0 < b.tries → hpaOf s p l = some hpa →
      (b.tries < 3 → ∃ u, exec (.biSnoopTimeout p l) s = .next (follow u) ∧
        u.hst.steps = [{ x with snps := [{ b with tries := b.tries + 1 }] }] ∧ u.hf = s.hf) ∧
      (3 ≤ b.tries → ∃ u, exec (.biSnoopTimeout p l) s = .next (follow u) ∧ u = hostDies p s)) ∧
    (∀ cell x, mget s.lar.cells cell = some x → x.readers = 0 → ∃ t, exec (.cellFree cell) s = .next t ∧ mget t.lar.cells cell = none) ∧
    (∀ (p : HPort) region (d : Int), (p.val, region, d) ∉ s.hc.handOvers → exec (.handOver p region d) s = .next s) ∧
    (∀ (p : HPort) region (d : Int), (p.val, region, d) ∈ s.hc.handOvers → d ≠ 0 → d.natAbs ≤ 8 → ∃ t, exec (.handOver p region d) s = .next t ∧
      (mgetD [] t.hc.trackers (sliceOf (BitVec.ofNat 54 (64 * region)))).head? =
        some ⟨p, region, if d > 0 then 0 else 63, d, rdFld s aHcPfctl 16 2, none⟩) ∧
    (∀ p : HPort, isH1 s = true → (mgetD {} s.hc.ssd p).na = true → ∃ t, exec (.ssdIdleTimeout p) s = .next t ∧ (mgetD {} t.hc.ssd p).na = false ∧
      (mgetD {} t.hc.ssd p).n = 0 ∧ rdBit t aHcSsd (16 + p) = false) ∧
    (s.lar.held = [] → s.hc.wtLeft = [] → ∃ u, exec .admissionRetry s = .next (follow u) ∧ u = s.rx.foldl passOn s) ∧
    (∀ x, s.lar.held = [] → s.hc.wtLeft = [x] → x.2.2 = 0 → ∃ u, exec .admissionRetry s = .next (follow u) ∧
      u = s.rx.foldl passOn (retryHeld runHeld (cleanNow x.1 x.2.1 { s with hc := { s.hc with wtLeft := [] } }))) ∧
    (∀ i n tc, s.lar.held = [(i, n, tc)] → s.hc.wtLeft = [] → ∃ u, exec .admissionRetry s = .next (follow u) ∧
      u = s.rx.foldl passOn (runHeld i { s with lar := { s.lar with held := [] } }))

/-- R163 to R166, R271, R366 to R372, R378: requests of an agent that its port takes; configuration requests answered; the atomic aperture. -/
def Obligations.AgentRequests : Prop :=
  ∀ s : State, running s = true →
    (∀ (r : HostReq) w0 w1, agentServes s r.port = true → r.port.val ∉ s.ports.agentOff → winOf s r.port r.hpa = some (w0, w1) →
      Admits s r.port (fld w0 2 3) (lineOf (winFpa w0 w1 r.hpa.toNat)) (epochNow s) →
      (∀ n tph cs v, agentRegion s r.port r.hpa = none → (∀ x, x ∈ s.ports.decoded → x.1 ≠ .agentMemoryRead r n tph) → takeCells (fld w0 2 3) 1 (max 1 (min n 64)) s = some (cs, v) →
        ∃ u z, exec (.agentMemoryRead r n tph) s = .next (follow u) ∧ Passed s z (lineOf (winFpa w0 w1 r.hpa.toNat)) (fld w0 2 3) (epochNow s) ∧
          u = (agentReadLines r (lineOf (winFpa w0 w1 r.hpa.toNat)) (fld w0 2 3) (placement s r.port tph) (epochNow s) s.ports.nextId
            s.time.ft cs).foldl (fun s d => agentSend d false s) z ∧ z.ports.nextId = s.ports.nextId + 1) ∧
      (∀ (w : HostWr) ro tph cs v, agentRegion s r.port r.hpa = none → bit w0 1 = false → rdBit s (aHpAgirq r.port) 0 = false →
        (∀ x, x ∈ s.ports.decoded → x.1 ≠ .agentPostedWrite r w ro tph) → takeCells (fld w0 2 3) 1 1 s = some (cs, v) →
        ∃ u y z, exec (.agentPostedWrite r w ro tph) s = .next (follow u) ∧ u = agentSend y ro z ∧ y.line = lineOf (winFpa w0 w1 r.hpa.toNat) ∧
          y.cells = cs ∧ mget z.ports.outst y.id = some r.port.val) ∧
      (∀ op size a b x cs v, bit w0 1 = false → pcieAtom op size a b (r.hpa.toNat % 64) = some x → takeCells (fld w0 2 3) 1 2 s = some (cs, v) →
        ∃ u y z, exec (.agentAtomicop r op size a b) s = .next (follow u) ∧ u = agentSend y false z ∧ y.kind = .atom x ∧ y.cells = cs)) ∧
    (∀ (p : HPort) d ro rest, mgetD [] s.ports.agentQ p = (d, ro) :: rest → earlierWrite s p d.id = false →
      ∃ u, exec (.agentWriteRelease p) s = .next (follow u) ∧
        u = issue d { s with ports := { s.ports with agentQ := mput [] s.ports.agentQ p rest } }) ∧
    (∀ p : HPort, mgetD [] s.ports.agentQ p = [] → ∃ u, exec (.agentWriteRelease p) s = .next (follow u) ∧ u = s) ∧
    (∀ (p : HPort) (hpa : Hpa) data, agentServes s p = true → rdBit s (aHpAgirq p) 0 = true → rdFld s (aHpAgirq p) 16 40 = hpa.toNat / 4096 →
      p.val ∉ s.ports.agentOff → 0 < List.length data → List.length data ≤ 64 →
      ∃ t, exec (.agentInterruptWrite p hpa data) s = .next t ∧
        t = fire (2 + 4 * p) 0 (oPort 0 p) (post (rdFld s (aHpAgirq p) 1 13) 6 p (irqWords (hpa.toNat % 4096) data) s)) ∧
    (∀ (p : HPort) tag, agentServes s p = true → ∃ t, exec (.agentPasidAtsRequest p tag) s = .next t ∧ t.req = s.req ∧
      (mgetD [] t.brd.wait (hostBoard s p)).length = (mgetD [] s.brd.wait (hostBoard s p)).length + 1) ∧
    (∀ p : HPort, agentServes s p = true → ∃ t, exec (.agentAerMessage p) s = .next t ∧ t = fire (3 + 4 * p) 1 (oPort 0 p) s ∧ t.req = s.req) ∧
    (∀ (p : HPort) (cs : BitVec 3) (data : BitVec 32), rdBit s (aHpCfga p) 26 = true →
      (∃ t, exec (.configCompletion p cs data) s = .next t ∧ rdBit t (aHpCfga p) 26 = false ∧ rdFld t (aHpCfga p) 27 3 = cs.toNat ∧
        (cs = 0 → rdBit s (aHpCfga p) 24 = false → rd t (aHpCfgd p) = BitVec.ofNat 64 data.toNat)) ∧
      (∃ t, exec (.configTimeout p) s = .next t ∧ rdBit t (aHpCfga p) 26 = false ∧ rdFld t (aHpCfga p) 27 3 = 7 ∧ rd t (aHpCfgd p) = rd s (aHpCfgd p))) ∧
    (∀ (p : HPort) (slot : BitVec 12) (d : BitVec 512), portServes s p = true → popWaits s p = false → slotsReached s p = false →
      ∃ u, exec (.apertureDescriptor p slot d) s = .next (follow u) ∧ u = refuseAt p 0 (oPort 0 p) s) ∧
    (∀ (r : HostReq) a n tph, agentServes s r.port = true → agentRegion s r.port r.hpa = some a →
      ∃ u, exec (.agentMemoryRead r n tph) s = .next (follow u) ∧ u = slotRead r a (max 1 (min n 64)) s ∧ u.req = s.req) ∧
    (∀ (r : HostReq) a (w : HostWr) ro tph, agentServes s r.port = true → agentRegion s r.port r.hpa = some a →
      ∃ u, exec (.agentPostedWrite r w ro tph) s = .next (follow u) ∧ u = slotWrite r.port a w s) ∧
    (∀ (p : HPort) (slot : BitVec 12) (d : BitVec 512), portServes s p = true → popWaits s p = false → slotsReached s p = true → mget s.slots (4096 * p.val + slot.toNat) = none →
      (winOf s p (BitVec.ofNat 52 d.toNat) = none →
        ∃ u x, exec (.apertureDescriptor p slot d) s = .next (follow u) ∧ mget u.slots (4096 * p.val + slot.toNat) = some x ∧ x.busy = false ∧
          x.done = true ∧ u.dir = s.dir ∧
          x.code = (if 5 < d.toNat / 2 ^ 64 % 16 ∨ d.toNat / 2 ^ 68 % 4 = 3 then 4 else if d.toNat % 2 ^ 52 % (4 * 2 ^ (d.toNat / 2 ^ 68 % 4)) ≠ 0 then 3 else 2) ∧
          (x.code = 2 → bit (mgetD 0 u.ev.evStat ((1 + 4 * p.val) / 48)) ((1 + 4 * p.val) % 48) = true)) ∧
      (∀ w0 w1, winOf s p (BitVec.ofNat 52 d.toNat) = some (w0, w1) → bit w0 1 = false → d.toNat / 2 ^ 64 % 16 ≤ 5 → d.toNat / 2 ^ 68 % 4 = 0 →
        d.toNat % 4 = 0 → homeOf (lineOf (winFpa w0 w1 (d.toNat % 2 ^ 52))) = hubId s → (∃ n, mget s.ports.outst n = some p.val ∧ n < s.ports.nextId) →
        ∃ u x, exec (.apertureDescriptor p slot d) s = .next (follow u) ∧ mget u.slots (4096 * p.val + slot.toNat) = some x ∧ x.busy = true ∧
          x.waiting = true ∧ x.done = false ∧ x.id = s.ports.nextId)) ∧
    (∀ (p : HPort) (slot : BitVec 12) x, mget s.slots (4096 * p.val + slot.toNat) = some x → x.waiting = true → earlierWrite s p x.id = false →
      ∃ u, exec (.apertureIssue p slot) s = .next (follow u) ∧ u = apertureSend p slot.toNat s) ∧
    (∀ (p : HPort) (slot : BitVec 12), mget s.slots (4096 * p.val + slot.toNat) = none → ∃ u, exec (.apertureIssue p slot) s = .next (follow u) ∧ u = s)

/-- R123, R274 to R286: fences: a doorbell makes one over the writes that are outstanding, it ends once nothing is left, or at its limit with CODE 4; and
the fences of other hubs. -/
def Obligations.Fences : Prop :=
  ∀ s : State, running s = true →
    (∀ (p : HPort) (slot : BitVec 12) v, portServes s p = true → popWaits s p = false → slotsReached s p = false →
      ∃ u, exec (.doorbellRing p slot v) s = .next (follow u) ∧ u = refuseAt p 0 (oPort 0 p) s) ∧
    (∀ (p : HPort) (slot : BitVec 12) v, portServes s p = true → popWaits s p = false → slotsReached s p = true →
      (mgetD (false, false, 0, 0) s.ports.bells (4096 * p.val + slot.toNat)).1 = true →
      ∃ u, exec (.doorbellRing p slot v) s = .next (follow u) ∧ u = fire (1 + 4 * p) 4 (oPort 0 p) s) ∧
    (∀ (p : HPort) (slot : BitVec 12) v n, portServes s p = true → popWaits s p = false → slotsReached s p = true → fenceNo s = some n →
      (mgetD (false, false, 0, 0) s.ports.bells (4096 * p.val + slot.toNat)).1 = false → fld v 0 2 = 3 → ∃ u, exec (.doorbellRing p slot v) s = .next (follow u) ∧
        mget u.ports.bells (4096 * p.val + slot.toNat) = some (false, true, 3, s.time.ft)) ∧
    (∀ (p : HPort) (slot : BitVec 12) v k, portServes s p = true → popWaits s p = false → slotsReached s p = true → fenceNo s = some k →
      (mgetD (false, false, 0, 0) s.ports.bells (4096 * p.val + slot.toNat)).1 = false → fld v 0 2 < 2 → ∃ u f, exec (.doorbellRing p slot v) s = .next (follow u) ∧
        mget u.ports.bells (4096 * p.val + slot.toNat) = some (true, false, 0, 0) ∧ mget u.ports.fences k = some f ∧
        f.slot = some (p.val, slot.toNat) ∧ f.persist = bit v 2 ∧ f.tag = fld v 32 32 ∧ f.members = [] ∧ f.rtag = k ∧
        (∀ n q, (n, q) ∈ s.ports.outst → (fld v 0 2 = 1 ∧ q < 16 ∨ q = p.val) → n ∈ f.covered)) ∧
    (∀ (p : HPort) (slot : BitVec 12) n f, s.ports.fences = [(n, f)] → f.slot = some (p.val, slot.toNat) → f.persist = false → f.covered = [] →
      f.members = [] → f.step = 0 →
      ∃ u, exec (.fenceComplete p slot) s = .next (follow u) ∧ u.ports.fences = [] ∧
        mget u.ports.bells (4096 * p.val + slot.toNat) = some (false, true, if f.dead then 1 else if f.lost then 2 else 0, s.time.ft)) ∧
    (∀ (p : HPort) (slot : BitVec 12), s.ports.fences = [] → ∃ u, exec (.fenceComplete p slot) s = .next (follow u) ∧ u = s) ∧
    (∀ (p : HPort) (slot : BitVec 12) n f, s.ports.fences = [(n, f)] → f.slot = some (p.val, slot.toNat) →
      (f.lim ≠ 0 → ∃ u, exec (.fenceLimitExpiry p slot) s = .next u ∧ u.ports.fences = [] ∧
        mget u.ports.bells (4096 * p.val + slot.toNat) = some (false, true, 4, s.time.ft)) ∧
      (f.lim = 0 → ∃ u, exec (.fenceLimitExpiry p slot) s = .next u ∧ u = s)) ∧
    (∀ h : Hdr, s.rx = [] → accepts s h = false → ∃ u, u = discardAt 0 0 h s ∧ exec (.fncHub h) s = .next (follow u) ∧
      exec (.fncHomeStep h) s = .next (follow u) ∧ exec (.cmpFence h) s = .next (follow u)) ∧
    (∀ h : Hdr, s.rx = [] → accepts s h = true →
      (∃ u f z, exec (.fncHub h) s = .next (follow u) ∧ u = addForeign f z ∧ f.src = h.src ∧ f.rtag = h.rtag.toNat ∧ f.persist = h.xtra.toNat.testBit 2 ∧
        f.covered = s.ports.outst.map (fun e => e.1) ∧ (f.persist = true → z.ports.written = [])) ∧
      (∃ u f z, exec (.fncHomeStep h) s = .next (follow u) ∧ u = advanceFences (homeStep (4096 + s.ports.nextFence) f z) ∧ f.persist = true ∧
        f.src = h.src ∧ z.hc = s.hc) ∧
      (mget s.ports.fences h.rtag.toNat = none → ∃ u, exec (.cmpFence h) s = .next (follow u) ∧
        u = { s with ports := { s.ports with stale := u.ports.stale } } ∧
        mgetD [] u.ports.stale h.rtag.toNat = (mgetD [] s.ports.stale h.rtag.toNat).erase h.src) ∧
      (∀ f, mget s.ports.fences h.rtag.toNat = some f → f.step < 2 →
        ∃ u, exec (.cmpFence h) s = .next (follow u) ∧
          u = advanceFences (setFence h.rtag.toNat { f with members := f.members.filter (· ≠ h.src) } s)))

/-- R98 to R105, R118, R123, R133 to R137, R248: a request of another hub that its home takes passes the slice input with its epoch and cells; write-backs,
answers and `Fin` at the home. -/
def Obligations.HomeMessages : Prop :=
  ∀ (s : State) (h : Hdr), running s = true → s.rx = [] → accepts s h = true →
    let l := inLine s h.line
    let e := (accountEpoch (epochNow s) h.epoch.toNat).1
    let t := fun (o : Opc) (cs : List Nat) => { newTxn l (.remote h) o h.tc.toNat e with cells := cs, input := 24 }
    (s.lar.held = [] → handedBack s h.line = false → (accountEpoch (epochNow s) h.epoch.toNat).2 = false → Admits s 24 h.tc.toNat l e →
      (∀ cs v, takeCells h.tc.toNat 1 1 s = some (cs, v) → ∃ z, Passed s z l h.tc.toNat e ∧ z.hc = s.hc ∧
        exec (.rds h) s = .next (follow (homeReq (t .rdS cs) h z)) ∧ exec (.rdx h) s = .next (follow (homeReq (t .rdX cs) h z)) ∧
        exec (.rdo h) s = .next (follow (homeReq (t .rdO cs) h z)) ∧ exec (.upg h) s = .next (follow (homeReq (t .upg cs) h z)) ∧
        (∀ d, exec (.wrl h d) s = .next (follow (homeReq { t .wrL cs with wr := d } h z))) ∧
        (∀ d, exec (.wrp h d) s = .next (follow (homeReq { t .wrP cs with wr := d, mask := h.xtra } h z)))) ∧
      (∀ cs v d, takeCells h.tc.toNat 1 2 s = some (cs, v) → ∃ z, Passed s z l h.tc.toNat e ∧ z.hc = s.hc ∧
        exec (.atm h d) s = .next (follow (homeReq { t .atm cs with atom := some (atomOf d) } h z)))) ∧
    (txnOf s l = none → h.src ∈ ptrs s (dirGet s l) → ∃ u, exec (.evc h) s = .next (follow u) ∧ u.home = s.home ∧ u.hc = s.hc ∧
      u.dir = (dirPut l { dirEvc s h.src (dirGet s l) with busy := (dirGet s l).busy } s).dir) ∧
    (txnOf s l = none → h.src ∉ ptrs s (dirGet s l) → (dirGet s l).st ≠ .a → ∃ u, exec (.evc h) s = .next (follow u) ∧ u.dir = s.dir ∧ u.hc = s.hc) ∧
    (∀ d c v, txnOf s l = none → (dirGet s l).st = .x → (dirGet s l).p0 = h.src → takeProto h.tc.toNat 1 s = some (c, v) →
      ∃ u, exec (.wbd h d) s = .next (follow u) ∧ u.cel.next = s.cel.next + 1 ∧
        u.dir = (dirPut l { dirEvc s h.src (dirGet s l) with busy := (dirGet s l).busy } s).dir) ∧
    (∀ x y, txnOf s l = some x → x.snps = [y] → y.hub = h.src → y.ans = none → h.xtra.toNat % 2 ^ 32 = x.tsn → x.probing = false →
      (∃ u, exec (.ack h) s = .next (follow u) ∧
        u = progress l (setTxn { x with snps := [{ y with ans := some ⟨false, h.fw, h.d, h.g, false⟩ }] } s)) ∧
      (∃ u, exec (.acke h) s = .next (follow u) ∧
        u = progress l (setTxn { x with snps := [{ y with ans := some ⟨true, h.fw, h.d, h.g, false⟩ }] } s)) ∧
      (∀ d c v, takeProto h.tc.toNat 1 s = some (c, v) → ∃ u, exec (.ackd h d) s = .next (follow u) ∧
        u = progress l (setTxn { x with snps := [{ y with ans := some ⟨false, h.fw, h.d, h.g, false⟩ }], dirty := some d } (doneReading [c] v)))) ∧
    (txnOf s l = none → (∃ u, exec (.ack h) s = .next (follow u) ∧ u = s) ∧ (∃ u, exec (.acke h) s = .next (follow u) ∧ u = s) ∧
      (∃ u, exec (.fin h) s = .next (follow u) ∧ u = s)) ∧
    (∀ x q, txnOf s l = some x → x.rq = .remote q → q.rqh = h.rqh → x.answered = true → x.step = false → allAnswered x = true →
      ∃ u, exec (.fin h) s = .next (follow u) ∧ txnOf u l = none)

/-- R97, R109, R110, R123, R126, R149, R168, R177, R200, R205, R352: snoops at a hub that has no copy, which take a cell of the protocol reserve and wait for
their set's record block; and the messages that complete its requests, whose data enters the fill cell that the register holds. -/
def Obligations.HolderMessages : Prop :=
  ∀ (s : State) (h : Hdr), running s = true → s.rx = [] → accepts s h = true →
    let l := inLine s h.line
    let n := h.rtag.toNat
    ((∀ x, x ∈ s.home.kept → x.1 ≠ l) → s.home.heldSnp = [] → s.home.tagSnp = [] → s.hst.steps = [] → l ∉ s.home.keep → evOf s l = none →
      mrOf s l = none → standing s l = .i → hostsOf s l = [] →
      ∀ i o, (i = Instr.snps h ∧ o = Opc.snpS ∨ i = .snpx h ∧ o = .snpX ∨ i = .snpi h ∧ o = .snpI ∨ i = .snpbc h ∧ o = .snpBc) →
        (∀ c v, takeProto h.tc.toNat 1 s = some (c, v) → tagMiss s (cacheSet s l) = false → ∃ u m, exec i s = .next (follow u) ∧ m.opc = Opc.ack ∧
          m.dst = h.src ∧ m.h.xtra = h.xtra ∧ u.home.kept = s.home.kept ++ [(l, h.htag.toNat, h.xtra.toNat, m)]) ∧
        (∀ c v, takeProto h.tc.toNat 1 s = some (c, v) → tagMiss s (cacheSet s l) = true → ∃ u, exec i s = .next (follow u) ∧
          u.home.tagSnp = [(o, { h with line := l }, [c])] ∧ cacheSet s l ∈ u.hc.fetch ∧ u.home.kept = s.home.kept) ∧
        (takeProto h.tc.toNat 1 s = none → exec i s = .next (follow (holdProto i h s)))) ∧
    (∀ m d, mrFor s h = some m →
      (m.kind = .atm → ∃ u, exec (.dats h d) s = .next (follow u) ∧ mget u.req.mrs n = none) ∧
      (m.kind ≠ .atm → exec (.dats h d) s = .next (follow (readOnce n m d h.htag.toNat s)) ∧
        (h.g = true → exec (.fwds h d) s = .next (follow (readOnce n m d h.htag.toNat s)))) ∧
      (m.kind = .rdO → exec (.datf h d) s = .next (follow (readOnce n m d h.htag.toNat s)) ∧
        exec (.date h d) s = .next (follow (readOnce n m d h.htag.toNat s)) ∧ exec (.datm h d) s = .next (follow (readOnce n m d h.htag.toNat s))) ∧
      (m.kind ≠ .rdO → exec (.datf h d) s = .next (follow (fill n m .f d h.htag.toNat true s)) ∧
        exec (.date h d) s = .next (follow (fill n m .e d h.htag.toNat true s)) ∧
        exec (.datm h d) s = .next (follow (fill n m .m d h.htag.toNat true s)) ∧
        (h.g = false → exec (.fwds h d) s = .next (follow (fill n m .s d h.htag.toNat true s)))) ∧
      exec (.fwdx h d) s = .next (follow (tryGrant n { m with fwd := some (h.d, h.g, d) } h.htag.toNat s))) ∧
    (∀ m, mrFor s h = some m →
      (∃ u, exec (.gntx h) s = .next (follow u) ∧ u = tryGrant n { m with gnt := some h.fw } h.htag.toNat s) ∧
      (m.kind = .wr → m.owner = false → m.stand = none → ∃ u z, exec (.cmp h) s = .next (follow u) ∧ u = flushDue m (m.demands.foldl (fun s d => finishWrite d s) z) ∧
        mget z.req.mrs n = none) ∧
      (∃ u, exec (.rdr h) s = .next (follow u) ∧ mget u.req.mrs n = some { m with dst := homeOf m.line })) ∧
    (mrFor s h = none → (∃ u, exec (.gntx h) s = .next (follow u) ∧ u = strayFin h s ∧ u.req = s.req ∧ u.hc = s.hc) ∧
      (∃ u, exec (.cmp h) s = .next (follow u) ∧ u = strayFin h s)) ∧
    (∀ x, s.hc.evt = [x] → x.line = l → s.req.waits = [] → ∃ u, exec (.wback h) s = .next (follow u) ∧ u.hc.evt = [] ∧ u.dir = s.dir) ∧
    (∃ u, exec (.plnote h) s = .next (follow u) ∧ u = prefetch l h.tc.toNat h.epoch.toNat 16 true s)

/-- R82, R94, R120, R122, R126, R142, R149, R185, R191, R201, R204, R214: what waits goes on, one at a time, once it can; where nothing waits nothing
changes. -/
def Obligations.WaitingRows : Prop :=
  ∀ s : State, running s = true →
    (∀ (line : LineAddr) t v, s.home.waiting = [t] → t.line = inLine s line → blocked s t.line = false → v = { s with home := { s.home with waiting := [] } } →
      (waitsMbuf s t = true → t.tries ≠ 0 → exec (.waiterDecision line) s = .next (follow s)) ∧
      ((rqHub t).isSome = false → waitsMbuf s t = false → exec (.waiterDecision line) s = .next (follow (asNow t.line (decideTxn t) v))) ∧
      ((rqHub t).isSome = true → waitsMbuf s t = false → tagMiss s (cacheSet s t.line) = false →
        exec (.waiterDecision line) s = .next (follow (asNow t.line (decideTxn t) (tagUse (cacheSet s t.line) v)))) ∧
      ((rqHub t).isSome = true → waitsMbuf s t = false → tagMiss s (cacheSet s t.line) = true → cacheSet s t.line ∉ s.hc.fetch →
        exec (.waiterDecision line) s = .next (follow (tagFetch (cacheSet s t.line) s)))) ∧
    (∀ line : LineAddr, blocked s (inLine s line) = true → ∃ u, exec (.waiterDecision line) s = .next (follow u) ∧ u = s) ∧
    (∀ (line : LineAddr) x, s.req.due = [x] → x.line = inLine s line →
      (releaseReady s x.line x.data.isSome = true → exec (.releaseAfterMiss line) s =
        .next (follow (releaseHosts x.line x.tc x.epoch { s with req := { s.req with due := [] } } x.data))) ∧
      (releaseReady s x.line x.data.isSome = false → exec (.releaseAfterMiss line) s = .next (follow s))) ∧
    (∀ d : Demand, s.req.waits = [(.reg, d)] → (mrPick s (sliceOf d.line) d.tc (decide (d.kind = .prefetch))).isSome = true →
      ∀ k : Fin 32, k.val = sliceOf d.line → ∃ u, exec (.missRegisterFree k) s = .next (follow u) ∧
        u = waitsFirst d (asNow (inLine s d.line) (demand d) { s with req := { s.req with waits := [] } })) ∧
    (s.req.waits = [] → ∀ k : Fin 32, (∃ u, exec (.missRegisterFree k) s = .next (follow u) ∧ u = cleanAgain k s) ∧
      (s.req.mrs = [] → ∀ set, ∃ u, exec (.hostFilterWayFree k set) s = .next (follow u) ∧ u = s) ∧
      (s.home.opened = [] → s.home.waiting = [] → s.home.input = [] → s.req.mrs = [] → ∃ u, exec (.mergingEntryFree k) s = .next (follow u) ∧ u = s) ∧
      ∀ line, ∃ u, exec (.cacheWayFree line) s = .next (follow u) ∧ u = s) ∧
    (∀ (k : Fin 32) t h v, s.home.input = [t] → sliceOf t.line = k.val → (httPick s k t).isSome = true → waitsMbuf s t = false → t.rq = .remote h →
      square s k (squareNow s) / 16 % 8 ≠ 2 → inputIndex t < 512 →
      v = granted k (inputIndex t, rankOf s k (inputIndex t)) { s with home := { s.home with input := [] } } →
      (∃ u, exec (.httEntryFree k) s = .next (follow u) ∧ u = asEntering (homeEnter t h) v) ∧
      (s.home.opened = [] → s.home.waiting = [] → s.req.mrs = [] → ∃ u, exec (.mergingEntryFree k) s = .next (follow u) ∧
        u = asEntering (homeEnter t h) v)) ∧
    (∀ k : Fin 32, square s k (squareNow s) / 16 % 8 = 2 → exec (.httEntryFree k) s = .next (follow s)) ∧
    (∀ (k : Fin 32) set t t', s.home.wayWait = [(k.val, set, t)] → nextAlloc s k set = some (k.val, set, t) →
      t' = { t with step := false, turn := true } → ∃ u, exec (.directoryWayFree k set) s = .next (follow u) ∧
        u = asNow t.line (fun s => if blocked s t.line then waitPut t' s else decideTxn { t' with way := none } s) { s with home := { s.home with wayWait := [] } }) ∧
    (∀ (k : Fin 32) d, s.req.waits = [(.hf, d)] → s.req.mrs = [] → sliceOf d.line = k.val → (hfRoom s d.line = true ∨ hfLeaving s d.line = 0) →
      ∃ u, exec (.hostFilterWayFree k (tabSet d.line.toNat)) s = .next (follow u) ∧
        u = waitsFirst d (asNow (inLine s d.line) (demand d) { s with req := { s.req with waits := [] } })) ∧
    (∀ (line : LineAddr) d, s.req.waits = [(.way, d)] → cacheSet s d.line = cacheSet s (inLine s line) → candidates s (cacheSet s d.line) ≠ [] →
      ∃ u, exec (.cacheWayFree line) s = .next (follow u) ∧
        u = waitsFirst d (asNow (inLine s d.line) (demand d) { s with req := { s.req with waits := [] } })) ∧
    (∀ (k : Fin 32) d, s.req.waits = [(.mbuf, d)] → s.home.opened = [] → s.home.waiting = [] → s.home.input = [] → s.req.mrs = [] →
      sliceOf d.line = k.val → mbufHolds s d = false → ∃ u, exec (.mergingEntryFree k) s = .next (follow u) ∧
        u = waitsFirst d (asNow (inLine s d.line) (demand d) { s with req := { s.req with waits := [] } })) ∧
    (∀ (k : Fin 32) e, s.hc.evs = [e] → e.started = false → e.way / 16 / (if isH1 s then 65536 else 7168) = k.val → evictRoom s e.way = true →
      ∃ u, exec (.evictionEntryFree k) s = .next (follow u) ∧ u = startEvict e { s with hc := { s.hc with evs := [] } }) ∧
    (∀ (k : Fin 32) set way e, s.hc.evs = [e] → e.way = 16 * ((if isH1 s then 65536 else 7168) * k.val + set) + way → e.started = true →
      (getWay s e.way).st = [] → s.hst.steps = [] → ∃ u, exec (.frameEvictionDone k set way) s = .next (follow u) ∧ u.hc.evs = []) ∧
    (s.hc.evs = [] → ∀ (k : Fin 32) set way, (∃ u, exec (.frameEvictionDone k set way) s = .next (follow u) ∧ u = s) ∧
      ∃ u, exec (.evictionEntryFree k) s = .next (follow u) ∧ u = s) ∧
    (∀ (line l : LineAddr) m v, l = inLine s line → s.hc.released = [l] → s.hc.maint = some m → v = { s with hc := { s.hc with released := [] } } →
      (m.flush = true → exec (.flushPendingApply line) s =
        .next (follow (releaseHosts l 7 (epochNow s) (drainOf (fun x => x.toNat / 4 = l.toNat / 4) v)))) ∧
      (m.flush = false → exec (.flushPendingApply line) s = .next (follow (withHosts l 1 (exclHost v l) 7 (epochNow s) (.clean 0) (cleanNow 0 l) v)))) ∧
    (∀ line : LineAddr, s.home.keep = [inLine s line] → s.home.heldSnp = [] → s.home.heldStep = [] →
      ∃ u, exec (.keepWindowClose line) s = .next (follow u) ∧ u = { s with home := { s.home with keep := [] } }) ∧
    (∀ line : LineAddr, inLine s line ∉ s.home.keep → ∃ u, exec (.keepWindowClose line) s = .next (follow u) ∧ u = s) ∧
    (∀ (line : LineAddr) t m v, txnOf s (inLine s line) = some t → t.last = some m → v = setTxn { t with tries := t.tries + 1 } s →
      (t.answered = true → t.fin = false → t.tries < 3 →
        (∀ p, otherPort v m.dst t.ports.head? t.tries = some p → exec (.responseResendTimeout line) s =
          .next (egress p (sliceInput (sliceOf (inLine s line))) [] m v)) ∧
        (otherPort v m.dst t.ports.head? t.tries = none → exec (.responseResendTimeout line) s =
          .next (dispatch (sliceInput (sliceOf (inLine s line))) [] m v))) ∧
      (t.answered = true → t.fin = false → 3 ≤ t.tries → exec (.responseResendTimeout line) s = .next (followAfter s (declareDead m.dst 0 s))) ∧
      ((t.answered = false ∨ t.fin = true) → exec (.responseResendTimeout line) s = .next s)) ∧
    (∀ line : LineAddr, txnOf s (inLine s line) = none → exec (.responseResendTimeout line) s = .next s) ∧
    (∀ (line : LineAddr) x, s.home.kept = [x] → x.1 = inLine s line →
      ∃ u, exec (.responseRetentionExpiry line) s = .next (follow u) ∧ u = { s with home := { s.home with kept := [] } })

/-- A step takes the command at the front of the queue and runs it on the state with the queue's rest; with an empty queue the block only counts
fabric time on by 1 ns, or leaves it where a slew has the next count omitted (R221), which is the model's choice (log entry 11). -/
def Obligations.StepRunsFrontCommand : Prop :=
  (∀ (c : Instr) (rest : List Instr) (s : State), step { s with pending := c :: rest } = exec c { s with pending := rest }) ∧
    ∀ s : State, s.pending = [] → ∃ t, step s = .next t ∧ t.time.ft = (if s.time.omit_ then s.time.ft else s.time.ft + 1) ∧ t.pending = [] ∧ t.regs = s.regs ∧ Untouched s t

/-- Table 14.7, R236, R297, R446, R448, R502: the block after a cold reset: ready, with no seal halt and no key, with every store empty, the Tally at its start
record, and registers at the reset values that the register maps give. What no rule gives (straps, serial, the image, log entry 2) is not stated. -/
def Obligations.ResetLeaves : Prop :=
  let z := State.reset
  InService z ∧ z.pending = [] ∧ z.sl.keys = [] ∧ z.dir = [] ∧ z.hf = [] ∧ z.hc.ways = [] ∧ z.home.opened = [] ∧ z.home.waiting = [] ∧ z.req.mrs = [] ∧
    z.lar.cells = [] ∧ z.slots = [] ∧ z.cel.ops = [] ∧ z.mir.sent = [] ∧ z.bg = [] ∧ z.ev.queues = [] ∧ z.cnt.live = [] ∧ z.flash.dirty = false ∧
    z.tly.next = 1 ∧ (∃ r, mget z.tly.store 0 = some r ∧ r.orig = 34 ∧ r.kind = 3 ∧ r.old = BitVec.allOnes 64 ∧ r.new = BitVec.ofNat 64 z.flash.boots) ∧
    alertAsserted z = false ∧ haltAsserted z = false ∧ (∀ p : HPort, rd z (aHfBito p) = 20) ∧ rd z aHcMrq = 0x08080808 ∧ rd z aHcSsd = 0xFFFF ∧
    rd z aPmDorm = 0x640 ∧ rdFld z aTbStat 0 2 = 0 ∧ (∀ p : IPort, rdFld z (aIpStat p) 0 3 = 0) ∧ rdFld z aFbStat 0 2 = 0 ∧
    (∀ n : Fin 16, ∀ k : Fin 4, mbAuth z n = (if n.val = 0 then 0xFF else 1) ∧ rd z (aSlKs k) = 4)

/-- R236: every Board holds the same default squares after a cold reset, a warm reset and a hub reset, in both profiles; where a unit was retraining, a
ready device writes that unit's squares anew (log entry 69), which the last clause of a warm reset leaves out. -/
def Obligations.EveryResetGivesDefaultSquares : Prop :=
  DefaultSquares State.reset ∧
    (∀ s : State, ∃ t, exec .porstAssert s = .next t ∧ DefaultSquares t) ∧
    (∀ s : State, s.halted = none → s.part.phase = .cold → DefaultSquares s → ∃ t, exec .coldResetReady s = .next t ∧ t.part.phase = .ready ∧ DefaultSquares t) ∧
    (∀ (s : State) (hub : Bool), s.halted = none → s.part.phase = .flush hub → ((s.pwr.cause ≠ 1 ∧ s.pwr.cause ≠ 2) ∨ rdFld s aFbStat 0 2 = 3) →
      ∃ t, exec .flushTimeLimit s = .next t ∧ t.part.phase = .resetting hub ∧ DefaultSquares t) ∧
    (∀ (s : State) (hub : Bool), s.halted = none → s.part.phase = .resetting hub → (hub = true ∨ s.part.perstN = true) → DefaultSquares s →
      (∀ n, n < 52 → rdBit s (aPmCal n) 25 = false) →
      ∃ t, exec .warmResetReady s = .next t ∧ t.part.phase = .ready ∧ DefaultSquares t) ∧
    (∀ (s : State) (cause : Nat), DefaultSquares (hardReset cause s)) ∧ ∀ (s : State) (hub : Bool), DefaultSquares (hubCleared hub s)

/-- R421: any JTAG instruction but BYPASS, IDCODE and SAMPLE/PRELOAD is a seal halt with cause JTAG (8 in SL_HALT) before it acts, which ends the service of a
hub: the keys are erased, HALT_n and ALERT_n are asserted and, until a cold reset, a host's read does nothing. The three others change nothing. -/
def Obligations.JtagHalts : Prop :=
  ∀ s : State,
    (s.halted = none → s.part.phase ≠ .held →
      ∃ t, exec (.jtagInstruction .other) s = .next t ∧ t.halted = some 8 ∧ fld (rd t aSlHalt) 0 4 = 8 ∧ rd t aSlHaltft = s.time.ft ∧ t.sl.keys = [] ∧
        t.sl.tree = 0 ∧ (∀ e, e ∈ t.links → e.2.key = none) ∧ t.flash.dirty = true ∧ alertAsserted t = true ∧ haltAsserted t = true ∧ Untouched s t ∧
        ∀ r : HostReq, exec (.memrddata r) t = .next t) ∧
    exec (.jtagInstruction .bypass) s = .next s ∧ exec (.jtagInstruction .idcode) s = .next s ∧ exec (.jtagInstruction .sample) s = .next s

/-- R116, R537: a write to HF_BITO with TO = 0 or TO above 1,000, and a write to PC_SMPCTL with K outside 4 to 24, is refused: however it is sent it changes no
register, and a REGISTER_WRITE that is not turned away before has the result "rejected" (code 1 of GL_ORIGIN), or "reserved" (3) where the write also
sets bits that the register does not have (R12, Table 12.4). -/
def Obligations.SettingsOutOfRangeAreRefused : Prop :=
  ∀ (o : Origin) (v : Word) (s : State),
    (∀ p : HPort, (fld v 0 10 = 0 ∨ 1000 < fld v 0 10) →
      (∀ pair, (writeReg o (aHfBito p) v pair s).regs = s.regs ∧ Untouched s (writeReg o (aHfBito p) v pair s)) ∧
      (running s = true → s.ev.behind = [] → Reaches s o (aHfBito p) →
        ∃ t, exec (.registerWrite o (BitVec.ofNat 24 (aHfBito p)) 8 (v.setWidth 512)) s = .next t ∧ t.regs = s.regs ∧
          mget t.ctl.last o = some (if v.toNat / 2 ^ 10 = 0 then 1 else 3, aHfBito p))) ∧
    ((fld v 1 5 < 4 ∨ 24 < fld v 1 5) →
      (∀ pair, (writeReg o aPcSmpctl v pair s).regs = s.regs ∧ (writeReg o aPcSmpctl v pair s).cnt.count = s.cnt.count ∧
        Untouched s (writeReg o aPcSmpctl v pair s)) ∧
      (running s = true → s.ev.behind = [] → Reaches s o aPcSmpctl →
        ∃ t, exec (.registerWrite o (BitVec.ofNat 24 aPcSmpctl) 8 (v.setWidth 512)) s = .next t ∧ t.regs = s.regs ∧
          mget t.ctl.last o = some (if v.toNat / 2 ^ 43 = 0 then 1 else 3, aPcSmpctl)))

/-- R301 to R311, R221 to R227, R498 to R530: the frame of the commands that move flits, time and records. They change neither the directory, nor a filter, a
transaction, a miss register, the hub cache, the cellar path or the mirror, nor the Larder, but for a data flit, whose messages in transit take cells
(R20), and for messages of a failed link that go on another way (R311); a command of a link leaves time and the time discipline as they are, and a
command of time and records leaves every link, the seal state and the seal halt as they are, but for beacons, which are wire units (R301, R460). A step of
fabric time, which a beacon or a pulse may bring, is stated where no Board has anything waiting: what it jumps over runs late (R227); the commands of records are stated where no access of the control window
is held behind a POP, as one that ends a hold lets the accesses behind it go on (R288). -/
def Obligations.LinkAndRecordFrames : Prop :=
  ∀ (c : Instr) (s : State), running s = true →
    (linkCommand c = true → ∃ t, exec c s = .next t ∧ Untouched { s with lar := t.lar } t ∧
      ((∀ p f ps, c ≠ .dataFlit p f ps) → t.fab = s.fab ∧ ((∀ h x, c ≠ .lkseqr h x) → t.lar = s.lar)) ∧
      t.time = s.time ∧ t.part = s.part ∧ t.fab = { s.fab with via := t.fab.via } ∧ t.pwr = s.pwr) ∧
    (recordCommand c = true → s.ev.behind = [] → (((∀ p b x, c ≠ .beacon p b x) ∧ c ≠ .timePpsEdge) ∨ busyBoards s = []) →
      ∃ t, exec c s = .next t ∧ Untouched s t ∧ t.part = s.part ∧ t.pwr = s.pwr ∧ t.rx = s.rx ∧
      (c ≠ .beaconTimer → (∀ p b x, c ≠ .beacon p b x) → t.links = s.links ∧ t.sl = s.sl ∧ t.halted = s.halted))

/-- R445, R446: a seal halt lasts. From every state in seal halt that no reset holds, a step leaves the keys, the seal state, the hub cache, the directory,
the home, the Larder, the Boards, the cellar path, the mirror, the links, the counters, the event queues and the Tally as they are, and the halt
stands; only a step into a cold reset ends it. (A seal halt begins only out of reset: a state that PORST_n or another cause holds in cold reset while it
is in seal halt is reached by no run.) -/
def Obligations.SealHaltLasts : Prop :=
  ∀ (s t : State) (cause : Nat), s.halted = some cause → s.part.porstN = true → s.pwr.hold = false → s.part.phase ≠ .held →
    step s = .next t → (Frozen s t ∧ t.part.porstN = true ∧ t.pwr.hold = false ∧ t.part.phase ≠ .held) ∨ ColdHeld t

end
end

