-- ==== Sys2Proof/Laws/Commands.lean ====
section
/-! SUPPORT. What the forms of a meaning come to: a command that runs only while the block runs, one that runs in every phase, and what follows it. -/

namespace Sys2Proof.Machine


/-- A command of the running block answers its operation. -/
@[simp] theorem live_running {s : State} (h : running s = true) (f : State → State) : live s f = .next (f s) := by simp [live, h]

/-- A command of the running block changes nothing while the block does not run. -/
@[simp] theorem live_stopped {s : State} (h : running s = false) (f : State → State) : live s f = .next s := by simp [live, h]

/-- Whatever the phase, a command answers a next state. -/
theorem live_next (s : State) (f : State → State) : ∃ t, live s f = .next t := by
  cases h : running s <;> simp [h]

/-- Nothing goes on by itself while the block does not run. -/
@[simp] theorem follow_stopped {s : State} (h : running s = false) : follow s = s := by simp [follow, h]

/-- Nothing follows a command that has set nothing to work. -/
@[simp] theorem followAfter_idle {s t : State} (ops : t.cel.ops = s.cel.ops) (owed : t.cel.owed = s.cel.owed) (applied : t.mir.applied = s.mir.applied)
    (fences : t.ports.fences = s.ports.fences) : followAfter s t = t := by simp [followAfter, ops, owed, applied, fences]

/-- What follows a command is nothing, or all that goes on by itself. -/
theorem followAfter_cases (s t : State) : followAfter s t = t ∨ followAfter s t = follow t := by
  unfold followAfter; split <;> simp

end Sys2Proof.Machine
end

