-- ==== Sys2Proof/Laws/State.lean ====
section
/-! SUPPORT. One lemma for each field of the state and each basic operation that leaves the field. A defined operation's lemma is proved from that of the
operation it calls: unfolding to a record would make the kernel compare the changed fields. -/

namespace Sys2Proof.Machine

variable (s : State)

@[simp] theorem wr_part (a : Nat) (v : Word) : (wr a v s).part = s.part := rfl
@[simp] theorem wr_flash (a : Nat) (v : Word) : (wr a v s).flash = s.flash := rfl
@[simp] theorem wr_time (a : Nat) (v : Word) : (wr a v s).time = s.time := rfl
@[simp] theorem wr_staged (a : Nat) (v : Word) : (wr a v s).staged = s.staged := rfl
@[simp] theorem wr_ev (a : Nat) (v : Word) : (wr a v s).ev = s.ev := rfl
@[simp] theorem wr_tly (a : Nat) (v : Word) : (wr a v s).tly = s.tly := rfl
@[simp] theorem wr_cnt (a : Nat) (v : Word) : (wr a v s).cnt = s.cnt := rfl
@[simp] theorem wr_lar (a : Nat) (v : Word) : (wr a v s).lar = s.lar := rfl
@[simp] theorem wr_brd (a : Nat) (v : Word) : (wr a v s).brd = s.brd := rfl
@[simp] theorem wr_hc (a : Nat) (v : Word) : (wr a v s).hc = s.hc := rfl
@[simp] theorem wr_dir (a : Nat) (v : Word) : (wr a v s).dir = s.dir := rfl
@[simp] theorem wr_hf (a : Nat) (v : Word) : (wr a v s).hf = s.hf := rfl
@[simp] theorem wr_home (a : Nat) (v : Word) : (wr a v s).home = s.home := rfl
@[simp] theorem wr_sweep (a : Nat) (v : Word) : (wr a v s).sweep = s.sweep := rfl
@[simp] theorem wr_req (a : Nat) (v : Word) : (wr a v s).req = s.req := rfl
@[simp] theorem wr_hst (a : Nat) (v : Word) : (wr a v s).hst = s.hst := rfl
@[simp] theorem wr_slots (a : Nat) (v : Word) : (wr a v s).slots = s.slots := rfl
@[simp] theorem wr_ports (a : Nat) (v : Word) : (wr a v s).ports = s.ports := rfl
@[simp] theorem wr_cel (a : Nat) (v : Word) : (wr a v s).cel = s.cel := rfl
@[simp] theorem wr_sl (a : Nat) (v : Word) : (wr a v s).sl = s.sl := rfl
@[simp] theorem wr_mir (a : Nat) (v : Word) : (wr a v s).mir = s.mir := rfl
@[simp] theorem wr_links (a : Nat) (v : Word) : (wr a v s).links = s.links := rfl
@[simp] theorem wr_fab (a : Nat) (v : Word) : (wr a v s).fab = s.fab := rfl
@[simp] theorem wr_routeWait (a : Nat) (v : Word) : (wr a v s).routeWait = s.routeWait := rfl
@[simp] theorem wr_rx (a : Nat) (v : Word) : (wr a v s).rx = s.rx := rfl
@[simp] theorem wr_bg (a : Nat) (v : Word) : (wr a v s).bg = s.bg := rfl
@[simp] theorem wr_prot (a : Nat) (v : Word) : (wr a v s).prot = s.prot := rfl
@[simp] theorem wr_pwr (a : Nat) (v : Word) : (wr a v s).pwr = s.pwr := rfl
@[simp] theorem wr_ctl (a : Nat) (v : Word) : (wr a v s).ctl = s.ctl := rfl
@[simp] theorem wr_halted (a : Nat) (v : Word) : (wr a v s).halted = s.halted := rfl
@[simp] theorem wr_free (a : Nat) (v : Word) : (wr a v s).free = s.free := rfl
@[simp] theorem wr_out (a : Nat) (v : Word) : (wr a v s).out = s.out := rfl
@[simp] theorem wr_pending (a : Nat) (v : Word) : (wr a v s).pending = s.pending := rfl

@[simp] theorem wrFld_part (a lo n v : Nat) : (wrFld a lo n v s).part = s.part := wr_part s a _
@[simp] theorem wrFld_flash (a lo n v : Nat) : (wrFld a lo n v s).flash = s.flash := wr_flash s a _
@[simp] theorem wrFld_time (a lo n v : Nat) : (wrFld a lo n v s).time = s.time := wr_time s a _
@[simp] theorem wrFld_staged (a lo n v : Nat) : (wrFld a lo n v s).staged = s.staged := wr_staged s a _
@[simp] theorem wrFld_ev (a lo n v : Nat) : (wrFld a lo n v s).ev = s.ev := wr_ev s a _
@[simp] theorem wrFld_tly (a lo n v : Nat) : (wrFld a lo n v s).tly = s.tly := wr_tly s a _
@[simp] theorem wrFld_cnt (a lo n v : Nat) : (wrFld a lo n v s).cnt = s.cnt := wr_cnt s a _
@[simp] theorem wrFld_lar (a lo n v : Nat) : (wrFld a lo n v s).lar = s.lar := wr_lar s a _
@[simp] theorem wrFld_brd (a lo n v : Nat) : (wrFld a lo n v s).brd = s.brd := wr_brd s a _
@[simp] theorem wrFld_hc (a lo n v : Nat) : (wrFld a lo n v s).hc = s.hc := wr_hc s a _
@[simp] theorem wrFld_dir (a lo n v : Nat) : (wrFld a lo n v s).dir = s.dir := wr_dir s a _
@[simp] theorem wrFld_hf (a lo n v : Nat) : (wrFld a lo n v s).hf = s.hf := wr_hf s a _
@[simp] theorem wrFld_home (a lo n v : Nat) : (wrFld a lo n v s).home = s.home := wr_home s a _
@[simp] theorem wrFld_sweep (a lo n v : Nat) : (wrFld a lo n v s).sweep = s.sweep := wr_sweep s a _
@[simp] theorem wrFld_req (a lo n v : Nat) : (wrFld a lo n v s).req = s.req := wr_req s a _
@[simp] theorem wrFld_hst (a lo n v : Nat) : (wrFld a lo n v s).hst = s.hst := wr_hst s a _
@[simp] theorem wrFld_slots (a lo n v : Nat) : (wrFld a lo n v s).slots = s.slots := wr_slots s a _
@[simp] theorem wrFld_ports (a lo n v : Nat) : (wrFld a lo n v s).ports = s.ports := wr_ports s a _
@[simp] theorem wrFld_cel (a lo n v : Nat) : (wrFld a lo n v s).cel = s.cel := wr_cel s a _
@[simp] theorem wrFld_sl (a lo n v : Nat) : (wrFld a lo n v s).sl = s.sl := wr_sl s a _
@[simp] theorem wrFld_mir (a lo n v : Nat) : (wrFld a lo n v s).mir = s.mir := wr_mir s a _
@[simp] theorem wrFld_links (a lo n v : Nat) : (wrFld a lo n v s).links = s.links := wr_links s a _
@[simp] theorem wrFld_fab (a lo n v : Nat) : (wrFld a lo n v s).fab = s.fab := wr_fab s a _
@[simp] theorem wrFld_routeWait (a lo n v : Nat) : (wrFld a lo n v s).routeWait = s.routeWait := wr_routeWait s a _
@[simp] theorem wrFld_rx (a lo n v : Nat) : (wrFld a lo n v s).rx = s.rx := wr_rx s a _
@[simp] theorem wrFld_bg (a lo n v : Nat) : (wrFld a lo n v s).bg = s.bg := wr_bg s a _
@[simp] theorem wrFld_prot (a lo n v : Nat) : (wrFld a lo n v s).prot = s.prot := wr_prot s a _
@[simp] theorem wrFld_pwr (a lo n v : Nat) : (wrFld a lo n v s).pwr = s.pwr := wr_pwr s a _
@[simp] theorem wrFld_ctl (a lo n v : Nat) : (wrFld a lo n v s).ctl = s.ctl := wr_ctl s a _
@[simp] theorem wrFld_halted (a lo n v : Nat) : (wrFld a lo n v s).halted = s.halted := wr_halted s a _
@[simp] theorem wrFld_free (a lo n v : Nat) : (wrFld a lo n v s).free = s.free := wr_free s a _
@[simp] theorem wrFld_out (a lo n v : Nat) : (wrFld a lo n v s).out = s.out := wr_out s a _
@[simp] theorem wrFld_pending (a lo n v : Nat) : (wrFld a lo n v s).pending = s.pending := wr_pending s a _

@[simp] theorem rsq_part (a i : Nat) : (rsq a i s).part = s.part := wr_part s a _
@[simp] theorem rsq_flash (a i : Nat) : (rsq a i s).flash = s.flash := wr_flash s a _
@[simp] theorem rsq_time (a i : Nat) : (rsq a i s).time = s.time := wr_time s a _
@[simp] theorem rsq_staged (a i : Nat) : (rsq a i s).staged = s.staged := wr_staged s a _
@[simp] theorem rsq_ev (a i : Nat) : (rsq a i s).ev = s.ev := wr_ev s a _
@[simp] theorem rsq_tly (a i : Nat) : (rsq a i s).tly = s.tly := wr_tly s a _
@[simp] theorem rsq_cnt (a i : Nat) : (rsq a i s).cnt = s.cnt := wr_cnt s a _
@[simp] theorem rsq_lar (a i : Nat) : (rsq a i s).lar = s.lar := wr_lar s a _
@[simp] theorem rsq_brd (a i : Nat) : (rsq a i s).brd = s.brd := wr_brd s a _
@[simp] theorem rsq_hc (a i : Nat) : (rsq a i s).hc = s.hc := wr_hc s a _
@[simp] theorem rsq_dir (a i : Nat) : (rsq a i s).dir = s.dir := wr_dir s a _
@[simp] theorem rsq_hf (a i : Nat) : (rsq a i s).hf = s.hf := wr_hf s a _
@[simp] theorem rsq_home (a i : Nat) : (rsq a i s).home = s.home := wr_home s a _
@[simp] theorem rsq_sweep (a i : Nat) : (rsq a i s).sweep = s.sweep := wr_sweep s a _
@[simp] theorem rsq_req (a i : Nat) : (rsq a i s).req = s.req := wr_req s a _
@[simp] theorem rsq_hst (a i : Nat) : (rsq a i s).hst = s.hst := wr_hst s a _
@[simp] theorem rsq_slots (a i : Nat) : (rsq a i s).slots = s.slots := wr_slots s a _
@[simp] theorem rsq_ports (a i : Nat) : (rsq a i s).ports = s.ports := wr_ports s a _
@[simp] theorem rsq_cel (a i : Nat) : (rsq a i s).cel = s.cel := wr_cel s a _
@[simp] theorem rsq_sl (a i : Nat) : (rsq a i s).sl = s.sl := wr_sl s a _
@[simp] theorem rsq_mir (a i : Nat) : (rsq a i s).mir = s.mir := wr_mir s a _
@[simp] theorem rsq_links (a i : Nat) : (rsq a i s).links = s.links := wr_links s a _
@[simp] theorem rsq_fab (a i : Nat) : (rsq a i s).fab = s.fab := wr_fab s a _
@[simp] theorem rsq_routeWait (a i : Nat) : (rsq a i s).routeWait = s.routeWait := wr_routeWait s a _
@[simp] theorem rsq_rx (a i : Nat) : (rsq a i s).rx = s.rx := wr_rx s a _
@[simp] theorem rsq_bg (a i : Nat) : (rsq a i s).bg = s.bg := wr_bg s a _
@[simp] theorem rsq_prot (a i : Nat) : (rsq a i s).prot = s.prot := wr_prot s a _
@[simp] theorem rsq_pwr (a i : Nat) : (rsq a i s).pwr = s.pwr := wr_pwr s a _
@[simp] theorem rsq_ctl (a i : Nat) : (rsq a i s).ctl = s.ctl := wr_ctl s a _
@[simp] theorem rsq_halted (a i : Nat) : (rsq a i s).halted = s.halted := wr_halted s a _
@[simp] theorem rsq_free (a i : Nat) : (rsq a i s).free = s.free := wr_free s a _
@[simp] theorem rsq_out (a i : Nat) : (rsq a i s).out = s.out := wr_out s a _
@[simp] theorem rsq_pending (a i : Nat) : (rsq a i s).pending = s.pending := wr_pending s a _

@[simp] theorem emit_part (x : Sent) : (emit x s).part = s.part := rfl
@[simp] theorem emit_flash (x : Sent) : (emit x s).flash = s.flash := rfl
@[simp] theorem emit_time (x : Sent) : (emit x s).time = s.time := rfl
@[simp] theorem emit_regs (x : Sent) : (emit x s).regs = s.regs := rfl
@[simp] theorem emit_staged (x : Sent) : (emit x s).staged = s.staged := rfl
@[simp] theorem emit_ev (x : Sent) : (emit x s).ev = s.ev := rfl
@[simp] theorem emit_tly (x : Sent) : (emit x s).tly = s.tly := rfl
@[simp] theorem emit_cnt (x : Sent) : (emit x s).cnt = s.cnt := rfl
@[simp] theorem emit_lar (x : Sent) : (emit x s).lar = s.lar := rfl
@[simp] theorem emit_brd (x : Sent) : (emit x s).brd = s.brd := rfl
@[simp] theorem emit_hc (x : Sent) : (emit x s).hc = s.hc := rfl
@[simp] theorem emit_dir (x : Sent) : (emit x s).dir = s.dir := rfl
@[simp] theorem emit_hf (x : Sent) : (emit x s).hf = s.hf := rfl
@[simp] theorem emit_home (x : Sent) : (emit x s).home = s.home := rfl
@[simp] theorem emit_sweep (x : Sent) : (emit x s).sweep = s.sweep := rfl
@[simp] theorem emit_req (x : Sent) : (emit x s).req = s.req := rfl
@[simp] theorem emit_hst (x : Sent) : (emit x s).hst = s.hst := rfl
@[simp] theorem emit_slots (x : Sent) : (emit x s).slots = s.slots := rfl
@[simp] theorem emit_ports (x : Sent) : (emit x s).ports = s.ports := rfl
@[simp] theorem emit_cel (x : Sent) : (emit x s).cel = s.cel := rfl
@[simp] theorem emit_sl (x : Sent) : (emit x s).sl = s.sl := rfl
@[simp] theorem emit_mir (x : Sent) : (emit x s).mir = s.mir := rfl
@[simp] theorem emit_links (x : Sent) : (emit x s).links = s.links := rfl
@[simp] theorem emit_fab (x : Sent) : (emit x s).fab = s.fab := rfl
@[simp] theorem emit_routeWait (x : Sent) : (emit x s).routeWait = s.routeWait := rfl
@[simp] theorem emit_rx (x : Sent) : (emit x s).rx = s.rx := rfl
@[simp] theorem emit_bg (x : Sent) : (emit x s).bg = s.bg := rfl
@[simp] theorem emit_prot (x : Sent) : (emit x s).prot = s.prot := rfl
@[simp] theorem emit_pwr (x : Sent) : (emit x s).pwr = s.pwr := rfl
@[simp] theorem emit_ctl (x : Sent) : (emit x s).ctl = s.ctl := rfl
@[simp] theorem emit_halted (x : Sent) : (emit x s).halted = s.halted := rfl
@[simp] theorem emit_free (x : Sent) : (emit x s).free = s.free := rfl
@[simp] theorem emit_pending (x : Sent) : (emit x s).pending = s.pending := rfl

@[simp] theorem cntSet_part (a v : Nat) : (cntSet a v s).part = s.part := rfl
@[simp] theorem cntSet_flash (a v : Nat) : (cntSet a v s).flash = s.flash := rfl
@[simp] theorem cntSet_time (a v : Nat) : (cntSet a v s).time = s.time := rfl
@[simp] theorem cntSet_regs (a v : Nat) : (cntSet a v s).regs = s.regs := rfl
@[simp] theorem cntSet_staged (a v : Nat) : (cntSet a v s).staged = s.staged := rfl
@[simp] theorem cntSet_ev (a v : Nat) : (cntSet a v s).ev = s.ev := rfl
@[simp] theorem cntSet_tly (a v : Nat) : (cntSet a v s).tly = s.tly := rfl
@[simp] theorem cntSet_lar (a v : Nat) : (cntSet a v s).lar = s.lar := rfl
@[simp] theorem cntSet_brd (a v : Nat) : (cntSet a v s).brd = s.brd := rfl
@[simp] theorem cntSet_hc (a v : Nat) : (cntSet a v s).hc = s.hc := rfl
@[simp] theorem cntSet_dir (a v : Nat) : (cntSet a v s).dir = s.dir := rfl
@[simp] theorem cntSet_hf (a v : Nat) : (cntSet a v s).hf = s.hf := rfl
@[simp] theorem cntSet_home (a v : Nat) : (cntSet a v s).home = s.home := rfl
@[simp] theorem cntSet_sweep (a v : Nat) : (cntSet a v s).sweep = s.sweep := rfl
@[simp] theorem cntSet_req (a v : Nat) : (cntSet a v s).req = s.req := rfl
@[simp] theorem cntSet_hst (a v : Nat) : (cntSet a v s).hst = s.hst := rfl
@[simp] theorem cntSet_slots (a v : Nat) : (cntSet a v s).slots = s.slots := rfl
@[simp] theorem cntSet_ports (a v : Nat) : (cntSet a v s).ports = s.ports := rfl
@[simp] theorem cntSet_cel (a v : Nat) : (cntSet a v s).cel = s.cel := rfl
@[simp] theorem cntSet_sl (a v : Nat) : (cntSet a v s).sl = s.sl := rfl
@[simp] theorem cntSet_mir (a v : Nat) : (cntSet a v s).mir = s.mir := rfl
@[simp] theorem cntSet_links (a v : Nat) : (cntSet a v s).links = s.links := rfl
@[simp] theorem cntSet_fab (a v : Nat) : (cntSet a v s).fab = s.fab := rfl
@[simp] theorem cntSet_routeWait (a v : Nat) : (cntSet a v s).routeWait = s.routeWait := rfl
@[simp] theorem cntSet_rx (a v : Nat) : (cntSet a v s).rx = s.rx := rfl
@[simp] theorem cntSet_bg (a v : Nat) : (cntSet a v s).bg = s.bg := rfl
@[simp] theorem cntSet_prot (a v : Nat) : (cntSet a v s).prot = s.prot := rfl
@[simp] theorem cntSet_pwr (a v : Nat) : (cntSet a v s).pwr = s.pwr := rfl
@[simp] theorem cntSet_ctl (a v : Nat) : (cntSet a v s).ctl = s.ctl := rfl
@[simp] theorem cntSet_halted (a v : Nat) : (cntSet a v s).halted = s.halted := rfl
@[simp] theorem cntSet_free (a v : Nat) : (cntSet a v s).free = s.free := rfl
@[simp] theorem cntSet_out (a v : Nat) : (cntSet a v s).out = s.out := rfl
@[simp] theorem cntSet_pending (a v : Nat) : (cntSet a v s).pending = s.pending := rfl

@[simp] theorem setQueue_part (q : Nat) (v : Queue) : (setQueue q v s).part = s.part := rfl
@[simp] theorem setQueue_flash (q : Nat) (v : Queue) : (setQueue q v s).flash = s.flash := rfl
@[simp] theorem setQueue_time (q : Nat) (v : Queue) : (setQueue q v s).time = s.time := rfl
@[simp] theorem setQueue_regs (q : Nat) (v : Queue) : (setQueue q v s).regs = s.regs := rfl
@[simp] theorem setQueue_staged (q : Nat) (v : Queue) : (setQueue q v s).staged = s.staged := rfl
@[simp] theorem setQueue_tly (q : Nat) (v : Queue) : (setQueue q v s).tly = s.tly := rfl
@[simp] theorem setQueue_cnt (q : Nat) (v : Queue) : (setQueue q v s).cnt = s.cnt := rfl
@[simp] theorem setQueue_lar (q : Nat) (v : Queue) : (setQueue q v s).lar = s.lar := rfl
@[simp] theorem setQueue_brd (q : Nat) (v : Queue) : (setQueue q v s).brd = s.brd := rfl
@[simp] theorem setQueue_hc (q : Nat) (v : Queue) : (setQueue q v s).hc = s.hc := rfl
@[simp] theorem setQueue_dir (q : Nat) (v : Queue) : (setQueue q v s).dir = s.dir := rfl
@[simp] theorem setQueue_hf (q : Nat) (v : Queue) : (setQueue q v s).hf = s.hf := rfl
@[simp] theorem setQueue_home (q : Nat) (v : Queue) : (setQueue q v s).home = s.home := rfl
@[simp] theorem setQueue_sweep (q : Nat) (v : Queue) : (setQueue q v s).sweep = s.sweep := rfl
@[simp] theorem setQueue_req (q : Nat) (v : Queue) : (setQueue q v s).req = s.req := rfl
@[simp] theorem setQueue_hst (q : Nat) (v : Queue) : (setQueue q v s).hst = s.hst := rfl
@[simp] theorem setQueue_slots (q : Nat) (v : Queue) : (setQueue q v s).slots = s.slots := rfl
@[simp] theorem setQueue_ports (q : Nat) (v : Queue) : (setQueue q v s).ports = s.ports := rfl
@[simp] theorem setQueue_cel (q : Nat) (v : Queue) : (setQueue q v s).cel = s.cel := rfl
@[simp] theorem setQueue_sl (q : Nat) (v : Queue) : (setQueue q v s).sl = s.sl := rfl
@[simp] theorem setQueue_mir (q : Nat) (v : Queue) : (setQueue q v s).mir = s.mir := rfl
@[simp] theorem setQueue_links (q : Nat) (v : Queue) : (setQueue q v s).links = s.links := rfl
@[simp] theorem setQueue_fab (q : Nat) (v : Queue) : (setQueue q v s).fab = s.fab := rfl
@[simp] theorem setQueue_routeWait (q : Nat) (v : Queue) : (setQueue q v s).routeWait = s.routeWait := rfl
@[simp] theorem setQueue_rx (q : Nat) (v : Queue) : (setQueue q v s).rx = s.rx := rfl
@[simp] theorem setQueue_bg (q : Nat) (v : Queue) : (setQueue q v s).bg = s.bg := rfl
@[simp] theorem setQueue_prot (q : Nat) (v : Queue) : (setQueue q v s).prot = s.prot := rfl
@[simp] theorem setQueue_pwr (q : Nat) (v : Queue) : (setQueue q v s).pwr = s.pwr := rfl
@[simp] theorem setQueue_ctl (q : Nat) (v : Queue) : (setQueue q v s).ctl = s.ctl := rfl
@[simp] theorem setQueue_halted (q : Nat) (v : Queue) : (setQueue q v s).halted = s.halted := rfl
@[simp] theorem setQueue_free (q : Nat) (v : Queue) : (setQueue q v s).free = s.free := rfl
@[simp] theorem setQueue_out (q : Nat) (v : Queue) : (setQueue q v s).out = s.out := rfl
@[simp] theorem setQueue_pending (q : Nat) (v : Queue) : (setQueue q v s).pending = s.pending := rfl

@[simp] theorem markDirty_part : (markDirty s).part = s.part := rfl
@[simp] theorem markDirty_time : (markDirty s).time = s.time := rfl
@[simp] theorem markDirty_regs : (markDirty s).regs = s.regs := rfl
@[simp] theorem markDirty_staged : (markDirty s).staged = s.staged := rfl
@[simp] theorem markDirty_ev : (markDirty s).ev = s.ev := rfl
@[simp] theorem markDirty_tly : (markDirty s).tly = s.tly := rfl
@[simp] theorem markDirty_cnt : (markDirty s).cnt = s.cnt := rfl
@[simp] theorem markDirty_lar : (markDirty s).lar = s.lar := rfl
@[simp] theorem markDirty_brd : (markDirty s).brd = s.brd := rfl
@[simp] theorem markDirty_hc : (markDirty s).hc = s.hc := rfl
@[simp] theorem markDirty_dir : (markDirty s).dir = s.dir := rfl
@[simp] theorem markDirty_hf : (markDirty s).hf = s.hf := rfl
@[simp] theorem markDirty_home : (markDirty s).home = s.home := rfl
@[simp] theorem markDirty_sweep : (markDirty s).sweep = s.sweep := rfl
@[simp] theorem markDirty_req : (markDirty s).req = s.req := rfl
@[simp] theorem markDirty_hst : (markDirty s).hst = s.hst := rfl
@[simp] theorem markDirty_slots : (markDirty s).slots = s.slots := rfl
@[simp] theorem markDirty_cel : (markDirty s).cel = s.cel := rfl
@[simp] theorem markDirty_sl : (markDirty s).sl = s.sl := rfl
@[simp] theorem markDirty_mir : (markDirty s).mir = s.mir := rfl
@[simp] theorem markDirty_links : (markDirty s).links = s.links := rfl
@[simp] theorem markDirty_fab : (markDirty s).fab = s.fab := rfl
@[simp] theorem markDirty_routeWait : (markDirty s).routeWait = s.routeWait := rfl
@[simp] theorem markDirty_rx : (markDirty s).rx = s.rx := rfl
@[simp] theorem markDirty_bg : (markDirty s).bg = s.bg := rfl
@[simp] theorem markDirty_prot : (markDirty s).prot = s.prot := rfl
@[simp] theorem markDirty_pwr : (markDirty s).pwr = s.pwr := rfl
@[simp] theorem markDirty_ctl : (markDirty s).ctl = s.ctl := rfl
@[simp] theorem markDirty_halted : (markDirty s).halted = s.halted := rfl
@[simp] theorem markDirty_free : (markDirty s).free = s.free := rfl
@[simp] theorem markDirty_out : (markDirty s).out = s.out := rfl
@[simp] theorem markDirty_pending : (markDirty s).pending = s.pending := rfl

@[simp] theorem fireStat_part (n : Nat) (w1 w2 w3 len : Word) : (fireStat n w1 w2 w3 len s).part = s.part := rfl
@[simp] theorem fireStat_flash (n : Nat) (w1 w2 w3 len : Word) : (fireStat n w1 w2 w3 len s).flash = s.flash := rfl
@[simp] theorem fireStat_time (n : Nat) (w1 w2 w3 len : Word) : (fireStat n w1 w2 w3 len s).time = s.time := rfl
@[simp] theorem fireStat_regs (n : Nat) (w1 w2 w3 len : Word) : (fireStat n w1 w2 w3 len s).regs = s.regs := rfl
@[simp] theorem fireStat_staged (n : Nat) (w1 w2 w3 len : Word) : (fireStat n w1 w2 w3 len s).staged = s.staged := rfl
@[simp] theorem fireStat_tly (n : Nat) (w1 w2 w3 len : Word) : (fireStat n w1 w2 w3 len s).tly = s.tly := rfl
@[simp] theorem fireStat_cnt (n : Nat) (w1 w2 w3 len : Word) : (fireStat n w1 w2 w3 len s).cnt = s.cnt := rfl
@[simp] theorem fireStat_lar (n : Nat) (w1 w2 w3 len : Word) : (fireStat n w1 w2 w3 len s).lar = s.lar := rfl
@[simp] theorem fireStat_brd (n : Nat) (w1 w2 w3 len : Word) : (fireStat n w1 w2 w3 len s).brd = s.brd := rfl
@[simp] theorem fireStat_hc (n : Nat) (w1 w2 w3 len : Word) : (fireStat n w1 w2 w3 len s).hc = s.hc := rfl
@[simp] theorem fireStat_dir (n : Nat) (w1 w2 w3 len : Word) : (fireStat n w1 w2 w3 len s).dir = s.dir := rfl
@[simp] theorem fireStat_hf (n : Nat) (w1 w2 w3 len : Word) : (fireStat n w1 w2 w3 len s).hf = s.hf := rfl
@[simp] theorem fireStat_home (n : Nat) (w1 w2 w3 len : Word) : (fireStat n w1 w2 w3 len s).home = s.home := rfl
@[simp] theorem fireStat_sweep (n : Nat) (w1 w2 w3 len : Word) : (fireStat n w1 w2 w3 len s).sweep = s.sweep := rfl
@[simp] theorem fireStat_req (n : Nat) (w1 w2 w3 len : Word) : (fireStat n w1 w2 w3 len s).req = s.req := rfl
@[simp] theorem fireStat_hst (n : Nat) (w1 w2 w3 len : Word) : (fireStat n w1 w2 w3 len s).hst = s.hst := rfl
@[simp] theorem fireStat_slots (n : Nat) (w1 w2 w3 len : Word) : (fireStat n w1 w2 w3 len s).slots = s.slots := rfl
@[simp] theorem fireStat_ports (n : Nat) (w1 w2 w3 len : Word) : (fireStat n w1 w2 w3 len s).ports = s.ports := rfl
@[simp] theorem fireStat_cel (n : Nat) (w1 w2 w3 len : Word) : (fireStat n w1 w2 w3 len s).cel = s.cel := rfl
@[simp] theorem fireStat_sl (n : Nat) (w1 w2 w3 len : Word) : (fireStat n w1 w2 w3 len s).sl = s.sl := rfl
@[simp] theorem fireStat_mir (n : Nat) (w1 w2 w3 len : Word) : (fireStat n w1 w2 w3 len s).mir = s.mir := rfl
@[simp] theorem fireStat_links (n : Nat) (w1 w2 w3 len : Word) : (fireStat n w1 w2 w3 len s).links = s.links := rfl
@[simp] theorem fireStat_fab (n : Nat) (w1 w2 w3 len : Word) : (fireStat n w1 w2 w3 len s).fab = s.fab := rfl
@[simp] theorem fireStat_routeWait (n : Nat) (w1 w2 w3 len : Word) : (fireStat n w1 w2 w3 len s).routeWait = s.routeWait := rfl
@[simp] theorem fireStat_rx (n : Nat) (w1 w2 w3 len : Word) : (fireStat n w1 w2 w3 len s).rx = s.rx := rfl
@[simp] theorem fireStat_bg (n : Nat) (w1 w2 w3 len : Word) : (fireStat n w1 w2 w3 len s).bg = s.bg := rfl
@[simp] theorem fireStat_prot (n : Nat) (w1 w2 w3 len : Word) : (fireStat n w1 w2 w3 len s).prot = s.prot := rfl
@[simp] theorem fireStat_pwr (n : Nat) (w1 w2 w3 len : Word) : (fireStat n w1 w2 w3 len s).pwr = s.pwr := rfl
@[simp] theorem fireStat_ctl (n : Nat) (w1 w2 w3 len : Word) : (fireStat n w1 w2 w3 len s).ctl = s.ctl := rfl
@[simp] theorem fireStat_halted (n : Nat) (w1 w2 w3 len : Word) : (fireStat n w1 w2 w3 len s).halted = s.halted := rfl
@[simp] theorem fireStat_free (n : Nat) (w1 w2 w3 len : Word) : (fireStat n w1 w2 w3 len s).free = s.free := rfl
@[simp] theorem fireStat_pending (n : Nat) (w1 w2 w3 len : Word) : (fireStat n w1 w2 w3 len s).pending = s.pending := rfl

@[simp] theorem fireNoQ_part (n c : Nat) (o1 o2 : Obj) (q : Nat) : (fireNoQ n c o1 o2 q s).part = s.part := by
  simp only [fireNoQ]; repeat' split
  all_goals simp
@[simp] theorem fireNoQ_flash (n c : Nat) (o1 o2 : Obj) (q : Nat) : (fireNoQ n c o1 o2 q s).flash = s.flash := by
  simp only [fireNoQ]; repeat' split
  all_goals simp
@[simp] theorem fireNoQ_time (n c : Nat) (o1 o2 : Obj) (q : Nat) : (fireNoQ n c o1 o2 q s).time = s.time := by
  simp only [fireNoQ]; repeat' split
  all_goals simp
@[simp] theorem fireNoQ_regs (n c : Nat) (o1 o2 : Obj) (q : Nat) : (fireNoQ n c o1 o2 q s).regs = s.regs := by
  simp only [fireNoQ]; repeat' split
  all_goals simp
@[simp] theorem fireNoQ_staged (n c : Nat) (o1 o2 : Obj) (q : Nat) : (fireNoQ n c o1 o2 q s).staged = s.staged := by
  simp only [fireNoQ]; repeat' split
  all_goals simp
@[simp] theorem fireNoQ_tly (n c : Nat) (o1 o2 : Obj) (q : Nat) : (fireNoQ n c o1 o2 q s).tly = s.tly := by
  simp only [fireNoQ]; repeat' split
  all_goals simp
@[simp] theorem fireNoQ_cnt (n c : Nat) (o1 o2 : Obj) (q : Nat) : (fireNoQ n c o1 o2 q s).cnt = s.cnt := by
  simp only [fireNoQ]; repeat' split
  all_goals simp
@[simp] theorem fireNoQ_lar (n c : Nat) (o1 o2 : Obj) (q : Nat) : (fireNoQ n c o1 o2 q s).lar = s.lar := by
  simp only [fireNoQ]; repeat' split
  all_goals simp
@[simp] theorem fireNoQ_brd (n c : Nat) (o1 o2 : Obj) (q : Nat) : (fireNoQ n c o1 o2 q s).brd = s.brd := by
  simp only [fireNoQ]; repeat' split
  all_goals simp
@[simp] theorem fireNoQ_hc (n c : Nat) (o1 o2 : Obj) (q : Nat) : (fireNoQ n c o1 o2 q s).hc = s.hc := by
  simp only [fireNoQ]; repeat' split
  all_goals simp
@[simp] theorem fireNoQ_dir (n c : Nat) (o1 o2 : Obj) (q : Nat) : (fireNoQ n c o1 o2 q s).dir = s.dir := by
  simp only [fireNoQ]; repeat' split
  all_goals simp
@[simp] theorem fireNoQ_hf (n c : Nat) (o1 o2 : Obj) (q : Nat) : (fireNoQ n c o1 o2 q s).hf = s.hf := by
  simp only [fireNoQ]; repeat' split
  all_goals simp
@[simp] theorem fireNoQ_home (n c : Nat) (o1 o2 : Obj) (q : Nat) : (fireNoQ n c o1 o2 q s).home = s.home := by
  simp only [fireNoQ]; repeat' split
  all_goals simp
@[simp] theorem fireNoQ_sweep (n c : Nat) (o1 o2 : Obj) (q : Nat) : (fireNoQ n c o1 o2 q s).sweep = s.sweep := by
  simp only [fireNoQ]; repeat' split
  all_goals simp
@[simp] theorem fireNoQ_req (n c : Nat) (o1 o2 : Obj) (q : Nat) : (fireNoQ n c o1 o2 q s).req = s.req := by
  simp only [fireNoQ]; repeat' split
  all_goals simp
@[simp] theorem fireNoQ_hst (n c : Nat) (o1 o2 : Obj) (q : Nat) : (fireNoQ n c o1 o2 q s).hst = s.hst := by
  simp only [fireNoQ]; repeat' split
  all_goals simp
@[simp] theorem fireNoQ_slots (n c : Nat) (o1 o2 : Obj) (q : Nat) : (fireNoQ n c o1 o2 q s).slots = s.slots := by
  simp only [fireNoQ]; repeat' split
  all_goals simp
@[simp] theorem fireNoQ_ports (n c : Nat) (o1 o2 : Obj) (q : Nat) : (fireNoQ n c o1 o2 q s).ports = s.ports := by
  simp only [fireNoQ]; repeat' split
  all_goals simp
@[simp] theorem fireNoQ_cel (n c : Nat) (o1 o2 : Obj) (q : Nat) : (fireNoQ n c o1 o2 q s).cel = s.cel := by
  simp only [fireNoQ]; repeat' split
  all_goals simp
@[simp] theorem fireNoQ_sl (n c : Nat) (o1 o2 : Obj) (q : Nat) : (fireNoQ n c o1 o2 q s).sl = s.sl := by
  simp only [fireNoQ]; repeat' split
  all_goals simp
@[simp] theorem fireNoQ_mir (n c : Nat) (o1 o2 : Obj) (q : Nat) : (fireNoQ n c o1 o2 q s).mir = s.mir := by
  simp only [fireNoQ]; repeat' split
  all_goals simp
@[simp] theorem fireNoQ_links (n c : Nat) (o1 o2 : Obj) (q : Nat) : (fireNoQ n c o1 o2 q s).links = s.links := by
  simp only [fireNoQ]; repeat' split
  all_goals simp
@[simp] theorem fireNoQ_fab (n c : Nat) (o1 o2 : Obj) (q : Nat) : (fireNoQ n c o1 o2 q s).fab = s.fab := by
  simp only [fireNoQ]; repeat' split
  all_goals simp
@[simp] theorem fireNoQ_routeWait (n c : Nat) (o1 o2 : Obj) (q : Nat) : (fireNoQ n c o1 o2 q s).routeWait = s.routeWait := by
  simp only [fireNoQ]; repeat' split
  all_goals simp
@[simp] theorem fireNoQ_rx (n c : Nat) (o1 o2 : Obj) (q : Nat) : (fireNoQ n c o1 o2 q s).rx = s.rx := by
  simp only [fireNoQ]; repeat' split
  all_goals simp
@[simp] theorem fireNoQ_bg (n c : Nat) (o1 o2 : Obj) (q : Nat) : (fireNoQ n c o1 o2 q s).bg = s.bg := by
  simp only [fireNoQ]; repeat' split
  all_goals simp
@[simp] theorem fireNoQ_prot (n c : Nat) (o1 o2 : Obj) (q : Nat) : (fireNoQ n c o1 o2 q s).prot = s.prot := by
  simp only [fireNoQ]; repeat' split
  all_goals simp
@[simp] theorem fireNoQ_pwr (n c : Nat) (o1 o2 : Obj) (q : Nat) : (fireNoQ n c o1 o2 q s).pwr = s.pwr := by
  simp only [fireNoQ]; repeat' split
  all_goals simp
@[simp] theorem fireNoQ_ctl (n c : Nat) (o1 o2 : Obj) (q : Nat) : (fireNoQ n c o1 o2 q s).ctl = s.ctl := by
  simp only [fireNoQ]; repeat' split
  all_goals simp
@[simp] theorem fireNoQ_halted (n c : Nat) (o1 o2 : Obj) (q : Nat) : (fireNoQ n c o1 o2 q s).halted = s.halted := by
  simp only [fireNoQ]; repeat' split
  all_goals simp
@[simp] theorem fireNoQ_free (n c : Nat) (o1 o2 : Obj) (q : Nat) : (fireNoQ n c o1 o2 q s).free = s.free := by
  simp only [fireNoQ]; repeat' split
  all_goals simp
@[simp] theorem fireNoQ_pending (n c : Nat) (o1 o2 : Obj) (q : Nat) : (fireNoQ n c o1 o2 q s).pending = s.pending := by
  simp only [fireNoQ]; repeat' split
  all_goals simp

@[simp] theorem enterRaw_part (q : Nat) (r : QRec) : ((enterRaw q r s).1).part = s.part := setQueue_part s _ _
@[simp] theorem enterRaw_flash (q : Nat) (r : QRec) : ((enterRaw q r s).1).flash = s.flash := setQueue_flash s _ _
@[simp] theorem enterRaw_time (q : Nat) (r : QRec) : ((enterRaw q r s).1).time = s.time := setQueue_time s _ _
@[simp] theorem enterRaw_regs (q : Nat) (r : QRec) : ((enterRaw q r s).1).regs = s.regs := setQueue_regs s _ _
@[simp] theorem enterRaw_staged (q : Nat) (r : QRec) : ((enterRaw q r s).1).staged = s.staged := setQueue_staged s _ _
@[simp] theorem enterRaw_tly (q : Nat) (r : QRec) : ((enterRaw q r s).1).tly = s.tly := setQueue_tly s _ _
@[simp] theorem enterRaw_cnt (q : Nat) (r : QRec) : ((enterRaw q r s).1).cnt = s.cnt := setQueue_cnt s _ _
@[simp] theorem enterRaw_lar (q : Nat) (r : QRec) : ((enterRaw q r s).1).lar = s.lar := setQueue_lar s _ _
@[simp] theorem enterRaw_brd (q : Nat) (r : QRec) : ((enterRaw q r s).1).brd = s.brd := setQueue_brd s _ _
@[simp] theorem enterRaw_hc (q : Nat) (r : QRec) : ((enterRaw q r s).1).hc = s.hc := setQueue_hc s _ _
@[simp] theorem enterRaw_dir (q : Nat) (r : QRec) : ((enterRaw q r s).1).dir = s.dir := setQueue_dir s _ _
@[simp] theorem enterRaw_hf (q : Nat) (r : QRec) : ((enterRaw q r s).1).hf = s.hf := setQueue_hf s _ _
@[simp] theorem enterRaw_home (q : Nat) (r : QRec) : ((enterRaw q r s).1).home = s.home := setQueue_home s _ _
@[simp] theorem enterRaw_sweep (q : Nat) (r : QRec) : ((enterRaw q r s).1).sweep = s.sweep := setQueue_sweep s _ _
@[simp] theorem enterRaw_req (q : Nat) (r : QRec) : ((enterRaw q r s).1).req = s.req := setQueue_req s _ _
@[simp] theorem enterRaw_hst (q : Nat) (r : QRec) : ((enterRaw q r s).1).hst = s.hst := setQueue_hst s _ _
@[simp] theorem enterRaw_slots (q : Nat) (r : QRec) : ((enterRaw q r s).1).slots = s.slots := setQueue_slots s _ _
@[simp] theorem enterRaw_ports (q : Nat) (r : QRec) : ((enterRaw q r s).1).ports = s.ports := setQueue_ports s _ _
@[simp] theorem enterRaw_cel (q : Nat) (r : QRec) : ((enterRaw q r s).1).cel = s.cel := setQueue_cel s _ _
@[simp] theorem enterRaw_sl (q : Nat) (r : QRec) : ((enterRaw q r s).1).sl = s.sl := setQueue_sl s _ _
@[simp] theorem enterRaw_mir (q : Nat) (r : QRec) : ((enterRaw q r s).1).mir = s.mir := setQueue_mir s _ _
@[simp] theorem enterRaw_links (q : Nat) (r : QRec) : ((enterRaw q r s).1).links = s.links := setQueue_links s _ _
@[simp] theorem enterRaw_fab (q : Nat) (r : QRec) : ((enterRaw q r s).1).fab = s.fab := setQueue_fab s _ _
@[simp] theorem enterRaw_routeWait (q : Nat) (r : QRec) : ((enterRaw q r s).1).routeWait = s.routeWait := setQueue_routeWait s _ _
@[simp] theorem enterRaw_rx (q : Nat) (r : QRec) : ((enterRaw q r s).1).rx = s.rx := setQueue_rx s _ _
@[simp] theorem enterRaw_bg (q : Nat) (r : QRec) : ((enterRaw q r s).1).bg = s.bg := setQueue_bg s _ _
@[simp] theorem enterRaw_prot (q : Nat) (r : QRec) : ((enterRaw q r s).1).prot = s.prot := setQueue_prot s _ _
@[simp] theorem enterRaw_pwr (q : Nat) (r : QRec) : ((enterRaw q r s).1).pwr = s.pwr := setQueue_pwr s _ _
@[simp] theorem enterRaw_ctl (q : Nat) (r : QRec) : ((enterRaw q r s).1).ctl = s.ctl := setQueue_ctl s _ _
@[simp] theorem enterRaw_halted (q : Nat) (r : QRec) : ((enterRaw q r s).1).halted = s.halted := setQueue_halted s _ _
@[simp] theorem enterRaw_free (q : Nat) (r : QRec) : ((enterRaw q r s).1).free = s.free := setQueue_free s _ _
@[simp] theorem enterRaw_out (q : Nat) (r : QRec) : ((enterRaw q r s).1).out = s.out := setQueue_out s _ _
@[simp] theorem enterRaw_pending (q : Nat) (r : QRec) : ((enterRaw q r s).1).pending = s.pending := setQueue_pending s _ _

@[simp] theorem fireGap_part (q : Nat) : (fireGap q s).part = s.part := by
  simp only [fireGap]; repeat' split
  all_goals simp
@[simp] theorem fireGap_flash (q : Nat) : (fireGap q s).flash = s.flash := by
  simp only [fireGap]; repeat' split
  all_goals simp
@[simp] theorem fireGap_time (q : Nat) : (fireGap q s).time = s.time := by
  simp only [fireGap]; repeat' split
  all_goals simp
@[simp] theorem fireGap_regs (q : Nat) : (fireGap q s).regs = s.regs := by
  simp only [fireGap]; repeat' split
  all_goals simp
@[simp] theorem fireGap_staged (q : Nat) : (fireGap q s).staged = s.staged := by
  simp only [fireGap]; repeat' split
  all_goals simp
@[simp] theorem fireGap_tly (q : Nat) : (fireGap q s).tly = s.tly := by
  simp only [fireGap]; repeat' split
  all_goals simp
@[simp] theorem fireGap_cnt (q : Nat) : (fireGap q s).cnt = s.cnt := by
  simp only [fireGap]; repeat' split
  all_goals simp
@[simp] theorem fireGap_lar (q : Nat) : (fireGap q s).lar = s.lar := by
  simp only [fireGap]; repeat' split
  all_goals simp
@[simp] theorem fireGap_brd (q : Nat) : (fireGap q s).brd = s.brd := by
  simp only [fireGap]; repeat' split
  all_goals simp
@[simp] theorem fireGap_hc (q : Nat) : (fireGap q s).hc = s.hc := by
  simp only [fireGap]; repeat' split
  all_goals simp
@[simp] theorem fireGap_dir (q : Nat) : (fireGap q s).dir = s.dir := by
  simp only [fireGap]; repeat' split
  all_goals simp
@[simp] theorem fireGap_hf (q : Nat) : (fireGap q s).hf = s.hf := by
  simp only [fireGap]; repeat' split
  all_goals simp
@[simp] theorem fireGap_home (q : Nat) : (fireGap q s).home = s.home := by
  simp only [fireGap]; repeat' split
  all_goals simp
@[simp] theorem fireGap_sweep (q : Nat) : (fireGap q s).sweep = s.sweep := by
  simp only [fireGap]; repeat' split
  all_goals simp
@[simp] theorem fireGap_req (q : Nat) : (fireGap q s).req = s.req := by
  simp only [fireGap]; repeat' split
  all_goals simp
@[simp] theorem fireGap_hst (q : Nat) : (fireGap q s).hst = s.hst := by
  simp only [fireGap]; repeat' split
  all_goals simp
@[simp] theorem fireGap_slots (q : Nat) : (fireGap q s).slots = s.slots := by
  simp only [fireGap]; repeat' split
  all_goals simp
@[simp] theorem fireGap_ports (q : Nat) : (fireGap q s).ports = s.ports := by
  simp only [fireGap]; repeat' split
  all_goals simp
@[simp] theorem fireGap_cel (q : Nat) : (fireGap q s).cel = s.cel := by
  simp only [fireGap]; repeat' split
  all_goals simp
@[simp] theorem fireGap_sl (q : Nat) : (fireGap q s).sl = s.sl := by
  simp only [fireGap]; repeat' split
  all_goals simp
@[simp] theorem fireGap_mir (q : Nat) : (fireGap q s).mir = s.mir := by
  simp only [fireGap]; repeat' split
  all_goals simp
@[simp] theorem fireGap_links (q : Nat) : (fireGap q s).links = s.links := by
  simp only [fireGap]; repeat' split
  all_goals simp
@[simp] theorem fireGap_fab (q : Nat) : (fireGap q s).fab = s.fab := by
  simp only [fireGap]; repeat' split
  all_goals simp
@[simp] theorem fireGap_routeWait (q : Nat) : (fireGap q s).routeWait = s.routeWait := by
  simp only [fireGap]; repeat' split
  all_goals simp
@[simp] theorem fireGap_rx (q : Nat) : (fireGap q s).rx = s.rx := by
  simp only [fireGap]; repeat' split
  all_goals simp
@[simp] theorem fireGap_bg (q : Nat) : (fireGap q s).bg = s.bg := by
  simp only [fireGap]; repeat' split
  all_goals simp
@[simp] theorem fireGap_prot (q : Nat) : (fireGap q s).prot = s.prot := by
  simp only [fireGap]; repeat' split
  all_goals simp
@[simp] theorem fireGap_pwr (q : Nat) : (fireGap q s).pwr = s.pwr := by
  simp only [fireGap]; repeat' split
  all_goals simp
@[simp] theorem fireGap_ctl (q : Nat) : (fireGap q s).ctl = s.ctl := by
  simp only [fireGap]; repeat' split
  all_goals simp
@[simp] theorem fireGap_halted (q : Nat) : (fireGap q s).halted = s.halted := by
  simp only [fireGap]; repeat' split
  all_goals simp
@[simp] theorem fireGap_free (q : Nat) : (fireGap q s).free = s.free := by
  simp only [fireGap]; repeat' split
  all_goals simp
@[simp] theorem fireGap_pending (q : Nat) : (fireGap q s).pending = s.pending := by
  simp only [fireGap]; repeat' split
  all_goals simp

@[simp] theorem enter_part (q : Nat) (r : QRec) : (enter q r s).part = s.part := by
  simp only [enter]; repeat' split
  all_goals simp
@[simp] theorem enter_flash (q : Nat) (r : QRec) : (enter q r s).flash = s.flash := by
  simp only [enter]; repeat' split
  all_goals simp
@[simp] theorem enter_time (q : Nat) (r : QRec) : (enter q r s).time = s.time := by
  simp only [enter]; repeat' split
  all_goals simp
@[simp] theorem enter_regs (q : Nat) (r : QRec) : (enter q r s).regs = s.regs := by
  simp only [enter]; repeat' split
  all_goals simp
@[simp] theorem enter_staged (q : Nat) (r : QRec) : (enter q r s).staged = s.staged := by
  simp only [enter]; repeat' split
  all_goals simp
@[simp] theorem enter_tly (q : Nat) (r : QRec) : (enter q r s).tly = s.tly := by
  simp only [enter]; repeat' split
  all_goals simp
@[simp] theorem enter_cnt (q : Nat) (r : QRec) : (enter q r s).cnt = s.cnt := by
  simp only [enter]; repeat' split
  all_goals simp
@[simp] theorem enter_lar (q : Nat) (r : QRec) : (enter q r s).lar = s.lar := by
  simp only [enter]; repeat' split
  all_goals simp
@[simp] theorem enter_brd (q : Nat) (r : QRec) : (enter q r s).brd = s.brd := by
  simp only [enter]; repeat' split
  all_goals simp
@[simp] theorem enter_hc (q : Nat) (r : QRec) : (enter q r s).hc = s.hc := by
  simp only [enter]; repeat' split
  all_goals simp
@[simp] theorem enter_dir (q : Nat) (r : QRec) : (enter q r s).dir = s.dir := by
  simp only [enter]; repeat' split
  all_goals simp
@[simp] theorem enter_hf (q : Nat) (r : QRec) : (enter q r s).hf = s.hf := by
  simp only [enter]; repeat' split
  all_goals simp
@[simp] theorem enter_home (q : Nat) (r : QRec) : (enter q r s).home = s.home := by
  simp only [enter]; repeat' split
  all_goals simp
@[simp] theorem enter_sweep (q : Nat) (r : QRec) : (enter q r s).sweep = s.sweep := by
  simp only [enter]; repeat' split
  all_goals simp
@[simp] theorem enter_req (q : Nat) (r : QRec) : (enter q r s).req = s.req := by
  simp only [enter]; repeat' split
  all_goals simp
@[simp] theorem enter_hst (q : Nat) (r : QRec) : (enter q r s).hst = s.hst := by
  simp only [enter]; repeat' split
  all_goals simp
@[simp] theorem enter_slots (q : Nat) (r : QRec) : (enter q r s).slots = s.slots := by
  simp only [enter]; repeat' split
  all_goals simp
@[simp] theorem enter_ports (q : Nat) (r : QRec) : (enter q r s).ports = s.ports := by
  simp only [enter]; repeat' split
  all_goals simp
@[simp] theorem enter_cel (q : Nat) (r : QRec) : (enter q r s).cel = s.cel := by
  simp only [enter]; repeat' split
  all_goals simp
@[simp] theorem enter_sl (q : Nat) (r : QRec) : (enter q r s).sl = s.sl := by
  simp only [enter]; repeat' split
  all_goals simp
@[simp] theorem enter_mir (q : Nat) (r : QRec) : (enter q r s).mir = s.mir := by
  simp only [enter]; repeat' split
  all_goals simp
@[simp] theorem enter_links (q : Nat) (r : QRec) : (enter q r s).links = s.links := by
  simp only [enter]; repeat' split
  all_goals simp
@[simp] theorem enter_fab (q : Nat) (r : QRec) : (enter q r s).fab = s.fab := by
  simp only [enter]; repeat' split
  all_goals simp
@[simp] theorem enter_routeWait (q : Nat) (r : QRec) : (enter q r s).routeWait = s.routeWait := by
  simp only [enter]; repeat' split
  all_goals simp
@[simp] theorem enter_rx (q : Nat) (r : QRec) : (enter q r s).rx = s.rx := by
  simp only [enter]; repeat' split
  all_goals simp
@[simp] theorem enter_bg (q : Nat) (r : QRec) : (enter q r s).bg = s.bg := by
  simp only [enter]; repeat' split
  all_goals simp
@[simp] theorem enter_prot (q : Nat) (r : QRec) : (enter q r s).prot = s.prot := by
  simp only [enter]; repeat' split
  all_goals simp
@[simp] theorem enter_pwr (q : Nat) (r : QRec) : (enter q r s).pwr = s.pwr := by
  simp only [enter]; repeat' split
  all_goals simp
@[simp] theorem enter_ctl (q : Nat) (r : QRec) : (enter q r s).ctl = s.ctl := by
  simp only [enter]; repeat' split
  all_goals simp
@[simp] theorem enter_halted (q : Nat) (r : QRec) : (enter q r s).halted = s.halted := by
  simp only [enter]; repeat' split
  all_goals simp
@[simp] theorem enter_free (q : Nat) (r : QRec) : (enter q r s).free = s.free := by
  simp only [enter]; repeat' split
  all_goals simp
@[simp] theorem enter_pending (q : Nat) (r : QRec) : (enter q r s).pending = s.pending := by
  simp only [enter]; repeat' split
  all_goals simp

@[simp] theorem fireSeq_part (n c : Nat) (o1 o2 : Obj) (q : Nat) : (fireSeq n c o1 o2 q s).part = s.part := by
  simp only [fireSeq]; repeat' split
  all_goals simp
@[simp] theorem fireSeq_flash (n c : Nat) (o1 o2 : Obj) (q : Nat) : (fireSeq n c o1 o2 q s).flash = s.flash := by
  simp only [fireSeq]; repeat' split
  all_goals simp
@[simp] theorem fireSeq_time (n c : Nat) (o1 o2 : Obj) (q : Nat) : (fireSeq n c o1 o2 q s).time = s.time := by
  simp only [fireSeq]; repeat' split
  all_goals simp
@[simp] theorem fireSeq_regs (n c : Nat) (o1 o2 : Obj) (q : Nat) : (fireSeq n c o1 o2 q s).regs = s.regs := by
  simp only [fireSeq]; repeat' split
  all_goals simp
@[simp] theorem fireSeq_staged (n c : Nat) (o1 o2 : Obj) (q : Nat) : (fireSeq n c o1 o2 q s).staged = s.staged := by
  simp only [fireSeq]; repeat' split
  all_goals simp
@[simp] theorem fireSeq_tly (n c : Nat) (o1 o2 : Obj) (q : Nat) : (fireSeq n c o1 o2 q s).tly = s.tly := by
  simp only [fireSeq]; repeat' split
  all_goals simp
@[simp] theorem fireSeq_cnt (n c : Nat) (o1 o2 : Obj) (q : Nat) : (fireSeq n c o1 o2 q s).cnt = s.cnt := by
  simp only [fireSeq]; repeat' split
  all_goals simp
@[simp] theorem fireSeq_lar (n c : Nat) (o1 o2 : Obj) (q : Nat) : (fireSeq n c o1 o2 q s).lar = s.lar := by
  simp only [fireSeq]; repeat' split
  all_goals simp
@[simp] theorem fireSeq_brd (n c : Nat) (o1 o2 : Obj) (q : Nat) : (fireSeq n c o1 o2 q s).brd = s.brd := by
  simp only [fireSeq]; repeat' split
  all_goals simp
@[simp] theorem fireSeq_hc (n c : Nat) (o1 o2 : Obj) (q : Nat) : (fireSeq n c o1 o2 q s).hc = s.hc := by
  simp only [fireSeq]; repeat' split
  all_goals simp
@[simp] theorem fireSeq_dir (n c : Nat) (o1 o2 : Obj) (q : Nat) : (fireSeq n c o1 o2 q s).dir = s.dir := by
  simp only [fireSeq]; repeat' split
  all_goals simp
@[simp] theorem fireSeq_hf (n c : Nat) (o1 o2 : Obj) (q : Nat) : (fireSeq n c o1 o2 q s).hf = s.hf := by
  simp only [fireSeq]; repeat' split
  all_goals simp
@[simp] theorem fireSeq_home (n c : Nat) (o1 o2 : Obj) (q : Nat) : (fireSeq n c o1 o2 q s).home = s.home := by
  simp only [fireSeq]; repeat' split
  all_goals simp
@[simp] theorem fireSeq_sweep (n c : Nat) (o1 o2 : Obj) (q : Nat) : (fireSeq n c o1 o2 q s).sweep = s.sweep := by
  simp only [fireSeq]; repeat' split
  all_goals simp
@[simp] theorem fireSeq_req (n c : Nat) (o1 o2 : Obj) (q : Nat) : (fireSeq n c o1 o2 q s).req = s.req := by
  simp only [fireSeq]; repeat' split
  all_goals simp
@[simp] theorem fireSeq_hst (n c : Nat) (o1 o2 : Obj) (q : Nat) : (fireSeq n c o1 o2 q s).hst = s.hst := by
  simp only [fireSeq]; repeat' split
  all_goals simp
@[simp] theorem fireSeq_slots (n c : Nat) (o1 o2 : Obj) (q : Nat) : (fireSeq n c o1 o2 q s).slots = s.slots := by
  simp only [fireSeq]; repeat' split
  all_goals simp
@[simp] theorem fireSeq_ports (n c : Nat) (o1 o2 : Obj) (q : Nat) : (fireSeq n c o1 o2 q s).ports = s.ports := by
  simp only [fireSeq]; repeat' split
  all_goals simp
@[simp] theorem fireSeq_cel (n c : Nat) (o1 o2 : Obj) (q : Nat) : (fireSeq n c o1 o2 q s).cel = s.cel := by
  simp only [fireSeq]; repeat' split
  all_goals simp
@[simp] theorem fireSeq_sl (n c : Nat) (o1 o2 : Obj) (q : Nat) : (fireSeq n c o1 o2 q s).sl = s.sl := by
  simp only [fireSeq]; repeat' split
  all_goals simp
@[simp] theorem fireSeq_mir (n c : Nat) (o1 o2 : Obj) (q : Nat) : (fireSeq n c o1 o2 q s).mir = s.mir := by
  simp only [fireSeq]; repeat' split
  all_goals simp
@[simp] theorem fireSeq_links (n c : Nat) (o1 o2 : Obj) (q : Nat) : (fireSeq n c o1 o2 q s).links = s.links := by
  simp only [fireSeq]; repeat' split
  all_goals simp
@[simp] theorem fireSeq_fab (n c : Nat) (o1 o2 : Obj) (q : Nat) : (fireSeq n c o1 o2 q s).fab = s.fab := by
  simp only [fireSeq]; repeat' split
  all_goals simp
@[simp] theorem fireSeq_routeWait (n c : Nat) (o1 o2 : Obj) (q : Nat) : (fireSeq n c o1 o2 q s).routeWait = s.routeWait := by
  simp only [fireSeq]; repeat' split
  all_goals simp
@[simp] theorem fireSeq_rx (n c : Nat) (o1 o2 : Obj) (q : Nat) : (fireSeq n c o1 o2 q s).rx = s.rx := by
  simp only [fireSeq]; repeat' split
  all_goals simp
@[simp] theorem fireSeq_bg (n c : Nat) (o1 o2 : Obj) (q : Nat) : (fireSeq n c o1 o2 q s).bg = s.bg := by
  simp only [fireSeq]; repeat' split
  all_goals simp
@[simp] theorem fireSeq_prot (n c : Nat) (o1 o2 : Obj) (q : Nat) : (fireSeq n c o1 o2 q s).prot = s.prot := by
  simp only [fireSeq]; repeat' split
  all_goals simp
@[simp] theorem fireSeq_pwr (n c : Nat) (o1 o2 : Obj) (q : Nat) : (fireSeq n c o1 o2 q s).pwr = s.pwr := by
  simp only [fireSeq]; repeat' split
  all_goals simp
@[simp] theorem fireSeq_ctl (n c : Nat) (o1 o2 : Obj) (q : Nat) : (fireSeq n c o1 o2 q s).ctl = s.ctl := by
  simp only [fireSeq]; repeat' split
  all_goals simp
@[simp] theorem fireSeq_halted (n c : Nat) (o1 o2 : Obj) (q : Nat) : (fireSeq n c o1 o2 q s).halted = s.halted := by
  simp only [fireSeq]; repeat' split
  all_goals simp
@[simp] theorem fireSeq_free (n c : Nat) (o1 o2 : Obj) (q : Nat) : (fireSeq n c o1 o2 q s).free = s.free := by
  simp only [fireSeq]; repeat' split
  all_goals simp
@[simp] theorem fireSeq_pending (n c : Nat) (o1 o2 : Obj) (q : Nat) : (fireSeq n c o1 o2 q s).pending = s.pending := by
  simp only [fireSeq]; repeat' split
  all_goals simp

@[simp] theorem fire_part (n c : Nat) (o1 : Obj) : (fire n c o1 s).part = s.part := fireSeq_part ..
@[simp] theorem fire_flash (n c : Nat) (o1 : Obj) : (fire n c o1 s).flash = s.flash := fireSeq_flash ..
@[simp] theorem fire_time (n c : Nat) (o1 : Obj) : (fire n c o1 s).time = s.time := fireSeq_time ..
@[simp] theorem fire_regs (n c : Nat) (o1 : Obj) : (fire n c o1 s).regs = s.regs := fireSeq_regs ..
@[simp] theorem fire_staged (n c : Nat) (o1 : Obj) : (fire n c o1 s).staged = s.staged := fireSeq_staged ..
@[simp] theorem fire_tly (n c : Nat) (o1 : Obj) : (fire n c o1 s).tly = s.tly := fireSeq_tly ..
@[simp] theorem fire_cnt (n c : Nat) (o1 : Obj) : (fire n c o1 s).cnt = s.cnt := fireSeq_cnt ..
@[simp] theorem fire_lar (n c : Nat) (o1 : Obj) : (fire n c o1 s).lar = s.lar := fireSeq_lar ..
@[simp] theorem fire_brd (n c : Nat) (o1 : Obj) : (fire n c o1 s).brd = s.brd := fireSeq_brd ..
@[simp] theorem fire_hc (n c : Nat) (o1 : Obj) : (fire n c o1 s).hc = s.hc := fireSeq_hc ..
@[simp] theorem fire_dir (n c : Nat) (o1 : Obj) : (fire n c o1 s).dir = s.dir := fireSeq_dir ..
@[simp] theorem fire_hf (n c : Nat) (o1 : Obj) : (fire n c o1 s).hf = s.hf := fireSeq_hf ..
@[simp] theorem fire_home (n c : Nat) (o1 : Obj) : (fire n c o1 s).home = s.home := fireSeq_home ..
@[simp] theorem fire_sweep (n c : Nat) (o1 : Obj) : (fire n c o1 s).sweep = s.sweep := fireSeq_sweep ..
@[simp] theorem fire_req (n c : Nat) (o1 : Obj) : (fire n c o1 s).req = s.req := fireSeq_req ..
@[simp] theorem fire_hst (n c : Nat) (o1 : Obj) : (fire n c o1 s).hst = s.hst := fireSeq_hst ..
@[simp] theorem fire_slots (n c : Nat) (o1 : Obj) : (fire n c o1 s).slots = s.slots := fireSeq_slots ..
@[simp] theorem fire_ports (n c : Nat) (o1 : Obj) : (fire n c o1 s).ports = s.ports := fireSeq_ports ..
@[simp] theorem fire_cel (n c : Nat) (o1 : Obj) : (fire n c o1 s).cel = s.cel := fireSeq_cel ..
@[simp] theorem fire_sl (n c : Nat) (o1 : Obj) : (fire n c o1 s).sl = s.sl := fireSeq_sl ..
@[simp] theorem fire_mir (n c : Nat) (o1 : Obj) : (fire n c o1 s).mir = s.mir := fireSeq_mir ..
@[simp] theorem fire_links (n c : Nat) (o1 : Obj) : (fire n c o1 s).links = s.links := fireSeq_links ..
@[simp] theorem fire_fab (n c : Nat) (o1 : Obj) : (fire n c o1 s).fab = s.fab := fireSeq_fab ..
@[simp] theorem fire_routeWait (n c : Nat) (o1 : Obj) : (fire n c o1 s).routeWait = s.routeWait := fireSeq_routeWait ..
@[simp] theorem fire_rx (n c : Nat) (o1 : Obj) : (fire n c o1 s).rx = s.rx := fireSeq_rx ..
@[simp] theorem fire_bg (n c : Nat) (o1 : Obj) : (fire n c o1 s).bg = s.bg := fireSeq_bg ..
@[simp] theorem fire_prot (n c : Nat) (o1 : Obj) : (fire n c o1 s).prot = s.prot := fireSeq_prot ..
@[simp] theorem fire_pwr (n c : Nat) (o1 : Obj) : (fire n c o1 s).pwr = s.pwr := fireSeq_pwr ..
@[simp] theorem fire_ctl (n c : Nat) (o1 : Obj) : (fire n c o1 s).ctl = s.ctl := fireSeq_ctl ..
@[simp] theorem fire_halted (n c : Nat) (o1 : Obj) : (fire n c o1 s).halted = s.halted := fireSeq_halted ..
@[simp] theorem fire_free (n c : Nat) (o1 : Obj) : (fire n c o1 s).free = s.free := fireSeq_free ..
@[simp] theorem fire_pending (n c : Nat) (o1 : Obj) : (fire n c o1 s).pending = s.pending := fireSeq_pending ..

@[simp] theorem post_part (q ty info : Nat) (ws : List Word) : (post q ty info ws s).part = s.part := enter_part ..
@[simp] theorem post_flash (q ty info : Nat) (ws : List Word) : (post q ty info ws s).flash = s.flash := enter_flash ..
@[simp] theorem post_time (q ty info : Nat) (ws : List Word) : (post q ty info ws s).time = s.time := enter_time ..
@[simp] theorem post_regs (q ty info : Nat) (ws : List Word) : (post q ty info ws s).regs = s.regs := enter_regs ..
@[simp] theorem post_staged (q ty info : Nat) (ws : List Word) : (post q ty info ws s).staged = s.staged := enter_staged ..
@[simp] theorem post_tly (q ty info : Nat) (ws : List Word) : (post q ty info ws s).tly = s.tly := enter_tly ..
@[simp] theorem post_cnt (q ty info : Nat) (ws : List Word) : (post q ty info ws s).cnt = s.cnt := enter_cnt ..
@[simp] theorem post_lar (q ty info : Nat) (ws : List Word) : (post q ty info ws s).lar = s.lar := enter_lar ..
@[simp] theorem post_brd (q ty info : Nat) (ws : List Word) : (post q ty info ws s).brd = s.brd := enter_brd ..
@[simp] theorem post_hc (q ty info : Nat) (ws : List Word) : (post q ty info ws s).hc = s.hc := enter_hc ..
@[simp] theorem post_dir (q ty info : Nat) (ws : List Word) : (post q ty info ws s).dir = s.dir := enter_dir ..
@[simp] theorem post_hf (q ty info : Nat) (ws : List Word) : (post q ty info ws s).hf = s.hf := enter_hf ..
@[simp] theorem post_home (q ty info : Nat) (ws : List Word) : (post q ty info ws s).home = s.home := enter_home ..
@[simp] theorem post_sweep (q ty info : Nat) (ws : List Word) : (post q ty info ws s).sweep = s.sweep := enter_sweep ..
@[simp] theorem post_req (q ty info : Nat) (ws : List Word) : (post q ty info ws s).req = s.req := enter_req ..
@[simp] theorem post_hst (q ty info : Nat) (ws : List Word) : (post q ty info ws s).hst = s.hst := enter_hst ..
@[simp] theorem post_slots (q ty info : Nat) (ws : List Word) : (post q ty info ws s).slots = s.slots := enter_slots ..
@[simp] theorem post_ports (q ty info : Nat) (ws : List Word) : (post q ty info ws s).ports = s.ports := enter_ports ..
@[simp] theorem post_cel (q ty info : Nat) (ws : List Word) : (post q ty info ws s).cel = s.cel := enter_cel ..
@[simp] theorem post_sl (q ty info : Nat) (ws : List Word) : (post q ty info ws s).sl = s.sl := enter_sl ..
@[simp] theorem post_mir (q ty info : Nat) (ws : List Word) : (post q ty info ws s).mir = s.mir := enter_mir ..
@[simp] theorem post_links (q ty info : Nat) (ws : List Word) : (post q ty info ws s).links = s.links := enter_links ..
@[simp] theorem post_fab (q ty info : Nat) (ws : List Word) : (post q ty info ws s).fab = s.fab := enter_fab ..
@[simp] theorem post_routeWait (q ty info : Nat) (ws : List Word) : (post q ty info ws s).routeWait = s.routeWait := enter_routeWait ..
@[simp] theorem post_rx (q ty info : Nat) (ws : List Word) : (post q ty info ws s).rx = s.rx := enter_rx ..
@[simp] theorem post_bg (q ty info : Nat) (ws : List Word) : (post q ty info ws s).bg = s.bg := enter_bg ..
@[simp] theorem post_prot (q ty info : Nat) (ws : List Word) : (post q ty info ws s).prot = s.prot := enter_prot ..
@[simp] theorem post_pwr (q ty info : Nat) (ws : List Word) : (post q ty info ws s).pwr = s.pwr := enter_pwr ..
@[simp] theorem post_ctl (q ty info : Nat) (ws : List Word) : (post q ty info ws s).ctl = s.ctl := enter_ctl ..
@[simp] theorem post_halted (q ty info : Nat) (ws : List Word) : (post q ty info ws s).halted = s.halted := enter_halted ..
@[simp] theorem post_free (q ty info : Nat) (ws : List Word) : (post q ty info ws s).free = s.free := enter_free ..
@[simp] theorem post_pending (q ty info : Nat) (ws : List Word) : (post q ty info ws s).pending = s.pending := enter_pending ..

@[simp] theorem count_part (a n : Nat) : (count a n s).part = s.part := by
  simp only [count]; repeat' split
  all_goals simp
@[simp] theorem count_flash (a n : Nat) : (count a n s).flash = s.flash := by
  simp only [count]; repeat' split
  all_goals simp
@[simp] theorem count_time (a n : Nat) : (count a n s).time = s.time := by
  simp only [count]; repeat' split
  all_goals simp
@[simp] theorem count_regs (a n : Nat) : (count a n s).regs = s.regs := by
  simp only [count]; repeat' split
  all_goals simp
@[simp] theorem count_staged (a n : Nat) : (count a n s).staged = s.staged := by
  simp only [count]; repeat' split
  all_goals simp
@[simp] theorem count_tly (a n : Nat) : (count a n s).tly = s.tly := by
  simp only [count]; repeat' split
  all_goals simp
@[simp] theorem count_lar (a n : Nat) : (count a n s).lar = s.lar := by
  simp only [count]; repeat' split
  all_goals simp
@[simp] theorem count_brd (a n : Nat) : (count a n s).brd = s.brd := by
  simp only [count]; repeat' split
  all_goals simp
@[simp] theorem count_hc (a n : Nat) : (count a n s).hc = s.hc := by
  simp only [count]; repeat' split
  all_goals simp
@[simp] theorem count_dir (a n : Nat) : (count a n s).dir = s.dir := by
  simp only [count]; repeat' split
  all_goals simp
@[simp] theorem count_hf (a n : Nat) : (count a n s).hf = s.hf := by
  simp only [count]; repeat' split
  all_goals simp
@[simp] theorem count_home (a n : Nat) : (count a n s).home = s.home := by
  simp only [count]; repeat' split
  all_goals simp
@[simp] theorem count_sweep (a n : Nat) : (count a n s).sweep = s.sweep := by
  simp only [count]; repeat' split
  all_goals simp
@[simp] theorem count_req (a n : Nat) : (count a n s).req = s.req := by
  simp only [count]; repeat' split
  all_goals simp
@[simp] theorem count_hst (a n : Nat) : (count a n s).hst = s.hst := by
  simp only [count]; repeat' split
  all_goals simp
@[simp] theorem count_slots (a n : Nat) : (count a n s).slots = s.slots := by
  simp only [count]; repeat' split
  all_goals simp
@[simp] theorem count_ports (a n : Nat) : (count a n s).ports = s.ports := by
  simp only [count]; repeat' split
  all_goals simp
@[simp] theorem count_cel (a n : Nat) : (count a n s).cel = s.cel := by
  simp only [count]; repeat' split
  all_goals simp
@[simp] theorem count_sl (a n : Nat) : (count a n s).sl = s.sl := by
  simp only [count]; repeat' split
  all_goals simp
@[simp] theorem count_mir (a n : Nat) : (count a n s).mir = s.mir := by
  simp only [count]; repeat' split
  all_goals simp
@[simp] theorem count_links (a n : Nat) : (count a n s).links = s.links := by
  simp only [count]; repeat' split
  all_goals simp
@[simp] theorem count_fab (a n : Nat) : (count a n s).fab = s.fab := by
  simp only [count]; repeat' split
  all_goals simp
@[simp] theorem count_routeWait (a n : Nat) : (count a n s).routeWait = s.routeWait := by
  simp only [count]; repeat' split
  all_goals simp
@[simp] theorem count_rx (a n : Nat) : (count a n s).rx = s.rx := by
  simp only [count]; repeat' split
  all_goals simp
@[simp] theorem count_bg (a n : Nat) : (count a n s).bg = s.bg := by
  simp only [count]; repeat' split
  all_goals simp
@[simp] theorem count_prot (a n : Nat) : (count a n s).prot = s.prot := by
  simp only [count]; repeat' split
  all_goals simp
@[simp] theorem count_pwr (a n : Nat) : (count a n s).pwr = s.pwr := by
  simp only [count]; repeat' split
  all_goals simp
@[simp] theorem count_ctl (a n : Nat) : (count a n s).ctl = s.ctl := by
  simp only [count]; repeat' split
  all_goals simp
@[simp] theorem count_halted (a n : Nat) : (count a n s).halted = s.halted := by
  simp only [count]; repeat' split
  all_goals simp
@[simp] theorem count_free (a n : Nat) : (count a n s).free = s.free := by
  simp only [count]; repeat' split
  all_goals simp
@[simp] theorem count_pending (a n : Nat) : (count a n s).pending = s.pending := by
  simp only [count]; repeat' split
  all_goals simp

@[simp] theorem tlyLose_part : (tlyLose s).part = s.part := by
  simp only [tlyLose]; split
  · rfl
  · exact fireSeq_part ..
@[simp] theorem tlyLose_flash : (tlyLose s).flash = s.flash := by
  simp only [tlyLose]; split
  · rfl
  · exact fireSeq_flash ..
@[simp] theorem tlyLose_time : (tlyLose s).time = s.time := by
  simp only [tlyLose]; split
  · rfl
  · exact fireSeq_time ..
@[simp] theorem tlyLose_regs : (tlyLose s).regs = s.regs := by
  simp only [tlyLose]; split
  · rfl
  · exact fireSeq_regs ..
@[simp] theorem tlyLose_staged : (tlyLose s).staged = s.staged := by
  simp only [tlyLose]; split
  · rfl
  · exact fireSeq_staged ..
@[simp] theorem tlyLose_cnt : (tlyLose s).cnt = s.cnt := by
  simp only [tlyLose]; split
  · rfl
  · exact fireSeq_cnt ..
@[simp] theorem tlyLose_lar : (tlyLose s).lar = s.lar := by
  simp only [tlyLose]; split
  · rfl
  · exact fireSeq_lar ..
@[simp] theorem tlyLose_brd : (tlyLose s).brd = s.brd := by
  simp only [tlyLose]; split
  · rfl
  · exact fireSeq_brd ..
@[simp] theorem tlyLose_hc : (tlyLose s).hc = s.hc := by
  simp only [tlyLose]; split
  · rfl
  · exact fireSeq_hc ..
@[simp] theorem tlyLose_dir : (tlyLose s).dir = s.dir := by
  simp only [tlyLose]; split
  · rfl
  · exact fireSeq_dir ..
@[simp] theorem tlyLose_hf : (tlyLose s).hf = s.hf := by
  simp only [tlyLose]; split
  · rfl
  · exact fireSeq_hf ..
@[simp] theorem tlyLose_home : (tlyLose s).home = s.home := by
  simp only [tlyLose]; split
  · rfl
  · exact fireSeq_home ..
@[simp] theorem tlyLose_sweep : (tlyLose s).sweep = s.sweep := by
  simp only [tlyLose]; split
  · rfl
  · exact fireSeq_sweep ..
@[simp] theorem tlyLose_req : (tlyLose s).req = s.req := by
  simp only [tlyLose]; split
  · rfl
  · exact fireSeq_req ..
@[simp] theorem tlyLose_hst : (tlyLose s).hst = s.hst := by
  simp only [tlyLose]; split
  · rfl
  · exact fireSeq_hst ..
@[simp] theorem tlyLose_slots : (tlyLose s).slots = s.slots := by
  simp only [tlyLose]; split
  · rfl
  · exact fireSeq_slots ..
@[simp] theorem tlyLose_ports : (tlyLose s).ports = s.ports := by
  simp only [tlyLose]; split
  · rfl
  · exact fireSeq_ports ..
@[simp] theorem tlyLose_cel : (tlyLose s).cel = s.cel := by
  simp only [tlyLose]; split
  · rfl
  · exact fireSeq_cel ..
@[simp] theorem tlyLose_sl : (tlyLose s).sl = s.sl := by
  simp only [tlyLose]; split
  · rfl
  · exact fireSeq_sl ..
@[simp] theorem tlyLose_mir : (tlyLose s).mir = s.mir := by
  simp only [tlyLose]; split
  · rfl
  · exact fireSeq_mir ..
@[simp] theorem tlyLose_links : (tlyLose s).links = s.links := by
  simp only [tlyLose]; split
  · rfl
  · exact fireSeq_links ..
@[simp] theorem tlyLose_fab : (tlyLose s).fab = s.fab := by
  simp only [tlyLose]; split
  · rfl
  · exact fireSeq_fab ..
@[simp] theorem tlyLose_routeWait : (tlyLose s).routeWait = s.routeWait := by
  simp only [tlyLose]; split
  · rfl
  · exact fireSeq_routeWait ..
@[simp] theorem tlyLose_rx : (tlyLose s).rx = s.rx := by
  simp only [tlyLose]; split
  · rfl
  · exact fireSeq_rx ..
@[simp] theorem tlyLose_bg : (tlyLose s).bg = s.bg := by
  simp only [tlyLose]; split
  · rfl
  · exact fireSeq_bg ..
@[simp] theorem tlyLose_prot : (tlyLose s).prot = s.prot := by
  simp only [tlyLose]; split
  · rfl
  · exact fireSeq_prot ..
@[simp] theorem tlyLose_pwr : (tlyLose s).pwr = s.pwr := by
  simp only [tlyLose]; split
  · rfl
  · exact fireSeq_pwr ..
@[simp] theorem tlyLose_ctl : (tlyLose s).ctl = s.ctl := by
  simp only [tlyLose]; split
  · rfl
  · exact fireSeq_ctl ..
@[simp] theorem tlyLose_halted : (tlyLose s).halted = s.halted := by
  simp only [tlyLose]; split
  · rfl
  · exact fireSeq_halted ..
@[simp] theorem tlyLose_free : (tlyLose s).free = s.free := by
  simp only [tlyLose]; split
  · rfl
  · exact fireSeq_free ..
@[simp] theorem tlyLose_pending : (tlyLose s).pending = s.pending := by
  simp only [tlyLose]; split
  · rfl
  · exact fireSeq_pending ..

@[simp] theorem tlyPut_part (orig kind res : Nat) (tg old new aux : Word) : (tlyPut orig kind res tg old new aux s).part = s.part := rfl
@[simp] theorem tlyPut_flash (orig kind res : Nat) (tg old new aux : Word) : (tlyPut orig kind res tg old new aux s).flash = s.flash := rfl
@[simp] theorem tlyPut_time (orig kind res : Nat) (tg old new aux : Word) : (tlyPut orig kind res tg old new aux s).time = s.time := rfl
@[simp] theorem tlyPut_regs (orig kind res : Nat) (tg old new aux : Word) : (tlyPut orig kind res tg old new aux s).regs = s.regs := rfl
@[simp] theorem tlyPut_staged (orig kind res : Nat) (tg old new aux : Word) : (tlyPut orig kind res tg old new aux s).staged = s.staged := rfl
@[simp] theorem tlyPut_ev (orig kind res : Nat) (tg old new aux : Word) : (tlyPut orig kind res tg old new aux s).ev = s.ev := rfl
@[simp] theorem tlyPut_cnt (orig kind res : Nat) (tg old new aux : Word) : (tlyPut orig kind res tg old new aux s).cnt = s.cnt := rfl
@[simp] theorem tlyPut_lar (orig kind res : Nat) (tg old new aux : Word) : (tlyPut orig kind res tg old new aux s).lar = s.lar := rfl
@[simp] theorem tlyPut_brd (orig kind res : Nat) (tg old new aux : Word) : (tlyPut orig kind res tg old new aux s).brd = s.brd := rfl
@[simp] theorem tlyPut_hc (orig kind res : Nat) (tg old new aux : Word) : (tlyPut orig kind res tg old new aux s).hc = s.hc := rfl
@[simp] theorem tlyPut_dir (orig kind res : Nat) (tg old new aux : Word) : (tlyPut orig kind res tg old new aux s).dir = s.dir := rfl
@[simp] theorem tlyPut_hf (orig kind res : Nat) (tg old new aux : Word) : (tlyPut orig kind res tg old new aux s).hf = s.hf := rfl
@[simp] theorem tlyPut_home (orig kind res : Nat) (tg old new aux : Word) : (tlyPut orig kind res tg old new aux s).home = s.home := rfl
@[simp] theorem tlyPut_sweep (orig kind res : Nat) (tg old new aux : Word) : (tlyPut orig kind res tg old new aux s).sweep = s.sweep := rfl
@[simp] theorem tlyPut_req (orig kind res : Nat) (tg old new aux : Word) : (tlyPut orig kind res tg old new aux s).req = s.req := rfl
@[simp] theorem tlyPut_hst (orig kind res : Nat) (tg old new aux : Word) : (tlyPut orig kind res tg old new aux s).hst = s.hst := rfl
@[simp] theorem tlyPut_slots (orig kind res : Nat) (tg old new aux : Word) : (tlyPut orig kind res tg old new aux s).slots = s.slots := rfl
@[simp] theorem tlyPut_ports (orig kind res : Nat) (tg old new aux : Word) : (tlyPut orig kind res tg old new aux s).ports = s.ports := rfl
@[simp] theorem tlyPut_cel (orig kind res : Nat) (tg old new aux : Word) : (tlyPut orig kind res tg old new aux s).cel = s.cel := rfl
@[simp] theorem tlyPut_sl (orig kind res : Nat) (tg old new aux : Word) : (tlyPut orig kind res tg old new aux s).sl = s.sl := rfl
@[simp] theorem tlyPut_mir (orig kind res : Nat) (tg old new aux : Word) : (tlyPut orig kind res tg old new aux s).mir = s.mir := rfl
@[simp] theorem tlyPut_links (orig kind res : Nat) (tg old new aux : Word) : (tlyPut orig kind res tg old new aux s).links = s.links := rfl
@[simp] theorem tlyPut_fab (orig kind res : Nat) (tg old new aux : Word) : (tlyPut orig kind res tg old new aux s).fab = s.fab := rfl
@[simp] theorem tlyPut_routeWait (orig kind res : Nat) (tg old new aux : Word) : (tlyPut orig kind res tg old new aux s).routeWait = s.routeWait := rfl
@[simp] theorem tlyPut_rx (orig kind res : Nat) (tg old new aux : Word) : (tlyPut orig kind res tg old new aux s).rx = s.rx := rfl
@[simp] theorem tlyPut_bg (orig kind res : Nat) (tg old new aux : Word) : (tlyPut orig kind res tg old new aux s).bg = s.bg := rfl
@[simp] theorem tlyPut_prot (orig kind res : Nat) (tg old new aux : Word) : (tlyPut orig kind res tg old new aux s).prot = s.prot := rfl
@[simp] theorem tlyPut_pwr (orig kind res : Nat) (tg old new aux : Word) : (tlyPut orig kind res tg old new aux s).pwr = s.pwr := rfl
@[simp] theorem tlyPut_ctl (orig kind res : Nat) (tg old new aux : Word) : (tlyPut orig kind res tg old new aux s).ctl = s.ctl := rfl
@[simp] theorem tlyPut_halted (orig kind res : Nat) (tg old new aux : Word) : (tlyPut orig kind res tg old new aux s).halted = s.halted := rfl
@[simp] theorem tlyPut_free (orig kind res : Nat) (tg old new aux : Word) : (tlyPut orig kind res tg old new aux s).free = s.free := rfl
@[simp] theorem tlyPut_out (orig kind res : Nat) (tg old new aux : Word) : (tlyPut orig kind res tg old new aux s).out = s.out := rfl
@[simp] theorem tlyPut_pending (orig kind res : Nat) (tg old new aux : Word) : (tlyPut orig kind res tg old new aux s).pending = s.pending := rfl

@[simp] theorem tally_part (orig kind res : Nat) (tg old new aux : Word) : (tally orig kind res tg old new aux s).part = s.part := by
  simp only [tally]; repeat' split
  all_goals simp
@[simp] theorem tally_flash (orig kind res : Nat) (tg old new aux : Word) : (tally orig kind res tg old new aux s).flash = s.flash := by
  simp only [tally]; repeat' split
  all_goals simp
@[simp] theorem tally_time (orig kind res : Nat) (tg old new aux : Word) : (tally orig kind res tg old new aux s).time = s.time := by
  simp only [tally]; repeat' split
  all_goals simp
@[simp] theorem tally_regs (orig kind res : Nat) (tg old new aux : Word) : (tally orig kind res tg old new aux s).regs = s.regs := by
  simp only [tally]; repeat' split
  all_goals simp
@[simp] theorem tally_staged (orig kind res : Nat) (tg old new aux : Word) : (tally orig kind res tg old new aux s).staged = s.staged := by
  simp only [tally]; repeat' split
  all_goals simp
@[simp] theorem tally_cnt (orig kind res : Nat) (tg old new aux : Word) : (tally orig kind res tg old new aux s).cnt = s.cnt := by
  simp only [tally]; repeat' split
  all_goals simp
@[simp] theorem tally_lar (orig kind res : Nat) (tg old new aux : Word) : (tally orig kind res tg old new aux s).lar = s.lar := by
  simp only [tally]; repeat' split
  all_goals simp
@[simp] theorem tally_brd (orig kind res : Nat) (tg old new aux : Word) : (tally orig kind res tg old new aux s).brd = s.brd := by
  simp only [tally]; repeat' split
  all_goals simp
@[simp] theorem tally_hc (orig kind res : Nat) (tg old new aux : Word) : (tally orig kind res tg old new aux s).hc = s.hc := by
  simp only [tally]; repeat' split
  all_goals simp
@[simp] theorem tally_dir (orig kind res : Nat) (tg old new aux : Word) : (tally orig kind res tg old new aux s).dir = s.dir := by
  simp only [tally]; repeat' split
  all_goals simp
@[simp] theorem tally_hf (orig kind res : Nat) (tg old new aux : Word) : (tally orig kind res tg old new aux s).hf = s.hf := by
  simp only [tally]; repeat' split
  all_goals simp
@[simp] theorem tally_home (orig kind res : Nat) (tg old new aux : Word) : (tally orig kind res tg old new aux s).home = s.home := by
  simp only [tally]; repeat' split
  all_goals simp
@[simp] theorem tally_sweep (orig kind res : Nat) (tg old new aux : Word) : (tally orig kind res tg old new aux s).sweep = s.sweep := by
  simp only [tally]; repeat' split
  all_goals simp
@[simp] theorem tally_req (orig kind res : Nat) (tg old new aux : Word) : (tally orig kind res tg old new aux s).req = s.req := by
  simp only [tally]; repeat' split
  all_goals simp
@[simp] theorem tally_hst (orig kind res : Nat) (tg old new aux : Word) : (tally orig kind res tg old new aux s).hst = s.hst := by
  simp only [tally]; repeat' split
  all_goals simp
@[simp] theorem tally_slots (orig kind res : Nat) (tg old new aux : Word) : (tally orig kind res tg old new aux s).slots = s.slots := by
  simp only [tally]; repeat' split
  all_goals simp
@[simp] theorem tally_ports (orig kind res : Nat) (tg old new aux : Word) : (tally orig kind res tg old new aux s).ports = s.ports := by
  simp only [tally]; repeat' split
  all_goals simp
@[simp] theorem tally_cel (orig kind res : Nat) (tg old new aux : Word) : (tally orig kind res tg old new aux s).cel = s.cel := by
  simp only [tally]; repeat' split
  all_goals simp
@[simp] theorem tally_sl (orig kind res : Nat) (tg old new aux : Word) : (tally orig kind res tg old new aux s).sl = s.sl := by
  simp only [tally]; repeat' split
  all_goals simp
@[simp] theorem tally_mir (orig kind res : Nat) (tg old new aux : Word) : (tally orig kind res tg old new aux s).mir = s.mir := by
  simp only [tally]; repeat' split
  all_goals simp
@[simp] theorem tally_links (orig kind res : Nat) (tg old new aux : Word) : (tally orig kind res tg old new aux s).links = s.links := by
  simp only [tally]; repeat' split
  all_goals simp
@[simp] theorem tally_fab (orig kind res : Nat) (tg old new aux : Word) : (tally orig kind res tg old new aux s).fab = s.fab := by
  simp only [tally]; repeat' split
  all_goals simp
@[simp] theorem tally_routeWait (orig kind res : Nat) (tg old new aux : Word) : (tally orig kind res tg old new aux s).routeWait = s.routeWait := by
  simp only [tally]; repeat' split
  all_goals simp
@[simp] theorem tally_rx (orig kind res : Nat) (tg old new aux : Word) : (tally orig kind res tg old new aux s).rx = s.rx := by
  simp only [tally]; repeat' split
  all_goals simp
@[simp] theorem tally_bg (orig kind res : Nat) (tg old new aux : Word) : (tally orig kind res tg old new aux s).bg = s.bg := by
  simp only [tally]; repeat' split
  all_goals simp
@[simp] theorem tally_prot (orig kind res : Nat) (tg old new aux : Word) : (tally orig kind res tg old new aux s).prot = s.prot := by
  simp only [tally]; repeat' split
  all_goals simp
@[simp] theorem tally_pwr (orig kind res : Nat) (tg old new aux : Word) : (tally orig kind res tg old new aux s).pwr = s.pwr := by
  simp only [tally]; repeat' split
  all_goals simp
@[simp] theorem tally_ctl (orig kind res : Nat) (tg old new aux : Word) : (tally orig kind res tg old new aux s).ctl = s.ctl := by
  simp only [tally]; repeat' split
  all_goals simp
@[simp] theorem tally_halted (orig kind res : Nat) (tg old new aux : Word) : (tally orig kind res tg old new aux s).halted = s.halted := by
  simp only [tally]; repeat' split
  all_goals simp
@[simp] theorem tally_free (orig kind res : Nat) (tg old new aux : Word) : (tally orig kind res tg old new aux s).free = s.free := by
  simp only [tally]; repeat' split
  all_goals simp
@[simp] theorem tally_pending (orig kind res : Nat) (tg old new aux : Word) : (tally orig kind res tg old new aux s).pending = s.pending := by
  simp only [tally]; repeat' split
  all_goals simp

@[simp] theorem tallyAuto_part (orig a src : Nat) (old new : Word) (x : Obj) : (tallyAuto orig a src old new x s).part = s.part := tally_part ..
@[simp] theorem tallyAuto_flash (orig a src : Nat) (old new : Word) (x : Obj) : (tallyAuto orig a src old new x s).flash = s.flash := tally_flash ..
@[simp] theorem tallyAuto_time (orig a src : Nat) (old new : Word) (x : Obj) : (tallyAuto orig a src old new x s).time = s.time := tally_time ..
@[simp] theorem tallyAuto_regs (orig a src : Nat) (old new : Word) (x : Obj) : (tallyAuto orig a src old new x s).regs = s.regs := tally_regs ..
@[simp] theorem tallyAuto_staged (orig a src : Nat) (old new : Word) (x : Obj) : (tallyAuto orig a src old new x s).staged = s.staged := tally_staged ..
@[simp] theorem tallyAuto_cnt (orig a src : Nat) (old new : Word) (x : Obj) : (tallyAuto orig a src old new x s).cnt = s.cnt := tally_cnt ..
@[simp] theorem tallyAuto_lar (orig a src : Nat) (old new : Word) (x : Obj) : (tallyAuto orig a src old new x s).lar = s.lar := tally_lar ..
@[simp] theorem tallyAuto_brd (orig a src : Nat) (old new : Word) (x : Obj) : (tallyAuto orig a src old new x s).brd = s.brd := tally_brd ..
@[simp] theorem tallyAuto_hc (orig a src : Nat) (old new : Word) (x : Obj) : (tallyAuto orig a src old new x s).hc = s.hc := tally_hc ..
@[simp] theorem tallyAuto_dir (orig a src : Nat) (old new : Word) (x : Obj) : (tallyAuto orig a src old new x s).dir = s.dir := tally_dir ..
@[simp] theorem tallyAuto_hf (orig a src : Nat) (old new : Word) (x : Obj) : (tallyAuto orig a src old new x s).hf = s.hf := tally_hf ..
@[simp] theorem tallyAuto_home (orig a src : Nat) (old new : Word) (x : Obj) : (tallyAuto orig a src old new x s).home = s.home := tally_home ..
@[simp] theorem tallyAuto_sweep (orig a src : Nat) (old new : Word) (x : Obj) : (tallyAuto orig a src old new x s).sweep = s.sweep := tally_sweep ..
@[simp] theorem tallyAuto_req (orig a src : Nat) (old new : Word) (x : Obj) : (tallyAuto orig a src old new x s).req = s.req := tally_req ..
@[simp] theorem tallyAuto_hst (orig a src : Nat) (old new : Word) (x : Obj) : (tallyAuto orig a src old new x s).hst = s.hst := tally_hst ..
@[simp] theorem tallyAuto_slots (orig a src : Nat) (old new : Word) (x : Obj) : (tallyAuto orig a src old new x s).slots = s.slots := tally_slots ..
@[simp] theorem tallyAuto_ports (orig a src : Nat) (old new : Word) (x : Obj) : (tallyAuto orig a src old new x s).ports = s.ports := tally_ports ..
@[simp] theorem tallyAuto_cel (orig a src : Nat) (old new : Word) (x : Obj) : (tallyAuto orig a src old new x s).cel = s.cel := tally_cel ..
@[simp] theorem tallyAuto_sl (orig a src : Nat) (old new : Word) (x : Obj) : (tallyAuto orig a src old new x s).sl = s.sl := tally_sl ..
@[simp] theorem tallyAuto_mir (orig a src : Nat) (old new : Word) (x : Obj) : (tallyAuto orig a src old new x s).mir = s.mir := tally_mir ..
@[simp] theorem tallyAuto_links (orig a src : Nat) (old new : Word) (x : Obj) : (tallyAuto orig a src old new x s).links = s.links := tally_links ..
@[simp] theorem tallyAuto_fab (orig a src : Nat) (old new : Word) (x : Obj) : (tallyAuto orig a src old new x s).fab = s.fab := tally_fab ..
@[simp] theorem tallyAuto_routeWait (orig a src : Nat) (old new : Word) (x : Obj) : (tallyAuto orig a src old new x s).routeWait = s.routeWait := tally_routeWait ..
@[simp] theorem tallyAuto_rx (orig a src : Nat) (old new : Word) (x : Obj) : (tallyAuto orig a src old new x s).rx = s.rx := tally_rx ..
@[simp] theorem tallyAuto_bg (orig a src : Nat) (old new : Word) (x : Obj) : (tallyAuto orig a src old new x s).bg = s.bg := tally_bg ..
@[simp] theorem tallyAuto_prot (orig a src : Nat) (old new : Word) (x : Obj) : (tallyAuto orig a src old new x s).prot = s.prot := tally_prot ..
@[simp] theorem tallyAuto_pwr (orig a src : Nat) (old new : Word) (x : Obj) : (tallyAuto orig a src old new x s).pwr = s.pwr := tally_pwr ..
@[simp] theorem tallyAuto_ctl (orig a src : Nat) (old new : Word) (x : Obj) : (tallyAuto orig a src old new x s).ctl = s.ctl := tally_ctl ..
@[simp] theorem tallyAuto_halted (orig a src : Nat) (old new : Word) (x : Obj) : (tallyAuto orig a src old new x s).halted = s.halted := tally_halted ..
@[simp] theorem tallyAuto_free (orig a src : Nat) (old new : Word) (x : Obj) : (tallyAuto orig a src old new x s).free = s.free := tally_free ..
@[simp] theorem tallyAuto_pending (orig a src : Nat) (old new : Word) (x : Obj) : (tallyAuto orig a src old new x s).pending = s.pending := tally_pending ..

@[simp] theorem drawFree_part : ((drawFree s).2).part = s.part := rfl
@[simp] theorem drawFree_flash : ((drawFree s).2).flash = s.flash := rfl
@[simp] theorem drawFree_time : ((drawFree s).2).time = s.time := rfl
@[simp] theorem drawFree_regs : ((drawFree s).2).regs = s.regs := rfl
@[simp] theorem drawFree_staged : ((drawFree s).2).staged = s.staged := rfl
@[simp] theorem drawFree_ev : ((drawFree s).2).ev = s.ev := rfl
@[simp] theorem drawFree_tly : ((drawFree s).2).tly = s.tly := rfl
@[simp] theorem drawFree_cnt : ((drawFree s).2).cnt = s.cnt := rfl
@[simp] theorem drawFree_lar : ((drawFree s).2).lar = s.lar := rfl
@[simp] theorem drawFree_brd : ((drawFree s).2).brd = s.brd := rfl
@[simp] theorem drawFree_hc : ((drawFree s).2).hc = s.hc := rfl
@[simp] theorem drawFree_dir : ((drawFree s).2).dir = s.dir := rfl
@[simp] theorem drawFree_hf : ((drawFree s).2).hf = s.hf := rfl
@[simp] theorem drawFree_home : ((drawFree s).2).home = s.home := rfl
@[simp] theorem drawFree_sweep : ((drawFree s).2).sweep = s.sweep := rfl
@[simp] theorem drawFree_req : ((drawFree s).2).req = s.req := rfl
@[simp] theorem drawFree_hst : ((drawFree s).2).hst = s.hst := rfl
@[simp] theorem drawFree_slots : ((drawFree s).2).slots = s.slots := rfl
@[simp] theorem drawFree_ports : ((drawFree s).2).ports = s.ports := rfl
@[simp] theorem drawFree_cel : ((drawFree s).2).cel = s.cel := rfl
@[simp] theorem drawFree_sl : ((drawFree s).2).sl = s.sl := rfl
@[simp] theorem drawFree_mir : ((drawFree s).2).mir = s.mir := rfl
@[simp] theorem drawFree_links : ((drawFree s).2).links = s.links := rfl
@[simp] theorem drawFree_fab : ((drawFree s).2).fab = s.fab := rfl
@[simp] theorem drawFree_routeWait : ((drawFree s).2).routeWait = s.routeWait := rfl
@[simp] theorem drawFree_rx : ((drawFree s).2).rx = s.rx := rfl
@[simp] theorem drawFree_bg : ((drawFree s).2).bg = s.bg := rfl
@[simp] theorem drawFree_prot : ((drawFree s).2).prot = s.prot := rfl
@[simp] theorem drawFree_pwr : ((drawFree s).2).pwr = s.pwr := rfl
@[simp] theorem drawFree_ctl : ((drawFree s).2).ctl = s.ctl := rfl
@[simp] theorem drawFree_halted : ((drawFree s).2).halted = s.halted := rfl
@[simp] theorem drawFree_out : ((drawFree s).2).out = s.out := rfl
@[simp] theorem drawFree_pending : ((drawFree s).2).pending = s.pending := rfl

end Sys2Proof.Machine
end

