-- ==== Sys2Proof/Laws/Tables.lean ====
section
/-! SUPPORT. Laws of the sparse tables: a read after a write, what a write leaves, and the canonical form. -/

namespace Sys2Proof.Machine

variable {α : Type}

/-- A key just set holds the value. -/
@[simp] theorem mget_mset_self (m : SMap α) (k : Nat) (v : α) : mget (mset m k v) k = some v := by
  induction m with
  | nil => simp [mset, mget]
  | cons h t ih =>
    obtain ⟨k', v'⟩ := h
    rw [mset]; split
    · simp [mget]
    · split
      · simp [mget]
      · rw [mget, if_neg (by assumption)]; exact ih

/-- Setting a key leaves every other key. -/
@[simp] theorem mget_mset_ne (m : SMap α) {k j : Nat} (v : α) (h : j ≠ k) : mget (mset m k v) j = mget m j := by
  have hkj : ¬k = j := fun e => h e.symm
  induction m with
  | nil => simp [mset, mget, hkj]
  | cons e t ih =>
    obtain ⟨k', v'⟩ := e
    rw [mset]; split
    · simp [mget, hkj]
    · split
      · rename_i h2; subst h2; simp [mget, hkj]
      · simp [mget, ih]

/-- A removed key is not listed. -/
@[simp] theorem mget_mdel_self (m : SMap α) (k : Nat) : mget (mdel m k) k = none := by
  induction m with
  | nil => rfl
  | cons e t ih =>
    obtain ⟨k', v'⟩ := e
    rw [mdel]; split
    · exact ih
    · rw [mget, if_neg (by assumption)]; exact ih

/-- Removing a key leaves every other key. -/
@[simp] theorem mget_mdel_ne (m : SMap α) {k j : Nat} (h : j ≠ k) : mget (mdel m k) j = mget m j := by
  have hkj : ¬k = j := fun e => h e.symm
  induction m with
  | nil => rfl
  | cons e t ih =>
    obtain ⟨k', v'⟩ := e
    rw [mdel]; split
    · rename_i h2; subst h2; simp [mget, ih, hkj]
    · simp [mget, ih]

/-- A key just put holds the value. -/
@[simp] theorem mgetD_mput_self [DecidableEq α] (d : α) (m : SMap α) (k : Nat) (v : α) : mgetD d (mput d m k v) k = v := by
  unfold mgetD mput; split
  · simp_all
  · simp

/-- Putting a key leaves every other key. -/
@[simp] theorem mgetD_mput_ne [DecidableEq α] (d d' : α) (m : SMap α) {k j : Nat} (v : α) (h : j ≠ k) :
    mgetD d (mput d' m k v) j = mgetD d m j := by
  unfold mgetD mput; split <;> simp [h]

@[simp] theorem mgetD_mset_self (d : α) (m : SMap α) (k : Nat) (v : α) : mgetD d (mset m k v) k = v := by simp [mgetD]

@[simp] theorem mgetD_mset_ne (d : α) (m : SMap α) {k j : Nat} (v : α) (h : j ≠ k) : mgetD d (mset m k v) j = mgetD d m j := by
  simp [mgetD, h]

/-- The keys of a table in canonical form lie above `k`. -/
theorem mwf_cons_iff (k : Nat) (v : α) (t : SMap α) : mwf ((k, v) :: t) = true ↔ (∀ e ∈ t, k < e.1) ∧ mwf t = true := by
  induction t generalizing k v with
  | nil => simp [mwf]
  | cons e t ih =>
    obtain ⟨k', v'⟩ := e
    constructor
    · intro h
      simp only [mwf, Bool.and_eq_true, decide_eq_true_eq] at h
      refine ⟨?_, h.2⟩
      intro x hx
      rcases List.mem_cons.1 hx with rfl | hx
      · exact h.1
      · exact Nat.lt_trans h.1 (((ih k' v').1 h.2).1 x hx)
    · rintro ⟨h1, h2⟩
      simp only [mwf, Bool.and_eq_true, decide_eq_true_eq]
      exact ⟨h1 _ (List.mem_cons_self ..), h2⟩

theorem mem_mset {m : SMap α} {k : Nat} {v : α} {e : Nat × α} (h : e ∈ mset m k v) : e = (k, v) ∨ e ∈ m := by
  induction m with
  | nil => simp [mset] at h; exact .inl h
  | cons x t ih =>
    obtain ⟨k', v'⟩ := x
    rw [mset] at h; split at h
    · simpa using h
    · split at h
      · rcases List.mem_cons.1 h with h | h
        · exact .inl h
        · exact .inr (List.mem_cons_of_mem _ h)
      · rcases List.mem_cons.1 h with h | h
        · exact .inr (h ▸ List.mem_cons_self ..)
        · exact (ih h).imp id (List.mem_cons_of_mem _)

/-- Setting a key keeps the canonical form. -/
theorem mwf_mset (m : SMap α) (k : Nat) (v : α) (h : mwf m = true) : mwf (mset m k v) = true := by
  induction m with
  | nil => rfl
  | cons x t ih =>
    obtain ⟨k', v'⟩ := x
    have hx := (mwf_cons_iff k' v' t).1 h
    rw [mset]; split
    · rename_i hk
      refine (mwf_cons_iff _ _ _).2 ⟨?_, h⟩
      intro e he
      rcases List.mem_cons.1 he with rfl | he
      · exact hk
      · exact Nat.lt_trans hk (hx.1 e he)
    · split
      · rename_i h1 h2; subst h2; exact (mwf_cons_iff _ _ _).2 hx
      · rename_i h1 h2
        refine (mwf_cons_iff _ _ _).2 ⟨?_, ih hx.2⟩
        intro e he
        rcases mem_mset he with rfl | he
        · simp only; omega
        · exact hx.1 e he

theorem mem_mdel {m : SMap α} {k : Nat} {e : Nat × α} (h : e ∈ mdel m k) : e ∈ m := by
  induction m with
  | nil => simp [mdel] at h
  | cons x t ih =>
    obtain ⟨k', v'⟩ := x
    rw [mdel] at h; split at h
    · exact List.mem_cons_of_mem _ (ih h)
    · rcases List.mem_cons.1 h with h | h
      · exact h ▸ List.mem_cons_self ..
      · exact List.mem_cons_of_mem _ (ih h)

/-- Removing a key keeps the canonical form. -/
theorem mwf_mdel (m : SMap α) (k : Nat) (h : mwf m = true) : mwf (mdel m k) = true := by
  induction m with
  | nil => rfl
  | cons x t ih =>
    obtain ⟨k', v'⟩ := x
    have hx := (mwf_cons_iff k' v' t).1 h
    rw [mdel]; split
    · exact ih hx.2
    · exact (mwf_cons_iff _ _ _).2 ⟨fun e he => hx.1 e (mem_mdel he), ih hx.2⟩

/-- Putting a key keeps the canonical form. -/
theorem mwf_mput [DecidableEq α] (d : α) (m : SMap α) (k : Nat) (v : α) (h : mwf m = true) : mwf (mput d m k v) = true := by
  unfold mput; split
  · exact mwf_mdel m k h
  · exact mwf_mset m k v h

end Sys2Proof.Machine
end

