-- ==== Sys2Proof/Laws/Fields.lean ====
section
/-! SUPPORT. Bit fields of words and reads of registers after writes: what a field, a bit or a register reads after a write of it or of another. -/

namespace Sys2Proof.Machine

theorem fld_lt (w : Word) (lo n : Nat) : fld w lo n < 2 ^ n := Nat.mod_lt _ (Nat.two_pow_pos n)

/-- A word cut at a field: what lies below it, the field, and what lies above. -/
theorem fld_split (w lo n : Nat) : ∃ low f hi, low < 2 ^ lo ∧ f < 2 ^ n ∧ w = low + f * 2 ^ lo + hi * 2 ^ (lo + n) ∧ (w >>> lo) % 2 ^ n = f := by
  refine ⟨w % 2 ^ lo, w / 2 ^ lo % 2 ^ n, w / 2 ^ lo / 2 ^ n, Nat.mod_lt _ (Nat.two_pow_pos _), Nat.mod_lt _ (Nat.two_pow_pos _), ?_, by rw [Nat.shiftRight_eq_div_pow]⟩
  have h1 := Nat.div_add_mod w (2 ^ lo)
  have h2 := Nat.div_add_mod (w / 2 ^ lo) (2 ^ n)
  rw [Nat.pow_add]
  calc w = 2 ^ lo * (w / 2 ^ lo) + w % 2 ^ lo := h1.symm
    _ = 2 ^ lo * (2 ^ n * (w / 2 ^ lo / 2 ^ n) + w / 2 ^ lo % 2 ^ n) + w % 2 ^ lo := by rw [h2]
    _ = _ := by ring

/-- The bits of a word with a field replaced. -/
theorem setFld_testBit (w : Word) (lo n v i : Nat) (h : lo + n ≤ 64) :
    (setFld w lo n v).toNat.testBit i = if lo ≤ i ∧ i < lo + n then v.testBit (i - lo) else w.toNat.testBit i := by
  obtain ⟨low, f, hi, hl, hf, hw, hs⟩ := fld_split w.toNat lo n
  have hv := Nat.mod_lt v (Nat.two_pow_pos n)
  have e : w.toNat - fld w lo n * 2 ^ lo + v % 2 ^ n * 2 ^ lo = low + (v % 2 ^ n) * 2 ^ lo + hi * 2 ^ (lo + n) := by
    unfold fld; rw [hs]; generalize hA : f * 2 ^ lo = A at *; generalize hB : v % 2 ^ n * 2 ^ lo = B at *; generalize hi * 2 ^ (lo + n) = C at *; omega
  have form : ∀ g, g < 2 ^ n → ∀ j, (low + g * 2 ^ lo + hi * 2 ^ (lo + n)).testBit j =
      if j < lo then low.testBit j else if j < lo + n then g.testBit (j - lo) else hi.testBit (j - (lo + n)) := by
    intro g hg j
    have e1 : low + g * 2 ^ lo + hi * 2 ^ (lo + n) = 2 ^ lo * (2 ^ n * hi + g) + low := by rw [Nat.pow_add]; ring
    rw [e1, Nat.testBit_two_pow_mul_add _ hl, Nat.testBit_two_pow_mul_add _ hg]
    by_cases h1 : j < lo
    · simp [h1]
    · simp only [h1, if_false]
      by_cases h2 : j < lo + n
      · rw [if_pos (by omega), if_pos h2]
      · rw [if_neg (by omega), if_neg h2, show j - lo - n = j - (lo + n) by omega]
  have hb : low + (v % 2 ^ n) * 2 ^ lo + hi * 2 ^ (lo + n) < 2 ^ 64 := by
    have hwl : w.toNat < 2 ^ 64 := w.isLt
    have hhi : hi < 2 ^ (64 - (lo + n)) := by
      by_contra hc
      have : 2 ^ (64 - (lo + n)) * 2 ^ (lo + n) ≤ hi * 2 ^ (lo + n) := Nat.mul_le_mul_right _ (by omega)
      rw [← Nat.pow_add, show 64 - (lo + n) + (lo + n) = 64 by omega] at this
      omega
    have h3 : (hi + 1) * 2 ^ (lo + n) ≤ 2 ^ 64 := by
      have : (hi + 1) * 2 ^ (lo + n) ≤ 2 ^ (64 - (lo + n)) * 2 ^ (lo + n) := Nat.mul_le_mul_right _ hhi
      rwa [← Nat.pow_add, show 64 - (lo + n) + (lo + n) = 64 by omega] at this
    have h4 : low + (v % 2 ^ n) * 2 ^ lo < 2 ^ (lo + n) := by
      have : (v % 2 ^ n + 1) * 2 ^ lo ≤ 2 ^ n * 2 ^ lo := Nat.mul_le_mul_right _ hv
      rw [← Nat.pow_add, Nat.add_comm n lo] at this
      have e5 : (v % 2 ^ n + 1) * 2 ^ lo = v % 2 ^ n * 2 ^ lo + 2 ^ lo := by ring
      omega
    have e6 : (hi + 1) * 2 ^ (lo + n) = hi * 2 ^ (lo + n) + 2 ^ (lo + n) := by ring
    omega
  unfold setFld
  rw [e, BitVec.toNat_ofNat, Nat.mod_eq_of_lt hb, form _ hv, hw, form _ hf]
  by_cases h1 : i < lo
  · simp [h1, show ¬lo ≤ i by omega]
  · by_cases h2 : i < lo + n
    · simp [h1, h2, show lo ≤ i by omega, Nat.testBit_mod_two_pow, show i - lo < n by omega]
    · simp [h1, h2]

theorem fld_testBit (w : Word) (lo n i : Nat) : (fld w lo n).testBit i = (decide (i < n) && w.toNat.testBit (lo + i)) := by
  simp [fld, Nat.testBit_mod_two_pow, Nat.testBit_shiftRight]

/-- A field just set. -/
theorem fld_setFld_self (w : Word) (lo n v : Nat) (h : lo + n ≤ 64) : fld (setFld w lo n v) lo n = v % 2 ^ n := by
  apply Nat.eq_of_testBit_eq; intro i
  rw [fld_testBit, setFld_testBit _ _ _ _ _ h, Nat.testBit_mod_two_pow]
  by_cases hi : i < n
  · simp [hi]
  · simp [hi]

/-- A field beside the one set. -/
theorem fld_setFld_ne (w : Word) (lo n v lo' n' : Nat) (h : lo + n ≤ 64) (hd : lo' + n' ≤ lo ∨ lo + n ≤ lo') :
    fld (setFld w lo n v) lo' n' = fld w lo' n' := by
  apply Nat.eq_of_testBit_eq; intro i
  rw [fld_testBit, fld_testBit, setFld_testBit _ _ _ _ _ h]
  by_cases hi : i < n'
  · rw [if_neg (by omega)]
  · simp [hi]

/-- A bit outside the field set. -/
theorem bit_setFld_ne (w : Word) (lo n v i : Nat) (h : lo + n ≤ 64) (hd : i < lo ∨ lo + n ≤ i) : bit (setFld w lo n v) i = bit w i := by
  unfold bit; rw [setFld_testBit _ _ _ _ _ h, if_neg (by omega)]

/-- A bit of the field set. -/
theorem bit_setFld_in (w : Word) (lo n v i : Nat) (h : lo + n ≤ 64) (h1 : lo ≤ i) (h2 : i < lo + n) : bit (setFld w lo n v) i = v.testBit (i - lo) := by
  unfold bit; rw [setFld_testBit _ _ _ _ _ h, if_pos ⟨h1, h2⟩]

/-! ### Registers -/

/-- A register just written. -/
@[simp] theorem rd_wr_self (a : Nat) (v : Word) (s : State) : rd (wr a v s) a = v := by
  unfold rd; rw [wr_part]; exact mgetD_mput_self ..

/-- Another register than the one written. -/
theorem rd_wr_ne (s : State) {a b : Nat} (v : Word) (h : b / 8 ≠ a / 8) : rd (wr a v s) b = rd s b := by
  unfold rd; rw [wr_part]; exact mgetD_mput_ne _ _ _ _ h

/-- A register reads by the part and the register table alone. -/
theorem rd_congr {s t : State} (h1 : t.part = s.part) (h2 : t.regs = s.regs) (a : Nat) : rd t a = rd s a := by unfold rd; rw [h1, h2]

@[simp] theorem rd_emit (x : Sent) (s : State) (a : Nat) : rd (emit x s) a = rd s a := rd_congr (by simp) (by simp) a
@[simp] theorem rd_cntSet (b v : Nat) (s : State) (a : Nat) : rd (cntSet b v s) a = rd s a := rd_congr (by simp) (by simp) a
@[simp] theorem rd_setQueue (q : Nat) (v : Queue) (s : State) (a : Nat) : rd (setQueue q v s) a = rd s a := rd_congr (by simp) (by simp) a
@[simp] theorem rd_fireSeq (n c : Nat) (o1 o2 : Obj) (q : Nat) (s : State) (a : Nat) : rd (fireSeq n c o1 o2 q s) a = rd s a := rd_congr (by simp) (by simp) a
@[simp] theorem rd_fire (n c : Nat) (o1 : Obj) (s : State) (a : Nat) : rd (fire n c o1 s) a = rd s a := rd_congr (by simp) (by simp) a
@[simp] theorem rd_post (q ty info : Nat) (ws : List Word) (s : State) (a : Nat) : rd (post q ty info ws s) a = rd s a := rd_congr (by simp) (by simp) a
@[simp] theorem rd_count (b n : Nat) (s : State) (a : Nat) : rd (count b n s) a = rd s a := rd_congr (by simp) (by simp) a
@[simp] theorem rd_tally (orig kind res : Nat) (tg old new aux : Word) (s : State) (a : Nat) : rd (tally orig kind res tg old new aux s) a = rd s a :=
  rd_congr (by simp) (by simp) a
@[simp] theorem rd_tallyAuto (orig b src : Nat) (old new : Word) (x : Obj) (s : State) (a : Nat) : rd (tallyAuto orig b src old new x s) a = rd s a :=
  rd_congr (by simp) (by simp) a

/-- A field of a register just set. -/
theorem rdFld_wrFld_self (s : State) (a lo n v : Nat) (h : lo + n ≤ 64) : rdFld (wrFld a lo n v s) a lo n = v % 2 ^ n := by
  unfold rdFld wrFld; rw [rd_wr_self, fld_setFld_self _ _ _ _ h]

/-- Above the check symbols a data line's side band holds the PZ bits and zeros (R383). -/
theorem dataSideBand_pz (d : Data) : (dataSideBand d).toNat / 2 ^ 48 = d.pz.toNat := by
  have h1 := (Config.dataChecks d.bytes d.pz).isLt
  have h2 := d.pz.isLt
  rw [dataSideBand, BitVec.toNat_ofNat]
  omega

end Sys2Proof.Machine
end

