-- ==== Sys2Proof/Laws/Sent.lean ====
section
/-! SUPPORT. What the block has sent stays sent: the basic operations only add to `out`. -/

namespace Sys2Proof.Machine

variable (s : State)

theorem prefix_ite {c : Prop} [Decidable c] {l a b : List Sent} (h1 : l <+: a) (h2 : l <+: b) : l <+: if c then a else b := by
  split <;> assumption

theorem out_emit (x : Sent) : s.out <+: (emit x s).out := ⟨[x], rfl⟩

theorem out_fireStat (n : Nat) (w1 w2 w3 len : Word) : s.out <+: (fireStat n w1 w2 w3 len s).out := by
  simp only [fireStat]; exact prefix_ite ⟨_, rfl⟩ (List.prefix_refl _)

theorem out_fireNoQ (n c : Nat) (o1 o2 : Obj) (q : Nat) : s.out <+: (fireNoQ n c o1 o2 q s).out := by
  unfold fireNoQ; split
  · exact List.prefix_refl _
  · split
    · exact out_fireStat ..
    · exact List.prefix_refl _

theorem out_fireGap (q : Nat) : s.out <+: (fireGap q s).out := by
  simp only [fireGap]; split
  · split
    · refine List.IsPrefix.trans ?_ (out_fireNoQ ..); rw [enterRaw_out]; exact out_fireNoQ ..
    · rw [enterRaw_out]; exact out_fireNoQ ..
  · exact out_fireNoQ ..

theorem out_enter (q : Nat) (r : QRec) : s.out <+: (enter q r s).out := by
  simp only [enter]; split
  · exact List.prefix_refl _
  · split
    · have h := out_fireGap (enterRaw q r s).1 q; rwa [enterRaw_out] at h
    · rw [enterRaw_out]

theorem out_fireSeq (n c : Nat) (o1 o2 : Obj) (q : Nat) : s.out <+: (fireSeq n c o1 o2 q s).out := by
  simp only [fireSeq]; split
  · exact List.prefix_refl _
  · split
    · exact (out_fireNoQ ..).trans (out_enter ..)
    · exact out_fireNoQ ..

theorem out_fire (n c : Nat) (o1 : Obj) : s.out <+: (fire n c o1 s).out := out_fireSeq ..

theorem out_post (q ty info : Nat) (ws : List Word) : s.out <+: (post q ty info ws s).out := out_enter ..

theorem out_count (a n : Nat) : s.out <+: (count a n s).out := by
  simp only [count]; repeat' split
  all_goals first
    | exact List.prefix_refl _
    | (refine List.IsPrefix.trans ?_ (out_fire ..); exact List.prefix_refl _)

theorem out_of_eq {s u t : State} (h : u.out = s.out) (h2 : u.out <+: t.out) : s.out <+: t.out := h ▸ h2

theorem out_fireSeq_of {s u : State} {n c : Nat} {o1 o2 : Obj} {q : Nat} (h : u.out = s.out) : s.out <+: (fireSeq n c o1 o2 q u).out :=
  h ▸ out_fireSeq u ..

theorem out_tlyLose : s.out <+: (tlyLose s).out := by
  simp only [tlyLose]; split
  · exact List.prefix_refl _
  · exact out_fireSeq_of rfl

theorem out_tally (orig kind res : Nat) (tg old new aux : Word) : s.out <+: (tally orig kind res tg old new aux s).out := by
  simp only [tally]
  split
  · exact List.prefix_refl _
  · split
    · exact (out_tlyLose s).trans (out_fireSeq_of (tlyPut_out ..))
    · rw [tlyPut_out]; exact out_tlyLose s

theorem out_tallyAuto (orig a src : Nat) (old new : Word) (x : Obj) : s.out <+: (tallyAuto orig a src old new x s).out := out_tally ..

/-- Folding steps that only add to what has left only adds to it. -/
theorem out_foldl {β : Type} (f : State → β → State) (h : ∀ s b, s.out <+: (f s b).out) (l : List β) (s : State) : s.out <+: (l.foldl f s).out := by
  induction l generalizing s with
  | nil => exact List.prefix_refl _
  | cons b l ih => exact (h s b).trans (ih _)

end Sys2Proof.Machine
end

