-- ==== Sys2Proof/Tests/Slice0.lean ====
section
/-! SUPPORT. Tests: what each check of WellFormed refuses; for each statement of Obligations.lean a state and operands that meet its hypotheses,
clause by clause (wit_…); and single commands by the spec's own figures (test_…). -/

namespace Sys2Proof.Tests

open Sys2Proof.Machine

set_option maxRecDepth 20000
set_option exponentiation.threshold 1000

/-- The block after reset. -/
def z : State := State.reset

/-- A judged write that is taken, with a test of the word before and the word written. -/
def takes (v : Verdict) (p : Word → Word → Bool) : Bool := match v with
  | .taken cur new _ _ _ _ _ _ => p cur new
  | _ => false

/-- A test of the state that a command leaves. -/
def after (o : Host.Outcome State Fault Refusal) (p : State → Bool) : Bool := match o with
  | .next t => p t
  | _ => false

/-! ### Register writes -/

/-- Port `p` trained in agent mode. -/
def asAgent (p : Nat) (s : State) : State := { wrFld (aHpCtl p) 1 1 1 s with hst := { s.hst with setting := mset s.hst.setting p 1 } }

theorem wit_PortControlWrites :
    running z = true ∧ takes (verdict 34 (aIpCtl 0) (setBit (now z 34 (aIpCtl 0)) 0 true) none z) (fun _ _ => true) ∧
    takes (verdict 34 (aIpCtl 11) (setBit (now z 34 (aIpCtl 11)) 0 false) none z) (fun _ _ => true) ∧
    (let s := wrFld (aIpCtl 0) 0 1 1 z
     takes (verdict 34 (aIpCtl 0) (setBit (now s 34 (aIpCtl 0)) 2 true) none s) (fun _ _ => true) && rdBit s (aIpCtl 0) 0) ∧
    (let s := wrFld (aHpCtl 15) 0 1 1 z
     takes (verdict 34 (aHpCtl 15) (setBit (now s 34 (aHpCtl 15)) 0 false) none s) fun cur _ => bit cur 0) ∧
    (let s := wrFld (aHpCtl 0) 0 1 0 z
     takes (verdict 34 (aHpCtl 0) (setBit (now s 34 (aHpCtl 0)) 0 true) none s) fun cur _ => !bit cur 0) ∧
    (let s := wrFld (aDpCtl 7) 0 1 0 z
     takes (verdict 34 (aDpCtl 7) (setBit (now s 34 (aDpCtl 7)) 0 true) none s) fun cur _ => !bit cur 0) := by decide

theorem wit_UnitControlWrites :
    takes (verdict 34 aGlSnap 1 none z) (fun _ _ => true) ∧
    takes (verdict 34 aTbOrigin 5 none (wrFld aTbCtl 0 1 1 z)) (fun _ _ => true) ∧
    takes (verdict 34 aTbCtl (setBit (now z 34 aTbCtl) 4 true) none z) (fun _ _ => true) ∧
    takes (verdict 34 aHcDieseed 7 none z) (fun _ _ => true) ∧ takes (verdict 34 aDrProbe 64 none z) (fun _ _ => true) ∧
    takes (verdict 34 aHfProbe 64 none z) (fun _ _ => true) ∧ takes (verdict 34 aPcSmpctl 9 none z) (fun _ _ => true) ∧
    takes (verdict 34 aEvTest (mkWord [(0, 9, 287), (9, 1, 1)]) none z) (fun _ _ => true) ∧ evReserved z 287 = false ∧
    takes (verdict 34 (aHpCfga 3) (setBit 0 25 true) none (asAgent 3 z)) (fun _ _ => true) := by decide

/-- A rekey sweep that may start: range 0 under slot 0, slot 1 loaded, the metadata valid. -/
def rekeyReady : State :=
  wrFld aSlStat 0 2 2 (wr (aSlKs 1) 5 (wr (aSlKrt 0) 1 z))

theorem wit_rekeyStart : takes (verdict 34 aSlRkctl (setBit (mkWord [(12, 10, 1), (22, 8, 1)]) 30 true) none rekeyReady) (fun _ _ => true) := by decide

theorem wit_MaintenanceStarts :
    (let s := wr aHcMopl 1 z
     takes (verdict 34 aHcMopc (mkWord [(0, 2, 0), (2, 1, 1), (3, 1, 1), (48, 16, seqOf s aHcMopc)]) none s) fun _ _ => true) ∧
    takes (verdict 34 aHcMopc (mkWord [(0, 2, 1), (2, 1, 0), (3, 1, 1), (48, 16, seqOf z aHcMopc)]) none z) (fun _ _ => true) := by decide

theorem wit_QueueAndWrapWrites :
    takes (verdict 34 (aEqCtl 8191) (setFld (setBit (now z 34 (aEqCtl 8191)) 0 true) 2 4 3) none z) (fun cur _ => !bit cur 0) ∧
    takes (verdict 34 (aEqCtl 0) (setBit (now z 34 (aEqCtl 0)) 0 false) none z) (fun cur _ => bit cur 0) ∧
    takes (verdict 34 (aEqCtl 0) (setBit (now z 34 (aEqCtl 0)) 1 true) none z) (fun cur new => bit new 0 = bit cur 0) ∧
    takes (verdict 34 aPcWrapclr (mkWord [(0, 12, 4095), (12, 1, 1)]) none z) (fun _ _ => true) ∧
    takes (verdict 34 aPcWrapclr (mkWord [(13, 1, 1)]) none z) (fun _ _ => true) := by decide

theorem wit_MapWrites_windows :
    takes (verdict 34 (aHpWin 0 0) (setBit (mkWord [(8, 6, 30)]) 0 true) none z) (fun cur _ => !bit cur 0) ∧
    takes (verdict 34 (aHpWin 15 255) (setBit 0 0 false) none (wr (aHpWin 15 255) 1 z)) (fun cur _ => bit cur 0) := by decide

theorem wit_MapWrites_members :
    takes (verdict 34 (aDrSdom 15) (setBit (now z 34 (aDrSdom 15)) 63 true) none z) (fun _ _ => true) ∧
    (let s := wr (aDrSdom 15) (BitVec.allOnes 64) z
     takes (verdict 34 (aDrSdom 15) (setBit (now s 34 (aDrSdom 15)) 63 false) none s) (fun _ _ => true) && rdBit s (aDrSdom 15) 63 && hubId s ≠ 1023) := by decide

theorem wit_MapWrites_maps :
    takes (verdict 34 (aSlKrt 4095) (setFld (now z 34 (aSlKrt 4095)) 1 2 2) none z) (fun _ _ => true) ∧
    takes (verdict 34 (aSbSq 91 63) 0x0101010101010101 none z) (fun _ _ => true) ∧ rdFld z aFbBuddy 0 2 < 2 ∧
    takes (verdict 34 (aFbMir 7) 0 (some 0) z) (fun _ _ => true) := by decide

theorem wit_RegisterWriteForms :
    takes (verdict 34 aHcPfctl 0x10101 none z) (fun _ _ => true) ∧ ((locate aHcPfctl).map fun r => r.base) = some aHcPfctl ∧
    ((locate (aHpWin 0 0 + 8)).map fun r => stagedReg r) = some true ∧ verdict 34 (aHpWin 0 0 + 8) 5 none z = .staged 5 false ∧
    takes (verdict 34 aHcMopc 0 none z) (fun _ _ => true) ∧ seqOf z aHcMopc = 0 ∧ unlockKeys[(17 : Nat)]? = some 0xC047 ∧
    verdict 0 aGlUnlock (mkWord [(0, 16, 0xC047), (16, 5, 17)]) none (wrFld (aHpCtl 0) 0 1 1 z) = .unlock := by decide
/-! ### Time, Boards and records -/

/-- The grandmaster, with an origin armed; beacons on. -/
def master : State := wrFld aTbStat 2 1 1 (wr aTbCtl 7 z)

theorem wit_FabricTimeEvents :
    running z = true ∧ timeState (wrFld aTbStat 0 2 2 z) = 2 ∧ grandmaster master = true ∧ master.time.lastPps = none ∧ master.time.sched = [] ∧ master.brd.wait = [] ∧ master.brd.run = [] ∧
      master.home.input = [] ∧
    (let s : State := { wrFld aTbStat 2 1 0 master with time := { z.time with ft := 900000001, lastPps := some 1 } }
     rdBit s aTbStat 2 = false ∧ rdBit s aTbCtl 1 = true ∧ s.time.lastPps = some 1 ∧ (1 : Word).toNat + 900000000 ≤ s.time.ft.toNat) ∧
    rdBit (wr aTbCtl 1 z) aTbCtl 1 = false ∧
    rdBit master aTbStat 2 = true ∧ rdBit master aTbCtl 2 = true ∧
    (let s : State := { master with time := { master.time with ft := 900000000, lastPps := some 1 } }
     s.time.lastPps = some 1 ∧ (1 : Word).toNat ≤ s.time.ft.toNat ∧ s.time.ft.toNat < (1 : Word).toNat + 900000000) ∧
    portActive (wrFld (aIpStat 11) 0 3 3 master) 11 = true ∧ isRoot (wrFld aFbStat 2 1 1 master) = true := by decide

/-- The spacing clause of `FabricTimeEvents` holds where the last edge is `l` and 900,000,000 ns lie between. -/
theorem wit_spaced (s : State) (w : Word) (h : s.time.lastPps = some w) (g : w.toNat + 900000000 ≤ s.time.ft.toNat) :
    ∀ l, s.time.lastPps = some l → s.time.ft.toNat < l.toNat ∨ l.toNat + 900000000 ≤ s.time.ft.toNat := by
  intro l e
  rw [h] at e
  cases e
  exact .inr g

/-- A coherence message of hub 0 to itself, as a header alone. -/
def msg0 : Msg := ⟨.rdS, 0, false, false, 0, 0, mkHdr z 0 7 0 0 0 0, Data.zero⟩

/-- One transfer waits at Board 76. -/
def waiter : Waiter := ⟨53, 7, 0, .host (.cmp 5), [], 0, 0, 0, false⟩

/-- A transfer of background task 3 at the Board of cellar port 0. -/
def swept : Waiter := ⟨53, 7, 0, .cell (.gpf 1), [], 0, 0, 3, false⟩

theorem wit_BoardEvents :
    (let s := enqueue 76 waiter z
     mget s.brd.run 76 = none ∧ mgetD [] s.brd.wait 76 = [waiter] ∧ mayGo s 76 waiter = true ∧ square s 76 511 / 16 % 8 ≠ 2 ∧ reqIndex waiter < 512 ∧
       waiter.task = 0) ∧
    (let s := enqueue 68 swept z
     mget s.brd.run 68 = none ∧ mgetD [] s.brd.wait 68 = [swept] ∧ mayGo s 68 swept = true ∧ square s 68 31 / 16 % 8 = 3 ∧ burstLeft s 68 3 = true ∧
       hasSquare s 68 3 = true ∧ square s 68 30 / 16 % 8 ≠ 3) ∧
    square (wr (aSbSq 0 0) 32 z) 0 0 / 16 % 8 = 2 ∧
    boardOff z 91 = false ∧ mget z.brd.biting 91 = none ∧
    mget (mset ([] : SMap Waiter) 0 waiter) 0 = some waiter ∧ waiter.bites = 0 := by decide

/-- Deferred squares: the one whose round has come, and one that still waits. -/
theorem test_roundStart :
    after (exec .roundStart { z with brd := { z.brd with deferred := [⟨0, 1, 32, 1⟩, ⟨0, 2, 32, 2⟩] } }) (fun t => t.brd.deferred = [⟨0, 2, 32, 1⟩]) = true := by decide

theorem wit_FiringSetsStatus : evReserved z 0 = false ∧ evReserved z 287 = false := by decide

/-- Queue 0 holds one record of two words in its draining bank. -/
def drained (q : Queue) : State := setQueue 0 q (wr (aEqAcc 0) (BitVec.allOnes 64) z)

theorem wit_QueueCommands :
    (3 : Nat) ∈ ({ z with ev := { z.ev with msixOwed := [3] } } : State).ev.msixOwed ∧
    (let s := drained { fill := [⟨0, false, [1, 2]⟩] }
     (queue s 0).drain = [] ∧ (queue s 0).drainGap = none ∧ (queue s 0).cur = none ∧ (queue s 0).fill ≠ [] ∧ (queue s 0).waiting = []) ∧
    (let s := drained { drain := [⟨0, false, [1, 2]⟩] }
     windowPort s 0 = true ∧ rdBit s (aEqAcc 0) 0 = true ∧ rdBit s (aEqCtl 0) 0 = true ∧ popWaits s 0 = false ∧ (popNow s 0 0 (queue s 0)).isSome = true) ∧
    (let s := wrFld (aEqCtl 0) 8 7 100 (drained {})
     windowPort s 15 = true ∧ rdBit s (aEqAcc 0) 15 = true ∧ popNow s 0 15 (queue s 0) = none ∧ rdFld s (aEqCtl 0) 8 7 ≠ 0) ∧
    (queue (drained { cur := some (0, [2]) }) 0).cur = some (0, [2]) ∧ (queue (drained { waiting := [(4, true), (5, true)] }) 0).waiting = [(4, true), (5, true)] ∧ z.ev.behind = [] ∧
    (let s := drained {}
     rdBit s (aEqAcc 0) (16 + 15) = true ∧ rdBit s (aEqCtl 0) 0 = true ∧ recWords (queue s 0).fill + 8 + 1 ≤ bankWords (rd s (aEqCtl 0))) := by decide

theorem wit_RecordEngines :
    (let s := wrFld aGlTlyctl 1 1 1 z
     rdBit s aGlTlyctl 1 = true ∧ rdBit s (aEqCtl (rdFld s aGlTlyctl 2 13)) 0 = true ∧ s.tly.exported < s.tly.next ∧
       recWords (queue s (rdFld s aGlTlyctl 2 13)).fill + 9 ≤ bankWords (rd s (aEqCtl (rdFld s aGlTlyctl 2 13)))) ∧
    ({ z with tly := { z.tly with sinceChk := 4096 } } : State).tly.sinceChk ≥ 4096 ∧ z.tly.sinceChk < 4096 := by decide

/-- Port 0 has a pop of queue 0 waiting, and one of queue 1 behind it. -/
def popsHeld : State := { drained { waiting := [(0, true)] } with ev := { (drained { waiting := [(0, true)] }).ev with behind := [(0, .pop 1 true)] } }

theorem wit_QueueCommands_held :
    windowPort popsHeld 0 = true ∧ popWaits popsHeld 0 = true ∧ (queue popsHeld 0).waiting = [(0, true)] ∧
    (setQueue 0 { queue popsHeld 0 with waiting := [] } popsHeld).ev.queues = [] ∧ popsHeld.ev.behind = [(0, .pop 1 true)] ∧
    rdBit popsHeld (aEqAcc 1) 0 = true ∧ rdBit popsHeld (aEqCtl 1) 0 = false ∧
    (let s := drained { waiting := [(0, true)] }
     windowPort s 0 = true ∧ popWaits s 0 = true ∧ s.ev.behind = []) := by decide

/-- The pop behind a waiting one follows once that has run into its limit; queue 1 is disabled and answers EMPTY (R524, R527). -/
theorem test_popsHeld : after (exec (.popStallExpiry 0) popsHeld) (fun t => t.ev.behind = [] ∧ t.out.length = 2) = true := by decide

/-- A counter that has wrapped is read with its WRAP bit. -/
theorem test_counterGather :
    after (exec .counterGather { z with cnt := { z.cnt with live := [(aPcSlc 0 1 / 8, 5)], wrap := [1] } }) (fun t => mgetD 0 t.cnt.image 1 = 0x1000000000005) = true := by
  decide
/-! ### Resets, power, heads -/

theorem wit_ColdResetAlways :
    (isH1 z = true ∨ (4 : Fin 5).val ≠ 3) ∧ z.part.phase ≠ .held ∧ 200 * satTo 65535 0 ≤ railNominal 4 * (200 - rdFld z (aPmRail 4) 8 5) := by decide

/-- The block held in cold reset by PORST_n, and by an internal cause. -/
def heldCold (hold : Bool) (a b : Option Image) : State :=
  let s := coldReset 0 hold { z with part := { z.part with porstN := hold } }
  { s with flash := { s.flash with slotA := a, slotB := b } }

theorem wit_ColdResetReleased :
    (let s := heldCold false (some ⟨1, 0⟩) none
     s.part.porstN = false ∧ s.pwr.hold = false ∧ s.flash.pend = false ∧ mayBoot s.flash s.flash.actB = true) ∧
    (let s := heldCold false none none
     s.part.porstN = false ∧ s.pwr.hold = false ∧ s.flash.pend = false ∧ mayBoot s.flash true = false ∧ mayBoot s.flash false = false) ∧
    (let s := heldCold true (some ⟨1, 0⟩) none
     s.pwr.hold = true ∧ s.pwr.low = [] ∧ s.part.thermtripN = true ∧ s.part.porstN = true ∧ s.flash.pend = false ∧ mayBoot s.flash s.flash.actB = true) ∧
    (let s := release_ strapsOpen (heldCold false none none)
     s.part.phase = .noImage ∧ s.halted = none ∧ s.flash.minsv ≤ 0) := by decide

/-- The block in a phase of a reset. -/
def inPhase (ph : Phase) : State := { z with part := { z.part with phase := ph } }

theorem wit_ColdResetEnds : (inPhase .cold).part.phase = .cold ∧ (inPhase .cold).halted = none := by decide

theorem wit_WarmResets :
    z.halted = none ∧ z.part.phase = .ready ∧ (inPhase (.resetting false)).part.perstN = true ∧ running (inPhase (.flush true)) = true ∧
    flushDone (flushGo (inPhase (.flush false))) = true ∧ (∀ n : Fin 52, rdBit (inPhase (.resetting false)) (aPmCal n) 25 = false) ∧
    rdFld (inPhase (.flush true)) aFbStat 0 2 ≠ 3 ∧ (inPhase (.flush true)).pwr.cause ≠ 1 ∧ (inPhase (.flush true)).pwr.cause ≠ 2 ∧
    (let s : State := { inPhase (.flush false) with pwr := { z.pwr with cause := 1 } }
     flushDone (flushGo s) = true ∧ (flushGo s).pwr.cause = 1 ∧ rdFld (flushGo s) aFbStat 0 2 ≠ 3) ∧
    (let s : State := { wrFld aFbStat 0 2 3 (inPhase (.flush false)) with pwr := { z.pwr with cause := 1 } }
     flushDone (flushGo s) = true ∧ rdFld (flushGo s) aFbStat 0 2 = 3 ∧ selfReportWaits (flushGo s) = false) := by decide

theorem wit_PersistentFlush :
    windowPort z 15 = true ∧ (15 : Nat) ∉ z.pwr.gpf ∧ z.pwr.flush = false ∧
    (let s : State := { wrFld aPmCtl 1 1 1 z with part := { z.part with pwrWarnN := false }, pwr := { z.pwr with flush := true } }
     running s = true ∧ s.part.pwrWarnN = false ∧ rdBit s aPmCtl 1 = true ∧ s.pwr.flush = true) ∧
    (let s : State := { wrFld aPmCtl 1 1 1 z with part := { z.part with pwrWarnN := false } }
     running s = true ∧ s.part.pwrWarnN = false ∧ rdBit s aPmCtl 1 = true ∧ s.pwr.flush = false) ∧
    ({ z with pwr := { z.pwr with pwHold := true } } : State).pwr.pwHold = true ∧ z.part.pwrWarnN = true := by decide

/-- In Brace. -/
def braced : State := wrFld aPmStat 0 1 1 z

theorem wit_BraceEvents :
    awake z = true ∧ inBrace braced = true ∧ inBrace z = false ∧ rdBit (wrFld aPmCtl 0 1 1 z) aPmCtl 0 = true ∧ braced.pwr.low = [] ∧ braced.part.pwrWarnN = true ∧
    (let mv := railNominal 0 * 190 / 200
     railNominal 0 * (200 - rdFld braced (aPmRail 0) 8 5) < 200 * mv ∧ 200 * mv < railNominal 0 * (200 - rdFld braced (aPmRail 0) 0 4)) ∧
    railNominal 4 * (200 - rdFld z (aPmRail 4) 0 4) ≤ 200 * railNominal 4 ∧ railNominal 4 * (200 - rdFld z (aPmRail 4) 8 5) < 200 * railNominal 4 := by decide

/-- The QD48-C1 variant. -/
def c1 : State := { z with part := { z.part with variant := .c1 } }

theorem wit_TemperatureReading :
    115 ≤ tj (setTemps (Vector.replicate 16 115) z) ∧ tj (setTemps (Vector.replicate 16 114) z) < 115 ∧ awake z = true ∧
    tj (setTemps (Vector.replicate 16 114) c1) < 115 ∧ awake c1 = true := by decide

theorem wit_CalibrationEvents :
    (let s := wrFld aPmDorm 0 4 15 z
     isH1 s = true ∧ rdBit s aPmDorm 3 = true ∧ rdBit s aPmDorm 19 = false ∧ stackBusy s 3 = false) ∧
    rdBit (wrFld aPmDorm 19 1 1 z) aPmDorm 19 = true ∧ rdBit z aPmStat 4 = false ∧ rdBit (wrFld aPmStat 4 1 1 z) aPmStat 4 = true ∧
    (let s := (List.range 56).foldl (fun s n => wrFld (aPmCal n) 24 1 1 s) (wrFld aPmStat 4 1 1 z)
     rdBit s aPmStat 4 = true ∧ (∀ n : Fin 56, hasRecord s n = true → rdFld s (aPmCal n) 22 2 ≠ 1 ∨ rdBit s (aPmCal n) 24 = true) ∧
       ∀ n : Fin 56, hasRecord s n = true → rdFld s (aPmCal n) 22 2 ≠ 3) ∧
    rdBit (wrFld (aPmCal 51) 25 1 1 z) (aPmCal 51) 25 = true ∧
    (let s := wrFld (aPmCal 55) 22 2 2 z
     rdFld s (aPmCal 55) 22 2 = 2 ∧ rdFld s aPmLoad 7 2 < 2) := by decide

theorem wit_PelestAndClocks :
    pelestUp z = true ∧
    (let s := wrFld aGlStat 3 1 1 z
     rdBit s aGlStat 3 = true ∧ s.pwr.mgmtLost = false ∧ s.ctl.act = none ∧ s.ctl.bg = []) ∧
    ({ z with ctl := { z.ctl with act := some true } } : State).ctl.act = some true ∧ ({ z with pwr := { z.pwr with mgmtLost := true } } : State).pwr.mgmtLost = true := by
  decide

/-- Host port `p` with its link state and its mode. -/
def hostAt (p ls : Nat) (agent : Bool) : State := wrFld (aHpStat p) 0 3 ls (if agent then asAgent p z else z)

theorem wit_HostLinkEvents :
    (let s := hostAt 15 3 true
     inService s 15 = true ∧ linkUp s 15 = true ∧ hostMode s 15 = false) ∧
    (let s := wrFld (aHpCtl 0) 5 2 3 (hostAt 0 3 false)
     inService s 0 = true ∧ linkUp s 0 = true ∧ hostMode s 0 = true ∧ rdBit s (aMbCtl 0) 1 = false ∧ mayNarrow s 0 = true ∧ 1 < 2 ^ trainedLanes s 0 ∧
       mgetD 0 s.hst.narrow 0 = 0 ∧ mgetD [] s.brd.wait 76 = [] ∧ mget s.brd.run 76 = none ∧ rdBit s (aHpCtl 0) 6 = true ∧ rdFld s (aHpStat 0) 0 3 ≠ 6) ∧
    rdFld (hostAt 3 5 false) (aHpStat 3) 0 3 = 5 ∧ rdFld (hostAt 3 6 false) (aHpStat 3) 0 3 = 6 ∧ peerTrains ⟨3, 2, true⟩ = true ∧ peerTrains ⟨3, 2, false⟩ = false := by decide

theorem wit_CellarLinkEvents :
    rdBit z (aDpCtl 7) 0 = true ∧ rdBit z (aDpStat 7) 9 = false ∧ rdFld z (aDpStat 7) 0 3 ≠ 6 ∧
    (let s := wrFld (aDpStat 7) 0 3 2 z
     rdFld s (aDpStat 7) 0 3 = 2 ∧ s.flash.serials = []) ∧
    (let s := wrFld (aDpCtl 7) 1 1 0 z
     rdBit s (aDpCtl 7) 1 = false) := by decide

theorem wit_HeadRequests :
    inService z 15 = true ∧ hostMode z 15 = true ∧ inService (inPhase .cold) 15 = true ∧ mbServed z = true ∧ pelestUp z = true := by decide
/-! ### Background work and protection -/

/-- One task under way. -/
def tasked (t : BgTask) : State := { z with bg := [t] }

theorem wit_SweepsEnd :
    (let t : BgTask := ⟨.windowSweep 15 255, 0, 0, 0, false⟩
     taskOf (tasked t) (.windowSweep 15 255) = some t ∧ windowLeft 15 t (tasked t) = [] ∧ windowAsked 15 t (tasked t) = false) ∧
    (let t : BgTask := ⟨.domainSweep, 2 ^ 24, 0, 0, false⟩
     taskOf (tasked t) .domainSweep = some t ∧ 2 ^ 24 ≤ t.next ∧ (tasked t).home.opened = []) ∧
    purged (inRange z 0 255) (tasked ⟨.rangeFlush, 0, 255, 0, false⟩) = true ∧ fillsIn (inRange z 0 255) (tasked ⟨.rangeFlush, 0, 255, 0, false⟩) = false ∧
    (let t : BgTask := ⟨.hostReclaim 0, 0, 0, 0, false⟩
     taskOf (tasked t) (.hostReclaim 0) = some t ∧ hostLines 0 (tasked t) = []) := by decide

/-- A key slot LOADED at generation 255, with its retirement under way. -/
def retiring : State := wr (aSlKs 1023) (mkWord [(0, 2, 1), (2, 8, 255)]) (tasked ⟨.keyRetire, 0, 0, 1023, false⟩)

theorem wit_KeyAndCopyTasksEnd :
    (let s : State := { tasked ⟨.maint, 0, 0, 0, false⟩ with hc := { z.hc with maint := some { flush := true, byAddr := true, base := 0, count := 0, ended := true } } }
     taskOf s .maint ≠ none ∧ maintDone s = true) ∧
    mirrorOn (tasked ⟨.mirrorCopy, 0, 0, 0, false⟩) = false ∧ copiesRead z = true ∧
    (let s := wr aFbBuddy 2 (tasked ⟨.mirrorCopy, 5, 4, 0, false⟩)
     mirrorOn s = true ∧ copiesRead s = true ∧ s.mir.sent.length < 4096) ∧
    (let s := wr aSlRkptr 1 (tasked ⟨.rekey, 0, 0, 0, false⟩)
     taskOf s .rekey ≠ none ∧ rdFld s (aSlKrt (fld (rd s aSlRkctl) 0 12) + 8) 0 34 < rdFld s aSlRkptr 0 34 ∧ s.sl.reseals = []) ∧
    taskOf retiring .keyRetire ≠ none ∧ purged (ofSlot 1023 retiring) retiring = true ∧ storedAll (ofSlot 1023 retiring) retiring = true ∧
    rdFld retiring (aSlKs 1023) 2 8 = 255 ∧ retiring.ctl.bg = [] ∧ rdFld (wrFld aSlStat 0 2 1 z) aSlStat 0 2 = 1 := by decide

theorem wit_RetirementTasksEnd :
    z.flash.lumber.length < 4095 ∧
    (let t : BgTask := ⟨.sliceDrain, 31, 0, 1, false⟩
     taskOf (tasked t) .sliceDrain = some t ∧ t.next < 32 ∧ t.arg < 2) ∧
    taskOf (tasked ⟨.pageRetire, 0, 0, 0, false⟩) .pageRetire ≠ none ∧
    (let s : State := { wrFld aHcPcmap (6 * 3 + 5) 1 1 (tasked ⟨.pcRetire, 0, 0, 0, false⟩) with hc := { z.hc with pcWant := some 127 } }
     taskOf s .pcRetire ≠ none ∧ s.hc.pcWant = some 127 ∧ pcWays 127 s = [] ∧ s.hc.evs = [] ∧ rdBit s aHcPcmap (6 * (127 % 4) + 5) = true) := by decide

theorem wit_sliceEmpty : sliceEmpty 31 (tasked ⟨.sliceDrain, 31, 0, 1, false⟩) = true := by decide

/-- The background reserve used up. -/
def noReserve : State := { tasked ⟨.rangeFlush, 0, 0, 0, false⟩ with lar := { z.lar with used := [(1, 65536)] } }

theorem wit_BackgroundUnits :
    taskOf noReserve .rangeFlush ≠ none ∧ larUsed z 1 < shareLimit z 1 ∧ shareLimit noReserve 1 ≤ larUsed noReserve 1 ∧
    taskOf (tasked ⟨.probeDir, 0, 0, 0, false⟩) .probeDir ≠ none ∧ dirFindIn z (ownLine z 0) 16 0 = none ∧
    (let s : State := { z with dir := [(dirKey (ownLine z 0) 3, { st := .p, tag := dirTag (ownLine z 0) })] }
     dirFindIn s (ownLine s 0) 16 0 = some (dirKey (ownLine z 0) 3)) ∧
    taskOf (tasked ⟨.probeHf, 0, 0, 0, false⟩) .probeHf ≠ none ∧ hfFindIn z (inLine z 0) 16 0 = none ∧
    (let s : State := { z with hf := [(hfKey (inLine z 0) 15, { pv := 1, tag := hfTag (inLine z 0) })] }
     hfFindIn s (inLine s 0) 16 0 = some (hfKey (inLine z 0) 15)) ∧ taskNo .rangeFlush = 7 := by decide

theorem wit_ProtectionEvents :
    (let s : State := { z with hc := { z.hc with hbm := [(127, [.write 0 0 false [] (7, 0)])] } }
     (hbmNext s 127).isSome = true ∧ rdBit s aPmDorm (16 + 127 % 4) = false) ∧
    (let s : State := { z with hc := { z.hc with hbm := [(0, [.read 0 0 false [(56, waiter)] none])] } }
     (hbmNext s 0).isSome = true ∧ rdBit s aPmDorm 16 = false) ∧
    isH1 z = true ∧ (65536 * 31 + 65535 % 65536) ∈ ({ z with hc := { z.hc with fetch := [65536 * 31 + 65535] } } : State).hc.fetch ∧
    inStandard z 7 = false ∧
    (let s := wr (aDpIset 0) (mkWord [(0, 1, 1), (6, 8, 128)]) z
     inStandard s 7 = true ∧ pageAt s 7 (2 ^ 40) = none ∧ cntLive s (aEcCcnt 15) + 1 < 2 ^ 48) ∧
    (let s := wrFld aEcCtl 0 3 7 z
     scrubs ⟨6, 0, 0, .clean⟩ s = true ∧ larUsed s 1 < shareLimit s 1) ∧
    (let s : State := { wrFld aEcCtl 0 3 7 z with lar := { z.lar with used := [(1, 65536)] } }
     scrubs ⟨15, 0, 0, .clean⟩ s = true ∧ shareLimit s 1 ≤ larUsed s 1) := by decide

theorem wit_SecurityEvents :
    (let s := asAgent 15 z
     rdBit s (aHpCtl 15) 0 = true ∧ nonLead s 15 = false ∧ hostMode s 15 = false) ∧
    hostMode z 0 = true ∧
    (let s : State := { z with ports := { z.ports with heads := [(3, { session := true })] } }
     (head s 3).session = true ∧ (head s 3).ideMem = 0 ∧ (head s 3).ideIo = 0) := by decide
/-! ### Mailboxes -/

theorem wit_MbAccepts : ∀ grp : Fin 8, MbAccepts z 0 grp := by
  intro grp
  refine ⟨⟨rfl, rfl⟩, by decide, fun _ => by decide, ?_, by decide, by decide⟩
  revert grp; decide

theorem wit_MbAccepts_i3c : MbAccepts z 16 0 := ⟨⟨rfl, rfl⟩, by decide, fun h => absurd h (by decide), by decide, by decide, by decide⟩

theorem wit_MailboxReads : (0xFFFF : Nat) ∉ knownOpcodes := by decide

theorem wit_MailboxGates :
    pelestUp (wrFld aGlStat 3 1 1 z) = false ∧ nonLead z 15 = false ∧ (mbAuth z 15).testBit 2 = false ∧ (mbAuth z 0).testBit 2 = true ∧
    (let s : State := { wr aGlTlyctl 0 z with tly := { z.tly with next := 65000 } }
     blockedByTally s (mbOrigin 0) = true) ∧
    (mbAuth z 0).testBit 5 = true ∧ (mget ({ z with ctl := { z.ctl with bg := [(0, ⟨0xC101, 0, 0⟩)] } } : State).ctl.bg 0).isSome = true := by decide

theorem wit_FirmwareCommands :
    actPending z = false ∧ z.flash.minsv ≤ 0 ∧ stagedReady { z with flash := { z.flash with slotB := some ⟨2, 0⟩ } } = true := by decide

theorem wit_TallyAndTimeCommands :
    rdBit z aGlSnapst 0 = false ∧ z.time.ft.toNat ≤ 0 ∧ rdBit (wrFld aGlSnapst 0 1 1 z) aGlSnapst 0 = true := by decide

theorem wit_MailboxSettings : rdBit z (aMbCtl 15) 10 = false ∧ tlyHeld z.tly < 60000 ∧ blockedByTally z (mbOrigin 15) = false := by decide

theorem wit_KeyCommands :
    (let s : State := { z with ports := { z.ports with heads := [(0, { session := true })] } }
     rdFld s (aSlKs 1023) 0 2 = 0 ∧ inSession s 0 = true) ∧
    inSession z 0 = false ∧ rdBit z aSlStat 2 = false ∧ rdFld z aSlStat 0 2 = 0 ∧
    retireRefused (wr (aSlKs 1) 5 z) 1 = false := by decide

theorem wit_FabricCommands :
    (let s := wrFld aFbStat 3 13 (1 + 2 * 5) (wr aFbHubid 0x1007 z)
     rdBit s aFbHubid 12 = true ∧ rdFld s aFbStat 0 2 = 0 ∧ isRoot s = false ∧ rootId s = some 5) ∧
    hubId z ≠ 4095 ∧ rdFld z aFbBuddy 0 2 = 0 ∧ rdBit z aFbBuddy 2 = false ∧
    (let s := wr aFbBuddy 2 z
     rdFld s aFbBuddy 0 2 ≠ 0 ∧ pairInUse s = false ∧ mirrorOn s = true ∧ s.mir.planned = 0 ∧ s.mir.back = false) ∧
    (let s := wr aFbBuddy 6 z
     rdBit s aFbBuddy 2 = true ∧ mirrorOn s = true) ∧
    fmSource (wr aMbFmsrc 7 z) 7 = true ∧ fmSource (wr aMbFmsrc 7 z) 8 = false ∧
    (takeCells 7 1 1 z).isSome = true ∧ takeCells 7 1 1 (wr aLdShared 0 (wr (aLdCap 7) 0 z)) = none := by decide

theorem wit_RetirementCommands :
    z.flash.lumber.length < 4096 ∧ isH1 z = true ∧ (getWay z (16 * 2097151 + 15)).ret = false ∧ (16 * 2097151 + 15) ∉ z.hc.retWant ∧ z.hc.pcWant = none ∧
    127 ∉ z.hc.retPcs ∧ rowsUsed z (65535 % 4) (65535 / 4 % 32) < 8 ∧ spareBankUsed z 127 = false ∧ z.prot.moving = none ∧
    rdBit z aPmDrain 0 = false ∧ rdBit z aPmDrain 6 = false ∧
    (let s := wrFld aPmDrain 0 7 (31 * 2 + 64) z
     rdBit s aPmDrain 6 = true ∧ rdFld s aPmDrain 1 5 = 31) := by decide

/-- A standard interleave set on port 0 from LA 0 on. -/
def oneSet : State := wr (aDpIset 0 + 8) 0 (wr (aDpIset 0) (mkWord [(0, 1, 1), (6, 8, 1), (16, 12, 0), (32, 13, 1)]) (wr aDrHomelim 1 z))

theorem wit_RetirePage : isetOf oneSet 0 = some 0 ∧ nextSpare oneSet 0 < 1024 ∧ populated oneSet 0 = true := by decide

theorem wit_fullLumber : ∃ s : State, 4096 ≤ s.flash.lumber.length :=
  ⟨{ z with flash := { z.flash with lumber := List.replicate 4096 (0, 0) } }, by rw [List.length_replicate]⟩
/-! ### Links -/

/-- An Idior port with its link state and link. -/
def linked (p st : Nat) (k : Link) : State := setLink p k (wrFld (aIpStat p) 0 3 st z)

/-- A header of hub `src` at incarnation 1, with its XTRA. -/
def hdrOf (src : HubId) (xtra : BitVec 64) : Hdr := { mkHdr z 0 7 0 0 0 0 with src := src, inc := 1, xtra := xtra }

/-- Hub 1 is live at incarnation 1. -/
def with1 (s : State) : State := wrFld (aFbInc 0) 16 8 1 s

theorem wit_LinkFlits :
    rdFld z (aIpStat 0) 0 3 ≠ 3 ∧
    (let s := linked 11 3 {}
     running s = true ∧ rdFld s (aIpStat 11) 0 3 = 3 ∧ (link s 11).wires + 1 < 2 ^ 64 ∧
       (link s 11).wires + (link s 11).retry.length < 2 ^ 64 ∧ (link s 11).nakSent = false ∧ (link s 11).sinceAck + 1 < 16 ∧
       (link s 11).naks = 0 ∧ 1 < rdFld s (aIpCtl 11) 12 4 ∧ (link s 11).owe = [] ∧ (link s 11).part = none) ∧
    2 < slotsOf { msg0 with opc := .wrL, len := 5 } ∧ slotsOf { msg0 with opc := .wrL, len := 5 } ≤ 2 + 7 ∧
    (link (linked 11 3 { part := some ({ msg0 with opc := .wrL, len := 5 }, 2) }) 11).part = some ({ msg0 with opc := .wrL, len := 5 }, 2) ∧
    rdFld (wrFld (aIpCtl 11) 12 4 1 z) (aIpCtl 11) 12 4 ≤ 1 ∧
    (let s := with1 (wrFld aSlLpsk 11 1 1 (linked 11 3 {}))
     classOf .rdS < 5 ∧ rdBit s aSlLpsk 11 = true ∧ (0 : HubId) = hubId s ∧ accepts s (hdrOf 1 0) = true) := by decide

theorem wit_LinkTraining :
    (let s := linked 0 1 {}
     rdBit s (aIpCtl 0) 0 = true ∧ rdFld s (aIpStat 0) 0 3 = 1) ∧
    (let s := linked 0 2 {}
     rdFld s (aIpStat 0) 0 3 = 2 ∧ (link s 0).retry = []) ∧
    (let s := linked 0 4 {}
     rdFld s (aIpStat 0) 0 3 = 4 ∧ (link s 0).full = false) ∧
    (let s := wrFld (aIpPeer 0) 16 1 1 (linked 0 4 { retry := [(0, [])] })
     (link s 0).retry ≠ [] ∧ rdBit s (aIpPeer 0) 16 = true) ∧
    (let s := wrFld (aIpCtl 0) 1 1 1 (linked 0 3 { spare := true })
     rdBit s (aIpCtl 0) 1 = true ∧ (link s 0).spare = true ∧ rdBit s (aIpStat 0) 3 = false) ∧
    (let s := wrFld (aIpCtl 0) 1 11 0 (linked 0 3 {})
     rdBit s (aIpCtl 0) 1 = false ∧ rdFld s (aIpCtl 0) 4 8 = 0) := by decide

theorem wit_LinkRecoveryAndRoutes :
    (link (linked 0 5 { lkWait := true }) 0).lkWait = true ∧ (link z 0).lkWait = false ∧ (hdrOf 1 11).xtra.toNat % 16 = 11 ∧ z.rx = [] ∧
    ({ z with routeWait := [(msg0, [])] } : State).routeWait = [(msg0, [])] ∧ outPort z msg0.dst (channelOf msg0) = none ∧
    (let s := wr (aFbRt 0) 1 (linked 0 3 {})
     outPort s msg0.dst (channelOf msg0) = some 0 ∧ bit (route s 0) 0 = true ∧ portActive s 0 = true) ∧
    ∀ p : Fin 12, bit (route z 4095) p = true → portActive z p = false := by decide
/-! ### The fabric, mirroring, the cellar path -/

/-- A transaction of line 0 with one snoop to hub 1. -/
def snooping (tries : Nat) : Txn := { newTxn 0 (.remote (hdrOf 2 0)) .rdX 7 0 with snps := [⟨1, .snpI, false, false, tries, none, []⟩] }

/-- That transaction open. -/
def opened (t : Txn) : State := { z with home := { z.home with opened := [t] } }

/-- The root, which knows of a death of hub 1 at FT 0, with the reclaims owed. -/
def rootOf (owed : List HubId) : State := { wrFld aFbStat 2 1 1 z with fab := { z.fab with deaths := [(1, (0, owed))] } }

theorem wit_DeathNotices :
    txnOf z (inLine z 0) = none ∧ txnOf (opened (snooping 3)) (inLine (opened (snooping 3)) 0) = some (snooping 3) ∧
    txnOf (opened (snooping 2)) (inLine (opened (snooping 2)) 0) = some (snooping 2) ∧ hubLive (opened (snooping 3)) 1 = false ∧
    hubIn (hdrOf 1 0) = hubId z ∧ hubIn (hdrOf 1 1) ≠ hubId z ∧ isRoot z = false ∧ isRoot (rootOf []) = true ∧
    (mget (rootOf []).fab.deaths (hubIn (hdrOf 2 1)).toNat).isSome = true ∧ mget (rootOf []).fab.deaths (hubIn (hdrOf 2 3)).toNat = none := by decide

/-- A paired hub whose buddy, hub 1, is dead; mirror entry 7 is complete. -/
def widowed : State :=
  { wrFld (aFbMir 7) 0 4 9 (wr aFbBuddy (mkWord [(0, 2, 3), (3, 12, 1)]) z) with fab := { z.fab with dead := [(1, 1)] } }

theorem wit_ReclaimsAndTakeovers :
    deadWait widowed 1 = 1 ∧ deadWait z 1 ≠ 1 ∧ reclaimLeft 1 z = false ∧ reclaimLeft 1 (opened (snooping 0)) = true ∧
    mget (rootOf [2]).fab.deaths (hubIn (hdrOf 2 1)).toNat = some (0, [(hdrOf 2 1).src]) ∧ buddy widowed = hubIn (hdrOf 2 1) ∧ buddy z ≠ hubIn (hdrOf 2 1) ∧
    z.home.opened.any forwardedOpen = false ∧
    (let t : Txn := { newTxn 0 (.remote { hdrOf 1 0 with rqh := 1 }) .rdX 7 0 with answered := true }
     forwardedOpen t = true ∧ hubLive (with1 z) 1 = true) ∧
    ({ widowed with mir := { widowed.mir with await := true } } : State).mir.await = true ∧ z.mir.await = false ∧ rdBit widowed (aFbMir 7) 0 = true ∧ rdBit widowed (aFbMir 7) 3 = true ∧
    rdBit widowed (aFbMir 7) 1 = false ∧ deadWait z (BitVec.ofNat 12 0) ≠ 1 ∧ (takeCells 7 1 1 z).isSome = true ∧
    takeCells 7 1 1 (wr aLdShared 0 (wr (aLdCap 7) 0 z)) = none ∧
    rdBit z (aFbTko 0) 0 = false := by decide

theorem wit_Joining :
    mayJoin z 4095 = true ∧ mayJoin (rootOf []) 1 = false ∧ mayJoin { rootOf [] with time := { z.time with ft := 1000000 } } 1 = true ∧
    (mget (rootOf []).fab.deaths 1).isSome = true ∧
    (let s := wrFld (aFbInc 0) 24 8 1 (wrFld (aFbInc 0) 16 8 1 (wrFld aFbStat 2 1 1 z))
     mayJoin s 1 = false ∧ mget s.fab.deaths 1 = none) ∧ hubLive z 1 = false ∧
    hubIn (hdrOf 1 (5 * 2 ^ 16)) = hubId z ∧ rdFld z aFbHubid 16 8 ≠ (hdrOf 1 (5 * 2 ^ 16)).xtra.toNat / 2 ^ 16 % 256 ∧ (hdrOf 1 0).xtra.toNat.testBit 15 = false ∧
    rdBit z aFbHubid 12 = false ∧ (hdrOf 1 0x8000).xtra.toNat.testBit 15 = true := by decide

theorem wit_RootEvents :
    rootId z = none ∧
    (let s := wrFld aFbRoot 8 1 1 z
     rdBit s aFbRoot 8 = true ∧ rdFld s aFbRoot 9 12 = (hubId s).toNat) ∧
    rootId (wrFld aFbStat 3 13 (1 + 2 * 5) z) = some 5 ∧
    (let s : State := { z with fab := { z.fab with calm := 64 } }
     64 ≤ s.fab.calm ∧ s.fab.best = 0) := by decide

/-- Mirroring with buddy 1. -/
def paired : State := with1 (wr aFbBuddy (mkWord [(0, 2, 2), (3, 12, 1)]) z)

theorem wit_MirrorMessages :
    accepts paired (hdrOf 1 1) = true ∧ (1 : HubId) = buddy paired ∧ rdFld paired aFbBuddy 0 2 = 2 ∧ (hdrOf 1 1).xtra.toNat % 2 ^ 32 = paired.mir.expect ∧
    paired.mir.early = [] ∧ (takeProto 7 1 paired).isSome = true ∧
    (takeProto 7 1 { paired with lar := { z.lar with used := [(0, 2 ^ 18)] } }) = none ∧ (7 : Nat) ∉ paired.mir.copies.erase 7 ∧ paired.mir.held = [] ∧
    paired.cel.owed = [] ∧ accepts z (hdrOf 1 1) = false ∧
    (let s : State := { paired with mir := { z.mir with sent := [(1, msg0)], tries := 2 } }
     s.mir.sent ≠ [] ∧ 2 ≤ s.mir.tries) := by decide

/-- An access of granule 0 has been issued. -/
def reading : State := { z with cel := { z.cel with ops := [{ id := 0, line := 0, wr := none, dest := .nobody, issued := true, written := false }] } }

theorem wit_CellarEvents :
    z.sl.reseals = [] ∧ (todo reading 0).any (fun o => o.issued) = true ∧ z.ports.fences = [] ∧
    (let s : State := { z with sl := { z.sl with reseals := [{ block := 2 ^ 34 - 1, major := 1, slot := 0, gen := 1, left := [], done := [] }], due := [blkKey 11 7] } }
     s.sl.reseals.any (fun x => x.block = 2 ^ 34 - 1 && x.left.isEmpty) = true ∧ blkKey 11 7 ∈ s.sl.due ∧ tooSoon s (blkKey 11 7) = false) ∧
    rdBit z (aDpStat 7) 9 = false ∧ rdFld (wrFld (aDpStat 7) 0 3 6 z) (aDpStat 7) 0 3 = 6 ∧ rdFld z (aDpStat 7) 0 3 ≠ 6 := by decide

/-- The read of granule 0 with a root counter of 1, and a top node that comes back with MAC field 0 or 1. -/
def tampered : State := wr (aSlRoot 0) 1 reading

/-- The top node of block 0. -/
def topNode (bits : LineBits) : MetaBlock := ⟨11, 0, bits, false, false⟩

theorem tampered_step (s : State) (bits : LineBits) (h1 : parentCtr s 11 0 = 1) (h2 : getBlk s 11 0 = none) (h3 : blkKey 11 0 ∉ s.sl.struck)
    (h : ¬ bfld bits 448 64 = (blkMac s 11 0 1 bits).toNat) :  chainStep [topNode bits] 0 (.ok, s) 11 = (.halt 3, s) := by
    simp [chainStep, topNode, copyOf, copyGood, h1, h2, h3, h, lostMark]

theorem tampered_rest  (s : State) (bits : LineBits)  : ∀ l : List Nat, l.foldl (chainStep [topNode bits] 0) (.halt 3, s) = (.halt 3, s) := by
    intro l; induction l with
    | nil => rfl
    | cons a l ih => rw [List.foldl_cons]; simpa [chainStep] using ih

theorem tampered_chain (s : State) (bits : LineBits) (h1 : parentCtr s 11 0 = 1) (h2 : getBlk s 11 0 = none) (h3 : blkKey 11 0 ∉ s.sl.struck)
    (h : ¬ bfld bits 448 64 = (blkMac s 11 0 1 bits).toNat) :  chain [topNode bits] 0 s = (.halt 3, s) := by
    unfold chain; rw [List.foldl_cons, tampered_step s bits h1 h2 h3 h]; exact tampered_rest s bits _

theorem heldState_stop (bl : List MetaBlock) (s : State) (c : Nat) (h : chain bl 0 s = (.halt c, s)) : heldState bl 0 s = (.stop c, s) := by
  unfold heldState
  simp only [Nat.zero_div, h]

theorem tampered_halts (s : State) (bits : LineBits) (h1 : parentCtr s 11 0 = 1) (h2 : getBlk s 11 0 = none) (h3 : blkKey 11 0 ∉ s.sl.struck)
    (h : ¬ bfld bits 448 64 = (blkMac s 11 0 1 bits).toNat) : heldState [topNode bits] 0 s = (.stop 3, s) :=
  heldState_stop _ _ _ (tampered_chain s bits h1 h2 h3 h)

/-- A top node whose MAC field is 1 and whose other bits are 0. -/
def macOne : LineBits := BitVec.ofNat 512 (2 ^ 448)

theorem macOne_words : ((List.range 7).map fun k => BitVec.ofNat 64 (macOne.toNat >>> (64 * k))) =
    (List.range 7).map fun k => BitVec.ofNat 64 ((0 : LineBits).toNat >>> (64 * k)) := by decide

theorem macOne_field : bfld macOne 448 64 = 1 := by decide

theorem wit_CellarEvents_halt :
    ∃ (r : CellarResp) (v : State), (todo tampered r.granule.toNat).any (fun o => o.issued) = true ∧
      heldState r.blocks r.granule.toNat tampered = (.stop 3, v) ∧ v.halted = none ∧ noteLate r tampered = tampered := by
  have same : blkMac tampered 11 0 1 macOne = blkMac tampered 11 0 1 0 := by unfold blkMac; rw [macOne_words]
  have h1 : parentCtr tampered 11 0 = 1 := by decide
  have h2 : getBlk tampered 11 0 = none := by decide
  have h3 : blkKey 11 0 ∉ tampered.sl.struck := by decide
  by_cases h : (blkMac tampered 11 0 1 0).toNat = 0
  · exact ⟨⟨0, 0, 0, 0, 0, false, [topNode macOne], false⟩, tampered, by decide,
      tampered_halts _ _ h1 h2 h3 (by rw [same, h, macOne_field]; decide), rfl, rfl⟩
  · exact ⟨⟨0, 0, 0, 0, 0, false, [topNode 0], false⟩, tampered, by decide,
      tampered_halts _ _ h1 h2 h3 (fun e => h (e.symm.trans (by simp [bfld]))), rfl, rfl⟩
/-! ### Hosts, agents, fences -/

/-- Host port 15 with its window 255 from HPA 0 to line 0 on, of 1 GiB and class `tc`, its decoder committed; an agent's port with `agent`. -/
def windowed (agent ro : Bool) (tc : Nat) : State :=
  let s := wr (aHpWin 15 255) (mkWord [(0, 1, 1), (1, 1, ro.toNat), (2, 3, tc), (8, 6, 30)]) (if agent then asAgent 15 z else z)
  { s with ports := { s.ports with heads := [(15, { decoder := some (0, 2 ^ 30) })] } }

/-- A request at host port 15. -/
def req15 : HostReq := ⟨15, 64, 7⟩

theorem wit_Admits_best : Admits (windowed false false 7) 15 7 (lineOf 64) 0 :=
  ⟨by decide, fun _ h => absurd h List.not_mem_nil, by decide, fun _ => by decide, fun h => absurd h (by decide)⟩

theorem wit_Admits_timed : Admits (windowed false false 0) 15 0 (lineOf 64) 0 :=
  ⟨by decide, fun _ h => absurd h List.not_mem_nil, by decide, fun h => absurd h (by decide), fun _ => by decide⟩

theorem wit_HostRequests :
    (let s := windowed false false 7
     running s = true ∧ portServes s 15 = true ∧ hostMode s 15 = true ∧ hostRefusal s 15 64 = none ∧
       ((winOf s 15 64).map fun w => (bit w.1 1, fld w.1 2 3, winFpa w.1 w.2 64)) = some (false, 7, 64) ∧ epochNow s = 0 ∧
       (takeCells 7 1 1 s).isSome = true ∧ stepFor s 15 64 = none ∧ s.ports.decoded = []) ∧
    ((winOf (windowed false true 7) 15 64).map fun w => bit w.1 1) = some true := by decide

/-- A host step on line 1 that waits for host port 15. -/
def asked (tries : Nat) (ro : Bool := false) : State :=
  { windowed false ro 7 with hst := { z.hst with steps := [⟨lineOf 64, [⟨15, 2, tries⟩], none, fullMask, .drop, 7, 0⟩] } }

theorem wit_HostPortEvents :
    admitting { windowed false false 7 with ports := { z.ports with closed := true } } = false ∧ hostRefusal z 15 64 = some 1 ∧
    (stepFor (asked 1) 15 64).isSome = true ∧ readOnlyAt (asked 1) 15 64 = false ∧ (stepFor (asked 1 true) 15 64).isSome = true ∧
    readOnlyAt (asked 1 true) 15 64 = true ∧ (takeProto 7 1 (asked 1)).isSome = true ∧
    takeProto 7 1 (wr aLdProto 0 (asked 1)) = none ∧ z.hc.hbm = [] ∧ (15, 2 ^ 48 - 1, (-8 : Int)) ∈ ({ z with hc := { z.hc with handOvers := [(15, 2 ^ 48 - 1, -8)] } } : State).hc.handOvers ∧
    (0, 0, (1 : Int)) ∉ z.hc.handOvers ∧ hpaOf (asked 1) 15 (lineOf 64) = some 64 ∧
    mget ([(9, ⟨0, 2, 7⟩)] : SMap Cell) 9 = some ⟨0, 2, 7⟩ ∧ isH1 z = true ∧
    (mgetD {} ({ z with hc := { z.hc with ssd := [(15, { na := true })] } } : State).hc.ssd 15).na = true ∧ z.lar.held = [] ∧ z.hc.wtLeft = [] := by decide

theorem wit_AgentRequests :
    (let s := windowed true false 7
     agentServes s 15 = true ∧ (15 : Nat) ∉ s.ports.agentOff ∧ (winOf s 15 64).isSome = true ∧ (takeCells 7 1 64 s).isSome = true ∧
       rdBit s (aHpAgirq 15) 0 = false ∧ s.ports.decoded = [] ∧ (takeCells 7 1 2 s).isSome = true ∧ (pcieAtom .cas 16 1 2 (64 % 64)).isSome = true ∧ agentRegion s 15 64 = none ∧ slotsReached s 15 = false) ∧
    agentRegion (wr (aHpMbar 15) 1 (windowed true false 7)) 15 64 = some 0xBC0040 ∧
    (let s := wr (aHpAgirq 15) (mkWord [(0, 1, 1), (16, 40, 5)]) (windowed true false 7)
     rdBit s (aHpAgirq 15) 0 = true ∧ rdFld s (aHpAgirq 15) 16 40 = (0x5FC0 : Hpa).toNat / 4096) ∧
    rdBit (wrFld (aHpCfga 0) 26 1 1 z) (aHpCfga 0) 26 = true ∧ rdBit z (aHpCfga 0) 24 = false ∧
    winOf z 15 (BitVec.ofNat 52 0) = none ∧ portServes z 15 = true ∧ slotsReached z 15 = true ∧ mget z.slots (4096 * 15 + 4095) = none ∧
    hubId z = 0 ∧
    (let s : State := { windowed false false 7 with ports := { z.ports with nextId := 1, outst := [(0, 15)] } }
     ((winOf s 15 (BitVec.ofNat 52 0)).map fun w => (bit w.1 1, homeOf (lineOf (winFpa w.1 w.2 0)))) = some (false, 0) ∧ mget s.ports.outst 0 = some 15) := by decide

/-- A fence of this hub's own, with nothing left to wait for. -/
def fenced (f : Fence) : State := { z with ports := { z.ports with fences := [(4095, f)] } }

theorem wit_Fences :
    portServes z 15 = true ∧ (mgetD (false, false, 0, 0) ({ z with ports := { z.ports with bells := [(0, (true, false, 0, 0))] } } : State).ports.bells 0).1 = true ∧
    (mgetD (false, false, 0, 0) z.ports.bells (4096 * 15 + 4095)).1 = false ∧ fld 3 0 2 = 3 ∧ fld 1 0 2 < 2 ∧ slotsReached z 15 = true ∧ fenceNo z = some 0 ∧
    slotsReached (windowed true false 7) 15 = false ∧ portServes (windowed true false 7) 15 = true ∧
    (let f : Fence := { slot := some (15, 4095) }
     (fenced f).ports.fences = [(4095, f)] ∧ f.slot = some (15, 4095) ∧ f.persist = false ∧ f.covered = [] ∧ f.members = [] ∧ f.step = 0 ∧ f.lim = 0) ∧
    accepts z (hdrOf 1 0) = false ∧ accepts (with1 z) (hdrOf 1 0) = true ∧ mget z.ports.fences 4095 = none ∧
    mget (fenced { step := 1 }).ports.fences 4095 = some { step := 1 } := by decide
/-! ### Messages and waiting rows -/

/-- A request of hub 1 for line 0, homed here. -/
def reqOf1 : Hdr := { hdrOf 1 0 with rqh := 1 }

theorem wit_HomeMessages :
    accepts (with1 z) reqOf1 = true ∧ inLine (with1 z) 0 = 0 ∧ handedBack (with1 z) 0 = false ∧ accountEpoch (epochNow z) 0 = (0, false) ∧
    (takeCells 7 1 2 (with1 z)).isSome = true ∧ txnOf z 0 = none ∧
    (let s := dirPut 0 { tag := dirTag 0, st := .x, p0 := 1, p1 := 1, p2 := 1 } (with1 z)
     (dirGet s 0).st = .x ∧ (dirGet s 0).p0 = 1 ∧ (1 : HubId) ∈ ptrs s (dirGet s 0)) ∧
    (1 : HubId) ∉ ptrs z (dirGet z 0) ∧ (dirGet z 0).st ≠ .a ∧ (takeProto 7 1 (with1 z)).isSome = true ∧
    (let t : Txn := { snooping 1 with tsn := 0 }
     txnOf (with1 (opened t)) 0 = some t ∧ (hdrOf 1 0).xtra.toNat % 2 ^ 32 = t.tsn ∧ t.probing = false) ∧
    (let t : Txn := { newTxn 0 (.remote reqOf1) .rdX 7 0 with answered := true }
     txnOf (opened t) 0 = some t ∧ allAnswered t = true ∧ t.step = false) := by decide

theorem wit_HomeMessages_admits : Admits (with1 z) 24 7 0 0 :=
  ⟨by decide, fun _ h => absurd h List.not_mem_nil, by decide, fun _ => by decide, fun h => absurd h (by decide)⟩

/-- Line 0 of hub 1. -/
def line1 : LineAddr := BitVec.ofNat 54 (2 ^ 42)

/-- A miss register of line 0 of hub 1. -/
def missOf (k : MrKind) : MissReg :=
  ⟨line1, k, 1, 7, 0, 4, [], .i, false, none, none, none, false, false, none, false, false, [], false, false, none, none, false, false, none⟩

/-- That register open as number 5. -/
def missing (k : MrKind) : State := { with1 z with req := { z.req with mrs := [(5, missOf k)] } }

/-- A completion of hub 1 for register 5. -/
def done5 : Hdr := { hdrOf 1 0 with line := line1, rtag := 5 }

theorem wit_HolderMessages :
    evOf (with1 z) (line1) = none ∧ mrOf (with1 z) (line1) = none ∧ standing (with1 z) (line1) = .i ∧ hostsOf (with1 z) (line1) = [] ∧
    accepts (missing .rdX) done5 = true ∧ mrFor (missing .rdX) done5 = some (missOf .rdX) ∧ mrFor (missing .atm) done5 = some (missOf .atm) ∧
    mrFor (missing .wr) done5 = some (missOf .wr) ∧ (missOf .wr).owner = false ∧ (missOf .wr).stand = none ∧ done5.g = false ∧ mrFor (with1 z) done5 = none ∧
    (with1 z).home.tagSnp = [] ∧ (takeProto 7 1 (with1 z)).isSome = true ∧ tagMiss (with1 z) (cacheSet (with1 z) line1) = true ∧
    tagMiss { with1 z with part := { z.part with variant := .c1 } } 0 = false ∧ takeProto 7 1 (wr aLdProto 0 (with1 z)) = none := by decide

/-- A demand of host port 0 for line 0. -/
def dmd : Demand := ⟨.host, 0, 7, 0, 0, .rdS, none, false, .alloc, 7, 0, [], false, 0, 0, none⟩

/-- The reasons for which a demand waits. -/
def waits (w : Why) : State := { z with req := { z.req with waits := [(w, dmd)] } }

theorem wit_WaitingRows :
    blocked z 0 = false ∧ blocked (opened (snooping 1)) (inLine (opened (snooping 1)) 0) = true ∧ mrOf z 0 = none ∧
    (rqHub (newTxn 0 (.remote reqOf1) .rdX 7 0)).isSome = true ∧ (rqHub (newTxn 0 (.own dmd) .rdX 7 0)).isSome = false ∧ tagMiss z 0 = true ∧
    tagMiss (tagUse 0 z) 0 = false ∧ (0 : Nat) ∉ z.hc.fetch ∧ isOwn z 0 = true ∧ isOwn (with1 z) line1 = false ∧ releaseReady z 0 false = true ∧ releaseReady (wr aLdProto 0 z) 0 true = false ∧
    waitsMbuf z (newTxn 0 (.remote reqOf1) .rdX 7 0) = false ∧ z.home.opened = [] ∧ z.req.mrs = [] ∧ z.home.waiting = [] ∧
    inputIndex (newTxn 0 (.remote reqOf1) .rdX 7 0) < 512 ∧ square z 0 (squareNow z) / 16 % 8 ≠ 2 ∧
    square (wr (aSbSq 0 0) 32 z) 0 (squareNow z) / 16 % 8 = 2 ∧
    (let t := newTxn 0 (.remote reqOf1) .rdX 7 0
     let s : State := { z with home := { z.home with wayWait := [(0, 5, t)] } }
     nextAlloc s 0 5 = some (0, 5, t)) ∧
    (mrPick (waits .reg) (sliceOf dmd.line) 7 false).isSome = true ∧ sliceOf dmd.line < 32 ∧ (httPick z 0 (newTxn 0 (.remote reqOf1) .rdX 7 0)).isSome = true ∧
    dirRoom z 0 = true ∧ hfRoom (waits .hf) dmd.line = true ∧ candidates (waits .way) (cacheSet z 0) ≠ [] ∧ mbufHolds (waits .mbuf) dmd = false ∧ hfLeaving z 0 = 0 ∧
    (let s : State := { c1 with hc := { z.hc with mbuf := List.replicate 16 ⟨0, 0, 0, 0, true, false, []⟩ } }
     waitsMbuf s (newTxn 0 (.remote reqOf1) .wrL 7 0) = true) ∧
    (let e : FrameEv := ⟨16 * 65536 * 32 - 1, 0, 0, false, 0, 7, 0, false⟩
     e.started = false ∧ e.way / 16 / 65536 = 31 ∧ evictRoom z e.way = true ∧ (getWay z e.way).st = []) ∧
    ({ flush := true, byAddr := true, base := 0, count := 64 } : Maint).flush = true ∧ (0 : LineAddr) ∉ z.home.keep ∧
    (let t : Txn := { snooping 1 with last := some msg0, answered := true }
     txnOf (opened t) 0 = some t ∧ t.fin = false ∧ t.tries < 3 ∧ otherPort (opened t) msg0.dst t.ports.head? t.tries = none) ∧
    (let s := wr (aFbRt 0) 3 (wrFld (aIpStat 1) 0 3 3 (linked 0 3 {}))
     otherPort s 0 (some 0) 1 = some 1 ∧ otherPort s 0 (some 0) 2 = some 1) := by decide
/-! ### The whole block -/

/-- In seal halt by JTAG. -/
def halted8 : State := { z with halted := some 8 }

theorem wit_SealHaltLasts :
    halted8.halted = some 8 ∧ halted8.part.porstN = true ∧ halted8.pwr.hold = false ∧ halted8.part.phase ≠ .held ∧
    after (step { halted8 with pending := [.roundStart] }) (fun t => t = halted8) = true ∧
    after (step { halted8 with pending := [.porstAssert] }) (fun t => t.halted = none && t.part.phase = .held) = true := by decide

theorem wit_StepRunsFrontCommand : z.pending = [] := rfl

theorem wit_EveryResetGivesDefaultSquares :
    (inPhase .cold).halted = none ∧ (inPhase (.flush true)).part.phase = .flush true ∧ (inPhase (.resetting false)).part.perstN = true ∧
    square (inPhase .cold) 0 15 = defaultSquare 15 ∧ square (inPhase .cold) 91 511 = defaultSquare 511 := by decide

theorem wit_SettingsOutOfRangeAreRefused :
    running z = true ∧ (windowPort z 0 = true ∧ blockedByTally z 0 = false ∧ denied z 0 (aHfBito 15) (locate (aHfBito 15)) = false) ∧
    blockedByTally z 34 = false ∧ denied z 34 aPcSmpctl (locate aPcSmpctl) = false ∧ fld 0x401 0 10 = 1 ∧ 1000 < fld 1001 0 10 ∧ fld 1024 0 10 = 0 ∧
    fld 6 1 5 < 4 ∧ 24 < fld 50 1 5 ∧ takes (verdict 34 (aHfBito 15) 1000 none z) (fun _ _ => true) ∧ takes (verdict 34 aPcSmpctl 48 none z) (fun _ _ => true) := by
  decide

theorem wit_LinkAndRecordFrames : linkCommand (.fecLockLoss 11) = true ∧ busyBoards z = [] ∧ z.ev.behind = [] ∧ recordCommand .tallyExport = true ∧ running z = true := by decide

theorem wit_JtagHalts : z.halted = none ∧ z.part.phase ≠ .held := by decide
/-! ### What the checks of WellFormed refuse -/

/-- A whole request of port 0. -/
def req0 : HostReq := ⟨0, 0, 0⟩

theorem test_wf_ports :
    [Instr.agentMemoryRead req0 0 none, .agentMemoryRead req0 65 none, .agentAtomicop req0 .swap 2 0 0, .agentInterruptWrite 0 0 (List.replicate 65 0),
     .l0pRequest 0 3, .cellFree 1048576, .handOver 0 (2 ^ 48) 1, .dataFlit 0 ⟨true, 0, true, true, 0, 0, 0, 0, false, false⟩ (List.replicate 8 .pad),
     .dataFlit 0 ⟨true, 0, true, true, 0, 0, 0, 0, false, false⟩ [.part msg0 7, .part msg0 0],
     .laneFault 0 16 true].map Instr.wf = List.replicate 10 false := by decide

theorem test_wf_tables :
    [Instr.directoryWayFree 0 32768, .hostFilterWayFree 0 32768, .frameEvictionDone 0 65536 0, .frameEvictionDone 0 0 16, .frameTagFetchDone 0 65536 .clean,
     .hbmAccessDone 128 .clean, .mergingBufferAge (2 ^ 40), .mergingDrainQueued (2 ^ 40), .cellarWriteCompletion (2 ^ 40), .resealDone (2 ^ 34),
     .sealWritebackDue 12 0].map Instr.wf = List.replicate 11 false := by decide

theorem test_wf_power :
    [Instr.railWarning 0 65536, .railResetLevel 0 65536, .railAboveWarning 0 65536, .loadBandChange 128, .bankSpareDone 128].map Instr.wf = List.replicate 5 false := by
  decide

theorem test_wf_control :
    [Instr.post 0 0 0 (List.replicate 65 0), .post 0 0 4096 [], .registerWrite 0 0 2 0, .squareWrite 0 0 512 0, .clearEventRecords 0 0 0 true (List.replicate 256 1),
     .regRead 0 0 0 0, .regRead 0 0 0 256, .regWrite 0 0 (List.replicate 128 (0, 0)), .tallyVerify 0 0 0 0 [], .tallyVerify 0 0 0 0 (List.replicate 32 0),
     .routeSet 0 0 (List.replicate 128 (0, 0)), .boardWrite 0 0 (List.replicate 241 (0, 0, 0)) none].map Instr.wf = List.replicate 12 false := by decide

theorem test_wf_retirement :
    [Instr.retireFrame 0 0 (2 ^ 21) 0, .retireFrame 0 0 0 16, .retirePc 0 0 128, .spareRow 0 0 0 65536, .spareBank 0 0 128, .retirePage 0 0 (2 ^ 36)].map Instr.wf
      = List.replicate 6 false := by decide

theorem test_wf_good :
    [Instr.agentMemoryRead req0 64 none, .l0pRequest 0 16, .cellFree 1048575, .sealWritebackDue 11 7, .regRead 0 0 0 255, .squareWrite 0 91 511 0,
     .registerWrite 0 0 64 0, .retirePage 0 0 (2 ^ 36 - 1)].map Instr.wf = List.replicate 8 true := by decide

/-! ### Single commands -/

/-- R421: cause JTAG is code 8 of SL_HALT; the shutdown state is dirty (R291). -/
theorem test_jtag : after (exec (.jtagInstruction .other) z) (fun t => t.halted = some 8 && rdFld t aSlHalt 0 4 = 8 && t.flash.dirty) = true := by decide

/-- R424 and Table 11.7: in seal halt a request does nothing. -/
theorem test_halted_request : exec (.memrddata req0) halted8 = .next halted8 := by rfl

/-- R488: a Pelest restart raises EV281 (13, Table 12.17). -/
theorem test_pelestWatchdog : after (exec .pelestWatchdog z) (fun t => rdBit t aGlStat 3 && bit (mgetD 0 t.ev.evStat 5) (281 - 240)) = true := by decide

/-- R308: an enabled port seeks its peer again from FAILED on a retrain request. -/
theorem test_retrain_failed : after (exec (.linkRetrainRequest 34 0) (linked 0 5 {})) (fun t => rdFld t (aIpStat 0) 0 3 = 1) = true := by decide

/-- R309: loss of lock on an ACTIVE port starts a retrain, counted in IP_CNT7. -/
theorem test_fecLockLoss : after (exec (.fecLockLoss 0) (linked 0 3 {})) (fun t => rdFld t (aIpStat 0) 0 3 = 4 && cntLive t (aIpCnt 0 7) = 1) = true := by decide

/-- R306: RLIM NAKs of one flit end in a retrain; a data flit with a bad CRC is answered with NAK once. -/
theorem test_crc_nak : after (exec (.dataFlit 0 ⟨true, 0, false, true, 0, 0, 0, 0, false, false⟩ []) (linked 0 3 {}))
    (fun t => t.out = [.nak 0 1023] && (link t 0).nakSent && (link t 0).expect = 0) = true := by decide

/-- R460: a flit whose tag fails is a seal halt with cause 4. -/
theorem test_tag_halt : after (exec (.dataFlit 3 ⟨true, 0, true, false, 0, 0, 0, 0, false, false⟩ []) (linked 3 3 {})) (fun t => t.halted = some 4) = true := by decide

/-- R116: TO of HF_BITO may be 1,000 but not 1,001; a refused write leaves result 1. -/
theorem test_bito : after (exec (.registerWrite 34 0x60000 8 1000) z) (fun t => rd t (aHfBito 0) = 1000) = true ∧
    after (exec (.registerWrite 34 0x60000 8 1001) z) (fun t => rd t (aHfBito 0) = 20 && mget t.ctl.last 34 = some (1, 0x60000)) = true := by decide

/-- R221 and log entry 11: with nothing pending one nanosecond passes. -/
theorem test_tick : after (step z) (fun t => t.time.ft = 1 && t.regs = []) = true := by decide

/-- R222: an origin cannot be armed on a hub that is not the grandmaster. -/
theorem test_origin_refused : after (exec (.originArm 34 5) z) (fun t => !rdBit t aTbStat 2 && rd t aTbOrigin = 0) = true := by decide

/-- R224: a locked hub that hears no beacon goes to HOLDOVER with EV273. -/
theorem test_holdover : after (exec .beaconLossTimeout (wrFld aTbStat 0 2 2 z)) (fun t => rdFld t aTbStat 0 2 = 3 && bit (mgetD 0 t.ev.evStat 5) (273 - 240)) = true := by
  decide

/-- R503: the automatic checkpoint writes four records and covers what has been exported. -/
theorem test_checkpoint : after (exec .autoCheckpoint { z with tly := { z.tly with sinceChk := 4096, exported := 1 } })
    (fun t => t.tly.next = 5 && t.flash.chkNum = some 0) = true := by decide

/-- R519, R522: a pop returns the first word of the oldest record of the lowest level. -/
theorem test_pop : after (exec (.pop 0 0 true) (drained { drain := [⟨1, false, [9, 8]⟩, ⟨0, false, [7, 6]⟩] })) (fun t => t.out = [.pop 0 0 7 false]) = true := by
  decide

/-- R453: generation 255 of a retired key slot is followed by 1. -/
theorem test_keyRetireEnd : after (exec .keyRetireEnd retiring) (fun t => rd t (aSlKs 1023) = 4) = true := by decide

/-- R496: FW_COMMIT raises MINSV to the SVN of the active image. -/
theorem test_fwCommit : after (exec (.fwCommit 0 1) { z with flash := { z.flash with slotA := some ⟨1, 9⟩ } }) (fun t => t.flash.minsv = 9) = true := by decide

/-- R550: 115 °C is a cold reset with THERMTRIP_n asserted, and PM_LASTC says thermal trip. -/
theorem test_trip : after (exec (.tempSensorRead (Vector.replicate 16 115)) z)
    (fun t => t.part.phase = .held && !t.part.thermtripN && rdFld t aPmLastc 0 3 = 2) = true := by decide

/-- R346: after the third 50 µs the buddy is declared dead, which without a root asks no one: TIMEOUT. -/
theorem test_mirrorResend : after (exec .mirrorResendTimeout { paired with mir := { z.mir with sent := [(1, msg0)], tries := 1 } }) (fun t => t.mir.tries = 2) = true := by
  decide

/-- R49: a host request outside the committed decoder is refused with EV001, counted in HP_CNT4. -/
theorem test_refused_request : after (exec (.memrddata req0) z) (fun t => cntLive t (aHpCnt 0 4) = 1 && t.req = z.req) = true := by decide

/-- R553: PORST_n deasserted, the active image verifies, and the boot count rises. -/
theorem test_release : after (exec (.porstDeassert ⟨false, true, 5⟩) (heldCold false (some ⟨1, 0⟩) none))
    (fun t => t.part.phase = .cold && t.flash.boots = z.flash.boots + 1 && hubId t = 5) = true := by decide
end Sys2Proof.Tests
end

section
/-! PROOFS. Register writes that are refused (R12, R116, R469 to R480, R537): what a write that is not taken leaves as it was, how a plain read-write
register judges a write that its chapter refuses, and what comes of it. -/

namespace Sys2Proof.Machine

/-! ### What a write that is not taken leaves -/

/-- The registers, the sampling countdowns, the ports, coherence and the stored data stand as they stood. -/
def Spared (s t : State) : Prop := t.regs = s.regs ∧ t.cnt.count = s.cnt.count ∧ t.ports = s.ports ∧ Untouched s t

theorem Spared.refl (s : State) : Spared s s := by simp [Spared, Untouched]

theorem Spared.trans {s t u : State} (h : Spared s t) (k : Spared t u) : Spared s u := by
  simp_all [Spared, Untouched]

theorem spared_withCtl (s : State) (c : Ctl) : Spared s { s with ctl := c } := by simp [Spared, Untouched]

theorem spared_fire (n c : Nat) (o1 : Obj) (s : State) : Spared s (fire n c o1 s) := by simp [Spared, Untouched]

theorem spared_tally (orig kind res : Nat) (tg old new aux : Word) (s : State) : Spared s (tally orig kind res tg old new aux s) := by
  simp [Spared, Untouched]

theorem spared_holdAccess (p : Nat) (x : WinAcc) (s : State) : Spared s (holdAccess p x s) := by simp [Spared, Untouched, holdAccess]

/-- Counting moves a live value, and a WRAP bit with its event, but no sampling countdown. -/
theorem count_cnt_count (a n : Nat) (s : State) : (count a n s).cnt.count = s.cnt.count := by
  simp only [count]
  repeat' split
  all_goals simp [cntSet]

theorem spared_count (a n : Nat) (s : State) : Spared s (count a n s) := by simp [Spared, Untouched, count_cnt_count]

theorem spared_tooFull (o a : Nat) (s : State) : Spared s (tooFull o a s) := (spared_withCtl s _).trans (spared_count ..)

theorem spared_finish (o a word res : Nat) (old new : Word) (s : State) : Spared s (finish o a word res old new s) := by
  unfold finish
  split
  · exact spared_withCtl s _
  · exact (spared_tally ..).trans (spared_withCtl _ _)

theorem spared_unlock (o a : Nat) (v : Word) (s : State) : Spared s (unlock o a v s) := by
  unfold unlock
  extract_lets b ok res
  by_cases hk : ok = true
  · rw [if_pos hk]
    exact (spared_withCtl s _).trans (spared_finish ..)
  · rw [if_neg hk]
    exact ((spared_withCtl s _).trans (spared_fire ..)).trans (spared_finish ..)

/-- The verdict is that the write takes effect. -/
def Verdict.isTaken : Verdict → Bool
  | .taken .. => true
  | _ => false

/-- A write that is not taken spares all but its record, its origin's last result and the events that tell of it. -/
theorem spared_writeReg {o a : Nat} {v : Word} {pair : Option Word} {s : State} (h : (verdict o a v pair s).isTaken = false) :
    Spared s (writeReg o a v pair s) := by
  simp only [writeReg]
  cases hv : verdict o a v pair s with
  | closed => exact .refl s
  | held => exact spared_holdAccess ..
  | blocked => exact spared_tooFull ..
  | denied =>
    refine Spared.trans ?_ (spared_finish ..)
    split
    · exact spared_fire ..
    · exact .refl s
  | hole => exact spared_finish ..
  | unlock => exact spared_unlock ..
  | staged x rsv => exact Spared.trans (by simp [Spared, Untouched]) (spared_finish ..)
  | readOnly rsv => exact spared_finish ..
  | locked rsv => exact (spared_fire ..).trans (spared_finish ..)
  | refused guarded rsv =>
    refine Spared.trans ?_ (spared_finish ..)
    split
    · exact spared_withCtl s _
    · exact .refl s
  | taken cur new act cur1 v1 guarded rsv stale => simp [hv, Verdict.isTaken] at h

/-! ### From the register's judgement to the write's -/

/-- The gates before a register only turn writes away: what the register does not take is not taken. -/
theorem verdict_not_taken {o a : Nat} {r : Reg} {v : Word} {pair : Option Word} {s : State} (hl : locate a = some r)
    (h : (verdictHere o a r v pair s).isTaken = false) : (verdict o a v pair s).isTaken = false := by
  simp only [verdict, hl]
  iterate 6 (split; · rfl)
  exact h

/-- A write that no gate turns away is judged by its register. -/
theorem verdict_of_reaches {o a : Nat} {r : Reg} {v : Word} {pair : Option Word} {s : State} (hl : locate a = some r) (hr : Reaches s o a)
    (here : absent s r = false) (hu : r.base ≠ aGlUnlock) : verdict o a v pair s = verdictHere o a r v pair s := by
  obtain ⟨port, tly, own⟩ := hr
  rw [hl] at own
  by_cases ho : o < 16
  · simp [verdict, hl, port ho, tly, own, here, hu]
  · simp [verdict, hl, ho, tly, own, here, hu]

/-! ### One command, one write -/

/-- An aligned write of 8 bytes below the pop pages is one judged write, where neither a closed window nor a pop stands before it. -/
theorem writeBytes_word {o a : Nat} (v : Word) {s : State} (ha : a < 0x400000) (h8 : a % 8 = 0)
    (hp : o < 16 → windowPort s o = true ∧ popWaits s o = false) : writeBytes o a 8 v.toNat s = writeReg o a v none s := by
  have one : writeWords o a 1 v.toNat s = writeReg o a v none s := by
    simp only [writeWords, BitVec.ofNat_toNat, BitVec.setWidth_eq]
    split <;> simp
  by_cases ho : o < 16
  · simp [writeBytes, hp ho, h8, one, show ¬0x400000 ≤ a by omega]
  · simp [writeBytes, ho, h8, one]

/-- REGISTER_WRITE: the write, and what follows it. -/
theorem exec_registerWrite (o : Origin) (a : BitVec 24) (size : Nat) (v : BitVec 512) (s : State) :
    exec (.registerWrite o a size v) s = live s fun s => windowAfter s (followAfter s (opRegisterWrite o a size v s)) := rfl

/-- GL_ORIGIN of the origin names the offset and the result of its last write (R471). -/
theorem finish_last (o a word res : Nat) (old new : Word) (s : State) : mget (finish o a word res old new s).ctl.last o = some (res, a) := by
  simp [finish]

/-- REGISTER_WRITE of a word that reaches its register and is refused there: the registers stand, and the origin reads result 1, or 3 where reserved
bits were set (R12, R471). -/
theorem registerWrite_refused {o : Origin} {a : Nat} {v : Word} {g rsv : Bool} {s : State} (ha : a < 0x400000) (h8 : a % 8 = 0)
    (run : running s = true) (free : s.ev.behind = []) (hr : Reaches s o a) (hv : verdict o a v none s = .refused g rsv) :
    ∃ t, exec (.registerWrite o (BitVec.ofNat 24 a) 8 (v.setWidth 512)) s = .next t ∧ t.regs = s.regs ∧
      mget t.ctl.last o = some (if rsv then 3 else 1, a) := by
  have spared : Spared s (writeReg o a v none s) := spared_writeReg (by rw [hv]; rfl)
  obtain ⟨regs, -, ports, -, -, -, -, -, cel, mir, -⟩ := spared
  have op : opRegisterWrite o (BitVec.ofNat 24 a) 8 (v.setWidth 512) s = writeReg o a v none s := by
    have wide : (v.setWidth 512).toNat = v.toNat := by
      rw [BitVec.toNat_setWidth]; exact Nat.mod_eq_of_lt (by omega)
    rw [opRegisterWrite, wide, BitVec.toNat_ofNat, Nat.mod_eq_of_lt (by omega), writeBytes_word v ha h8 hr.1]
  refine ⟨writeReg o a v none s, ?_, regs, ?_⟩
  · rw [exec_registerWrite, live_running run, op, followAfter_idle (by rw [cel]) (by rw [cel]) (by rw [mir]) (by rw [ports]), windowAfter, if_pos free]
  · simp only [writeReg, hv]
    exact finish_last ..

/-! ### Plain read-write registers -/

/-- A one-word register of this part whose low `n` bits software reads and writes, unguarded, and whose other bits are reserved. -/
structure PlainReg (s : State) (r : Reg) (n : Nat) : Prop where
  acc : accOf s r = ⟨0, 2 ^ n - 1, 0, 0, 0, 0⟩
  present : absent s r = false
  single : stagedReg r = false
  writable : frozen s r = false
  base : r.base ∉ [aDrSdom 0, aFbCache 0, aGlUnlock]

/-- The mask of the low `n` bits of a word. -/
def lowMask (n : Nat) : Word := BitVec.ofNat 64 (2 ^ n - 1)

@[simp] theorem getElem_lowMask (n : Nat) {i : Nat} (h : i < 64) : (lowMask n)[i] = decide (i < n) := by
  rw [← BitVec.getLsbD_eq_getElem, lowMask, BitVec.getLsbD_ofNat, Nat.testBit_two_pow_sub_one]
  simp [h]

/-- A word with its low `n` bits those of another. -/
def withLow (n : Nat) (cur v : Word) : Word := (cur &&& ~~~lowMask n) ||| (v &&& lowMask n)

/-- A field among the low bits is that of the word written. -/
theorem fld_withLow {lo k n : Nat} (cur v : Word) (h : lo + k ≤ n) : fld (withLow n cur v) lo k = fld v lo k := by
  apply Nat.eq_of_testBit_eq
  intro i
  rw [fld_testBit, fld_testBit, BitVec.testBit_toNat, BitVec.testBit_toNat]
  by_cases hi : i < k
  · have low : lo + i < n := by omega
    by_cases h64 : lo + i < 64
    · simp [withLow, low, h64]
    · simp [BitVec.getLsbD_of_ge _ _ (Nat.le_of_not_lt h64)]
  · simp [hi]

/-- The bits outside the low `n` are clear exactly where nothing lies above them. -/
theorem and_not_lowMask_eq_zero_iff (n : Nat) (v : Word) : v &&& ~~~lowMask n = 0#64 ↔ v.toNat / 2 ^ n = 0 := by
  rw [Nat.div_eq_zero_iff_lt (Nat.two_pow_pos n)]
  constructor
  · intro h
    refine Nat.lt_pow_two_of_testBit _ fun i hi => ?_
    have clear := congrArg (BitVec.getLsbD · i) h
    rw [BitVec.testBit_toNat]
    by_cases h64 : i < 64
    · simpa [h64, Nat.not_lt.2 hi] using clear
    · exact BitVec.getLsbD_of_ge _ _ (Nat.le_of_not_lt h64)
  · intro h
    refine BitVec.eq_of_getLsbD_eq fun i h64 => ?_
    by_cases hi : i < n
    · simp [h64, hi]
    · have above : v.getLsbD i = false := Nat.testBit_lt_two_pow (h.trans_le (Nat.pow_le_pow_right (by omega) (by omega)))
      simp [above]

/-- A plain register judges a write that its chapter refuses: refused, no unlock spent, reserved bits told (R12). -/
theorem verdictHere_plain {o a n : Nat} {r : Reg} {v : Word} {s : State} (pair : Option Word) (p : PlainReg s r n) (h0 : 0 < n)
    (hr : refused s a r (regNow s o a r) (withLow n (regNow s o a r) v) 0#64 0#64 = true) :
    verdictHere o a r v pair s = .refused false (decide (v.toNat / 2 ^ n ≠ 0)) := by
  obtain ⟨acc, -, single, writable, base⟩ := p
  have pos : 2 ^ n - 1 ≠ 0 := by have := Nat.one_lt_two_pow (n := n) (by omega); omega
  simp only [List.mem_cons, List.not_mem_nil, or_false, not_or] at base
  have reserved := and_not_lowMask_eq_zero_iff n v
  simp only [withLow, lowMask] at hr reserved
  simp [verdictHere, acc, single, writable, base, pos, shown, hr, reserved]

/-- A setting that its chapter refuses: however it is written nothing but the record changes, and a REGISTER_WRITE that gets to the register reads
"rejected", or "reserved" where it sets other bits too. -/
theorem refused_setting {o : Origin} {a n : Nat} {r : Reg} {v : Word} {s : State} (hl : locate a = some r) (p : PlainReg s r n) (h0 : 0 < n)
    (ha : a < 0x400000) (h8 : a % 8 = 0) (hr : ∀ cur, refused s a r cur (withLow n cur v) 0#64 0#64 = true) :
    (∀ pair, Spared s (writeReg o a v pair s)) ∧
    (running s = true → s.ev.behind = [] → Reaches s o a →
      ∃ t, exec (.registerWrite o (BitVec.ofNat 24 a) 8 (v.setWidth 512)) s = .next t ∧ t.regs = s.regs ∧
        mget t.ctl.last o = some (if v.toNat / 2 ^ n = 0 then 1 else 3, a)) := by
  constructor
  · intro pair
    apply spared_writeReg (verdict_not_taken hl _)
    rw [verdictHere_plain pair p h0 (hr _)]
    rfl
  · intro run free reaches
    have plain : r.base ≠ aGlUnlock := fun unlock => p.base (by simp [unlock])
    have judged := (verdict_of_reaches hl reaches p.present plain).trans (verdictHere_plain none p h0 (hr _))
    obtain ⟨t, next, regs, last⟩ := registerWrite_refused ha h8 run free reaches judged
    exact ⟨t, next, regs, by simpa only [ne_eq, decide_eq_true_eq, ite_not] using last⟩

/-! ### HF_BITO and PC_SMPCTL -/

/-- HF_BITO of port `p` as the register map gives it: TO in bits [9:0]. -/
def hfBitoReg (p : Nat) : Reg := ⟨aHfBito 0, p, 0, 0, { rw := 0x3FF }, 1⟩

/-- PC_SMPCTL as the register map gives it: bits [42:0], with K in [5:1]. -/
def smpctlReg : Reg := ⟨aPcSmpctl, 0, 0, 0, { rw := 0x7FFFFFFFFFF }, 1⟩

theorem locate_aHfBito (p : HPort) : locate (aHfBito p) = some (hfBitoReg p) := by
  revert p
  decide

theorem locate_aPcSmpctl : locate aPcSmpctl = some smpctlReg := by decide

theorem absent_hfBitoReg (s : State) (p : Nat) : absent s (hfBitoReg p) = false := by
  cases h : isH1 s <;> simp only [absent, h] <;> rfl

theorem absent_smpctlReg (s : State) : absent s smpctlReg = false := by
  cases h : isH1 s <;> simp only [absent, h] <;> rfl

theorem plainReg_hfBito (s : State) (p : Nat) : PlainReg s (hfBitoReg p) 10 where
  acc := by rw [accOf, absent_hfBitoReg]; rfl
  present := absent_hfBitoReg s p
  single := rfl
  writable := rfl
  base := by show aHfBito 0 ∉ _; decide

theorem plainReg_smpctl (s : State) : PlainReg s smpctlReg 43 where
  acc := by rw [accOf, absent_smpctlReg]; rfl
  present := absent_smpctlReg s
  single := rfl
  writable := rfl
  base := by decide

/-- R116: TO is 1 to 1,000. -/
theorem refused_hfBitoReg (s : State) (a p : Nat) (w v w1 v1 : Word) :
    refused s a (hfBitoReg p) w v w1 v1 = (decide (fld v 0 10 = 0) || decide (1000 < fld v 0 10)) := by
  simp +decide only [refused, hfBitoReg, if_true, if_false]

/-- R537: K is 4 to 24. -/
theorem refused_smpctlReg (s : State) (a : Nat) (w v w1 v1 : Word) :
    refused s a smpctlReg w v w1 v1 = (decide (fld v 1 5 < 4) || decide (24 < fld v 1 5)) := by
  simp +decide only [refused, smpctlReg, if_true, if_false]

end Sys2Proof.Machine

namespace Sys2Proof

open Machine

/-- Settles O58: both settings are plain registers whose chapters refuse the value, whatever the register held. -/
theorem settingsOutOfRangeAreRefused : Obligations.SettingsOutOfRangeAreRefused := by
  intro o v s
  refine ⟨fun p out => ?_, fun out => ?_⟩
  · obtain ⟨spared, result⟩ := refused_setting (o := o) (locate_aHfBito p) (plainReg_hfBito s p) (by decide) (by simp only [aHfBito]; omega)
      (by simp only [aHfBito]; omega) (fun cur => by rw [refused_hfBitoReg, fld_withLow cur v (by decide)]; simpa using out)
    refine ⟨fun pair => ?_, result⟩
    obtain ⟨regs, -, -, untouched⟩ := spared pair
    exact ⟨regs, untouched⟩
  · obtain ⟨spared, result⟩ := refused_setting (o := o) locate_aPcSmpctl (plainReg_smpctl s) (by decide) (by decide) (by decide)
      (fun cur => by rw [refused_smpctlReg, fld_withLow cur v (by decide)]; simpa using out)
    refine ⟨fun pair => ?_, result⟩
    obtain ⟨regs, count, -, untouched⟩ := spared pair
    exact ⟨regs, count, untouched⟩

end Sys2Proof
end

section
/-! PROOFS. Resets and the Boards (R236): what an unlisted word of SB_SQ reads, the operations of a reset that keep every square, and the default
squares after each kind of reset. -/

namespace Sys2Proof.Machine

/-! ### What an unlisted word of SB_SQ reads -/

/-- SB_SQ as the register map gives it. -/
def sbSqFam : Fam := ⟨aSbSq 0 0, 92, 0x400, 64, 0x8, [{ rwg := 0xffffffffffffffff }], 0⟩

theorem regAt_aSbSq {b w : Nat} (hb : b < 92) (hw : w < 64) : regAt (aSbSq b w) = some (sbSqFam, 0) := by
  have block : blockOf (aSbSq b w) = some 2 := by
    unfold blockOf aSbSq
    rw [if_neg (by omega), if_neg (by omega), if_pos (by omega)]
  rw [regAt, block, Option.bind_some, famsOf]
  simp only [famsSb, famAt, aSbSq, aSbCtl, aSbBurst, aSbLate, List.length_singleton, sbSqFam]
  rw [if_neg (by omega), if_neg (by omega), if_neg (by omega), if_pos (by omega)]
  simp

/-- Board `b` is in the part: all but those of the HBM stacks that a QD48-C1 does not have. -/
def OnPart (pt : Part) (b : Nat) : Prop := ¬(pt.variant = .c1 ∧ 32 ≤ b ∧ b < 48)

theorem resetWord_aSbSq {pt : Part} {b w : Nat} (hb : b < 92) (hw : w < 64) (on : OnPart pt b) : resetWord pt (aSbSq b w) = sqReset w := by
  have board : (aSbSq b w - aSbSq 0 0) / 0x400 = b := by unfold aSbSq; omega
  have word : (aSbSq b w - aSbSq 0 0) % 0x400 / 8 = w := by unfold aSbSq; omega
  have range : 0x21000 ≤ aSbSq b w ∧ aSbSq b w < 0x38000 := by unfold aSbSq; omega
  have ne : ∀ {a}, ¬(0x21000 ≤ a ∧ a < 0x38000) → aSbSq b w ≠ a := fun out e => out (e ▸ range)
  have cal : ¬(aPmCal 0 ≤ aSbSq b w ∧ aSbSq b w < aPmCal 56) := by unfold aPmCal; omega
  unfold resetWord
  iterate 12 rw [if_neg (ne (by decide))]
  rw [if_neg cal, regAt_aSbSq hb hw]
  dsimp only
  iterate 3 rw [if_neg (by decide)]
  rw [if_pos (show sbSqFam.base = aSbSq 0 0 from rfl), board, word, if_neg on]

/-- The bytes of a word of SB_SQ at reset (R236). -/
theorem fld_sqReset (q : Nat) : fld (sqReset (q / 8)) (8 * (q % 8)) 8 = defaultSquare q := by
  have plain : ∀ j < 8, fld 0x0F0F0F0F0F0F0F0F (8 * j) 8 = 15 := by decide
  have tasked : ∀ k < 6, ∀ j < 8, fld (setFld 0x0F0F0F0F0F0F0F0F 60 4 ([1, 3, 4, 5, 6, 7].getD k 0)) (8 * j) 8 =
      15 + 16 * (if j = 7 then [1, 3, 4, 5, 6, 7].getD k 0 else 0) := by decide
  unfold sqReset defaultSquare
  by_cases even : q / 8 % 2 = 0
  · rw [if_pos even, plain _ (by omega), if_neg (by omega)]
  · have last : q % 8 = 7 ↔ q % 16 = 15 := by omega
    have round : q / 8 / 2 = q / 16 := by omega
    rw [if_neg even, tasked _ (Nat.mod_lt _ (by decide)) _ (Nat.mod_lt _ (by decide)), round]
    simp only [last]

/-- A state that lists no word of SB_SQ holds the default squares. -/
theorem defaultSquares_of_unlisted {s : State} (h : ∀ b w, b < 92 → w < 64 → mget s.regs (aSbSq b w / 8) = none) : DefaultSquares s := by
  intro b q hb hq present
  have on : OnPart s.part b := by
    rintro ⟨c1, stack⟩
    have := present (by simp [isH1, c1])
    omega
  rw [square, rdFld, rd, mgetD, h b (q / 8) hb (by omega), Option.getD_none, resetWord_aSbSq hb (by omega) on, fld_sqReset]

/-! ### What keeps every square -/

/-- The part and every word of SB_SQ stand as they stood. -/
structure SquaresKept (s t : State) : Prop where
  part : t.part = s.part
  words : ∀ b w, b < 92 → w < 64 → rd t (aSbSq b w) = rd s (aSbSq b w)

/-- The register word at `a` is none of SB_SQ. -/
def OffSquares (a : Nat) : Prop := ∀ b w, b < 92 → w < 64 → aSbSq b w / 8 ≠ a / 8

theorem offSquares_of_below {a : Nat} (h : a < 0x21000) : OffSquares a := by
  intro b w hb hw
  unfold aSbSq
  omega

theorem offSquares_of_above {a : Nat} (h : 0x38000 ≤ a) : OffSquares a := by
  intro b w hb hw
  unfold aSbSq
  omega

theorem offSquares_aSbAdm (b : Nat) : OffSquares (aSbAdm b) := by
  intro b' w hb hw
  unfold aSbSq aSbAdm
  omega

theorem offSquares_aHpStat (p : Nat) : OffSquares (aHpStat p) := offSquares_of_above (by unfold aHpStat; omega)

theorem offSquares_aPmCal (n : Nat) : OffSquares (aPmCal n) := offSquares_of_above (by unfold aPmCal; omega)

theorem offSquares_aSlRoot (k : Nat) : OffSquares (aSlRoot k) := offSquares_of_above (by unfold aSlRoot; omega)

theorem offSquares_aSlKs (n : Nat) : OffSquares (aSlKs n) := offSquares_of_above (by unfold aSlKs; omega)

theorem offSquares_aFbMir (n : Nat) : OffSquares (aFbMir n) := offSquares_of_above (by unfold aFbMir; omega)

namespace SquaresKept

variable {s t u : State}

theorem of_eq (part : t.part = s.part) (regs : t.regs = s.regs) : SquaresKept s t := ⟨part, fun _ _ _ _ => rd_congr part regs _⟩

theorem refl (s : State) : SquaresKept s s := of_eq rfl rfl

/-- An update of what is neither the part nor a register. -/
theorem update (h : SquaresKept s t) (part : u.part = t.part) (regs : u.regs = t.regs) : SquaresKept s u :=
  ⟨part.trans h.part, fun b w hb hw => (rd_congr part regs _).trans (h.words b w hb hw)⟩

/-- Composition, the later operation first. -/
theorem after (k : SquaresKept t u) (h : SquaresKept s t) : SquaresKept s u :=
  ⟨k.part.trans h.part, fun b w hb hw => (k.words b w hb hw).trans (h.words b w hb hw)⟩

theorem wr {a : Nat} (off : OffSquares a) (v : Word) (s : State) : SquaresKept s (wr a v s) :=
  ⟨wr_part s a v, fun b w hb hw => rd_wr_ne s v (off b w hb hw)⟩

theorem wrFld {a : Nat} (off : OffSquares a) (lo n v : Nat) (s : State) : SquaresKept s (wrFld a lo n v s) := wr off _ s

theorem rsq {a : Nat} (off : OffSquares a) (i : Nat) (s : State) : SquaresKept s (rsq a i s) := wr off _ s

theorem fireSeq (n c : Nat) (o1 o2 : Obj) (q : Nat) (s : State) : SquaresKept s (fireSeq n c o1 o2 q s) := of_eq (by simp) (by simp)

theorem fire (n c : Nat) (o1 : Obj) (s : State) : SquaresKept s (fire n c o1 s) := of_eq (by simp) (by simp)

theorem count (a n : Nat) (s : State) : SquaresKept s (count a n s) := of_eq (by simp) (by simp)

theorem tallyAuto (orig a src : Nat) (old new : Word) (x : Obj) (s : State) : SquaresKept s (tallyAuto orig a src old new x s) :=
  of_eq (by simp) (by simp)

theorem ite {c : Prop} [Decidable c] (h : SquaresKept s t) (k : SquaresKept s u) : SquaresKept s (if c then t else u) := by
  split
  · exact h
  · exact k

theorem foldl {β : Type} {f : State → β → State} (h : ∀ s x, SquaresKept s (f s x)) (l : List β) (s : State) : SquaresKept s (l.foldl f s) := by
  induction l generalizing s with
  | nil => exact refl s
  | cons x l ih => exact (ih _).after (h s x)

theorem takeSetting (p : Nat) (s : State) : SquaresKept s (takeSetting p s) := of_eq rfl rfl

theorem seedDies (s : State) : SquaresKept s (seedDies s) := by
  unfold Machine.seedDies
  apply foldl
  intro s k
  exact of_eq (drawFree_part s) (drawFree_regs s)

theorem restoreRoot (s : State) : SquaresKept s (restoreRoot s) := by
  unfold Machine.restoreRoot
  split
  · exact refl s
  next r _ =>
    extract_lets s1 s2
    have roots : SquaresKept s s1 := foldl (fun s k => wr (offSquares_aSlRoot k) ..) ..
    have status : SquaresKept s1 s2 := (wrFld (a := aSlStat) (offSquares_of_above (by decide)) ..).after (wr (a := aSlMajsrc) (offSquares_of_above (by decide)) ..)
    exact (status.after roots).update rfl rfl

/-- Training of a host link writes its status register only. -/
theorem setHostLink (p ls : Nat) (s : State) : SquaresKept s (setHostLink p ls s) :=
  ite (refl s) ((fireSeq ..).after ((rsq (offSquares_aHpStat p) ..).after (wrFld (offSquares_aHpStat p) ..)))

theorem trainHost (p : Nat) (x : PcieTrain) (s : State) : SquaresKept s (trainHost p x s) :=
  (wrFld (offSquares_aHpStat p) ..).after (of_eq rfl rfl)

theorem saveRecord (n : Nat) (s : State) : SquaresKept s (saveRecord n s) := ite (refl s) (of_eq rfl rfl)

theorem gather (n temp mv band : Nat) (s : State) : SquaresKept s (gather n temp mv band s) := by
  unfold Machine.gather
  extract_lets full s1 pwr s2
  have written : SquaresKept s s1 := wr (offSquares_aPmCal n) ..
  have counted : SquaresKept s s2 := written.update rfl rfl
  exact ite ((saveRecord ..).after counted) counted

theorem calibrate (s : State) (n : Nat) : SquaresKept s (calibrate s n) := by
  unfold Machine.calibrate
  refine ite (refl s) (ite (gather ..) ?_)
  split
  · exact ite (wr (offSquares_aPmCal n) ..) (gather ..)
  · exact gather ..

theorem setAdm (b : Nat) (v : Word) (s : State) : SquaresKept s (setAdm b v s) :=
  ite (refl s) ((wr (offSquares_aSbAdm b) ..).after (of_eq rfl rfl))

theorem recompute (b : Nat) (s : State) : SquaresKept s (recompute b s) := ite (refl s) (setAdm ..)

theorem firstGuard (s : State) : SquaresKept s (firstGuard s) :=
  ite ((foldl (fun s b => recompute b s) ..).after (wrFld (offSquares_of_above (by decide)) ..)) (refl s)

theorem applyLumber (s : State) (e : Word × Word) : SquaresKept s (applyLumber s e) :=
  ite (of_eq rfl rfl) (ite (ite (of_eq rfl rfl) (wrFld (offSquares_of_above (by decide)) ..)) (refl s))

theorem restoreSlot (s : State) (e : Nat × Word) : SquaresKept s (restoreSlot s e) := by
  unfold Machine.restoreSlot
  split
  · exact (wr (offSquares_aSlKs e.1) ..).after (of_eq rfl rfl)
  · exact wr (offSquares_aSlKs e.1) ..

theorem countShutdown (s : State) : SquaresKept s (countShutdown s) := (tallyAuto ..).after (of_eq rfl rfl)

theorem unverify (s : State) : SquaresKept s (unverify s) :=
  foldl (fun s n => ite (wrFld (offSquares_aPmCal n) ..) (refl s)) _ s

theorem linksDown (s : State) : SquaresKept s (linksDown s) :=
  foldl (fun s p => ite (refl s) (wr (offSquares_aHpStat p) ..)) _ s

end SquaresKept

/-- Default squares stay default squares while every square is kept. -/
theorem defaultSquares_kept {s t : State} (h : DefaultSquares s) (k : SquaresKept s t) : DefaultSquares t := by
  intro b q hb hq present
  rw [isH1, k.part] at present
  rw [← h b q hb hq present, square, rdFld, k.words b _ hb (by omega)]
  rfl

/-- The squares do not depend on the phase, nor on what is no register. -/
theorem defaultSquares_withPhase {s t : State} (h : DefaultSquares s) (ph : Phase) (part : t.part = { s.part with phase := ph }) (regs : t.regs = s.regs) :
    DefaultSquares t := by
  intro b q hb hq present
  rw [isH1, part] at present
  rw [← h b q hb hq present, square, rdFld, rd, part, regs]
  rfl

/-! ### The resets -/

theorem mget_filter_none {α : Type} {m : SMap α} {keep : Nat × α → Bool} {k : Nat} (h : ∀ v, keep (k, v) = false) : mget (m.filter keep) k = none := by
  induction m with
  | nil => rfl
  | cons e t ih =>
    by_cases hk : keep e = true
    · have ne : e.1 ≠ k := fun same => by
        subst same
        exact absurd (hk.symm.trans (h e.2)) (by decide)
      simp [hk, mget, ne, ih]
    · simp [hk, ih]

/-- A warm or hub reset returns the Boards (Table 14.9). -/
theorem keptReg_aSbSq {b w : Nat} (hb : b < 92) (hw : w < 64) : keptReg (aSbSq b w) = false := by
  have lost : aSbSq 0 0 ∉ keptFams := by decide
  simp [keptReg, regAt_aSbSq hb hw, sbSqFam, lost]

theorem defaultSquares_of_keptReg {s : State} {m : SMap Word} (regs : s.regs = m.filter fun e => keptReg (8 * e.1)) : DefaultSquares s := by
  refine defaultSquares_of_unlisted fun b w hb hw => ?_
  have word : 8 * (aSbSq b w / 8) = aSbSq b w := by unfold aSbSq; omega
  rw [regs]
  exact mget_filter_none fun v => by rw [word, keptReg_aSbSq hb hw]

/-- What a warm or hub reset does after it has cleared the device writes no square. -/
theorem hubCleared_squaresKept (hub : Bool) (s : State) :
    ∃ (t : State) (m : SMap Word), t.part.phase = .resetting hub ∧ (t.regs = m.filter fun e => keptReg (8 * e.1)) ∧ SquaresKept t (hubCleared hub s) := by
  unfold hubCleared
  extract_lets s1 stat idle z ways part time hc hst sl prot pwr t t1 t2 t3 t4
  refine ⟨t, _, rfl, rfl, ?_⟩
  have h1 : SquaresKept t t1 := (SquaresKept.wrFld (a := aPmStat) (offSquares_of_above (by decide)) ..).after
    ((SquaresKept.wrFld (a := aFbHubid) (offSquares_of_above (by decide)) ..).after ((SquaresKept.linksDown _).after (.unverify t)))
  have h2 : SquaresKept t1 t2 := .foldl (fun s p => .takeSetting p s) ..
  have h3 : SquaresKept t2 t3 := .foldl (fun s n => .wrFld (offSquares_aFbMir n) ..) ..
  have h4 : SquaresKept t3 t4 := .wr (offSquares_of_below (by decide)) ..
  exact (SquaresKept.seedDies _).after ((SquaresKept.restoreRoot t4).after (h4.after (h3.after (h2.after h1))))

theorem hubCleared_defaultSquares (hub : Bool) (s : State) : DefaultSquares (hubCleared hub s) := by
  obtain ⟨t, m, -, regs, kept⟩ := hubCleared_squaresKept hub s
  exact defaultSquares_kept (defaultSquares_of_keptReg regs) kept

theorem hubCleared_phase (hub : Bool) (s : State) : (hubCleared hub s).part.phase = .resetting hub := by
  obtain ⟨t, m, phase, -, kept⟩ := hubCleared_squaresKept hub s
  rw [kept.part, phase]

theorem coldReset_defaultSquares (lastc : Nat) (hold : Bool) (s : State) : DefaultSquares (coldReset lastc hold s) :=
  defaultSquares_kept (defaultSquares_of_unlisted fun _ _ _ _ => rfl) (.wr (a := aPmLastc) (offSquares_of_above (by decide)) ..)

/-- An abandoned flush ends in its reset at once where no report of this hub's own has to leave first (R290, R331). -/
theorem opFlushTimeLimit_eq {hub : Bool} {s : State} (flush : s.part.phase = .flush hub)
    (h : (s.pwr.cause ≠ 1 ∧ s.pwr.cause ≠ 2) ∨ rdFld s aFbStat 0 2 = 3) : opFlushTimeLimit s = hubCleared hub (markDirty s) := by
  unfold opFlushTimeLimit
  rw [flush]
  by_cases told : reportedSelf s = true
  · simp [told]
  · have unplanned : s.pwr.cause ≠ 1 ∧ s.pwr.cause ≠ 2 := h.resolve_right (by simpa [reportedSelf] using told)
    simp [told, endFlush, unplanned]

/-- From the Lumber list to the training of the host links, nothing that ends a cold reset writes a square (R553). -/
theorem opColdResetReady_ready_and_defaultSquares {s : State} (unhalted : s.halted = none) (cold : s.part.phase = .cold) (h : DefaultSquares s) :
    (opColdResetReady s).part.phase = .ready ∧ DefaultSquares (opColdResetReady s) := by
  unfold opColdResetReady
  rw [if_neg (by simp [cold, unhalted])]
  extract_lets s1 s2 s3 s4 s5 s6 s7 part pwr s8
  have k1 : SquaresKept s s1 := .foldl (fun s e => .applyLumber s e) ..
  have k2 : SquaresKept s1 s2 := (SquaresKept.restoreRoot _).after (.foldl (fun s e => .restoreSlot s e) ..)
  have k3 : SquaresKept s2 s3 := .countShutdown s2
  have k4 : SquaresKept s3 s4 := (SquaresKept.firstGuard _).after (.foldl (fun s n => .calibrate s n) ..)
  have k5 : SquaresKept s4 s5 := .ite (.foldl (fun s k => (SquaresKept.fire ..).after (.fire ..)) ..) (.refl s4)
  have k6 : SquaresKept s5 s6 := .ite (.refl s5) (.fire ..)
  have k7 : SquaresKept s6 s7 := .ite (.tallyAuto ..) (.refl s6)
  have links : ∀ l : List Nat, SquaresKept s8 (l.foldl (fun s p => setHostLink p 3 (trainHost p ⟨3, 4, true⟩ s)) s8) :=
    fun l => .foldl (fun s p => (SquaresKept.setHostLink ..).after (.trainHost ..)) l s8
  have h7 : DefaultSquares s7 := defaultSquares_kept h (k7.after (k6.after (k5.after (k4.after (k3.after (k2.after k1))))))
  have h8 : DefaultSquares s8 := defaultSquares_withPhase h7 .ready rfl rfl
  exact ⟨congrArg Part.phase (links _).part, defaultSquares_kept h8 (links _)⟩

/-- The device ready again after a warm or hub reset, before a retraining that the reset met goes on. -/
def readyAgain (hub : Bool) (s : State) : State :=
  fire 264 hub.toNat oNone (count (aPmCnt 7) 1 { s with part := { s.part with phase := .ready } })

theorem readyAgain_phase (hub : Bool) (s : State) : (readyAgain hub s).part.phase = .ready := by simp [readyAgain]

theorem rd_readyAgain (hub : Bool) (s : State) (a : Nat) : rd (readyAgain hub s) a = rd s a := by
  rw [readyAgain, rd_fire, rd_count]
  rfl

/-- WARM_RESET_READY with no unit retraining: the device is ready, and nothing is left to write (R554, R570). -/
theorem opWarmResetReady_eq {hub : Bool} {s : State} (unhalted : s.halted = none) (reset : s.part.phase = .resetting hub)
    (released : hub = true ∨ s.part.perstN = true) (trained : ∀ n, n < 52 → rdBit s (aPmCal n) 25 = false) :
    opWarmResetReady s = readyAgain hub s := by
  have go : ¬(s.halted.isSome || (!hub && !s.part.perstN)) = true := by rcases released with h | h <;> simp [unhalted, h]
  have idle : (List.range 52).filter (fun n => hasRecord (readyAgain hub s) n && rdBit (readyAgain hub s) (aPmCal n) 25) = [] := by
    refine List.filter_eq_nil_iff.2 fun n hn => ?_
    have done : rdBit (readyAgain hub s) (aPmCal n) 25 = false := by rw [rdBit, rd_readyAgain]; exact trained n (List.mem_range.1 hn)
    simp [done]
  unfold opWarmResetReady
  rw [reset]
  exact (if_neg go).trans (congrArg (List.foldl (fun s n => retrainBoard n s) (readyAgain hub s)) idle)

theorem readyAgain_defaultSquares {s : State} (hub : Bool) (h : DefaultSquares s) : DefaultSquares (readyAgain hub s) :=
  defaultSquares_withPhase h .ready (by simp [readyAgain]) (by simp [readyAgain])

theorem running_of_flush {hub : Bool} {s : State} (unhalted : s.halted = none) (flush : s.part.phase = .flush hub) : running s = true := by
  simp [running, unhalted, flush]

end Sys2Proof.Machine

namespace Sys2Proof

open Machine

/-- Settles O56: what resets the registers lists no word of SB_SQ, and what follows until the device is ready writes none. -/
theorem everyResetGivesDefaultSquares : Obligations.EveryResetGivesDefaultSquares := by
  refine ⟨defaultSquares_of_unlisted fun _ _ _ _ => rfl, fun s => ⟨opPorstAssert s, rfl, coldReset_defaultSquares _ _ _⟩, ?_, ?_, ?_,
    fun s cause => hubCleared_defaultSquares _ _, fun s hub => hubCleared_defaultSquares hub s⟩
  · intro s unhalted cold squares
    exact ⟨opColdResetReady s, rfl, opColdResetReady_ready_and_defaultSquares unhalted cold squares⟩
  · intro s hub unhalted flush told
    refine ⟨opFlushTimeLimit s, live_running (running_of_flush unhalted flush) _, ?_⟩
    rw [opFlushTimeLimit_eq flush told]
    exact ⟨hubCleared_phase .., hubCleared_defaultSquares _ _⟩
  · intro s hub unhalted reset released squares trained
    refine ⟨opWarmResetReady s, rfl, ?_⟩
    rw [opWarmResetReady_eq unhalted reset released trained]
    exact ⟨readyAgain_phase .., readyAgain_defaultSquares hub squares⟩

end Sys2Proof
end

section
/-! PROOFS. Seal halt (R421, R445): what a seal halt that begins leaves in the registers, erases and keeps, and what the block then answers. -/

namespace Sys2Proof.Machine

variable {s : State}

/-! ### How a seal halt begins -/

/-- The object that the event and the Tally record of a seal halt name. -/
def haltObject (cause port la : Nat) (s : State) : Obj :=
  if cause = 4 ∨ cause = 7 then oPort 2 port else if cause ≤ 3 then oLine (ownLine s la) else oNone

/-- What a seal halt writes to the registers: SL_STAT, FT in SL_HALTFT, and SL_HALT. -/
def haltNoted (cause port la : Nat) (s : State) : State :=
  wr aSlHalt (mkWord [(0, 4, cause), (4, 4, port), (8, 42, la)]) (wr aSlHaltft s.time.ft (wrFld aSlStat 13 1 1 s))

/-- A seal halt in the registers, raised as EV224 and recorded in the Tally. -/
def haltTold (cause port la : Nat) (s : State) : State :=
  tallyAuto 34 aSlHalt 224 0 (rd (haltNoted cause port la s) aSlHalt) (haltObject cause port la s)
    (fire 224 0 (haltObject cause port la s) (haltNoted cause port la s))

/-- Sending from a list adds to `out` and changes nothing else. -/
theorem foldl_emit_eq_withOut {β : Type} (x : State → β → Sent) (l : List β) (s : State) :
    ∃ out, l.foldl (fun s b => emit (x s b) s) s = { s with out := out } := by
  induction l generalizing s with
  | nil => exact ⟨s.out, rfl⟩
  | cons b l ih => exact ih (emit (x s b) s)

/-- A seal halt is noted and told, and after the halt flits it erases the keys and marks the shutdown state dirty (R291, R445). -/
theorem sealHalt_eq (unhalted : s.halted = none) (cause port la : Nat) :
    ∃ out, sealHalt cause port la s =
      markDirty { eraseKeys { haltTold cause port la s with out := out } with halted := some cause } := by
  obtain ⟨out, flits⟩ := foldl_emit_eq_withOut (fun s p => .halt p (lastGood (link s p)) (hubId s) 1)
    ((List.range 12).filter (portActive (haltTold cause port la s))) (haltTold cause port la s)
  exact ⟨out, (if_neg (by simp [unhalted])).trans
    (congrArg (fun z => markDirty { eraseKeys z with halted := some cause }) flits)⟩

/-! ### What a seal halt sets, erases and keeps -/

theorem rd_haltTold (cause port la a : Nat) : rd (haltTold cause port la s) a = rd (haltNoted cause port la s) a := by
  rw [haltTold, rd_tallyAuto, rd_fire]

theorem untouched_haltTold (cause port la : Nat) : Untouched s (haltTold cause port la s) := by
  simp [Untouched, haltTold, haltNoted]

theorem sealHalt_halted (unhalted : s.halted = none) (cause port la : Nat) : (sealHalt cause port la s).halted = some cause := by
  obtain ⟨out, eq⟩ := sealHalt_eq unhalted cause port la
  rw [eq]
  rfl

theorem rd_sealHalt (unhalted : s.halted = none) (cause port la a : Nat) :
    rd (sealHalt cause port la s) a = rd (haltNoted cause port la s) a := by
  obtain ⟨out, eq⟩ := sealHalt_eq unhalted cause port la
  rw [eq, ← rd_haltTold]
  exact rd_congr rfl rfl a

theorem rd_sealHalt_aSlHalt (unhalted : s.halted = none) (cause port la : Nat) :
    rd (sealHalt cause port la s) aSlHalt = mkWord [(0, 4, cause), (4, 4, port), (8, 42, la)] := by
  rw [rd_sealHalt unhalted, haltNoted, rd_wr_self]

theorem rd_sealHalt_aSlHaltft (unhalted : s.halted = none) (cause port la : Nat) :
    rd (sealHalt cause port la s) aSlHaltft = s.time.ft := by
  rw [rd_sealHalt unhalted, haltNoted, rd_wr_ne _ _ (by decide), rd_wr_self]

/-- No data key, no tree key and no link key is left (R445). -/
theorem sealHalt_erases (unhalted : s.halted = none) (cause port la : Nat) :
    (sealHalt cause port la s).sl.keys = [] ∧ (sealHalt cause port la s).sl.tree = 0 ∧
      ∀ e ∈ (sealHalt cause port la s).links, e.2.key = none := by
  obtain ⟨out, eq⟩ := sealHalt_eq unhalted cause port la
  rw [eq]
  refine ⟨rfl, rfl, fun e he => ?_⟩
  obtain ⟨before, -, rfl⟩ := List.mem_map.1 he
  rfl

theorem sealHalt_dirty (unhalted : s.halted = none) (cause port la : Nat) : (sealHalt cause port la s).flash.dirty = true := by
  obtain ⟨out, eq⟩ := sealHalt_eq unhalted cause port la
  rw [eq]
  rfl

theorem untouched_sealHalt (unhalted : s.halted = none) (cause port la : Nat) : Untouched s (sealHalt cause port la s) := by
  obtain ⟨out, eq⟩ := sealHalt_eq unhalted cause port la
  rw [eq]
  exact untouched_haltTold cause port la

/-! ### A halted block -/

/-- MEMRD_DATA: the read, and what goes on by itself after it. -/
theorem exec_memrddata (r : HostReq) (s : State) : exec (.memrddata r) s = live s fun s => follow (opMemrddata r s) := rfl

section
variable {cause : Nat} (halted : s.halted = some cause)
include halted

theorem running_of_halted : running s = false := by simp [running, halted]

theorem alertAsserted_of_halted : alertAsserted s = true := by simp [alertAsserted, halted]

theorem haltAsserted_of_halted : haltAsserted s = true := by simp [haltAsserted, halted]

/-- A host's read does nothing until a cold reset ends the halt (R445, R446). -/
theorem exec_memrddata_of_halted (r : HostReq) : exec (.memrddata r) s = .next s := by
  rw [exec_memrddata, live_stopped (running_of_halted halted)]

end

/-! ### The JTAG port -/

/-- JTAG_INSTRUCTION: it runs in every phase. -/
theorem exec_jtagInstruction (ir : JtagIr) (s : State) : exec (.jtagInstruction ir) s = .next (opJtagInstruction ir s) := rfl

theorem opJtagInstruction_other (s : State) :
    opJtagInstruction .other s = if s.part.phase = .held then s else sealHalt 8 0 0 s := rfl

end Sys2Proof.Machine

namespace Sys2Proof

open Machine

/-- Settles O57: out of the held reset the instruction is a seal halt with cause 8, and what a halted block answers follows from the halt alone. -/
theorem jtagHalts : Obligations.JtagHalts := by
  intro s
  refine ⟨fun unhalted unheld => ⟨sealHalt 8 0 0 s, ?_, ?_⟩, rfl, rfl, rfl⟩
  · rw [exec_jtagInstruction, opJtagInstruction_other, if_neg unheld]
  · have halted := sealHalt_halted unhalted 8 0 0
    have code : fld (rd (sealHalt 8 0 0 s) aSlHalt) 0 4 = 8 := by
      rw [rd_sealHalt_aSlHalt unhalted]
      decide
    obtain ⟨keys, tree, linkKeys⟩ := sealHalt_erases unhalted 8 0 0
    exact ⟨halted, code, rd_sealHalt_aSlHaltft unhalted 8 0 0, keys, tree, linkKeys, sealHalt_dirty unhalted 8 0 0,
      alertAsserted_of_halted halted, haltAsserted_of_halted halted, untouched_sealHalt unhalted 8 0 0, exec_memrddata_of_halted halted⟩

end Sys2Proof
end

section
/-! PROOFS. Seal halt and the accesses held behind a pop (R288, R445, R527): a REG_WRITE, which a halted block does not serve, still lets the accesses
held behind a pop follow, and one of them is a pop that enters its queue. -/

namespace Sys2Proof.Machine

/-- A halted block in which an access of port 0, a pop of the enabled queue 0, is held behind a pop that waits no more. -/
def haltedBehindPop : State := { State.reset with
  halted := some 1
  regs := [(aHpCtl 0 / 8, 1), (aEqCtl 0 / 8, 0x1411), (aEqAcc 0 / 8, 1)]
  ev := { State.reset.ev with behind := [(0, .pop 0 true)] } }

/-- The same block with the held pop waiting in its queue. -/
def haltedPopWaits : State := setQueue 0 { waiting := [(0, true)] } { haltedBehindPop with ev := State.reset.ev }

/-- The fabric mailbox is silent in a seal halt: the command itself does nothing. -/
theorem opRegWrite_haltedBehindPop : opRegWrite 17 0 [] haltedBehindPop = haltedBehindPop := rfl

/-- The held pop finds its queue empty and waits there. -/
theorem releaseAll_haltedBehindPop : releaseAll 1 haltedBehindPop = haltedPopWaits := rfl

/-- A REG_WRITE with no pair, from the fabric mailbox. -/
theorem step_haltedBehindPop : step { haltedBehindPop with pending := [.regWrite 17 0 []] } = .next haltedPopWaits := by
  have served : windowAfter haltedBehindPop (followAfter haltedBehindPop (opRegWrite 17 0 [] haltedBehindPop)) = haltedPopWaits := by
    rw [opRegWrite_haltedBehindPop, windowAfter, if_neg (by decide), followAfter_idle rfl rfl rfl rfl]
    exact congrArg (followAfter haltedBehindPop) releaseAll_haltedBehindPop
  exact congrArg Host.Outcome.next served

end Sys2Proof.Machine

namespace Sys2Proof

open Machine

/-- Refutes O60: in seal halt a REG_WRITE lets a pop that was held behind another one follow, and that pop enters its event queue. -/
theorem not_sealHaltLasts : ¬ Obligations.SealHaltLasts := by
  intro lasts
  have frozen := lasts { haltedBehindPop with pending := [.regWrite 17 0 []] } haltedPopWaits 1 rfl rfl rfl (by decide) step_haltedBehindPop
  rcases frozen with ⟨⟨-, -, -, -, -, -, -, -, -, -, -, -, -, queues, -⟩, -⟩ | ⟨awake, -⟩
  · exact absurd queues (by decide)
  · exact absurd awake (by decide)

end Sys2Proof
end

section
/-! PROOFS. Status bits of event sources (R509): what a firing sets in EV_STAT, and that no operation that fires, enters a record, counts or records in
the Tally clears one. -/

namespace Sys2Proof.Machine

/-! ### A status bit set -/

/-- Setting a status bit of an RSQ word sets that bit and, below SEQ, leaves the others. -/
theorem bit_rsqSet (w : Word) {i j : Nat} (hi : i < 48) (hj : j < 48) : bit (rsqSet w i) j = (decide (j = i) || bit w j) := by
  rw [rsqSet, bit_setFld_ne _ _ _ _ _ (by decide) (.inl hj), setBit]
  by_cases h : j = i
  · subst h
    rw [bit_setFld_in _ _ _ _ _ (by omega) (Nat.le_refl _) (by omega)]
    simp
  · rw [bit_setFld_ne _ _ _ _ _ (by omega) (by omega)]
    simp [h]

/-- The status bit of source `n` in EV_STAT (R509). -/
def raised (s : State) (n : Nat) : Bool := bit (mgetD 0 s.ev.evStat (n / 48)) (n % 48)

/-- Every status bit of `s` stands in `t`. -/
structure StatKept (s t : State) : Prop where
  bits : ∀ n, raised s n = true → raised t n = true

theorem StatKept.refl (s : State) : StatKept s s := ⟨fun _ h => h⟩

theorem StatKept.trans {s t u : State} (h : StatKept s t) (k : StatKept t u) : StatKept s u := ⟨fun n r => k.bits n (h.bits n r)⟩

theorem statKept_of_evStat {s t : State} (h : t.ev.evStat = s.ev.evStat) : StatKept s t := ⟨fun n r => by rwa [raised, h]⟩

theorem StatKept.after {s t u : State} (k : StatKept t u) (h : t.ev.evStat = s.ev.evStat) : StatKept s u := (statKept_of_evStat h).trans k

theorem raised_fireStat (n m : Nat) (w1 w2 w3 len : Word) (s : State) :
    raised (fireStat n w1 w2 w3 len s) m = (decide (m = n) || raised s m) := by
  have stat : (fireStat n w1 w2 w3 len s).ev.evStat = mput 0 s.ev.evStat (n / 48) (rsqSet (mgetD 0 s.ev.evStat (n / 48)) (n % 48)) := by
    simp only [fireStat]
    repeat' split
    all_goals rfl
  by_cases same : m / 48 = n / 48
  · rw [raised, raised, stat, same, mgetD_mput_self, bit_rsqSet _ (by omega) (by omega)]
    congr 2
    exact propext ⟨fun h => by omega, fun h => by rw [h]⟩
  · have ne : m ≠ n := fun h => same (by rw [h])
    rw [raised, raised, stat, mgetD_mput_ne _ _ _ _ same]
    simp [ne]

theorem fireNoQ_of_not_reserved {s : State} {n : Nat} (h : evReserved s n = false) (c : Nat) (o1 o2 : Obj) (q : Nat) :
    ∃ w1 w2 w3 len, fireNoQ n c o1 o2 q s = fireStat n w1 w2 w3 len s := by
  rw [fireNoQ, if_neg (by simp [h])]
  exact ⟨_, _, _, _, rfl⟩

theorem raised_fireNoQ {s : State} {n : Nat} (h : evReserved s n = false) (c : Nat) (o1 o2 : Obj) (q : Nat) :
    raised (fireNoQ n c o1 o2 q s) n = true := by
  obtain ⟨w1, w2, w3, len, eq⟩ := fireNoQ_of_not_reserved h c o1 o2 q
  rw [eq, raised_fireStat]
  simp

namespace StatKept

variable (s : State)

theorem fireNoQ (n c : Nat) (o1 o2 : Obj) (q : Nat) : StatKept s (fireNoQ n c o1 o2 q s) := by
  cases h : evReserved s n with
  | true => rw [Machine.fireNoQ, if_pos h]; exact refl s
  | false =>
    obtain ⟨w1, w2, w3, len, eq⟩ := fireNoQ_of_not_reserved h c o1 o2 q
    exact ⟨fun m r => by rw [eq, raised_fireStat, r, Bool.or_true]⟩

theorem enterRaw (q : Nat) (r : QRec) : StatKept s (enterRaw q r s).1 := ⟨fun _ h => h⟩

theorem fireGap (q : Nat) : StatKept s (fireGap q s) := by
  simp only [Machine.fireGap]
  repeat' split
  · exact (fireNoQ ..).trans ((enterRaw ..).trans (fireNoQ ..))
  · exact (fireNoQ ..).trans (enterRaw ..)
  · exact fireNoQ ..

theorem enter (q : Nat) (r : QRec) : StatKept s (enter q r s) := by
  simp only [Machine.enter]
  repeat' split
  · exact refl s
  · exact (enterRaw s q r).trans (fireGap ..)
  · exact enterRaw ..

theorem fireSeq (n c : Nat) (o1 o2 : Obj) (q : Nat) : StatKept s (fireSeq n c o1 o2 q s) := by
  simp only [Machine.fireSeq]
  repeat' split
  · exact refl s
  · exact (fireNoQ ..).trans (enter ..)
  · exact fireNoQ ..

theorem fire (n c : Nat) (o1 : Obj) : StatKept s (fire n c o1 s) := fireSeq ..

theorem post (q ty info : Nat) (ws : List Word) : StatKept s (post q ty info ws s) := enter ..

theorem count (a n : Nat) : StatKept s (count a n s) := by
  simp only [Machine.count]
  repeat' split
  · exact refl s
  · exact statKept_of_evStat rfl
  · exact statKept_of_evStat rfl
  · exact statKept_of_evStat rfl
  · exact StatKept.after (fire ..) rfl

theorem tlyLose : StatKept s (tlyLose s) := by
  simp only [Machine.tlyLose]
  split
  · exact refl s
  · exact StatKept.after (fireSeq ..) rfl

theorem tally (orig kind res : Nat) (tg old new aux : Word) : StatKept s (tally orig kind res tg old new aux s) := by
  have put : StatKept s (tlyPut orig kind res tg old new aux (Machine.tlyLose s)) := (tlyLose s).trans (statKept_of_evStat (by rw [tlyPut_ev]))
  simp only [Machine.tally]
  repeat' split
  · exact refl s
  · exact put.trans (fireSeq ..)
  · exact put

theorem tallyAuto (orig a src : Nat) (old new : Word) (o : Obj) : StatKept s (tallyAuto orig a src old new o s) := tally ..

end StatKept

/-- A source that fires sets its status bit (R509). -/
theorem raised_fireSeq {s : State} {n : Nat} (h : evReserved s n = false) (c : Nat) (o1 o2 : Obj) (q : Nat) :
    raised (fireSeq n c o1 o2 q s) n = true := by
  have stat : raised (fireNoQ n c o1 o2 q s) n = true := raised_fireNoQ h ..
  simp only [fireSeq]
  rw [if_neg (by simp [h])]
  split
  · exact (StatKept.enter ..).bits n stat
  · exact stat

theorem raised_fire {s : State} {n : Nat} (h : evReserved s n = false) (c : Nat) (o1 : Obj) : raised (fire n c o1 s) n = true := raised_fireSeq h ..

end Sys2Proof.Machine

namespace Sys2Proof

open Machine

/-- Settles O9: the bit is set before the record is entered, and what enters a record clears none. -/
theorem firingSetsStatus : Obligations.FiringSetsStatus := fun _ _ c o1 o2 q h => raised_fireSeq h c o1 o2 q

/-- Settles O54: `step` by its two branches; of the empty queue's, `tick` counts at most PM_CNT1 and fabric time. -/
theorem stepRunsFrontCommand : Obligations.StepRunsFrontCommand := by
  refine ⟨fun c rest s => rfl, fun s idle => ⟨tick s, ?_, ?_⟩⟩
  · rw [step, idle]
  · simp only [tick, Untouched]
    repeat' split
    all_goals simp_all

end Sys2Proof
end

section
/-! PROOFS. The block after a cold reset (Table 14.7): the registers whose reset value the maps give. -/

namespace Sys2Proof.Machine

/-- No status bit is set after a cold reset, so no source asserts ALERT_n (R512). -/
theorem alertAsserted_reset : alertAsserted State.reset = false := by
  have quiet : alertSource State.reset = false := by
    rw [alertSource, List.any_eq_false]
    intro n _
    simp [State.reset, mgetD, mget, bit]
  rw [alertAsserted, quiet]
  rfl

theorem rd_reset_aHfBito (p : HPort) : rd State.reset (aHfBito p) = 20 := by
  revert p
  decide

theorem rdFld_reset_aIpStat (p : IPort) : rdFld State.reset (aIpStat p) 0 3 = 0 := by
  revert p
  decide

theorem mbAuth_reset (n : Fin 16) : mbAuth State.reset n = if n.val = 0 then 0xFF else 1 := by
  revert n
  decide

theorem rd_reset_aSlKs (k : Fin 4) : rd State.reset (aSlKs k) = 4 := by
  revert k
  decide

end Sys2Proof.Machine

namespace Sys2Proof

open Machine

/-- Settles O55: the stores of `State.reset` are empty, and the registers read what the maps give. -/
theorem resetLeaves : Obligations.ResetLeaves := by
  refine ⟨⟨rfl, rfl⟩, rfl, rfl, rfl, rfl, rfl, rfl, rfl, rfl, rfl, rfl, rfl, rfl, rfl, rfl, rfl, rfl, rfl, ⟨_, rfl, rfl, rfl, rfl, rfl⟩,
    alertAsserted_reset, rfl, rd_reset_aHfBito, ?_, ?_, ?_, ?_, rdFld_reset_aIpStat, ?_, fun n k => ⟨mbAuth_reset n, rd_reset_aSlKs k⟩⟩
  · decide
  · decide
  · decide
  · decide
  · decide

end Sys2Proof
end

section
/-! PROOFS. Fields and bits of registers after a write of a register, of one of its fields or of a status bit: of the same register and of another. -/

namespace Sys2Proof.Machine

variable (s : State) {a b : Nat}

/-! ### A word's bits and fields -/

theorem bit_setBit_self (w : Word) {i : Nat} (h : i < 64) (v : Bool) : bit (setBit w i v) i = v := by
  rw [setBit, bit_setFld_in _ _ _ _ _ (by omega) (Nat.le_refl _) (by omega)]
  cases v <;> simp

theorem bit_setBit_ne (w : Word) {i j : Nat} (h : i < 64) (hd : j ≠ i) (v : Bool) : bit (setBit w i v) j = bit w j :=
  bit_setFld_ne _ _ _ _ _ (by omega) (by omega)

theorem fld_setBit_ne (w : Word) {i lo n : Nat} (_ : i < 64) (hd : lo + n ≤ i ∨ i < lo) (v : Bool) : fld (setBit w i v) lo n = fld w lo n :=
  fld_setFld_ne _ _ _ _ _ _ (by omega) (by omega)

theorem fld_rsqSet_seq (w : Word) (i : Nat) : fld (rsqSet w i) 48 16 = (fld w 48 16 + 1) % 2 ^ 16 := by
  rw [rsqSet, fld_setFld_self _ _ _ _ (by decide)]

theorem fld_rsqSet_ne (w : Word) {i lo n : Nat} (h : i < 48) (hi : lo + n ≤ 48) (hd : lo + n ≤ i ∨ i < lo) : fld (rsqSet w i) lo n = fld w lo n := by
  rw [rsqSet, fld_setFld_ne _ _ _ _ _ _ (by decide) (.inl hi), fld_setBit_ne _ (by omega) hd]

/-- A bit read as a field of one bit. -/
theorem fld_one (w : Word) (i : Nat) : fld w i 1 = (bit w i).toNat := by
  rw [fld, bit, Nat.toNat_testBit, Nat.shiftRight_eq_div_pow, Nat.pow_one]

/-! ### A register written -/

theorem rdFld_wr_self (v : Word) (lo n : Nat) : rdFld (wr a v s) a lo n = fld v lo n := by rw [rdFld, rd_wr_self]

theorem rdFld_wr_ne (v : Word) (lo n : Nat) (h : b / 8 ≠ a / 8) : rdFld (wr a v s) b lo n = rdFld s b lo n := by rw [rdFld, rd_wr_ne _ _ h, rdFld]

theorem rdBit_wr_ne (v : Word) (i : Nat) (h : b / 8 ≠ a / 8) : rdBit (wr a v s) b i = rdBit s b i := by rw [rdBit, rd_wr_ne _ _ h, rdBit]

/-! ### A field of a register written -/

theorem rd_wrFld_self (lo n v : Nat) : rd (wrFld a lo n v s) a = setFld (rd s a) lo n v := rd_wr_self ..

theorem rd_wrFld_ne (lo n v : Nat) (h : b / 8 ≠ a / 8) : rd (wrFld a lo n v s) b = rd s b := rd_wr_ne _ _ h

theorem rdFld_wrFld_ne (lo n v lo' n' : Nat) (h : b / 8 ≠ a / 8) : rdFld (wrFld a lo n v s) b lo' n' = rdFld s b lo' n' := rdFld_wr_ne s _ _ _ h

/-- A field beside the one written. -/
theorem rdFld_wrFld_off (lo n v lo' n' : Nat) (h : lo + n ≤ 64) (hd : lo' + n' ≤ lo ∨ lo + n ≤ lo') :
    rdFld (wrFld a lo n v s) a lo' n' = rdFld s a lo' n' := by
  rw [rdFld, rd_wrFld_self, fld_setFld_ne _ _ _ _ _ _ h hd, rdFld]

/-- A bit outside the field written. -/
theorem rdBit_wrFld_off (lo n v i : Nat) (h : lo + n ≤ 64) (hd : i < lo ∨ lo + n ≤ i) : rdBit (wrFld a lo n v s) a i = rdBit s a i := by
  rw [rdBit, rd_wrFld_self, bit_setFld_ne _ _ _ _ _ h hd, rdBit]

/-- A bit of the field written. -/
theorem rdBit_wrFld_in (lo n v i : Nat) (h : lo + n ≤ 64) (h1 : lo ≤ i) (h2 : i < lo + n) : rdBit (wrFld a lo n v s) a i = v.testBit (i - lo) := by
  rw [rdBit, rd_wrFld_self, bit_setFld_in _ _ _ _ _ h h1 h2]

/-- A bit just written. -/
theorem rdBit_wrFld_self (i v : Nat) (h : i < 64) : rdBit (wrFld a i 1 v s) a i = v.testBit 0 := by
  rw [rdBit_wrFld_in s i 1 v i (by omega) (Nat.le_refl i) (by omega), Nat.sub_self]

/-! ### A status bit set -/

theorem rd_rsq_self (i : Nat) : rd (rsq a i s) a = rsqSet (rd s a) i := rd_wr_self ..

theorem rd_rsq_ne (i : Nat) (h : b / 8 ≠ a / 8) : rd (rsq a i s) b = rd s b := rd_wr_ne _ _ h

theorem rdBit_rsq_self {i j : Nat} (hi : i < 48) (hj : j < 48) : rdBit (rsq a i s) a j = (decide (j = i) || rdBit s a j) := by
  rw [rdBit, rd_rsq_self, bit_rsqSet _ hi hj, rdBit]

theorem rdFld_rsq_off {i lo n : Nat} (h : i < 48) (hn : lo + n ≤ 48) (hd : lo + n ≤ i ∨ i < lo) : rdFld (rsq a i s) a lo n = rdFld s a lo n := by
  rw [rdFld, rd_rsq_self, fld_rsqSet_ne _ h hn hd, rdFld]

theorem seqOf_rsq (i : Nat) : seqOf (rsq a i s) a = (seqOf s a + 1) % 2 ^ 16 := by
  rw [seqOf, rdFld, rd_rsq_self, fld_rsqSet_seq, seqOf, rdFld]

/-! ### Registers stand -/

theorem rdFld_congr {s t : State} (h1 : t.part = s.part) (h2 : t.regs = s.regs) (a lo n : Nat) : rdFld t a lo n = rdFld s a lo n := by
  rw [rdFld, rd_congr h1 h2, rdFld]

theorem rdBit_congr {s t : State} (h1 : t.part = s.part) (h2 : t.regs = s.regs) (a i : Nat) : rdBit t a i = rdBit s a i := by
  rw [rdBit, rd_congr h1 h2, rdBit]

theorem hostMode_congr {s t : State} (h : t.hst.setting = s.hst.setting) (p : Nat) : hostMode t p = hostMode s p := by
  rw [hostMode, portSetting, h, hostMode, portSetting]

/-- A running block is not halted. -/
theorem unhalted_of_running {s : State} (run : running s = true) : s.halted = none := by
  simp only [running, Bool.and_eq_true, Option.isNone_iff_eq_none] at run
  exact run.1

/-- A source beyond the host ports' (R360, R508) fires while no seal halt stands, if the part has it. -/
theorem evReserved_eq_false {s : State} (unhalted : s.halted = none) {n : Nat} (known : reservedSource s n = false) (high : 64 ≤ n) :
    evReserved s n = false := by
  simp [evReserved, unhalted, known, Nat.not_lt.2 high]

end Sys2Proof.Machine
end

section
/-! PROOFS. What a Tally record and a count come to (R497, R529, R531): the next record number, and the live value of the counter and of the others. -/

namespace Sys2Proof.Machine

variable {s : State}

@[simp] theorem tlyLose_next (s : State) : (tlyLose s).tly.next = s.tly.next := by
  simp only [tlyLose]
  split
  · rfl
  · simp

/-- A record takes the next number (R497). -/
theorem tally_next (unhalted : s.halted = none) (orig kind res : Nat) (tg old new aux : Word) :
    (tally orig kind res tg old new aux s).tly.next = s.tly.next + 1 := by
  have put : (tlyPut orig kind res tg old new aux (tlyLose s)).tly.next = s.tly.next + 1 := congrArg (· + 1) (tlyLose_next s)
  simp only [tally]
  rw [if_neg (by simp [unhalted])]
  split
  · rw [fireSeq_tly, put]
  · exact put

theorem tallyAuto_next (unhalted : s.halted = none) (orig a src : Nat) (old new : Word) (o : Obj) :
    (tallyAuto orig a src old new o s).tly.next = s.tly.next + 1 := tally_next unhalted ..

/-- A count in a block that is not halted: the live value, whatever its WRAP bit does (R531). -/
theorem count_live (unhalted : s.halted = none) (a n : Nat) :
    (count a n s).cnt.live = mput 0 s.cnt.live (a / 8) ((cntLive s a + n) % 2 ^ 48) := by
  simp only [count]
  rw [if_neg (by simp [unhalted])]
  split
  · rfl
  · split
    · rfl
    · split
      · rfl
      · rw [fire_cnt]
        rfl

theorem cntLive_count_self (unhalted : s.halted = none) (a n : Nat) : cntLive (count a n s) a = (cntLive s a + n) % 2 ^ 48 := by
  rw [cntLive, count_live unhalted, mgetD_mput_self]

end Sys2Proof.Machine
end

section
/-! PROOFS. Rails and Brace (R539 to R546): what a reading notes, and what the entry into Brace changes. -/

namespace Sys2Proof.Machine

variable {s : State}

/-! ### A reading noted -/

/-- The lowest value of a rail after a reading: a rail that has none yet takes the reading. -/
def railMin (n mv : Nat) (s : State) : Nat :=
  if rdFld s (aPmRail n) 32 16 = 0 ∨ mv < rdFld s (aPmRail n) 32 16 then mv else rdFld s (aPmRail n) 32 16

/-- The reading and its minimum stand in PM_RAIL. -/
def railWritten (n mv : Nat) (s : State) : State := wrFld (aPmRail n) 16 16 mv (wrFld (aPmRail n) 32 16 (railMin n mv s) s)

/-- A reading below the warning level of the rail as the register stands (R542). -/
def railBelow (n mv : Nat) (s : State) : Bool := decide (200 * mv < railNominal n * (200 - rdFld s (aPmRail n) 0 4))

/-- A reading noted: PM_RAIL, and whether the rail stands among those below their warning level. -/
def railNoted (n mv : Nat) (s : State) : State :=
  let t := railWritten n mv s
  let l := t.pwr.low.filter (· ≠ n)
  { t with pwr := { t.pwr with low := if railBelow n mv t then l ++ [n] else l } }

/-- What does not concern power reads as before where only the power state has changed. -/
theorem rd_withPwr (t : State) (p : Pwr) (a : Nat) : rd { t with pwr := p } a = rd t a := rd_congr rfl rfl a

theorem railRead_eq (n mv : Nat) (present : isH1 s = true ∨ n ≠ 3) :
    railRead n mv s =
      let t := railNoted n (satTo 65535 mv) s
      if 200 * satTo 65535 mv ≤ railNominal n * (200 - rdFld t (aPmRail n) 8 5) then
        if t.part.phase = .held then { t with pwr := { t.pwr with hold := t.pwr.hold || t.part.porstN } }
        else coldReset (1 + 8 * n) true t
      else if railBelow n (satTo 65535 mv) (railWritten n (satTo 65535 mv) s) then enterBrace n t else t := by
  have has : ¬(!isH1 s && decide (n = 3)) = true := by
    rcases present with h | h <;> simp [h]
  rw [railRead, if_neg has]
  rfl

theorem rd_railNoted (n mv a : Nat) : rd (railNoted n mv s) a = rd (railWritten n mv s) a := rd_withPwr _ _ a

theorem railNoted_part (n mv : Nat) : (railNoted n mv s).part = s.part := by simp [railNoted, railWritten]

theorem railNoted_halted (n mv : Nat) : (railNoted n mv s).halted = s.halted := by simp [railNoted, railWritten]

theorem railNoted_kept (n mv : Nat) : (railNoted n mv s).hc = s.hc ∧ (railNoted n mv s).tly = s.tly ∧ (railNoted n mv s).cnt = s.cnt ∧
    (railNoted n mv s).out = s.out := by simp [railNoted, railWritten]

theorem rdFld_railNoted (n mv : Nat) {lo k : Nat} (hd : lo + k ≤ 16 ∨ 48 ≤ lo) : rdFld (railNoted n mv s) (aPmRail n) lo k = rdFld s (aPmRail n) lo k := by
  rw [rdFld, rd_railNoted, ← rdFld, railWritten, rdFld_wrFld_off _ _ _ _ _ _ (by decide) (by omega),
    rdFld_wrFld_off _ _ _ _ _ _ (by decide) (by omega)]

theorem railBelow_railWritten (n mv : Nat) : railBelow n mv (railWritten n mv s) = railBelow n mv s := by
  rw [railBelow, railWritten, rdFld_wrFld_off _ _ _ _ _ _ (by decide) (by decide), rdFld_wrFld_off _ _ _ _ _ _ (by decide) (by decide), railBelow]

/-- The reading itself (R539). -/
theorem rdFld_railNoted_reading (n : Nat) {mv : Nat} (h : mv < 65536) : rdFld (railNoted n mv s) (aPmRail n) 16 16 = mv := by
  rw [rdFld, rd_railNoted, ← rdFld, railWritten, rdFld_wrFld_self _ _ _ _ _ (by decide)]
  exact Nat.mod_eq_of_lt h

/-- The lowest value (R539). -/
theorem rdFld_railNoted_min (n : Nat) {mv : Nat} (h : mv < 65536) : rdFld (railNoted n mv s) (aPmRail n) 32 16 = railMin n mv s := by
  have small : railMin n mv s < 65536 := by
    unfold railMin
    split
    · exact h
    · exact fld_lt ..
  rw [rdFld, rd_railNoted, ← rdFld, railWritten, rdFld_wrFld_off _ _ _ _ _ _ (by decide) (by decide), rdFld_wrFld_self _ _ _ _ _ (by decide)]
  exact Nat.mod_eq_of_lt small

/-- Another register than the rail's. -/
theorem rd_railNoted_ne (n mv : Nat) {b : Nat} (h : b / 8 ≠ aPmRail n / 8) : rd (railNoted n mv s) b = rd s b := by
  rw [rd_railNoted, railWritten, rd_wrFld_ne _ _ _ _ h, rd_wrFld_ne _ _ _ _ h]

theorem mem_railNoted_low (n mv : Nat) : n ∈ (railNoted n mv s).pwr.low ↔ railBelow n mv s = true := by
  simp only [railNoted, railBelow_railWritten]
  split <;> rename_i h <;> simp [h]

theorem awake_railNoted (n mv : Nat) : awake (railNoted n mv s) = awake s := by
  rw [awake, awake, railNoted_part, railNoted_halted]

theorem inBrace_railNoted {n : Nat} (mv : Nat) (hn : n < 5) : inBrace (railNoted n mv s) = inBrace s := by
  rw [inBrace, rdBit, rd_railNoted_ne _ _ (by unfold aPmStat aPmRail; omega), inBrace, rdBit]

/-- A monitor's reading within 16 bits and above the reset level is noted, and a low one is one for Brace (R542). -/
theorem railRead_above {n mv : Nat} (present : isH1 s = true ∨ n ≠ 3) (h16 : mv < 65536)
    (above : railNominal n * (200 - rdFld s (aPmRail n) 8 5) < 200 * mv) :
    railRead n mv s = if railBelow n mv s then enterBrace n (railNoted n mv s) else railNoted n mv s := by
  have sat : satTo 65535 mv = mv := by
    unfold satTo
    split <;> omega
  simp only [railRead_eq n mv present, sat, rdFld_railNoted n mv (lo := 8) (k := 5) (.inl (by decide)), if_neg (Nat.not_le.2 above), railBelow_railWritten]

/-! ### Brace entered -/

/-- PM_STAT as Brace is entered, with its count. -/
def braceMarked (s : State) : State := count (aPmCnt 0) 1 (rsq aPmStat 5 (wrFld aPmStat 0 1 1 (easeFrom s)))

/-- Brace entered, before the drains of R293. -/
def braceTold (what : Nat) (s : State) : State :=
  let t := rsq aPmStat 5 (wrFld aPmStat 0 1 1 (easeFrom s))
  let u := fireSeq 256 0 (oVal what) oNone (seqOf t aPmStat) (braceMarked s)
  tallyAuto 35 aPmStat 256 (rd s aPmStat) (rd u aPmStat) (oVal what) u

theorem enterBrace_inBrace (what : Nat) (h : inBrace s = true) : enterBrace what s = s := by simp [enterBrace, h]

theorem enterBrace_eq (what : Nat) (out : inBrace s = false) (up : awake s = true) : enterBrace what s = drainAll (braceTold what s) := by
  rw [enterBrace, if_neg (by simp [out, up])]
  rfl

theorem easeFrom_eq (s : State) : ∃ e, easeFrom s = { s with pwr := { s.pwr with easeSq := e } } := by
  unfold easeFrom
  split
  · exact ⟨_, rfl⟩
  · exact ⟨_, rfl⟩

theorem unhalted_of_awake (up : awake s = true) : s.halted = none := by
  simp only [awake, Bool.and_eq_true, Option.isNone_iff_eq_none] at up
  exact up.1

/-- Brace entered marks PM_STAT and its count, raises EV256, takes the next Tally record and leaves the hub cache, the pins and the other registers. -/
theorem braceTold_spec (what : Nat) (up : awake s = true) :
    inBrace (braceTold what s) = true ∧ raised (braceTold what s) 256 = true ∧ (braceTold what s).tly.next = s.tly.next + 1 ∧
      cntLive (braceTold what s) (aPmCnt 0) = (cntLive s (aPmCnt 0) + 1) % 2 ^ 48 ∧ (braceTold what s).hc = s.hc ∧ (braceTold what s).part = s.part ∧
      (braceTold what s).pwr.low = s.pwr.low ∧ ∀ b, b / 8 ≠ aPmStat / 8 → rd (braceTold what s) b = rd s b := by
  have unhalted := unhalted_of_awake up
  obtain ⟨e, eased⟩ := easeFrom_eq s
  have regs : ∀ a, rd (braceTold what s) a = rd (rsq aPmStat 5 (wrFld aPmStat 0 1 1 (easeFrom s))) a := by
    intro a
    rw [braceTold, rd_tallyAuto, rd_fireSeq, braceMarked, rd_count]
  have marked : (braceMarked s).halted = none := by simp [braceMarked, eased, unhalted]
  have free : evReserved (braceMarked s) 256 = false := evReserved_eq_false marked (by simp [reservedSource]) (by decide)
  refine ⟨?_, ?_, ?_, ?_, ?_, ?_, ?_, ?_⟩
  · rw [inBrace, rdBit, regs, ← rdBit, rdBit_rsq_self _ (by decide) (by decide), rdBit_wrFld_self _ _ _ (by decide)]
    rfl
  · exact (StatKept.tallyAuto ..).bits _ (raised_fireSeq free ..)
  · rw [braceTold, tallyAuto_next (by rw [fireSeq_halted, marked]), fireSeq_tly, braceMarked, count_tly]
    simp [eased]
  · rw [cntLive, braceTold, tallyAuto_cnt, fireSeq_cnt, braceMarked, ← cntLive, cntLive_count_self (by simp [eased, unhalted])]
    simp [cntLive, eased]
  · simp [braceTold, braceMarked, eased]
  · simp [braceTold, braceMarked, eased]
  · simp [braceTold, braceMarked, eased]
  · intro b hb
    rw [regs, rd_rsq_ne _ _ hb, rd_wrFld_ne _ _ _ _ hb, eased, rd_withPwr]

end Sys2Proof.Machine
end

section
/-! PROOFS. Cold resets (R446, R541, R553): what PORST_n and a rail at its reset level leave. -/

namespace Sys2Proof.Machine

theorem coldHeld_coldReset (lastc : Nat) (hold : Bool) (s : State) : ColdHeld (coldReset lastc hold s) := ⟨rfl, rfl⟩

/-- A device in cold reset does not run, so nothing follows. -/
theorem follow_coldReset (lastc : Nat) (hold : Bool) (s : State) : follow (coldReset lastc hold s) = coldReset lastc hold s := follow_stopped rfl

theorem rd_coldReset_aPmLastc (lastc : Nat) (hold : Bool) (s : State) : rd (coldReset lastc hold s) aPmLastc = BitVec.ofNat 64 lastc := rd_wr_self ..

/-- A reading at or below the reset level of a rail that the part has puts a device out of reset into cold reset (R541). -/
theorem railRead_reset {s : State} {n mv : Nat} (present : isH1 s = true ∨ n ≠ 3) (released : s.part.phase ≠ .held)
    (low : 200 * satTo 65535 mv ≤ railNominal n * (200 - rdFld s (aPmRail n) 8 5)) :
    railRead n mv s = coldReset (1 + 8 * n) true (railNoted n (satTo 65535 mv) s) := by
  simp only [railRead_eq n mv present, rdFld_railNoted n _ (lo := 8) (k := 5) (.inl (by decide)), if_pos low, railNoted_part, if_neg released]

end Sys2Proof.Machine

namespace Sys2Proof

open Machine

/-- Settles O12: both end in `coldReset`. -/
theorem coldResetAlways : Obligations.ColdResetAlways := by
  refine fun s => ⟨⟨opPorstAssert s, rfl, coldHeld_coldReset .., rfl, rfl, rfl, rfl, rfl, rfl, rfl, rfl⟩, fun rail mv present released low => ?_⟩
  refine ⟨coldReset (1 + 8 * rail) true (railNoted rail (satTo 65535 mv) s), ?_, coldHeld_coldReset .., rd_coldReset_aPmLastc ..⟩
  exact congrArg Host.Outcome.next ((congrArg follow (railRead_reset present released low)).trans (follow_coldReset ..))

end Sys2Proof
end

section
/-! PROOFS. Brace (R541 to R546): the rows of the rails, of PWR_WARN_n and of the exit timer. -/

namespace Sys2Proof.Machine

variable {s : State}

/-- Below the warning level and above the reset level, in Brace already: the reading is noted. -/
theorem railRead_inBrace {rail : Fin 5} {mv : Nat} (present : isH1 s = true ∨ rail.val ≠ 3) (h16 : mv < 65536)
    (above : railNominal rail * (200 - rdFld s (aPmRail rail) 8 5) < 200 * mv) (brace : inBrace s = true) :
    railRead rail mv s = railNoted rail mv s := by
  rw [railRead_above present h16 above, enterBrace_inBrace _ (by rw [inBrace_railNoted _ rail.isLt, brace]), ite_self]

theorem railBelow_iff (n mv : Nat) : railBelow n mv s = true ↔ 200 * mv < railNominal n * (200 - rdFld s (aPmRail n) 0 4) := decide_eq_true_iff

/-- MIN of each rail starts again at its reading (R546). -/
def minsRestarted (s : State) : State := (List.range 5).foldl (fun s n => wrFld (aPmRail n) 32 16 (rdFld s (aPmRail n) 16 16) s) s

/-- Writing a rail's minimum leaves the readings, and another rail's minimum. -/
theorem rdFld_wrFld_min_ne (s : State) (n m v lo : Nat) (h : m ≠ n ∨ lo = 16) :
    rdFld (wrFld (aPmRail n) 32 16 v s) (aPmRail m) lo 16 = rdFld s (aPmRail m) lo 16 := by
  by_cases same : m = n
  · subst same
    exact rdFld_wrFld_off _ _ _ _ _ _ (by decide) (by omega)
  · exact rdFld_wrFld_ne _ _ _ _ _ _ (by unfold aPmRail; omega)

theorem rdFld_minsRestarted {n : Nat} (hn : n < 5) : rdFld (minsRestarted s) (aPmRail n) 32 16 = rdFld s (aPmRail n) 16 16 := by
  have once : ∀ (s : State) v, rdFld (wrFld (aPmRail n) 32 16 v s) (aPmRail n) 32 16 = v % 65536 := fun s v => rdFld_wrFld_self _ _ _ _ _ (by decide)
  have small : rdFld s (aPmRail n) 16 16 % 65536 = rdFld s (aPmRail n) 16 16 := Nat.mod_eq_of_lt (fld_lt ..)
  simp only [minsRestarted, show List.range 5 = [0, 1, 2, 3, 4] from rfl, List.foldl_cons, List.foldl_nil]
  interval_cases n <;> simp [once, small, rdFld_wrFld_min_ne]

/-- Restarting the minima changes registers alone. -/
theorem minsRestarted_kept (s : State) : (minsRestarted s).halted = s.halted ∧ (minsRestarted s).hc = s.hc ∧ (minsRestarted s).tly = s.tly ∧
    ∀ b, (∀ n, n < 5 → b / 8 ≠ aPmRail n / 8) → rd (minsRestarted s) b = rd s b := by
  simp only [minsRestarted, show List.range 5 = [0, 1, 2, 3, 4] from rfl, List.foldl_cons, List.foldl_nil]
  refine ⟨by simp, by simp, by simp, fun b hb => ?_⟩
  rw [rd_wrFld_ne _ _ _ _ (hb 4 (by decide)), rd_wrFld_ne _ _ _ _ (hb 3 (by decide)), rd_wrFld_ne _ _ _ _ (hb 2 (by decide)),
    rd_wrFld_ne _ _ _ _ (hb 1 (by decide)), rd_wrFld_ne _ _ _ _ (hb 0 (by decide))]

/-- The exit from Brace once every rail has risen and PWR_WARN_n is released or ignored (R545). -/
theorem opBraceExitTimer_exit (up : awake s = true) (brace : inBrace s = true) (risen : s.pwr.low = [])
    (released : s.part.pwrWarnN = true ∨ rdBit s aPmCtl 0 = false) :
    inBrace (opBraceExitTimer s) = false ∧ raised (opBraceExitTimer s) 257 = true ∧ (opBraceExitTimer s).tly.next = s.tly.next + 1 ∧
      (opBraceExitTimer s).hc = s.hc ∧ ∀ n, n < 5 → rdFld (opBraceExitTimer s) (aPmRail n) 32 16 = rdFld s (aPmRail n) 16 16 := by
  have free : (!s.part.pwrWarnN && rdBit s aPmCtl 0) = false := by rcases released with h | h <;> simp [h]
  unfold opBraceExitTimer
  rw [if_neg (by simp [brace, risen, free, up])]
  extract_lets old t u v
  obtain ⟨halted, hc, tly, regs⟩ : u.halted = t.halted ∧ u.hc = t.hc ∧ u.tly = t.tly ∧
    ∀ b, (∀ n, n < 5 → b / 8 ≠ aPmRail n / 8) → rd u b = rd t b := minsRestarted_kept t
  have unhalted : u.halted = none := by
    rw [halted, wrFld_halted, unhalted_of_awake up]
  have free' : evReserved u 257 = false := evReserved_eq_false unhalted (by simp [reservedSource]) (by decide)
  refine ⟨?_, ?_, ?_, ?_, fun n hn => ?_⟩
  · rw [inBrace, rdBit, rd_tallyAuto, rd_fireSeq, regs aPmStat (by unfold aPmStat aPmRail; omega), ← rdBit, rdBit_wrFld_self _ _ _ (by decide)]
    rfl
  · exact (StatKept.tallyAuto ..).bits _ (raised_fireSeq free' ..)
  · rw [tallyAuto_next (by rw [fireSeq_halted, unhalted]), fireSeq_tly, tly, wrFld_tly]
  · rw [tallyAuto_hc, fireSeq_hc, hc, wrFld_hc]
  · rw [rdFld, rd_tallyAuto, rd_fireSeq, ← rdFld]
    exact (rdFld_minsRestarted hn).trans (rdFld_wrFld_ne _ _ _ _ _ _ (by unfold aPmStat aPmRail; omega))

/-- PWR_WARN_n asserted where it is ignored, or in Brace: the pin alone. -/
theorem opPwrWarnAssert_quiet (h : inBrace s = true ∨ rdBit s aPmCtl 0 = false) :
    opPwrWarnAssert s = { s with part := { s.part with pwrWarnN := false } } := by
  have pin : ∀ (a i : Nat), rdBit { s with part := { s.part with pwrWarnN := false } } a i = rdBit s a i := fun _ _ => rfl
  unfold opPwrWarnAssert
  extract_lets _ t
  rw [pin]
  rcases h with h | h
  · rw [enterBrace_inBrace 5 ((pin ..).trans h), ite_self]
  · rw [if_neg (by simp [h])]

end Sys2Proof.Machine

namespace Sys2Proof

open Machine

/-- Settles O17: a reading above the reset level is noted, and Brace is entered where none stands. -/
theorem braceEvents : Obligations.BraceEvents := by
  intro s up
  refine ⟨?_, ?_, ?_, ?_, ?_, ?_, ?_, ⟨_, rfl, rfl⟩⟩
  · intro rail mv present h16 above below brace
    refine ⟨railNoted rail mv s, ?_, rdFld_railNoted_reading _ h16, ?_, ?_, rdFld_railNoted_min _ h16⟩
    · exact congrArg (fun z => Host.Outcome.next (follow z)) (railRead_inBrace present h16 above brace)
    · rwa [mem_railNoted_low, railBelow_iff]
    · rwa [inBrace_railNoted _ rail.isLt]
  · intro rail mv present h16 above below calm
    have up' : awake (railNoted rail mv s) = true := by rwa [awake_railNoted]
    have calm' : inBrace (railNoted rail mv s) = false := by rwa [inBrace_railNoted _ rail.isLt]
    obtain ⟨brace, event, next, cnt, hc, -, low, regs⟩ := braceTold_spec rail.val up'
    obtain ⟨hcNoted, tlyNoted, cntNoted, -⟩ := railNoted_kept (s := s) rail.val mv
    have reg : ∀ lo k, rdFld (braceTold rail (railNoted rail mv s)) (aPmRail rail) lo k = rdFld (railNoted rail mv s) (aPmRail rail) lo k := fun lo k => by
      rw [rdFld, regs _ (by unfold aPmStat aPmRail; omega), rdFld]
    refine ⟨_, braceTold rail (railNoted rail mv s), ?_, rfl, brace, event, ?_, ?_, ?_, ?_, ?_, ?_⟩
    · refine congrArg (fun z => Host.Outcome.next (follow z)) ((railRead_above present h16 above).trans ?_)
      rw [if_pos ((railBelow_iff ..).2 below), enterBrace_eq _ calm' up']
    · rw [next, tlyNoted]
    · exact cnt.trans (by rw [cntLive, cntNoted])
    · rw [reg, rdFld_railNoted_reading _ h16]
    · rwa [low, mem_railNoted_low, railBelow_iff]
    · rw [hc, hcNoted]
    · rw [reg]
      exact rdFld_railNoted_min _ h16
  · intro rail mv present h16 risen above
    have high : railBelow rail mv s = false := by rw [railBelow, decide_eq_false (Nat.not_lt.2 risen)]
    obtain ⟨-, -, -, out⟩ := railNoted_kept (s := s) rail.val mv
    refine ⟨railNoted rail mv s, ?_, rdFld_railNoted_reading _ h16, ?_, out, rdFld_railNoted_min _ h16⟩
    · refine congrArg Host.Outcome.next ((railRead_above present h16 above).trans ?_)
      rw [if_neg (by simp [high])]
    · simp [mem_railNoted_low, high]
  · intro brace risen released
    obtain ⟨out, event, next, hc, mins⟩ := opBraceExitTimer_exit up brace risen released
    exact ⟨opBraceExitTimer s, rfl, out, event, next, hc, mins⟩
  · intro stays
    refine congrArg Host.Outcome.next (if_pos ?_)
    rcases stays with h | h | ⟨h, k⟩
    · simp [h]
    · simp [h]
    · simp [h, k]
  · intro quiet
    exact ⟨_, congrArg (fun z => Host.Outcome.next (follow z)) (opPwrWarnAssert_quiet quiet), rfl⟩
  · intro calm heeded
    obtain ⟨brace, event, next, cnt, hc, part, -⟩ := braceTold_spec 5 (s := { s with part := { s.part with pwrWarnN := false } }) up
    refine ⟨_, _, ?_, rfl, brace, by rw [part], hc, event, next, cnt⟩
    refine congrArg (fun z => Host.Outcome.next (follow z)) ((if_pos heeded).trans ?_)
    exact enterBrace_eq 5 calm up

end Sys2Proof
end

section
/-! PROOFS. Event queues (R514 to R527): what a firing or a record leaves of every queue, and what a queue holds after it has been set. -/

namespace Sys2Proof.Machine

theorem queue_congr {s t : State} (h : t.ev.queues = s.ev.queues) (q : Nat) : queue t q = queue s q := by rw [queue, queue, h]

@[simp] theorem queue_setQueue_self (q : Nat) (v : Queue) (s : State) : queue (setQueue q v s) q = v := mgetD_mput_self ..

theorem queue_setQueue_ne (v : Queue) (s : State) {q r : Nat} (h : r ≠ q) : queue (setQueue q v s) r = queue s r := mgetD_mput_ne _ _ _ _ h

/-- The side of a queue that its readers see: the draining bank, the record being read, the waiting pops and the FLUSHED word owed. -/
def readSide (x : Queue) : List QRec × Option (Nat × Nat) × Option (Nat × List Word) × List (Nat × Bool) × Bool :=
  (x.drain, x.drainGap, x.cur, x.waiting, x.flushed)

/-- Records may have entered queues; what their readers see, and the accesses held behind pops, stand. -/
structure ReadSidesKept (s t : State) : Prop where
  queues : ∀ q, readSide (queue t q) = readSide (queue s q)
  behind : t.ev.behind = s.ev.behind

theorem readSide_qAdd (ctl ft : Word) (r : QRec) (x : Queue) : readSide (qAdd ctl ft r x).1 = readSide x := by
  unfold qAdd
  split
  · rfl
  · split
    · rfl
    · extract_lets y
      split <;> rfl

namespace ReadSidesKept

variable {s t u : State}

theorem refl (s : State) : ReadSidesKept s s := ⟨fun _ => rfl, rfl⟩

theorem trans (h : ReadSidesKept s t) (k : ReadSidesKept t u) : ReadSidesKept s u :=
  ⟨fun q => (k.queues q).trans (h.queues q), k.behind.trans h.behind⟩

theorem of_queues (queues : t.ev.queues = s.ev.queues) (behind : t.ev.behind = s.ev.behind) : ReadSidesKept s t :=
  ⟨fun q => by rw [queue_congr queues], behind⟩

theorem waiting (h : ReadSidesKept s t) (q : Nat) : (queue t q).waiting = (queue s q).waiting :=
  congrArg (fun x : List QRec × Option (Nat × Nat) × Option (Nat × List Word) × List (Nat × Bool) × Bool => x.2.2.2.1) (h.queues q)

theorem cur (h : ReadSidesKept s t) (q : Nat) : (queue t q).cur = (queue s q).cur :=
  congrArg (fun x : List QRec × Option (Nat × Nat) × Option (Nat × List Word) × List (Nat × Bool) × Bool => x.2.2.1) (h.queues q)

theorem drain (h : ReadSidesKept s t) (q : Nat) : (queue t q).drain = (queue s q).drain :=
  congrArg (fun x : List QRec × Option (Nat × Nat) × Option (Nat × List Word) × List (Nat × Bool) × Bool => x.1) (h.queues q)

variable (s)

theorem fireStat (n : Nat) (w1 w2 w3 len : Word) : ReadSidesKept s (fireStat n w1 w2 w3 len s) := by
  have both : (Machine.fireStat n w1 w2 w3 len s).ev.queues = s.ev.queues ∧ (Machine.fireStat n w1 w2 w3 len s).ev.behind = s.ev.behind := by
    simp only [Machine.fireStat]
    repeat' split
    all_goals exact ⟨rfl, rfl⟩
  exact of_queues both.1 both.2

theorem fireNoQ (n c : Nat) (o1 o2 : Obj) (q : Nat) : ReadSidesKept s (fireNoQ n c o1 o2 q s) := by
  cases h : evReserved s n with
  | true => rw [Machine.fireNoQ, if_pos h]; exact refl s
  | false =>
    obtain ⟨w1, w2, w3, len, eq⟩ := fireNoQ_of_not_reserved h c o1 o2 q
    rw [eq]
    exact fireStat ..

theorem enterRaw (q : Nat) (r : QRec) : ReadSidesKept s (enterRaw q r s).1 := by
  refine ⟨fun k => ?_, rfl⟩
  by_cases same : k = q
  · subst same
    exact (congrArg readSide (queue_setQueue_self ..)).trans (readSide_qAdd ..)
  · exact congrArg readSide (queue_setQueue_ne _ _ same)

theorem fireGap (q : Nat) : ReadSidesKept s (fireGap q s) := by
  simp only [Machine.fireGap]
  repeat' split
  · exact (fireNoQ ..).trans ((enterRaw ..).trans (fireNoQ ..))
  · exact (fireNoQ ..).trans (enterRaw ..)
  · exact fireNoQ ..

theorem enter (q : Nat) (r : QRec) : ReadSidesKept s (enter q r s) := by
  simp only [Machine.enter]
  repeat' split
  · exact refl s
  · exact (enterRaw s q r).trans (fireGap ..)
  · exact enterRaw ..

theorem fireSeq (n c : Nat) (o1 o2 : Obj) (q : Nat) : ReadSidesKept s (fireSeq n c o1 o2 q s) := by
  simp only [Machine.fireSeq]
  repeat' split
  · exact refl s
  · exact (fireNoQ ..).trans (enter ..)
  · exact fireNoQ ..

end ReadSidesKept

/-- A record that finds room in an enabled queue stands last in its filling bank (R516, R517). -/
theorem queue_enter_room {s : State} (unhalted : s.halted = none) {q : Nat} {r : QRec} (on : rdBit s (aEqCtl q) 0 = true)
    (room : recWords (queue s q).fill + r.words.length ≤ bankWords (rd s (aEqCtl q))) :
    enter q r s = setQueue q { queue s q with fill := (queue s q).fill ++ [r] } s := by
  have added : qAdd (rd s (aEqCtl q)) s.time.ft r (queue s q) = ({ queue s q with fill := (queue s q).fill ++ [r] }, false) := by
    rw [rdBit] at on
    simp [qAdd, on, room]
  simp [enter, unhalted, enterRaw, added]

end Sys2Proof.Machine
end

section
/-! PROOFS. Message hold-off, bank swap, pops and posts (R511, R516 to R528), and the accesses held behind a pop (R288, R527). -/

namespace Sys2Proof.Machine

variable {s : State}

/-! ### Rows without accesses held behind a pop -/

/-- With no access held behind a pop nothing follows the row (R527). -/
theorem windowAfter_idle (h : s.ev.behind = []) (t : State) : windowAfter s t = t := if_pos h

theorem servePopsAll_idle {q : Nat} (h : (queue s q).waiting = []) : servePopsAll q s = s := by
  rw [servePopsAll, h]
  rfl

/-- The vector of a source in EV_RT is masked by its head (R511). -/
def vectorMasked (s : State) (n : Nat) : Bool := (mgetD 0 s.ev.msixMask (fld (rd s (aEvRt n)) 17 4)).testBit (fld (rd s (aEvRt n)) 21 6)

/-- The end of a hold-off forgets the message it held, and sends it where its vector is not masked (R511). -/
theorem opMsixHoldoffExpiry_spec {src : BitVec 9} (owed : src.toNat ∈ s.ev.msixOwed) :
    src.toNat ∉ (opMsixHoldoffExpiry src s).ev.msixOwed ∧
      (vectorMasked s src.toNat = false →
        Sent.msix (fld (rd s (aEvRt src.toNat)) 17 4) (fld (rd s (aEvRt src.toNat)) 21 6) ∈ (opMsixHoldoffExpiry src s).out) := by
  have gone : src.toNat ∉ s.ev.msixOwed.filter (· ≠ src.toNat) := by simp
  unfold opMsixHoldoffExpiry
  rw [if_neg (not_not.2 owed)]
  extract_lets n t v u
  change src.toNat ∉ (if vectorMasked s src.toNat = true then _ else _ : State).ev.msixOwed ∧
    (_ → _ ∈ (if vectorMasked s src.toNat = true then _ else _ : State).out)
  cases vectorMasked s src.toNat with
  | true => exact ⟨gone, fun h => absurd h (by decide)⟩
  | false => exact ⟨gone, fun _ => List.mem_append_right _ (List.mem_singleton_self _)⟩

theorem opBankSwap_eq {q : BitVec 13} (drained : (queue s q.toNat).drain = []) (gap : (queue s q.toNat).drainGap = none)
    (free : (queue s q.toNat).cur = none) (filled : (queue s q.toNat).fill ≠ []) (none_waits : (queue s q.toNat).waiting = []) :
    opBankSwap q s = setQueue q.toNat { queue s q.toNat with drain := (queue s q.toNat).fill, drainGap := (queue s q.toNat).fillGap, fill := [], fillGap := none } s := by
  rw [opBankSwap, if_neg (by simp [drained, gap, free, filled])]
  exact servePopsAll_idle (by rw [queue_setQueue_self, none_waits])

/-- What a pop returns leaves the waiting pops of its queue. -/
theorem popNow_waiting {q p : Nat} {x : Queue} {r : Word × Bool × Queue} (h : popNow s q p x = some r) : r.2.2.waiting = x.waiting := by
  unfold popNow at h
  split at h
  · cases h; rfl
  · split at h
    · split at h
      · cases h; rfl
      · cases h
    · cases h
    · split at h
      · split at h
        · cases h; rfl
        · cases h
      · split at h
        · cases h; rfl
        · cases h

/-- A port may pop queue `q` now: its window is open, none of its pops waits, it has access, and the queue is enabled. -/
structure MayPop (s : State) (p q : Nat) : Prop where
  port : windowPort s p = true
  unheld : popWaits s p = false
  access : rdBit s (aEqAcc q) p = true
  on : rdBit s (aEqCtl q) 0 = true

theorem opPop_served {p : HPort} {q : BitVec 13} {ok : Bool} (may : MayPop s p q.toNat) (none_waits : (queue s q.toNat).waiting = [])
    {r : Word × Bool × Queue} (now : popNow s q.toNat p (queue s q.toNat) = some r) (good : ok = true ∨ r.2.1 = true) :
    opPop p q ok s = emit (.pop p q.toNat r.1 false) (setQueue q.toNat r.2.2 s) := by
  obtain ⟨port, unheld, access, on⟩ := may
  have clean : (!ok && !r.2.1) = false := by rcases good with h | h <;> simp [h]
  have delivered : deliverPop p q.toNat ok r s = emit (.pop p q.toNat r.1 false) (setQueue q.toNat r.2.2 s) := by
    simp [deliverPop, clean]
  have idle : (queue (emit (.pop p q.toNat r.1 false) (setQueue q.toNat r.2.2 s)) q.toNat).waiting = [] := by
    rw [queue_congr (s := setQueue q.toNat r.2.2 s) (by rw [emit_ev]), queue_setQueue_self, popNow_waiting now, none_waits]
  simp [opPop, port, unheld, access, on, none_waits, now, delivered, servePopsAll_idle idle]

theorem opPop_waits {p : HPort} {q : BitVec 13} {ok : Bool} (may : MayPop s p q.toNat) (now : popNow s q.toNat p (queue s q.toNat) = none)
    (stall : rdFld s (aEqCtl q.toNat) 8 7 ≠ 0) :
    opPop p q ok s = setQueue q.toNat { queue s q.toNat with waiting := (queue s q.toNat).waiting ++ [(p.val, ok)] } s := by
  obtain ⟨port, unheld, access, on⟩ := may
  simp [opPop, port, unheld, access, on, now, stall]

theorem cur_opRecordOwnershipLapse {q : BitVec 13} {c : Nat × List Word} (owned : (queue s q.toNat).cur = some c)
    (none_waits : (queue s q.toNat).waiting = []) : (queue (opRecordOwnershipLapse q s) q.toNat).cur = none := by
  unfold opRecordOwnershipLapse
  extract_lets x
  rw [if_neg (by simp [x, owned])]
  have kept : ReadSidesKept _ (queueEvent 247 q.toNat (setQueue q.toNat { x with cur := none, stat := rsqSet x.stat 35 } s)) := .fireSeq ..
  rw [servePopsAll_idle (by rw [kept.waiting, queue_setQueue_self]; exact none_waits), kept.cur, queue_setQueue_self]

theorem opPopStallExpiry_eq {q : BitVec 13} {p : Nat} {ok : Bool} {rest : List (Nat × Bool)} (waits : (queue s q.toNat).waiting = (p, ok) :: rest) :
    opPopStallExpiry q s =
      emit (.pop p q.toNat (loneWord s q.toNat 15 0 s.time.ft) false) (setQueue q.toNat { queue s q.toNat with waiting := rest } s) := by
  simp only [opPopStallExpiry, waits]

theorem length_wordsOf (bytes : List (BitVec 8)) : (wordsOf bytes).length = bytes.length / 8 := by simp [wordsOf]

/-- A post of whole words at the head of the page finds room and stands last in the filling bank (R528). -/
theorem opPost_room {p : HPort} {q : BitVec 13} {n : Nat} {bytes : List (BitVec 8)} (unhalted : s.halted = none) (port : windowPort s p = true)
    (access : rdBit s (aEqAcc q.toNat) (16 + p) = true) (unheld : popWaits s p = false) (len : bytes.length = 8 * n) (h1 : 1 ≤ n) (h8 : n ≤ 8)
    (on : rdBit s (aEqCtl q.toNat) 0 = true) (room : recWords (queue s q.toNat).fill + n + 1 ≤ bankWords (rd s (aEqCtl q.toNat))) :
    ∃ w, (queue (opPost p q 0x100 bytes s) q.toNat).fill =
      (queue s q.toNat).fill ++ [⟨rdFld s (aEqCtl q.toNat) 6 2, false, w :: wordsOf bytes⟩] := by
  refine ⟨lenWord 7 ((wordsOf bytes).length + 1) (rdFld s (aEqCtl q.toNat) 6 2) p s.time.ft, ?_⟩
  have posted : opPost p q 0x100 bytes s = post q.toNat 7 p (wordsOf bytes) s := by
    unfold opPost
    rw [if_neg (by simp [port]), if_neg (by simp [unheld]), if_neg]
    have bound : 0x100 + bytes.length ≤ 0x140 := by omega
    have some_words : bytes.length ≠ 0 := by omega
    simp [access, len] at bound some_words ⊢
    omega
  have fits : (wordsOf bytes).length = n := by rw [length_wordsOf, len, Nat.mul_div_cancel_left _ (by decide)]
  rw [posted, post, queue_enter_room unhalted on (by rw [List.length_cons, fits]; omega), queue_setQueue_self]

/-! ### Accesses behind a waiting pop -/

theorem opPop_held {p : HPort} (port : windowPort s p = true) (waits : popWaits s p = true) (q : BitVec 13) (ok : Bool) :
    opPop p q ok s = holdAccess p (.pop q.toNat ok) s := by simp [opPop, port, waits]

theorem writeBytes_held {p : HPort} (port : windowPort s p = true) (waits : popWaits s p = true) (a size v : Nat) :
    writeBytes p a size v s = holdAccess p (.bytes a size v) s := by
  unfold writeBytes
  by_cases high : 0x400000 ≤ a
  · rw [dif_pos ⟨p.isLt, high⟩, if_pos waits]
  · rw [dif_neg (fun h => high h.2), if_neg (by simp [port]), if_pos (by simp [waits])]

theorem writeReg_held {p : HPort} (port : windowPort s p = true) (waits : popWaits s p = true) (a : Nat) (v : Word) :
    writeReg p a v none s = holdAccess p (.bytes a 8 v.toNat) s := by
  have held : verdict p a v none s = .held := by
    rw [verdict, if_neg (by simp [port]), if_pos (by simp [waits])]
  simp only [writeReg, held]

/-- Holding an access moves no cellar access, no acknowledgement and no fence. -/
theorem followAfter_holdAccess (p : Nat) (x : WinAcc) : followAfter s (holdAccess p x s) = holdAccess p x s := followAfter_idle rfl rfl rfl rfl

/-! ### A held access let go -/

/-- A port none of whose pops waits and that holds nothing has nothing to let go. -/
theorem releasePort_none {p : Nat} (none_held : ∀ x ∈ s.ev.behind, x.1 ≠ p) : releasePort s p = s := by
  have empty : s.ev.behind.filter (fun x => x.1 = p) = [] := List.filter_eq_nil_iff.2 fun x hx => by simpa using none_held x hx
  have all : s.ev.behind.filter (fun x => x.1 ≠ p) = s.ev.behind := List.filter_eq_self.2 fun x hx => by simpa using none_held x hx
  rw [releasePort, empty, all]
  exact ite_self _

/-- Where one port alone holds accesses, it alone lets them go. -/
theorem releasePorts_one {p : Nat} (hp : p < 16) (only : ∀ x ∈ s.ev.behind, x.1 = p) (gone : (releasePort s p).ev.behind = []) :
    (List.range 16).foldl releasePort s = releasePort s p := by
  have before : ∀ l : List Nat, p ∉ l → ∀ z : State, (∀ x ∈ z.ev.behind, x.1 = p) → l.foldl releasePort z = z := by
    intro l
    induction l with
    | nil => exact fun _ _ _ => rfl
    | cons k l ih =>
      intro fresh z held
      rw [List.foldl_cons, releasePort_none fun x hx same => fresh (by rw [← held x hx, same]; exact List.mem_cons_self ..)]
      exact ih (fun h => fresh (List.mem_cons_of_mem _ h)) z held
  have split : List.range 16 = List.range p ++ p :: (List.range (16 - p - 1)).map (p + 1 + ·) := by
    rw [show List.range 16 = List.range (p + (1 + (16 - p - 1))) by congr 1; omega, List.range_add, List.range_add]
    simp [Nat.add_assoc]
  rw [split, List.foldl_append, before _ (by simp) s only, List.foldl_cons, before _ (by simp; omega) _ (by simp [gone])]

/-- One port's last waiting pop has stalled: the pop held behind it follows and returns EMPTY where its queue is disabled (R524, R527). -/
theorem opPopStallExpiry_lets_go {q q2 : BitVec 13} {p : HPort} {ok ok2 : Bool} (port : windowPort s p = true)
    (waits : (queue s q.toNat).waiting = [(p.val, ok)])
    (last : ∀ e ∈ (setQueue q.toNat { queue s q.toNat with waiting := [] } s).ev.queues, e.2.waiting = [])
    (held : s.ev.behind = [(p.val, .pop q2.toNat ok2)]) (access : rdBit s (aEqAcc q2.toNat) p = true) (off : rdBit s (aEqCtl q2.toNat) 0 = false) :
    (windowAfter s (opPopStallExpiry q s)).ev.behind = [] ∧ (windowAfter s (opPopStallExpiry q s)).out =
      s.out ++ [.pop p q.toNat (loneWord s q.toNat 15 0 s.time.ft) false, .pop p q2.toNat (loneWord s q2.toNat 15 0 s.time.ft) false] := by
  let t := emit (.pop p q.toNat (loneWord s q.toNat 15 0 s.time.ft) false) (setQueue q.toNat { queue s q.toNat with waiting := [] } s)
  let u : State := { t with ev := { t.ev with behind := [] } }
  have stalled : opPopStallExpiry q s = t := opPopStallExpiry_eq waits
  have empty : ∀ x : Nat, (t.ev.queues.any fun e => e.2.waiting.any fun y => y.1 = x) = false := fun x => by
    rw [List.any_eq_false]
    exact fun e he => by simp [last e he]
  have port' : windowPort u p = true := port
  have access' : rdBit u (aEqAcc q2.toNat) p = true := access
  have off' : rdBit u (aEqCtl q2.toNat) 0 = false := off
  have free : popWaits u p = false := by
    rw [popWaits, show (u.ev.queues.any fun e => e.2.waiting.any fun y => y.1 = p.val) = false from empty p]
    rfl
  have code : BitVec.ofNat 13 q2.toNat = q2 := BitVec.ofNat_toNat 13 q2 ▸ BitVec.setWidth_eq q2
  have run : opPop p q2 ok2 u = emit (.pop p q2.toNat (loneWord u q2.toNat 15 0 u.time.ft) false) u := by
    unfold opPop
    rw [if_neg (by simp [port']), if_neg (by simp [free]), if_neg (by simp [access']), if_pos (by simp [off'])]
  have release : releasePort t p = opPop p q2 ok2 u := by
    unfold releasePort
    rw [if_neg (by simp [empty])]
    rw [show t.ev.behind = [(p.val, .pop q2.toNat ok2)] from held]
    simp only [List.filter_cons_of_pos, decide_true, List.filter_nil, List.foldl_cons, List.foldl_nil, runAccess, dif_pos p.isLt, code, ne_eq,
      not_true_eq_false, decide_false, Bool.false_eq_true, not_false_eq_true, List.filter_cons_of_neg]
    rfl
  have gone : (releasePort t p).ev.behind = [] := by rw [release, run, emit_ev]
  have all : releaseAll 1 t = releasePort t p := by
    rw [releaseAll, if_neg (by rw [show t.ev.behind = _ from held]; simp), releaseAll]
    exact releasePorts_one p.isLt (fun x hx => by rw [show t.ev.behind = _ from held] at hx; rw [List.mem_singleton.1 hx]) gone
  have after : windowAfter s (opPopStallExpiry q s) = opPop p q2 ok2 u := by
    rw [windowAfter, if_neg (by simp [held]), stalled, held, List.length_singleton, all, release, run]
    exact followAfter_idle rfl rfl rfl rfl
  rw [after, run]
  exact ⟨rfl, List.append_assoc ..⟩

end Sys2Proof.Machine

namespace Sys2Proof

open Machine

/-- Settles O10: each row by what its queue holds; a held access follows once no pop of its port waits. -/
theorem queueCommands : Obligations.QueueCommands := by
  intro s run
  refine ⟨fun free => ⟨?_, ?_, ?_, ?_, ?_, ?_, ?_, ?_⟩, ?_⟩
  · exact fun src owed => ⟨_, (live_running run _ : execMsixHoldoffExpiry src s = _), opMsixHoldoffExpiry_spec owed⟩
  · intro q drained gap owner filled waits
    refine ⟨_, (live_running run _ : execBankSwap q s = _), ?_⟩
    rw [windowAfter_idle free, opBankSwap_eq drained gap owner filled waits, queue_setQueue_self, setQueue_out]
    exact ⟨rfl, rfl, rfl, rfl⟩
  · intro p q ok port access on unheld waits r now good
    refine ⟨_, (live_running run _ : execPop p q ok s = _), ?_⟩
    rw [windowAfter_idle free, opPop_served ⟨port, unheld, access, on⟩ waits now good]
    exact ⟨rfl, queue_setQueue_self ..⟩
  · intro p q ok port access on unheld now stall
    refine ⟨_, (live_running run _ : execPop p q ok s = _), ?_⟩
    rw [windowAfter_idle free, opPop_waits ⟨port, unheld, access, on⟩ now stall, queue_setQueue_self]
    exact ⟨rfl, rfl⟩
  · intro q c owned waits
    refine ⟨_, (live_running run _ : execRecordOwnershipLapse q s = _), ?_⟩
    rw [windowAfter_idle free]
    exact cur_opRecordOwnershipLapse owned waits
  · intro q p ok rest waits
    refine ⟨_, (live_running run _ : execPopStallExpiry q s = _), ?_⟩
    rw [windowAfter_idle free, opPopStallExpiry_eq waits]
    exact ⟨congrArg Queue.waiting (queue_setQueue_self ..), rfl⟩
  · exact fun p q n bytes port access unheld len h1 h8 on room =>
      ⟨_, (live_running run _ : execPost p q 0x100 bytes s = _), opPost_room (unhalted_of_running run) port access unheld len h1 h8 on room⟩
  · intro p o same port waits
    refine ⟨fun q ok => ?_, fun a size v => ?_, fun n => ?_⟩
    · refine (live_running run _ : execPop p q ok s = _).trans (congrArg _ ?_)
      rw [windowAfter_idle free, opPop_held port waits]
    · refine (live_running run _ : execRegisterWrite o a size v s = _).trans (congrArg _ ?_)
      rw [windowAfter_idle free, opRegisterWrite, same, writeBytes_held port waits, followAfter_holdAccess]
    · refine (live_running run _ : execSquareWrite o n 0 0 s = _).trans (congrArg _ ?_)
      rw [opSquareWrite, same]
      exact writeReg_held port waits ..
  · exact fun q q2 p ok ok2 port waits last held access off =>
      ⟨_, (live_running run _ : execPopStallExpiry q s = _), opPopStallExpiry_lets_go port waits last held access off⟩

end Sys2Proof
end

section
/-! PROOFS. The counter image, what the Tally exports, and the automatic checkpoint (R498, R501, R503, R530). -/

namespace Sys2Proof.Machine

variable {s : State}

/-! ### The counter image -/

/-- What a run of map writes leaves under a key: the value of the writes to it, where these agree, and else what stood there. -/
theorem mgetD_foldl_mset {α β : Type} (d : α) (key : β → Nat) (val : β → α) (k : Nat) (v : α) (l : List β) (m : SMap α)
    (agree : ∀ e ∈ l, key e = k → val e = v) (some_write : (∃ e ∈ l, key e = k) ∨ mgetD d m k = v) :
    mgetD d (l.foldl (fun m e => mset m (key e) (val e)) m) k = v := by
  induction l generalizing m with
  | nil => exact some_write.resolve_left (by simp)
  | cons e l ih =>
    refine ih _ (fun x hx => agree x (List.mem_cons_of_mem _ hx)) ?_
    by_cases h : key e = k
    · right
      rw [← h, mgetD_mset_self]
      exact agree e (List.mem_cons_self ..) h
    · rw [mgetD_mset_ne _ _ _ (Ne.symm h)]
      rcases some_write with ⟨x, hx, hk⟩ | stood
      · rcases List.mem_cons.1 hx with rfl | hx
        · exact absurd hk h
        · exact .inl ⟨x, hx, hk⟩
      · exact .inr stood

/-- The words gathered, by their place in the image. -/
def gathered (s : State) : List (Nat × Nat) := (liveNow s).filterMap fun e => (cntIdx (8 * e.1)).map fun i => (i, e.2 % 2 ^ 48)

theorem mem_gathered {i n : Nat} : (i, n) ∈ gathered s ↔ ∃ e ∈ liveNow s, cntIdx (8 * e.1) = some i ∧ e.2 % 2 ^ 48 = n := by
  simp [gathered]

/-- Words with the same bits are equal. -/
theorem word_ext {a b : Word} (h : ∀ i, i < 64 → bit a i = bit b i) : a = b :=
  BitVec.eq_of_getLsbD_eq fun i hi => h i hi

theorem setBit_of_bit {w : Word} {i : Nat} {b : Bool} (hi : i < 64) (h : bit w i = b) : setBit w i b = w :=
  word_ext fun j _ => by
    by_cases hj : j = i
    · rw [hj, bit_setBit_self _ hi, h]
    · exact bit_setBit_ne _ hi hj _

/-- The image with the WRAP bits: bit 48 of each place whose counter wrapped (R531). -/
theorem mgetD_wrapBits (k : Nat) (wrap : List Nat) (m : SMap Word) :
    mgetD 0 (wrap.foldl (fun m i => mset m i (setBit (mgetD 0 m i) 48 true)) m) k =
      if k ∈ wrap then setBit (mgetD 0 m k) 48 true else mgetD 0 m k := by
  induction wrap generalizing m with
  | nil => rfl
  | cons i wrap ih =>
    rw [List.foldl_cons, ih]
    by_cases h : k = i
    · subst h
      rw [mgetD_mset_self, setBit_of_bit (by decide) (bit_setBit_self _ (by decide) _), ite_self]
      exact (if_pos (List.mem_cons_self ..)).symm
    · simp [h]

/-- A value of 48 bits with its WRAP bit. -/
theorem wrapBit_eq {n : Nat} (small : n < 2 ^ 48) (b : Bool) :
    (if b = true then setBit (BitVec.ofNat 64 n) 48 true else BitVec.ofNat 64 n) = setBit (BitVec.ofNat 64 n) 48 b := by
  cases b with
  | true => rfl
  | false =>
    refine (setBit_of_bit (by decide) ?_).symm
    rw [if_neg (by decide), bit, BitVec.toNat_ofNat, Nat.mod_eq_of_lt (small.trans (by decide))]
    exact Nat.testBit_lt_two_pow small

theorem image_opCounterGather (s : State) (i : Nat) : mgetD 0 (opCounterGather s).cnt.image i =
    if i ∈ s.cnt.wrap then setBit (mgetD 0 ((gathered s).foldl (fun m e => mset m e.1 (BitVec.ofNat 64 e.2)) []) i) 48 true
    else mgetD 0 ((gathered s).foldl (fun m e => mset m e.1 (BitVec.ofNat 64 e.2)) []) i := by
  rw [← mgetD_wrapBits, opCounterGather, wr_cnt]
  rfl

theorem image_of_live {k v i : Nat} (live : (k, v) ∈ liveNow s) (idx : cntIdx (8 * k) = some i)
    (alone : ∀ e ∈ liveNow s, cntIdx (8 * e.1) = some i → e = (k, v)) :
    mgetD 0 (opCounterGather s).cnt.image i = setBit (BitVec.ofNat 64 (v % 2 ^ 48)) 48 (decide (i ∈ s.cnt.wrap)) := by
  rw [image_opCounterGather, mgetD_foldl_mset 0 Prod.fst (fun e => BitVec.ofNat 64 e.2) i (BitVec.ofNat 64 (v % 2 ^ 48))]
  · simpa using wrapBit_eq (Nat.mod_lt v (by decide)) (decide (i ∈ s.cnt.wrap))
  · rintro ⟨j, n⟩ mem (rfl : j = i)
    obtain ⟨e, he, hidx, rfl⟩ := mem_gathered.1 mem
    rw [alone e he hidx]
  · exact .inl ⟨(i, v % 2 ^ 48), mem_gathered.2 ⟨(k, v), live, idx, rfl⟩, rfl⟩

theorem image_of_none {i : Nat} (no_counter : ∀ e ∈ liveNow s, cntIdx (8 * e.1) ≠ some i) :
    mgetD 0 (opCounterGather s).cnt.image i = setBit 0 48 (decide (i ∈ s.cnt.wrap)) := by
  rw [image_opCounterGather, mgetD_foldl_mset 0 Prod.fst (fun e => BitVec.ofNat 64 e.2) i 0]
  · simpa using wrapBit_eq (n := 0) (by decide) (decide (i ∈ s.cnt.wrap))
  · rintro ⟨j, n⟩ mem (rfl : j = i)
    obtain ⟨e, he, hidx, _⟩ := mem_gathered.1 mem
    exact absurd hidx (no_counter e he)
  · exact .inr rfl

/-! ### What the Tally exports -/

theorem opTallyExport_room (on : rdBit s aGlTlyctl 1 = true) (queue_on : rdBit s (aEqCtl (rdFld s aGlTlyctl 2 13)) 0 = true)
    (more : s.tly.exported < s.tly.next)
    (room : recWords (queue s (rdFld s aGlTlyctl 2 13)).fill + 9 ≤ bankWords (rd s (aEqCtl (rdFld s aGlTlyctl 2 13)))) :
    (opTallyExport s).tly.exported = s.tly.exported + 1 ∧ (opTallyExport s).tly.next = s.tly.next ∧
      (opTallyExport s).tly.lastMac = (macRec s (exportRec s s.tly.exported)).mac ∧
      (queue (opTallyExport s) (rdFld s aGlTlyctl 2 13)).fill = (queue s (rdFld s aGlTlyctl 2 13)).fill ++
        [⟨rdFld s (aEqCtl (rdFld s aGlTlyctl 2 13)) 6 2, true, lenWord 1 9 (rdFld s (aEqCtl (rdFld s aGlTlyctl 2 13)) 6 2) 0 s.time.ft ::
          tlyWords (macRec s (exportRec s s.tly.exported))⟩] := by
  unfold opTallyExport
  extract_lets t q c r lostNow store x u _
  have enabled : bit c 0 = true := queue_on
  rw [if_neg (by simp only [on, enabled, t, q, c]; simpa using ⟨more, room⟩)]
  refine ⟨rfl, rfl, rfl, ?_⟩
  exact congrArg Queue.fill (queue_setQueue_self q _ s)

/-! ### The automatic checkpoint -/

@[simp] theorem tlyLose_store (s : State) : (tlyLose s).tly.store = s.tly.store := by
  simp only [tlyLose]
  split
  · rfl
  · simp

@[simp] theorem tlyLose_exported (s : State) : (tlyLose s).tly.exported = s.tly.exported := by
  simp only [tlyLose]
  split
  · rfl
  · simp

/-- The record written takes its number's place in the store, and the others stand (R497). -/
theorem tally_store (unhalted : s.halted = none) (orig kind res : Nat) (tg old new aux : Word) :
    ∃ r : TlyRec, r.num = s.tly.next ∧ r.orig = orig ∧ r.kind = kind ∧
      (tally orig kind res tg old new aux s).tly.store = mset s.tly.store (s.tly.next % 65536) r := by
  have put : ∃ r : TlyRec, r.num = s.tly.next ∧ r.orig = orig ∧ r.kind = kind ∧
      (tlyPut orig kind res tg old new aux (tlyLose s)).tly.store = mset s.tly.store (s.tly.next % 65536) r := by
    simp only [tlyPut, tlyLose_next, tlyLose_store]
    exact ⟨_, rfl, rfl, rfl, rfl⟩
  simp only [tally]
  rw [if_neg (by simp [unhalted])]
  split
  · simpa only [fireSeq_tly] using put
  · exact put

theorem tally_exported (orig kind res : Nat) (tg old new aux : Word) (s : State) :
    (tally orig kind res tg old new aux s).tly.exported = s.tly.exported := by
  simp only [tally]
  split
  · rfl
  · split
    · rw [fireSeq_tly]
      exact tlyLose_exported s
    · exact tlyLose_exported s

/-- The five words of a record that a checkpoint fills. -/
def bodyWords (r : TlyRec) : List Word := [r.target, r.old, r.new, r.aux, r.w6]

/-- A record with these five words. -/
def withBody (w : List Word) (r : TlyRec) : TlyRec :=
  { r with target := w.getD 0 0, old := w.getD 1 0, new := w.getD 2 0, aux := w.getD 3 0, w6 := w.getD 4 0 }

/-- Record `i` of a checkpoint with the words `w`: number and words as R503 numbers them. -/
structure IsCheckpointRec (next : Nat) (w : List Word) (i : Nat) (r : TlyRec) : Prop where
  num : r.num = next + i
  orig : r.orig = 34
  kind : r.kind = if i = 0 then 4 else 5
  words : bodyWords r = (List.range 5).map fun j => w.getD (5 * i + j) 0

/-- Writes record `i` of a checkpoint. -/
def putCheckpointRec (w : List Word) (s : State) (i : Nat) : State :=
  setTlyWords s.tly.next (w.drop (5 * i)) (tally 34 (if i = 0 then 4 else 5) 0 0 0 0 0 s)

/-- After `k` records of a checkpoint begun in `s`. -/
structure CheckpointSoFar (w : List Word) (s : State) (k : Nat) (t : State) : Prop where
  unhalted : t.halted = none
  next : t.tly.next = s.tly.next + k
  exported : t.tly.exported = s.tly.exported
  flash : t.flash = s.flash
  stored : ∀ i, i < k → ∃ r, mget t.tly.store ((s.tly.next + i) % 65536) = some r ∧ IsCheckpointRec s.tly.next w i r

theorem setTlyWords_stored {n : Nat} {r : TlyRec} {t : State} (h : mget t.tly.store (n % 65536) = some r) (w : List Word) :
    setTlyWords n w t = { t with tly := { t.tly with store := mset t.tly.store (n % 65536) (withBody w r) } } := by
  simp only [setTlyWords, h]
  rfl

theorem CheckpointSoFar.put {w : List Word} {k : Nat} {t : State} (h : CheckpointSoFar w s k t) (few : k < 4) :
    CheckpointSoFar w s (k + 1) (putCheckpointRec w t k) := by
  obtain ⟨unhalted, next, exported, flash, stored⟩ := h
  obtain ⟨r, hnum, horig, hkind, hstore⟩ := tally_store unhalted 34 (if k = 0 then 4 else 5) 0 0 0 0 0
  have now : mget (tally 34 (if k = 0 then 4 else 5) 0 0 0 0 0 t).tly.store (t.tly.next % 65536) = some r := by
    rw [hstore, mget_mset_self]
  rw [putCheckpointRec, setTlyWords_stored now]
  refine ⟨?_, ?_, ?_, ?_, fun i hi => ?_⟩
  · simpa using unhalted
  · simpa only [next, Nat.add_assoc] using tally_next unhalted 34 (if k = 0 then 4 else 5) 0 0 0 0 0
  · simpa only [exported] using tally_exported 34 (if k = 0 then 4 else 5) 0 0 0 0 0 t
  · simpa using flash
  · rcases Nat.lt_succ_iff_lt_or_eq.1 hi with before | rfl
    · have apart : (s.tly.next + i) % 65536 ≠ t.tly.next % 65536 := by rw [next]; omega
      simpa only [hstore, mget_mset_ne _ _ apart] using stored i before
    · rw [← next]
      refine ⟨_, mget_mset_self .., hnum.trans next, horig, hkind, ?_⟩
      simp [bodyWords, withBody, List.range_succ]

theorem checkpoint_soFar (unhalted : s.halted = none) (w : List Word) {k : Nat} (few : k ≤ 4) :
    CheckpointSoFar w s k ((List.range k).foldl (putCheckpointRec w) s) := by
  induction k with
  | zero => exact ⟨unhalted, rfl, rfl, rfl, fun i hi => absurd hi (Nat.not_lt_zero i)⟩
  | succ k ih =>
    rw [List.range_succ, List.foldl_append]
    exact (ih (Nat.le_of_succ_le few)).put few

/-- The words of the checkpoint written in `s` (R503). -/
def chkWords (s : State) : List Word :=
  Config.checkpointWords s.part.serial (BitVec.ofNat 32 s.flash.boots) (BitVec.ofNat 32 s.tly.chkFirst) (BitVec.ofNat 32 (s.tly.exported - 1))

theorem checkpoint_spec (unhalted : s.halted = none) :
    (checkpoint s).tly.next = s.tly.next + 4 ∧ (checkpoint s).tly.sinceChk = 0 ∧ (checkpoint s).flash.chkNum = some (s.tly.exported - 1) ∧
      (checkpoint s).tly.chkFirst = s.tly.exported ∧
      ∀ i, i < 4 → ∃ r, mget (checkpoint s).tly.store ((s.tly.next + i) % 65536) = some r ∧ IsCheckpointRec s.tly.next (chkWords s) i r := by
  have done := checkpoint_soFar unhalted (chkWords s) (Nat.le_refl 4)
  exact ⟨done.next, rfl, rfl, done.exported, done.stored⟩

end Sys2Proof.Machine

namespace Sys2Proof

open Machine

/-- Settles O11: the two map folds of the image, the one path of a record exported with room, and an induction over the four records of a checkpoint. -/
theorem recordEngines : Obligations.RecordEngines := by
  intro s run
  refine ⟨⟨opCounterGather s, live_running run _, rfl, fun _ _ _ => image_of_live, fun _ => image_of_none⟩, ?_, fun due => ?_, fun early => ?_⟩
  · rintro q r rfl rfl on queue_on more room
    exact ⟨opTallyExport s, live_running run _, opTallyExport_room on queue_on more room⟩
  · obtain ⟨next, since, num, first, stored⟩ := checkpoint_spec (unhalted_of_running run)
    refine ⟨checkpoint s, (live_running run opAutoCheckpoint).trans (congrArg _ (if_pos due)), next, since, num, first, fun i hi => ?_⟩
    obtain ⟨r, found, hnum, horig, hkind, hwords⟩ := stored i hi
    exact ⟨r, found, hnum, horig, hkind, hwords⟩
  · exact (live_running run opAutoCheckpoint).trans (congrArg _ (if_neg (Nat.not_le.2 early)))

end Sys2Proof
end

section
/-! PROOFS. The flush of a Global Persistent Flush: who asks for it, and what ends it (R294, R295, R547). -/

namespace Sys2Proof.Machine

variable {s : State}

/-- A flush that is asked for: admission closes and nothing has been lost yet (R294). -/
def gpfAsked (s : State) : State :=
  { s with ports := { s.ports with closed := true }, cel := { s.cel with lost := false }, pwr := { s.pwr with flush := true } }

theorem gpfStart_running (h : s.pwr.flush = true) : gpfStart s = s := if_pos h

theorem gpfStart_idle (h : s.pwr.flush = false) : gpfStart s = gpfGo (gpfAsked s) := if_neg (by simp [h])

/-- PWR_WARN_n held for its time: EV259, and a flush held off until the release (R547). -/
def warnSustained (s : State) : State :=
  { fireSeq 259 0 oNone oNone (seqOf s aPmStat) s with pwr := { s.pwr with pwHold := true } }

theorem opPwrWarnSustained_eq (warn : s.part.pwrWarnN = false) (allowed : rdBit s aPmCtl 1 = true) :
    opPwrWarnSustained s = gpfStart (warnSustained s) := by
  rw [opPwrWarnSustained, if_neg (by simp [warn, allowed]), warnSustained]

theorem raised_warnSustained (unhalted : s.halted = none) : raised (warnSustained s) 259 = true :=
  raised_fireSeq (evReserved_eq_false unhalted (by simp [reservedSource]) (by decide)) ..

/-- A head that asks has its request noted once. -/
theorem opGpfPhase2Request_eq {p : HPort} (port : windowPort s p = true) :
    ∃ g : List Nat, p.val ∈ g ∧ (p.val ∉ s.pwr.gpf → g = s.pwr.gpf ++ [p.val]) ∧
      opGpfPhase2Request p s = gpfStart { s with pwr := { s.pwr with gpf := g } } := by
  refine ⟨if p.val ∈ s.pwr.gpf then s.pwr.gpf else s.pwr.gpf ++ [p.val], ?_, fun h => if_neg h, if_neg (by simp [port])⟩
  split
  · assumption
  · exact List.mem_append_right _ (List.mem_singleton_self _)

end Sys2Proof.Machine

namespace Sys2Proof

open Machine

/-- Settles O16: each row asks through `gpfStart`, which runs the flush only where none runs. -/
theorem persistentFlush : Obligations.PersistentFlush := by
  intro s run
  have unhalted := unhalted_of_running run
  refine ⟨fun p port flush fresh => ?_, fun p port flush => ?_, fun warn allowed flush => ?_, fun warn allowed flush => ?_, fun flush => ?_,
    fun hold released flush => ?_⟩
  · obtain ⟨g, _, once, eq⟩ := opGpfPhase2Request_eq port
    refine ⟨_, (live_running run _ : execGpfPhase2Request p s = _), ?_⟩
    rw [eq, once fresh]
    exact gpfStart_running flush
  · obtain ⟨g, noted, _, eq⟩ := opGpfPhase2Request_eq port
    exact ⟨_, _, (live_running run _ : execGpfPhase2Request p s = _), eq.trans (gpfStart_idle flush), rfl, rfl, noted⟩
  · refine ⟨_, (live_running run _ : execPwrWarnSustained s = _), ?_⟩
    rw [opPwrWarnSustained_eq warn allowed, gpfStart_running (s := warnSustained s) flush]
    exact ⟨rfl, flush, fireSeq_regs ..⟩
  · refine ⟨_, gpfAsked (warnSustained s), (live_running run _ : execPwrWarnSustained s = _), ?_⟩
    refine ⟨(opPwrWarnSustained_eq warn allowed).trans (gpfStart_idle flush), rfl, rfl, rfl, raised_warnSustained unhalted, rfl⟩
  · exact ⟨_, (live_running run _ : execGpfTimeExpiry s = _), if_pos flush⟩
  · refine ⟨_, (rfl : execPwrWarnReleaseTimer s = _), ?_⟩
    rw [opPwrWarnReleaseTimer, if_neg (by simp [hold, released, flush])]
    exact ⟨rfl, rfl, rfl⟩

end Sys2Proof
end

section
/-! PROOFS. The end of a cold reset (R297, R448, R553): the root record and the shutdown state in flash. -/

namespace Sys2Proof.Machine

variable {s : State}

/-- What no step of a fold changes stands after the fold. -/
theorem foldl_frame {β γ : Type} (g : State → γ) {f : State → β → State} (step : ∀ s x, g (f s x) = g s) (l : List β) (s : State) :
    g (l.foldl f s) = g s := by
  induction l generalizing s with
  | nil => rfl
  | cons x l ih => exact (ih _).trans (step s x)

theorem apply_ite_same {β γ : Type} (g : β → γ) {c : Prop} [Decidable c] {a b : β} {v : γ} (ha : g a = v) (hb : g b = v) : g (if c then a else b) = v := by
  split
  · exact ha
  · exact hb

/-- What of the flash a cold reset's end settles: the root record and whether the last shutdown was dirty. -/
def shutdownState (s : State) : Option RootRec × Bool := (s.flash.rootRec, s.flash.dirty)

/-- A root record is restored and erased; none is left either way (R448). -/
theorem restoreRoot_rootRec (s : State) : (restoreRoot s).flash.rootRec = none := by
  unfold restoreRoot
  split
  next none_there => exact none_there
  · rfl

theorem countShutdown_shutdownState (s : State) : shutdownState (countShutdown s) = (s.flash.rootRec, false) := by
  simp [countShutdown, shutdownState, tallyAuto_flash]

/-- Gathering below the highest load band keeps no record in flash (R568). -/
theorem gather_flash (n temp mv : Nat) {band : Nat} (low : band ≠ 2) (s : State) : (gather n temp mv band s).flash = s.flash := by
  unfold gather
  extract_lets full written pwr counted
  have kept : counted.flash = written.flash := rfl
  rw [if_neg low, kept]
  exact wr_flash ..

theorem calibrate_flash (s : State) (n : Nat) : (calibrate s n).flash = s.flash := by
  unfold calibrate
  split
  · rfl
  · extract_lets fresh
    have kept : fresh.flash = s.flash := gather_flash n _ _ (by decide) s
    split
    · exact kept
    · split
      · extract_lets near
        exact apply_ite_same State.flash (wr_flash ..) kept
      · exact kept

theorem setAdm_flash (b : Nat) (v : Word) (s : State) : (setAdm b v s).flash = s.flash := by
  simp only [setAdm]
  exact apply_ite_same State.flash rfl (wr_flash ..)

theorem recompute_flash (b : Nat) (s : State) : (recompute b s).flash = s.flash := by
  simp only [recompute]
  exact apply_ite_same State.flash rfl (setAdm_flash ..)

theorem firstGuard_flash (s : State) : (firstGuard s).flash = s.flash :=
  apply_ite_same State.flash ((foldl_frame State.flash (fun s b => recompute_flash b s) ..).trans (wrFld_flash ..)) rfl

theorem setHostLink_flash (p ls : Nat) (s : State) : (setHostLink p ls s).flash = s.flash := by simp only [setHostLink]; exact apply_ite_same State.flash rfl (by simp)

theorem setHostLink_pwr (p ls : Nat) (s : State) : (setHostLink p ls s).pwr = s.pwr := by simp only [setHostLink]; exact apply_ite_same State.pwr rfl (by simp)

/-- The flash and the power state that a host link's training leaves. -/
theorem trainLinks_flash_pwr (l : List Nat) (s : State) :
    (l.foldl (fun s p => setHostLink p 3 (trainHost p ⟨3, 4, true⟩ s)) s).flash = s.flash ∧
      (l.foldl (fun s p => setHostLink p 3 (trainHost p ⟨3, 4, true⟩ s)) s).pwr = s.pwr :=
  ⟨foldl_frame State.flash (fun s p => by simp [setHostLink_flash, trainHost]) l s,
    foldl_frame State.pwr (fun s p => by simp [setHostLink_pwr, trainHost]) l s⟩

theorem opColdResetReady_spec (unhalted : s.halted = none) (cold : s.part.phase = .cold) :
    shutdownState (opColdResetReady s) = (none, false) ∧ (opColdResetReady s).pwr.recovered = false := by
  unfold opColdResetReady
  rw [if_neg (by simp [cold, unhalted])]
  extract_lets s1 s2 s3 s4 s5 s6 s7 part pwr s8
  have erased : s2.flash.rootRec = none := restoreRoot_rootRec _
  have counted : shutdownState s3 = (none, false) := (countShutdown_shutdownState s2).trans (by rw [erased])
  have k4 : s4.flash = s3.flash := (firstGuard_flash _).trans (foldl_frame State.flash calibrate_flash ..)
  have k5 : s5.flash = s4.flash := apply_ite_same State.flash (foldl_frame State.flash (fun s k => by simp) ..) rfl
  have k6 : s6.flash = s5.flash := apply_ite_same State.flash rfl (fire_flash ..)
  have k7 : s7.flash = s6.flash := apply_ite_same State.flash (tallyAuto_flash ..) rfl
  have kept : s8.flash = s3.flash := k7.trans (k6.trans (k5.trans k4))
  obtain ⟨flash, power⟩ := trainLinks_flash_pwr ((List.range 16).filter (inService s8)) s8
  exact ⟨by rw [shutdownState, flash, kept]; exact counted, congrArg Pwr.recovered power⟩

/-- The end of a cold reset leaves the device ready. -/
theorem opColdResetReady_phase (unhalted : s.halted = none) (cold : s.part.phase = .cold) : (opColdResetReady s).part.phase = .ready := by
  unfold opColdResetReady
  rw [if_neg (by simp [cold, unhalted])]
  extract_lets s1 s2 s3 s4 s5 s6 s7 part pwr s8
  exact congrArg Part.phase (foldl_frame State.part (fun s p => ((SquaresKept.setHostLink ..).after (SquaresKept.trainHost ..)).part) _ s8)

end Sys2Proof.Machine

namespace Sys2Proof

open Machine

/-- Settles O14: nothing after the record's erasure and the shutdown count writes what they settled. -/
theorem coldResetEnds : Obligations.ColdResetEnds := by
  intro s cold unhalted
  obtain ⟨state, recovered⟩ := opColdResetReady_spec unhalted cold
  obtain ⟨erased, clean⟩ := Prod.ext_iff.1 state
  exact ⟨opColdResetReady s, rfl, opColdResetReady_phase unhalted cold, erased, clean, recovered⟩

end Sys2Proof
end

section
/-! PROOFS. What a mailbox's answers, results and notices leave (R485 to R488): the fields they touch, and the registers outside the mailboxes. -/

namespace Sys2Proof.Machine

/-! ### A block without what a mailbox's answer may change -/

/-- The block without what an answer may change: registers, events, and for the fabric mailbox the messages that wait. -/
def pastAnswer (s : State) : State := { s with regs := [], ev := State.reset.ev, out := [], brd := State.reset.brd, routeWait := [] }

/-- The block also without the Tally and the record of background commands and results. -/
def beyondMb (s : State) : State := { pastAnswer s with tly := State.reset.tly, ctl := { s.ctl with last := [], bg := [], bgst := [] } }

theorem beyondMb_of_past {s t : State} (h : pastAnswer t = pastAnswer s) : beyondMb t = beyondMb s := by
  have ctl : (pastAnswer t).ctl = (pastAnswer s).ctl := congrArg State.ctl h
  have same : t.ctl = s.ctl := ctl
  rw [beyondMb, h, same, beyondMb]

/-! ### The fields that stand -/

theorem hc_of_beyond {s t : State} (h : beyondMb t = beyondMb s) : t.hc = s.hc := by
  have kept := congrArg State.hc h
  exact kept

theorem ports_of_beyond {s t : State} (h : beyondMb t = beyondMb s) : t.ports = s.ports := by
  have kept := congrArg State.ports h
  exact kept

theorem sl_of_beyond {s t : State} (h : beyondMb t = beyondMb s) : t.sl = s.sl := by
  have kept := congrArg State.sl h
  exact kept

theorem time_of_beyond {s t : State} (h : beyondMb t = beyondMb s) : t.time = s.time := by
  have kept := congrArg State.time h
  exact kept

theorem flash_of_beyond {s t : State} (h : beyondMb t = beyondMb s) : t.flash = s.flash := by
  have kept := congrArg State.flash h
  exact kept

theorem part_of_beyond {s t : State} (h : beyondMb t = beyondMb s) : t.part = s.part := by
  have kept := congrArg State.part h
  exact kept

theorem pwr_of_beyond {s t : State} (h : beyondMb t = beyondMb s) : t.pwr = s.pwr := by
  have kept := congrArg State.pwr h
  exact kept

theorem prot_of_beyond {s t : State} (h : beyondMb t = beyondMb s) : t.prot = s.prot := by
  have kept := congrArg State.prot h
  exact kept

theorem bg_of_beyond {s t : State} (h : beyondMb t = beyondMb s) : t.bg = s.bg := by
  have kept := congrArg State.bg h
  exact kept

theorem mir_of_beyond {s t : State} (h : beyondMb t = beyondMb s) : t.mir = s.mir := by
  have kept := congrArg State.mir h
  exact kept

theorem links_of_beyond {s t : State} (h : beyondMb t = beyondMb s) : t.links = s.links := by
  have kept := congrArg State.links h
  exact kept

theorem ctl_of_past {s t : State} (h : pastAnswer t = pastAnswer s) : t.ctl = s.ctl := by
  have kept := congrArg State.ctl h
  exact kept

theorem tly_of_past {s t : State} (h : pastAnswer t = pastAnswer s) : t.tly = s.tly := by
  have kept := congrArg State.tly h
  exact kept

/-! ### Writes and firings -/

theorem past_wr (a : Nat) (v : Word) (s : State) : pastAnswer (wr a v s) = pastAnswer s := rfl

theorem past_wrFld (a lo n v : Nat) (s : State) : pastAnswer (wrFld a lo n v s) = pastAnswer s := rfl

theorem past_emit (x : Sent) (s : State) : pastAnswer (emit x s) = pastAnswer s := rfl

theorem past_fireSeq (n c : Nat) (o1 o2 : Obj) (q : Nat) (s : State) : pastAnswer (fireSeq n c o1 o2 q s) = pastAnswer s := by simp [pastAnswer]

theorem past_fire (n c : Nat) (o1 : Obj) (s : State) : pastAnswer (fire n c o1 s) = pastAnswer s := past_fireSeq ..

theorem past_post (q k p : Nat) (w : List Word) (s : State) : pastAnswer (post q k p w s) = pastAnswer s := by simp [pastAnswer]

theorem past_sendVector (p vec : Nat) (s : State) : pastAnswer (sendVector p vec s) = pastAnswer s := by
  unfold sendVector
  split
  · rfl
  · split <;> rfl

/-! ### Notices and answers -/

theorem past_mbNotice (mb opc tag rc : Nat) (bg : Bool) (s : State) : pastAnswer (mbNotice mb opc tag rc bg s) = pastAnswer s := by
  unfold mbNotice
  split
  · rfl
  · extract_lets c t
    have sent : pastAnswer t = pastAnswer s := apply_ite_same pastAnswer (past_sendVector ..) rfl
    exact apply_ite_same pastAnswer ((past_post ..).trans sent) sent

theorem past_dispatch (input : Nat) (cells : List Nat) (m : Msg) (s : State) : pastAnswer (dispatch input cells m s) = pastAnswer s := by
  unfold dispatch
  split
  · rfl
  · exact apply_ite_same pastAnswer (past_fire ..) rfl

theorem past_sendMgt (opc : Opc) (dst : HubId) (xtra len : Nat) (payload : BitVec 512) (s : State) (cells : List Nat) :
    pastAnswer (sendMgt opc dst xtra len payload s cells) = pastAnswer s := by
  unfold sendMgt
  extract_lets m
  split
  · rfl
  · exact past_dispatch ..

/-- What an answer writes before its notice: the host's payload and status registers, or the messages of the fabric mailbox. -/
def answerPut (mb rc rsn : Nat) (out : List Word) (s : State) : State :=
  if mb < 16 then
    wrFld (aMbCtl mb) 1 1 0 (wr (aMbSts mb) (mkWord [(0, 16, rc), (16, 16, rsn), (32, 21, 8 * out.length)])
      ((List.range (min out.length 256)).foldl (fun s k => wr (aMbPay mb k) (out.getD k 0) s) s))
  else if mb = 17 then (List.range (max 1 ((out.length + 7) / 8))).foldl (fabPart rc out) s
  else s

theorem mbAnswer_eq (mb opc tag rc rsn : Nat) (out : List Word) (s : State) :
    mbAnswer mb opc tag rc rsn out s = mbNotice mb opc tag rc false (emit (.mailbox mb rc out) (answerPut mb rc rsn out s)) := rfl

theorem past_answerPut (mb rc rsn : Nat) (out : List Word) (s : State) : pastAnswer (answerPut mb rc rsn out s) = pastAnswer s := by
  unfold answerPut
  split
  · exact (past_wrFld ..).trans ((past_wr ..).trans (foldl_frame pastAnswer (fun s k => past_wr ..) ..))
  · split
    · exact foldl_frame pastAnswer (fun s k => past_sendMgt ..) ..
    · rfl

theorem past_mbAnswer (mb opc tag rc rsn : Nat) (out : List Word) (s : State) : pastAnswer (mbAnswer mb opc tag rc rsn out s) = pastAnswer s := by
  rw [mbAnswer_eq, past_mbNotice, past_emit, past_answerPut]

/-- The host's and the side-band mailbox send no message (R484). -/
theorem mbAnswer_brd {mb : Nat} (own : mb ≠ 17) (opc tag rc rsn : Nat) (out : List Word) (s : State) : (mbAnswer mb opc tag rc rsn out s).brd = s.brd := by
  have put : (answerPut mb rc rsn out s).brd = s.brd := by
    unfold answerPut
    split
    · rw [wrFld_brd, wr_brd]
      exact foldl_frame State.brd (fun s k => wr_brd ..) ..
    · rfl
  have vector : ∀ p vec (t : State), (sendVector p vec t).brd = t.brd := fun p vec t => by
    unfold sendVector
    split
    · rfl
    · split <;> rfl
  rw [mbAnswer_eq]
  unfold mbNotice
  split
  · exact put
  · extract_lets c t
    have sent : t.brd = s.brd := apply_ite_same State.brd ((vector ..).trans put) put
    exact apply_ite_same State.brd ((post_brd ..).trans sent) sent

/-! ### What has been sent stays sent -/

theorem out_sendVector (p vec : Nat) (s : State) : s.out <+: (sendVector p vec s).out := by
  unfold sendVector
  split
  · exact List.prefix_rfl
  · split
    · exact List.prefix_rfl
    · exact out_emit s _

theorem out_ite {s t u : State} {c : Prop} [Decidable c] (h : s.out <+: t.out) (k : s.out <+: u.out) : s.out <+: (if c then t else u).out := by
  split
  · exact h
  · exact k

theorem out_mbNotice (mb opc tag rc : Nat) (bg : Bool) (s : State) : s.out <+: (mbNotice mb opc tag rc bg s).out := by
  unfold mbNotice
  split
  · exact List.prefix_rfl
  · extract_lets c t
    have sent : s.out <+: t.out := out_ite (out_sendVector ..) List.prefix_rfl
    exact out_ite (sent.trans (out_post ..)) sent

/-- An answer is sent with its return code and its words. -/
theorem sent_mbAnswer (mb opc tag rc rsn : Nat) (out : List Word) (s : State) : Sent.mailbox mb rc out ∈ (mbAnswer mb opc tag rc rsn out s).out := by
  rw [mbAnswer_eq]
  exact (out_mbNotice ..).subset (List.mem_append_right _ (List.mem_singleton_self _))

/-! ### Registers outside the mailboxes -/

/-- The address lies outside the mailboxes' registers. -/
def OffMailbox (a : Nat) : Prop := a < 0x1a0000 ∨ 0x1b0000 ≤ a

theorem OffMailbox.ne {a b : Nat} (off : OffMailbox a) (low : 0x1a0000 ≤ b) (high : b < 0x1b0000) : a / 8 ≠ b / 8 := by
  unfold OffMailbox at off
  omega

variable {a : Nat}

theorem rd_sendVector (p vec : Nat) (a : Nat) (s : State) : rd (sendVector p vec s) a = rd s a := by
  refine rd_congr ?_ ?_ a <;>
  · unfold sendVector
    split
    · rfl
    · split <;> rfl

theorem rd_mbNotice (mb opc tag rc : Nat) (bg : Bool) (a : Nat) (s : State) : rd (mbNotice mb opc tag rc bg s) a = rd s a := by
  unfold mbNotice
  split
  · rfl
  · extract_lets c t
    have sent : rd t a = rd s a := apply_ite_same (fun s => rd s a) (rd_sendVector ..) rfl
    exact apply_ite_same (fun s => rd s a) ((rd_post ..).trans sent) sent

theorem rd_dispatch (input : Nat) (cells : List Nat) (m : Msg) (a : Nat) (s : State) : rd (dispatch input cells m s) a = rd s a := by
  unfold dispatch
  split
  · exact rd_congr rfl rfl a
  · exact apply_ite_same (fun s => rd s a) ((rd_fire ..).trans (rd_congr rfl rfl a)) (rd_congr rfl rfl a)

theorem rd_sendMgt (opc : Opc) (dst : HubId) (xtra len : Nat) (payload : BitVec 512) (s : State) (cells : List Nat) (a : Nat) :
    rd (sendMgt opc dst xtra len payload s cells) a = rd s a := by
  unfold sendMgt
  extract_lets m
  split
  · exact rd_congr rfl rfl a
  · exact rd_dispatch ..

theorem rd_answerPut (off : OffMailbox a) (mb rc rsn : Nat) (out : List Word) (s : State) : rd (answerPut mb rc rsn out s) a = rd s a := by
  unfold answerPut
  split
  next host =>
    rw [rd_wrFld_ne _ _ _ _ (off.ne (by simp [aMbCtl]; omega) (by simp [aMbCtl]; omega)),
      rd_wr_ne _ _ (off.ne (by simp [aMbSts]; omega) (by simp [aMbSts]; omega))]
    have write : ∀ (l : List Nat) (t : State), (∀ k ∈ l, k < 256) → rd (l.foldl (fun s k => wr (aMbPay mb k) (out.getD k 0) s) t) a = rd t a := by
      intro l
      induction l with
      | nil => exact fun _ _ => rfl
      | cons k l ih =>
        intro t small
        have hk := small k (List.mem_cons_self ..)
        rw [List.foldl_cons, ih _ (fun j hj => small j (List.mem_cons_of_mem _ hj)),
          rd_wr_ne _ _ (off.ne (by simp [aMbPay]; omega) (by simp [aMbPay]; omega))]
    exact write _ s fun k hk => (List.mem_range.1 hk).trans_le (Nat.min_le_right ..)
  · split
    · exact foldl_frame (fun s => rd s a) (fun s k => rd_sendMgt ..) ..
    · rfl

theorem rd_mbAnswer (off : OffMailbox a) (mb opc tag rc rsn : Nat) (out : List Word) (s : State) : rd (mbAnswer mb opc tag rc rsn out s) a = rd s a := by
  rw [mbAnswer_eq, rd_mbNotice, rd_emit, rd_answerPut off]

/-! ### Results in the Tally, and the ends of background commands -/

theorem beyond_mbResult (mb opc tag res rc rsn : Nat) (inp : Word) (out : List Word) (s : State) :
    beyondMb (mbResult mb opc tag res rc rsn inp out s) = beyondMb s := by simp [beyondMb, pastAnswer, mbResult]

theorem mbResult_next {s : State} (unhalted : s.halted = none) (mb opc tag res rc rsn : Nat) (inp : Word) (out : List Word) :
    (mbResult mb opc tag res rc rsn inp out s).tly.next = s.tly.next + 1 := tally_next unhalted ..

theorem rd_withCtl (t : State) (c : Ctl) (a : Nat) : rd { t with ctl := c } a = rd t a := rd_congr rfl rfl a

theorem rd_mbResult (mb opc tag res rc rsn : Nat) (inp : Word) (out : List Word) (a : Nat) (s : State) :
    rd (mbResult mb opc tag res rc rsn inp out s) a = rd s a := (rd_withCtl _ _ a).trans (rd_tally ..)

theorem beyond_setBgStat (mb : Nat) (w : Word) (s : State) : beyondMb (setBgStat mb w s) = beyondMb s := apply_ite_same beyondMb rfl rfl

theorem rd_setBgStat (off : OffMailbox a) (mb : Nat) (w : Word) (s : State) : rd (setBgStat mb w s) a = rd s a := by
  unfold setBgStat
  split
  · rw [rd_wr_ne _ _ (off.ne (by simp [aMbBgst]; omega) (by simp [aMbBgst]; omega))]
  · exact rd_withCtl ..

theorem beyond_bgEndOn (mb : Nat) (b : BgCmd) (brc : Nat) (s : State) : beyondMb (bgEndOn mb b brc s) = beyondMb s := by
  unfold bgEndOn
  extract_lets w ctl s1 s2 s3
  have h1 : beyondMb s1 = beyondMb s := beyond_setBgStat ..
  have h2 : beyondMb s2 = beyondMb s := (beyondMb_of_past (past_fireSeq ..)).trans h1
  have h3 : beyondMb s3 = beyondMb s := apply_ite_same beyondMb h2 ((beyond_mbResult ..).trans h2)
  exact (beyondMb_of_past (past_mbNotice ..)).trans h3

theorem rd_bgEndOn (off : OffMailbox a) (mb : Nat) (b : BgCmd) (brc : Nat) (s : State) : rd (bgEndOn mb b brc s) a = rd s a := by
  unfold bgEndOn
  extract_lets w ctl s1 s2 s3
  have h1 : rd s1 a = rd s a := (rd_setBgStat off ..).trans (rd_withCtl ..)
  have h2 : rd s2 a = rd s a := (rd_fireSeq ..).trans h1
  have h3 : rd s3 a = rd s a := apply_ite_same (fun s => rd s a) h2 ((rd_mbResult ..).trans h2)
  exact (rd_mbNotice ..).trans h3

theorem beyond_endForeground (rc : Nat) (s : State) (p : Nat) : beyondMb (endForeground rc s p) = beyondMb s := apply_ite_same beyondMb rfl rfl

theorem rd_endForeground (off : OffMailbox a) (rc : Nat) (s : State) {p : Nat} (host : p < 16) : rd (endForeground rc s p) a = rd s a := by
  unfold endForeground
  split
  · rw [rd_wrFld_ne _ _ _ _ (off.ne (by simp [aMbCtl]; omega) (by simp [aMbCtl]; omega)),
      rd_wrFld_ne _ _ _ _ (off.ne (by simp [aMbSts]; omega) (by simp [aMbSts]; omega))]
  · rfl

/-! ### Pelest's restart -/

/-- The restart itself: EV281, no unlock, no stage under way (R488). -/
def restartBegun (s : State) : State :=
  { fire 281 0 oNone (wrFld aGlStat 3 1 1 s) with ctl := { (fire 281 0 oNone (wrFld aGlStat 3 1 1 s)).ctl with unlocks := [], parts := [] } }

theorem pelestRestart_eq (s : State) : pelestRestart s =
    (((List.range 16).foldl (endForeground 5) (restartBegun s)).ctl.bg.filter fun e => e.2.opc = 0xC010 || e.2.opc = 0x0201 || e.2.opc = 0xC201).foldl
      (fun s e => bgEndOn e.1 e.2 0x12 s) ((List.range 16).foldl (endForeground 5) (restartBegun s)) := rfl

theorem beyond_pelestRestart (s : State) : beyondMb (pelestRestart s) = beyondMb (restartBegun s) := by
  rw [pelestRestart_eq, foldl_frame beyondMb (fun s e => beyond_bgEndOn ..), foldl_frame beyondMb (fun s p => beyond_endForeground ..)]

theorem restartBegun_kept (s : State) : (restartBegun s).hc = s.hc ∧ (restartBegun s).pwr = s.pwr ∧ (restartBegun s).sl = s.sl :=
  ⟨(fire_hc ..).trans (wrFld_hc ..), (fire_pwr ..).trans (wrFld_pwr ..), (fire_sl ..).trans (wrFld_sl ..)⟩

theorem pelestRestart_unlocks (s : State) : (pelestRestart s).ctl.unlocks = [] := congrArg (fun t : State => t.ctl.unlocks) (beyond_pelestRestart s)

theorem pelestRestart_hc (s : State) : (pelestRestart s).hc = s.hc := (hc_of_beyond (beyond_pelestRestart s)).trans (restartBegun_kept s).1

theorem pelestRestart_sl (s : State) : (pelestRestart s).sl = s.sl := (sl_of_beyond (beyond_pelestRestart s)).trans (restartBegun_kept s).2.2

theorem pelestRestart_pwr (s : State) : (pelestRestart s).pwr = s.pwr := (pwr_of_beyond (beyond_pelestRestart s)).trans (restartBegun_kept s).2.1

end Sys2Proof.Machine
end

section
/-! PROOFS. Pelest's restart and return, the activation that a timeout ends, and the clocks (R488, R494, R552, R558). -/

namespace Sys2Proof.Machine

variable {s : State}

theorem activationEnds_idle (none_open : s.ctl.bg = []) (rc : Nat) : activationEnds rc s = s := by simp [activationEnds, none_open]

/-! ### Clocks -/

theorem awake_of_running (run : running s = true) : awake s = true := by
  unfold running at run
  unfold awake
  cases phase : s.part.phase <;> simp_all

theorem opPelestWatchdog_awake (up : awake s = true) (pelest : pelestUp s = true) : opPelestWatchdog s = pelestRestart s := by
  unfold awake at up
  unfold opPelestWatchdog
  split
  next held => simp [held] at up
  next none_there => simp [none_there] at up
  · exact if_pos pelest

/-- A lost clock of domain `d` that does not reset the device: EV263, then what the domain's clock drives (R552). -/
theorem opClockLoss_acts (up : awake s = true) {d : Fin 100} (present : 88 < d.val) (small : d.val ≠ 99) :
    opClockLoss d s = clockAct d.val (fire 263 0 (oVal d.val) s) := by
  have phase : s.part.phase ≠ .held := fun held => by simp [awake, held] at up
  unfold opClockLoss
  extract_lets n
  rw [if_neg phase, if_neg (by omega), if_neg]
  simp only [up, Bool.not_true, Bool.false_or, Bool.and_eq_true, decide_eq_true_eq, not_and]
  omega

/-- A command that leaves the cellar accesses, the acknowledgements and the fences lets nothing follow. -/
theorem exec_clockLoss_quiet {d : Fin 100} {t : State} (acts : opClockLoss d s = t) (cel : t.cel = s.cel) (mir : t.mir = s.mir) (ports : t.ports = s.ports) :
    exec (.clockLoss d) s = .next t :=
  congrArg Host.Outcome.next (show followAfter s (opClockLoss d s) = t by
    rw [acts]
    exact followAfter_idle (by rw [cel]) (by rw [cel]) (by rw [mir]) (by rw [ports]))

theorem raised_clockLoss (unhalted : s.halted = none) (d : Nat) : raised (fire 263 0 (oVal d) s) 263 = true :=
  raised_fire (evReserved_eq_false unhalted (by simp [reservedSource]) (by decide)) ..

theorem opClockLoss_core (up : awake s = true) :
    followAfter s (opClockLoss 88 s) = coldReset 3 true (fire 263 0 (oVal 88) s) := by
  have phase : s.part.phase ≠ .held := fun held => by simp [awake, held] at up
  have reset : opClockLoss 88 s = coldReset 3 true (fire 263 0 (oVal 88) s) := by
    unfold opClockLoss
    extract_lets d
    rw [if_neg phase, if_pos (.inl rfl), if_pos up]
    rfl
  rw [reset, followAfter, follow_coldReset]
  exact ite_self _

end Sys2Proof.Machine

namespace Sys2Proof

open Machine

/-- Settles O20: Pelest's restart by what each ended command leaves, and the clocks by domain. -/
theorem pelestAndClocks : Obligations.PelestAndClocks := by
  intro s run
  have unhalted := unhalted_of_running run
  have up := awake_of_running run
  refine ⟨fun pelest => ?_, fun down clock none_active => ?_, fun b down active none_open => ?_, ?_, ?_, ?_, ⟨_, rfl, rfl⟩, fun lost => ?_⟩
  · exact ⟨_, congrArg Host.Outcome.next (opPelestWatchdog_awake up pelest), rfl, pelestRestart_unlocks s, pelestRestart_hc s⟩
  · refine ⟨fire 281 1 oNone (wrFld aGlStat 3 1 0 s), congrArg Host.Outcome.next ?_, ?_, by simp⟩
    · unfold opPelestReady
      rw [if_neg (by simp [down, clock])]
      simp only [fire_ctl, wrFld_ctl, none_active]
    · rw [rdBit, rd_fire]
      exact rdBit_wrFld_self _ 3 0 (by decide)
  · have ended : opFwActivateTimeout s = fire 280 2 oNone { s with ctl := { s.ctl with act := none } } := by
      rw [opFwActivateTimeout, if_neg (by simp [active, down]), activationEnds_idle (by rw [fire_ctl]; exact none_open)]
    refine ⟨_, congrArg Host.Outcome.next ended, ?_, fire_flash ..⟩
    rw [fire_ctl]
  · exact ⟨_, congrArg Host.Outcome.next (opClockLoss_core up), coldHeld_coldReset .., rd_coldReset_aPmLastc ..⟩
  · refine ⟨_, exec_clockLoss_quiet (opClockLoss_acts up (by decide) (by decide)) ?_ ?_ ?_, rfl, ?_, raised_clockLoss unhalted 93⟩
    · exact fire_cel ..
    · exact fire_mir ..
    · exact fire_ports ..
    · exact fire_regs ..
  · refine ⟨_, exec_clockLoss_quiet (opClockLoss_acts up (by decide) (by decide)) ?_ ?_ ?_, rfl, ?_, raised_clockLoss unhalted 95⟩
    · exact fire_cel ..
    · exact fire_mir ..
    · exact fire_ports ..
    · exact fire_regs ..
  · have returned : opManagementClockReturn s = pelestRestart { s with pwr := { s.pwr with mgmtLost := false } } := if_neg (by simp [lost])
    exact ⟨_, congrArg Host.Outcome.next returned, congrArg Pwr.mgmtLost (pelestRestart_pwr _), pelestRestart_unlocks _⟩

end Sys2Proof
end

section
/-! PROOFS. The root: its sequence, its standby and its election (R324 to R326). -/

namespace Sys2Proof.Machine

variable {s : State}

/-- A field within the field set. -/
theorem fld_setFld_in (w : Word) (lo n v lo' n' : Nat) (h : lo + n ≤ 64) (h1 : lo ≤ lo') (h2 : lo' + n' ≤ lo + n) :
    fld (setFld w lo n v) lo' n' = v / 2 ^ (lo' - lo) % 2 ^ n' := by
  apply Nat.eq_of_testBit_eq
  intro i
  rw [fld_testBit, setFld_testBit _ _ _ _ _ h, Nat.testBit_mod_two_pow, Nat.testBit_div_two_pow]
  by_cases hi : i < n'
  · rw [if_pos (by omega), show lo' + i - lo = i + (lo' - lo) by omega]
  · simp [hi]

theorem rdFld_wrFld_in (s : State) {a : Nat} (lo n v lo' n' : Nat) (h : lo + n ≤ 64) (h1 : lo ≤ lo') (h2 : lo' + n' ≤ lo + n) :
    rdFld (wrFld a lo n v s) a lo' n' = v / 2 ^ (lo' - lo) % 2 ^ n' := by rw [rdFld, rd_wrFld_self, fld_setFld_in _ _ _ _ _ _ h h1 h2]

/-! ### Who is the root -/

theorem isRoot_congr {t : State} (h : rd t aFbStat = rd s aFbStat) : isRoot t = isRoot s := by rw [isRoot, rdBit, h, isRoot, rdBit]

theorem rootId_congr {t : State} (h : rd t aFbStat = rd s aFbStat) : rootId t = rootId s := by rw [rootId, rdBit, rdFld, h, rootId, rdBit, rdFld]

theorem hubId_lt (s : State) : (hubId s).toNat < 2 ^ 12 := (hubId s).isLt

theorem isRoot_becomeRoot (q : Nat) (s : State) : isRoot (becomeRoot q s) = true := by
  rw [becomeRoot, isRoot, rdBit_wr_ne _ _ _ (by decide), rdBit_wrFld_in _ _ _ _ _ (by decide) (by decide) (by decide),
    show 3 + (hubId s).toNat * 4 = 2 * (2 * (hubId s).toNat + 1) + 1 by ring]
  simp

theorem rootId_becomeRoot (q : Nat) (s : State) : rootId (becomeRoot q s) = some (hubId s) := by
  have known : rdBit (becomeRoot q s) aFbStat 3 = true := by
    rw [becomeRoot, rdBit_wr_ne _ _ _ (by decide), rdBit_wrFld_in _ _ _ _ _ (by decide) (by decide) (by decide),
      show 3 + (hubId s).toNat * 4 = 2 * (2 * (hubId s).toNat + 1) + 1 by ring, Nat.testBit_succ]
    simp
    omega
  have hub : rdFld (becomeRoot q s) aFbStat 4 12 = (hubId s).toNat := by
    rw [becomeRoot, rdFld_wr_ne _ _ _ _ (by decide), rdFld_wrFld_in _ _ _ _ _ _ (by decide) (by decide) (by decide),
      show 3 + (hubId s).toNat * 4 = 4 * (hubId s).toNat + 3 by ring]
    have := hubId_lt s
    omega
  rw [rootId, if_pos known, hub, BitVec.ofNat_toNat, BitVec.setWidth_eq]

theorem rseq_becomeRoot (q : Nat) (s : State) : rdFld (becomeRoot q s) aFbRseq 0 32 = q % 2 ^ 32 := by
  rw [becomeRoot, rdFld_wr_self, fld, Nat.shiftRight_zero, BitVec.toNat_ofNat]
  omega

/-- A hub that forgets the root knows none and has heard of none (R326). -/
theorem forgetRoot_spec (unrooted : isRoot s = false) :
    isRoot (forgetRoot s) = false ∧ rootId (forgetRoot s) = none ∧ (forgetRoot s).fab.calm = 0 ∧ (forgetRoot s).fab.best = 0 := by
  unfold forgetRoot
  refine ⟨?_, ?_, rfl, rfl⟩
  · rw [isRoot, rdBit_wrFld_off _ _ _ _ _ (by decide) (by decide)]
    exact unrooted
  · rw [rootId, rdBit_wrFld_in _ _ _ _ _ (by decide) (by decide) (by decide)]
    rfl

/-! ### The silence of the root -/

theorem isStandby_of (standby : rdBit s aFbRoot 8 = true) (this : rdFld s aFbRoot 9 12 = (hubId s).toNat) :
    ¬(!rdBit s aFbRoot 8 || rdFld s aFbRoot 9 12 ≠ (hubId s).toNat) = true := by simp [standby, this]

/-- The standby of a silent root succeeds it, and declares the root that it knew dead (R325). -/
theorem opRootSilenceTimeout_known {r : HubId} (unrooted : isRoot s = false) (known : rootId s = some r) (standby : rdBit s aFbRoot 8 = true)
    (this : rdFld s aFbRoot 9 12 = (hubId s).toNat) : opRootSilenceTimeout s = declareDead r 4 (becomeRoot (rdFld s aFbRseq 0 32 + 2 ^ 20) s) := by
  unfold opRootSilenceTimeout
  rw [if_neg (by simp [unrooted]), if_neg (isStandby_of standby this)]
  simp only [known]

theorem opRootSilenceTimeout_unknown (unrooted : isRoot s = false) (unknown : rootId s = none) (standby : rdBit s aFbRoot 8 = true)
    (this : rdFld s aFbRoot 9 12 = (hubId s).toNat) : opRootSilenceTimeout s = becomeRoot (rdFld s aFbRseq 0 32 + 2 ^ 20) s := by
  unfold opRootSilenceTimeout
  rw [if_neg (by simp [unrooted]), if_neg (isStandby_of standby this)]
  simp only [unknown]

theorem opRootSilenceTimeout_other (unrooted : isRoot s = false)
    (other : rdBit s aFbRoot 8 = false ∨ rdFld s aFbRoot 9 12 ≠ (hubId s).toNat) : opRootSilenceTimeout s = forgetRoot s := by
  unfold opRootSilenceTimeout
  rw [if_neg (by simp [unrooted]), if_pos]
  rcases other with h | h <;> simp [h]

theorem followAfter_becomeRoot (q : Nat) (s : State) : followAfter s (becomeRoot q s) = becomeRoot q s := followAfter_idle rfl rfl rfl rfl

theorem followAfter_forgetRoot (s : State) : followAfter s (forgetRoot s) = forgetRoot s := followAfter_idle rfl rfl rfl rfl

end Sys2Proof.Machine

namespace Sys2Proof

open Machine

/-- Settles O44: each row by the cases of its command, with what becoming the root writes. -/
theorem rootEvents : Obligations.RootEvents := by
  intro s run
  refine ⟨fun root => ?_, fun unrooted => ?_, fun unrooted unknown standby this => ?_, fun r unrooted known standby this => ?_,
    fun unrooted other => ?_, fun unknown calm best => ?_, fun known => ?_⟩
  · refine ⟨_, (live_running run _ : execRootSequenceTick s = _), ?_⟩
    rw [opRootSequenceTick, if_pos root]
    exact ⟨rd_wr_self .., rfl⟩
  · refine (live_running run _ : execRootSequenceTick s = _).trans (congrArg _ ?_)
    rw [opRootSequenceTick, if_neg (by simp [unrooted])]
  · refine ⟨_, (live_running run _ : execRootSilenceTimeout s = _), ?_⟩
    rw [opRootSilenceTimeout_unknown unrooted unknown standby this, followAfter_becomeRoot]
    exact ⟨isRoot_becomeRoot .., rootId_becomeRoot .., rseq_becomeRoot ..⟩
  · refine ⟨_, becomeRoot (rdFld s aFbRseq 0 32 + 2 ^ 20) s, (live_running run _ : execRootSilenceTimeout s = _), ?_, isRoot_becomeRoot ..,
      rootId_becomeRoot ..⟩
    rw [opRootSilenceTimeout_known unrooted known standby this]
  · refine ⟨_, (live_running run _ : execRootSilenceTimeout s = _), ?_⟩
    rw [opRootSilenceTimeout_other unrooted other, followAfter_forgetRoot]
    exact forgetRoot_spec unrooted
  · refine ⟨_, (live_running run _ : execRootElection s = _), ?_⟩
    have elected : opRootElection s = becomeRoot (rdFld s aFbRseq 0 32) s := by
      unfold opRootElection
      rw [if_neg]
      rcases best with h | h
      · simp [unknown, h]
        omega
      · simp [unknown]
        omega
    rw [elected]
    exact ⟨isRoot_becomeRoot .., rootId_becomeRoot .., (rseq_becomeRoot ..).trans (Nat.mod_eq_of_lt (fld_lt ..))⟩
  · refine ⟨_, (live_running run _ : execRootElection s = _), ?_⟩
    rw [opRootElection, if_pos (by simp [known])]

end Sys2Proof
end

section
/-! PROOFS. The run of a mailbox command that the mailbox takes (R485 to R488): what the command acts on, and how each kind of answer ends it. -/

namespace Sys2Proof.Machine

variable {s : State}

/-- What the command acts on: the block after its input has been read, without the parts of a message that the fabric mailbox had gathered. -/
def opened (mb : Nat) (s : State) : State :=
  if mb = 17 then { (mbInput mb s).2 with ctl := { (mbInput mb s).2.ctl with parts := mdel (mbInput mb s).2.ctl.parts (mbInput mb s).2.ctl.src } }
  else (mbInput mb s).2

theorem opened_host {mb : Nat} (host : mb < 16) (s : State) : opened mb s = s := by
  rw [opened, if_neg (by omega), mbInput, if_pos host]

theorem mbInput_eq (mb : Nat) (s : State) : ∃ free, (mbInput mb s).2 = { s with free := free } := by
  unfold mbInput
  split
  · exact ⟨s.free, rfl⟩
  · exact ⟨s.free + 1, rfl⟩

/-- The command's block differs from the block before in the free values drawn and in the fabric mailbox's message. -/
theorem opened_eq (mb : Nat) (s : State) : ∃ free parts, opened mb s = { s with free := free, ctl := { s.ctl with parts := parts } } := by
  obtain ⟨free, eq⟩ := mbInput_eq mb s
  unfold opened
  rw [eq]
  split
  · exact ⟨free, _, rfl⟩
  · exact ⟨free, s.ctl.parts, rfl⟩

theorem rd_opened (mb : Nat) (s : State) (a : Nat) : rd (opened mb s) a = rd s a := by
  obtain ⟨free, parts, eq⟩ := opened_eq mb s
  rw [eq]
  exact rd_congr rfl rfl a

/-- How a command that the mailbox took and that acts on `s` ends, by what it answers; a refusal leaves what the command did undone. -/
def mbEnds (mb opc tag : Nat) (changes : Bool) (inp : Word) (s : State) (x : Ans × State) : State := match x.1 with
  | .done out => mbAnswer mb opc tag 0 0 out (if changes then mbResult mb opc tag 0 0 0 inp out x.2 else x.2)
  | .started obj => mbAnswer mb opc tag 1 0 [] (bgBegin mb opc tag obj (mbResult mb opc tag 0 1 0 inp [] x.2))
  | .refused => mbAnswer mb opc tag 2 (reason s).1 [] (mbResult mb opc tag 1 2 (reason s).1 inp [] (reason s).2)
  | .code rc => mbAnswer mb opc tag rc 0 [] (mbResult mb opc tag 8 rc 0 inp [] x.2)

/-- A command that the mailbox takes runs on the opened block, and its answer ends it (R485, R487). -/
theorem mbRun_accepts {mb : Mailbox} {grp : Nat} (acc : MbAccepts s mb grp) (tag : BitVec 16) (opc : Nat) (changes back : Bool) (f : State → Ans × State) :
    mbRun mb tag opc grp changes back f s = mbEnds mb opc tag.toNat changes (mbInput mb s).1 (opened mb s) (f (opened mb s)) := by
  obtain ⟨⟨unhalted, ready⟩, pelest, lead, auth, unblocked, none_open⟩ := acc
  obtain ⟨free, parts, eq⟩ := opened_eq mb s
  have auth' : (mbAuth (opened mb s) mb).testBit grp = true := by rw [eq]; exact auth
  have unblocked' : blockedByTally (opened mb s) (mbOrigin mb) = false := by rw [eq]; exact unblocked
  have none_open' : mget (opened mb s).ctl.bg mb.val = none := by rw [eq]; exact none_open
  have served : mbServed s = true := by simp [mbServed, ready]
  have own : (decide (mb.val < 16) && nonLead s mb) = false := by
    by_cases h : mb.val < 16
    · simp [lead h]
    · simp [h]
  unfold mbRun
  extract_lets t o say refuse i s1 _ s2 x r
  have acts : s2 = opened mb s := rfl
  rw [if_neg (by simp [ready]), if_neg (by simp [served, own, unhalted]), if_neg (by simp [pelest]), if_neg (by simp [unhalted]), acts,
    if_neg (by simp [auth']), if_neg (by simp [o, unblocked']), if_neg (by simp [none_open'])]
  have result : x = f (opened mb s) := rfl
  clear_value x
  subst result
  rcases f (opened mb s) with ⟨answer, u⟩
  cases answer with
  | done out => rfl
  | started obj => rfl
  | refused => rfl
  | code rc => rfl

end Sys2Proof.Machine
end

section
/-! PROOFS. Mailbox commands that only read (R485, R490, R513, R296, R363, R469, R501). -/

namespace Sys2Proof.Machine

variable {s : State} {mb : Mailbox}

/-- The block with other free values drawn, and other parts of the fabric mailbox's message. -/
def drawn (s : State) (free : Nat) (parts : SMap (List (BitVec 512))) : State := { s with free := free, ctl := { s.ctl with parts := parts } }

/-- What a command that only reads leaves. -/
structure OnlyRead (s t : State) : Prop where
  hc : t.hc = s.hc
  dir : t.dir = s.dir
  sl : t.sl = s.sl
  tly : t.tly = s.tly
  flash : t.flash = s.flash
  time : t.time = s.time

theorem onlyRead_of_past {t : State} {free : Nat} {parts : SMap (List (BitVec 512))} (h : pastAnswer t = pastAnswer (drawn s free parts)) : OnlyRead s t := by
  have field : ∀ {γ : Type} (g : State → γ), g (pastAnswer t) = g (pastAnswer (drawn s free parts)) := fun g => congrArg g h
  exact ⟨field State.hc, field State.dir, field State.sl, field State.tly, field State.flash, field State.time⟩

/-- A command that only reads answers what it read with Success. -/
theorem mbRead_done (acc : MbAccepts s mb 0) (tag : BitVec 16) (opc : Nat) {f : State → Ans × State} {out : List Word} {free : Nat}
    {parts : SMap (List (BitVec 512))} (reads : f (opened mb s) = (.done out, drawn s free parts)) :
    Sent.mailbox mb 0 out ∈ (mbRead mb tag opc f s).out ∧ OnlyRead s (mbRead mb tag opc f s) := by
  have ends : mbRead mb tag opc f s = mbAnswer mb opc tag.toNat 0 0 out (drawn s free parts) := by
    rw [mbRead, mbRun_accepts acc, reads]
    rfl
  rw [ends]
  exact ⟨sent_mbAnswer .., onlyRead_of_past (past_mbAnswer ..)⟩

/-- A command whose answer is a value of the block answers it. -/
theorem mbRead_value (acc : MbAccepts s mb 0) (tag : BitVec 16) (opc : Nat) (out : State → List Word)
    (fixed : ∀ free parts, out (drawn s free parts) = out s) :
    Sent.mailbox mb 0 (out s) ∈ (mbRead mb tag opc (fun s => (.done (out s), s)) s).out ∧
      OnlyRead s (mbRead mb tag opc (fun s => (.done (out s), s)) s) := by
  obtain ⟨free, parts, eq⟩ := opened_eq mb s
  exact mbRead_done acc tag opc (free := free) (parts := parts) (by rw [eq]; exact congrArg (fun w => (Ans.done w, drawn s free parts)) (fixed free parts))

/-- A command whose answer CXL alone lays out answers a free value. -/
theorem mbRead_std (acc : MbAccepts s mb 0) (tag : BitVec 16) (opc : Nat) :
    ∃ n, Sent.mailbox mb 0 (Config.cxlAnswer n) ∈ (mbRead mb tag opc stdAnswer s).out ∧ OnlyRead s (mbRead mb tag opc stdAnswer s) := by
  obtain ⟨free, parts, eq⟩ := opened_eq mb s
  exact ⟨free, mbRead_done acc tag opc (free := free + 1) (parts := parts) (by rw [eq]; rfl)⟩

theorem poisonLines_drawn (free : Nat) (parts : SMap (List (BitVec 512))) : poisonLines (drawn s free parts) = poisonLines s := rfl

theorem now_aGlId_drawn (o free : Nat) (parts : SMap (List (BitVec 512))) : now (drawn s free parts) o aGlId = now s o aGlId := rfl

/-- The capacity that IDENTIFY_MEMORY_DEVICE answers: a host's windows, as its memory is persistent or not (R296). -/
def capacity (mb : Nat) (s : State) : Word :=
  BitVec.ofNat 64 (if mb < 16 then (List.range 256).foldl (fun n k => n + windowSize s mb k) 0 else 0)

/-- IDENTIFY_MEMORY_DEVICE answers the capacity, and of it the volatile and the persistent part. -/
theorem identifyMemoryDevice_answers (acc : MbAccepts s mb 0) (tag : BitVec 16) :
    ∃ y z, Sent.mailbox mb 0 [capacity mb s, y, z] ∈ (opIdentifyMemoryDevice mb tag s).out ∧ OnlyRead s (opIdentifyMemoryDevice mb tag s) ∧
      (capacity mb s = y ∨ capacity mb s = z) ∧ (mb.val < 16 → (y, z) = if rdBit s (aHpCtl mb) 4 then (0, capacity mb s) else (capacity mb s, 0)) := by
  unfold opIdentifyMemoryDevice
  extract_lets cap persistent word
  have size : word cap = capacity mb s := rfl
  obtain ⟨sent, kept⟩ := mbRead_value acc tag 0x4000
    (fun _ => [word cap, word (if persistent = true then 0 else cap), word (if persistent = true then cap else 0)]) fun _ _ => rfl
  refine ⟨_, _, size ▸ sent, kept, ?_, fun host => ?_⟩
  · cases persistent with
    | true => exact .inr size.symm
    | false => exact .inl size.symm
  · have pers : persistent = rdBit s (aHpCtl mb) 4 := by simp [persistent, host]
    rw [pers, ← size]
    cases rdBit s (aHpCtl mb) 4 <;> rfl

/-- REG_READ of whole words answers each. -/
theorem regRead_answers (acc : MbAccepts s mb 0) (tag : BitVec 16) {a : BitVec 24} {n : Nat} (h1 : 1 ≤ n) (h255 : n ≤ 255) (whole : a.toNat % 8 = 0) :
    Sent.mailbox mb 0 ((List.range n).map fun k => readReg (opened mb s) (mbOrigin mb) (a.toNat + 8 * k)) ∈ (opRegRead mb tag a n s).out ∧
      OnlyRead s (opRegRead mb tag a n s) := by
  obtain ⟨free, parts, eq⟩ := opened_eq mb s
  refine mbRead_done acc tag 0xC001 (free := free) (parts := parts) ?_
  rw [if_neg (by omega)]
  exact congrArg (Prod.mk _) eq

theorem unsupported_answers (acc : MbAccepts s mb 0) (tag : BitVec 16) {opcode : BitVec 16} (unknown : opcode.toNat ∉ knownOpcodes) :
    Sent.mailbox mb 3 [] ∈ (opUnsupportedCommand mb tag opcode s).out := by
  rw [opUnsupportedCommand, if_neg unknown, mbRun_accepts acc]
  exact sent_mbAnswer ..

end Sys2Proof.Machine

namespace Sys2Proof

open Machine

/-- Settles O30: each command reads a value that the free values drawn do not change, and its answer leaves what it read. -/
theorem mailboxReads : Obligations.MailboxReads := by
  intro s mb tag acc
  have std : ∀ opc, ∃ t n, mbRead mb tag opc stdAnswer s = t ∧ Sent.mailbox mb 0 (Config.cxlAnswer n) ∈ t.out ∧ t.hc = s.hc ∧ t.dir = s.dir ∧
      t.sl = s.sl ∧ t.tly = s.tly := fun opc => by
    obtain ⟨n, sent, kept⟩ := mbRead_std acc tag opc
    exact ⟨_, n, rfl, sent, kept.hc, kept.dir, kept.sl, kept.tly⟩
  have value : ∀ (opc : Nat) (out : State → List Word), (∀ free parts, out (drawn s free parts) = out s) →
      ∃ t, mbRead mb tag opc (fun s => (.done (out s), s)) s = t ∧ Sent.mailbox mb 0 (out s) ∈ t.out ∧ OnlyRead s t := fun opc out fixed =>
    ⟨_, rfl, mbRead_value acc tag opc out fixed⟩
  refine ⟨?_, ?_, ?_, ?_, ?_, fun log => ?_, ?_, ?_, ?_, ?_, ?_, ?_, ?_, ?_, fun a n h1 h255 whole => ?_, fun opcode unknown => ?_⟩
  · obtain ⟨t, n, run, spec⟩ := std 0x0001
    exact ⟨t, n, congrArg Host.Outcome.next run, spec⟩
  · obtain ⟨t, n, run, spec⟩ := std 0x0400
    exact ⟨t, n, congrArg Host.Outcome.next run, spec⟩
  · obtain ⟨t, n, run, spec⟩ := std 0x0401
    exact ⟨t, n, congrArg Host.Outcome.next run, spec⟩
  · obtain ⟨t, n, run, spec⟩ := std 0x4200
    exact ⟨t, n, congrArg Host.Outcome.next run, spec⟩
  · obtain ⟨t, run, sent, kept⟩ := value 0x0002 (fun s => [bgStat s mb]) fun _ _ => rfl
    exact ⟨t, congrArg Host.Outcome.next run, sent, kept.tly⟩
  · obtain ⟨t, run, sent, kept⟩ := value 0x0100 (fun _ => mkWord [(0, 16, (mgetD [] s.ev.logs (4 * mb.val + log.val)).length),
      (16, 1, (decide (4 * mb.val + log.val ∈ s.ev.logOvf)).toNat)] ::
        (mgetD [] s.ev.logs (4 * mb.val + log.val)).flatMap fun r => BitVec.ofNat 64 r.handle :: r.words) fun _ _ => rfl
    exact ⟨t, _, congrArg Host.Outcome.next run, rfl, sent, kept.tly⟩
  · obtain ⟨t, run, sent, kept⟩ := value 0x0102 (fun s => [(head s mb).policy]) fun _ _ => rfl
    exact ⟨t, congrArg Host.Outcome.next run, sent, kept.tly⟩
  · obtain ⟨t, run, sent, kept⟩ := value 0x0200 (fun s => [glFw s]) fun _ _ => rfl
    exact ⟨t, congrArg Host.Outcome.next run, sent, kept.flash, kept.tly⟩
  · obtain ⟨t, run, sent, kept⟩ := value 0x0300 (fun s => [s.time.ft + (head s mb).tsOff]) fun _ _ => rfl
    exact ⟨t, congrArg Host.Outcome.next run, sent, kept.time, kept.tly⟩
  · obtain ⟨y, z, sent, kept, part, hosts⟩ := identifyMemoryDevice_answers acc tag
    exact ⟨_, _, y, z, rfl, sent, part, kept.tly, fun host => ⟨by rw [capacity, if_pos host], hosts host⟩⟩
  · obtain ⟨t, run, sent, kept⟩ := value 0x4201 (fun s => [(head s mb).alertCfg]) fun _ _ => rfl
    exact ⟨t, congrArg Host.Outcome.next run, sent, kept.tly⟩
  · obtain ⟨t, run, sent, kept⟩ := value 0x4203 (fun s => [BitVec.ofNat 64 s.flash.dirty.toNat, BitVec.ofNat 64 s.flash.dsc]) fun _ _ => rfl
    exact ⟨t, congrArg Host.Outcome.next run, sent, kept.flash, kept.tly⟩
  · obtain ⟨t, run, sent, kept⟩ := value 0x4300 poisonLines poisonLines_drawn
    exact ⟨t, congrArg Host.Outcome.next run, sent, kept.tly⟩
  · obtain ⟨t, run, sent, kept⟩ := value 0xC000 (fun s => [now s (mbOrigin mb) aGlId, s.part.serial, glFw s, BitVec.ofNat 64 s.flash.boots])
      fun free parts => by rw [now_aGlId_drawn]; rfl
    exact ⟨t, _, congrArg Host.Outcome.next run, rfl, sent, kept.tly⟩
  · obtain ⟨sent, kept⟩ := regRead_answers acc tag h1 h255 whole
    exact ⟨_, _, rfl, sent, by simp, kept.tly, fun host => by rw [opened_host host]⟩
  · exact ⟨_, rfl, unsupported_answers acc tag unknown⟩

end Sys2Proof
end

section
/-! PROOFS. Mailbox commands that change something (R485, R487), and the settings among them (R296, R469, R497, R513). -/

namespace Sys2Proof.Machine

variable {s : State} {mb : Mailbox}

/-! ### A command that is done -/

/-- What a command that is done leaves: its result in the Tally and its answer. -/
def doneEnd (mb opc tag : Nat) (inp : Word) (out : List Word) (u : State) : State := mbAnswer mb opc tag 0 0 out (mbResult mb opc tag 0 0 0 inp out u)

theorem mbRun_done {grp : Nat} (acc : MbAccepts s mb grp) (tag : BitVec 16) (opc : Nat) (back : Bool) {f : State → Ans × State} {out : List Word} {u : State}
    (acts : f (opened mb s) = (.done out, u)) : mbRun mb tag opc grp true back f s = doneEnd mb opc tag.toNat (mbInput mb s).1 out u := by
  rw [mbRun_accepts acc, acts]
  rfl

theorem beyond_doneEnd (mb opc tag : Nat) (inp : Word) (out : List Word) (u : State) : beyondMb (doneEnd mb opc tag inp out u) = beyondMb u :=
  (beyondMb_of_past (past_mbAnswer ..)).trans (beyond_mbResult ..)

theorem sent_doneEnd (mb opc tag : Nat) (inp : Word) (out : List Word) (u : State) : Sent.mailbox mb 0 out ∈ (doneEnd mb opc tag inp out u).out := sent_mbAnswer ..

theorem tly_mbAnswer (mb opc tag rc rsn : Nat) (out : List Word) (s : State) : (mbAnswer mb opc tag rc rsn out s).tly = s.tly :=
  tly_of_past (past_mbAnswer ..)

theorem next_doneEnd (mb opc tag : Nat) (inp : Word) (out : List Word) {u : State} (unhalted : u.halted = none) :
    (doneEnd mb opc tag inp out u).tly.next = u.tly.next + 1 :=
  (congrArg Tly.next (tly_mbAnswer ..)).trans (mbResult_next unhalted ..)

theorem rd_doneEnd {a : Nat} (off : OffMailbox a) (mb opc tag : Nat) (inp : Word) (out : List Word) (u : State) : rd (doneEnd mb opc tag inp out u) a = rd u a :=
  (rd_mbAnswer off ..).trans (rd_mbResult ..)

/-- The host's and the side-band mailbox leave the Boards. -/
theorem brd_doneEnd {mb : Nat} (own : mb ≠ 17) (opc tag : Nat) (inp : Word) (out : List Word) (u : State) : (doneEnd mb opc tag inp out u).brd = u.brd :=
  (mbAnswer_brd own ..).trans (tally_brd ..)

/-! ### Settings of a head -/

theorem head_setHead_self (p : Nat) (h : Head) (s : State) : head (setHead p h s) p = h := mgetD_mput_self ..

theorem head_congr {t u : State} (h : t.ports = u.ports) (p : Nat) : head t p = head u p := by rw [head, h, head]

theorem ports_doneEnd (mb opc tag : Nat) (inp : Word) (out : List Word) (u : State) : (doneEnd mb opc tag inp out u).ports = u.ports :=
  ports_of_beyond (beyond_doneEnd ..)

/-- A command that sets a head's `h` and nothing else: the head as set, and one record in the Tally. -/
theorem mbRun_setHead {grp : Nat} (acc : MbAccepts s mb grp) (tag : BitVec 16) (opc : Nat) (set : State → Head) :
    ∃ t, mbRun mb tag opc grp true false (fun s => (.done [], setHead mb (set s) s)) s = t ∧ head t mb = set (opened mb s) ∧
      t.tly.next = s.tly.next + 1 ∧ t.time = s.time := by
  obtain ⟨⟨unhalted, -⟩, -⟩ := id acc
  obtain ⟨free, parts, eq⟩ := opened_eq mb s
  have unhalted' : (setHead mb (set (opened mb s)) (opened mb s)).halted = none := by rw [eq]; exact unhalted
  have next : (setHead mb (set (opened mb s)) (opened mb s)).tly.next = s.tly.next := by rw [eq]; rfl
  have time : (setHead mb (set (opened mb s)) (opened mb s)).time = s.time := by rw [eq]; rfl
  refine ⟨_, mbRun_done acc tag opc false rfl, ?_, ?_, ?_⟩
  · rw [head_congr (ports_doneEnd ..), head_setHead_self]
  · rw [next_doneEnd _ _ _ _ _ unhalted', next]
  · exact (time_of_beyond (beyond_doneEnd ..)).trans time

/-! ### The shutdown state -/

/-- SET_SHUTDOWN_STATE: the head's own state, and the device's, which is clean once every head's is (R296). -/
def shutdownSet (mb : Nat) (dirty : Bool) (s : State) : State :=
  let t := setHead mb { head s mb with clean := !dirty } s
  { t with flash := { t.flash with dirty := if dirty then true else if allClean t then false else t.flash.dirty } }

theorem opSetShutdownState_done (acc : MbAccepts s mb 0) (tag : BitVec 16) (dirty : Bool) :
    opSetShutdownState mb tag dirty s = doneEnd mb 0x4204 tag.toNat (mbInput mb s).1 [] (shutdownSet mb dirty (opened mb s)) := by
  unfold opSetShutdownState
  extract_lets act
  exact mbRun_done (f := act) acc tag 0x4204 false rfl

/-- The shutdown state as set: the head's own, the device's dirty at once, and never dirty where it was clean and was set clean. -/
theorem opSetShutdownState_spec (acc : MbAccepts s mb 0) (tag : BitVec 16) (dirty : Bool) :
    ∃ t, opSetShutdownState mb tag dirty s = t ∧ (head t mb).clean = !dirty ∧ (dirty = true → t.flash.dirty = true) ∧
      (dirty = false → t.flash.dirty = true → s.flash.dirty = true) ∧ t.tly.next = s.tly.next + 1 := by
  obtain ⟨⟨unhalted, -⟩, -⟩ := id acc
  obtain ⟨free, parts, eq⟩ := opened_eq mb s
  have unhalted' : (shutdownSet mb dirty (opened mb s)).halted = none := by rw [eq]; exact unhalted
  have next : (shutdownSet mb dirty (opened mb s)).tly.next = s.tly.next := by rw [eq]; rfl
  have flash : (opened mb s).flash = s.flash := by rw [eq]
  have state : (shutdownSet mb dirty (opened mb s)).flash.dirty =
      if dirty then true else if allClean (setHead mb { head (opened mb s) mb with clean := !dirty } (opened mb s)) then false else s.flash.dirty := by
    rw [← flash]
    rfl
  refine ⟨_, opSetShutdownState_done acc tag dirty, ?_, fun set => ?_, fun set => ?_, (next_doneEnd _ _ _ _ _ unhalted').trans (congrArg (· + 1) next)⟩
  · rw [head_congr (ports_doneEnd ..)]
    exact congrArg Head.clean (head_setHead_self ..)
  · rw [flash_of_beyond (beyond_doneEnd ..), state, if_pos set]
  · rw [flash_of_beyond (beyond_doneEnd ..), state, if_neg (by simp [set])]
    split
    · exact fun h => absurd h (by decide)
    · exact id

/-! ### Event records -/

/-- The event logs and which of them have overflowed. -/
def eventLogs (s : State) : SMap (List LogRec) × List Nat := (s.ev.logs, s.ev.logOvf)

theorem eventLogs_sendVector (p vec : Nat) (s : State) : eventLogs (sendVector p vec s) = eventLogs s := by
  unfold sendVector
  split
  · rfl
  · split <;> rfl

/-- A notice that posts nothing leaves the event logs. -/
theorem eventLogs_mbNotice {mb : Nat} (opc tag rc : Nat) (bg : Bool) (quiet : rdBit s (aMbCtl mb) 10 = false) :
    eventLogs (mbNotice mb opc tag rc bg s) = eventLogs s := by
  unfold mbNotice
  split
  · rfl
  · extract_lets c t
    have unposted : bit c 10 = false := quiet
    rw [if_neg (by rw [unposted]; decide)]
    exact apply_ite_same eventLogs (eventLogs_sendVector ..) rfl

/-- A host's answer of no words that posts nothing leaves the event logs. -/
theorem eventLogs_mbAnswer {mb : Nat} (host : mb < 16) (opc tag : Nat) {s : State} (quiet : rdBit s (aMbCtl mb) 10 = false) :
    eventLogs (mbAnswer mb opc tag 0 0 [] s) = eventLogs s := by
  have put : answerPut mb 0 0 [] s = wrFld (aMbCtl mb) 1 1 0 (wr (aMbSts mb) (mkWord [(0, 16, 0), (16, 16, 0), (32, 21, 0)]) s) := if_pos host
  have still : rdBit (answerPut mb 0 0 [] s) (aMbCtl mb) 10 = false := by
    rw [put, rdBit_wrFld_off _ _ _ _ _ (by decide) (by decide), rdBit_wr_ne _ _ _ (by simp [aMbCtl, aMbSts]; omega), quiet]
  have sent : rdBit (emit (.mailbox mb 0 []) (answerPut mb 0 0 [] s)) (aMbCtl mb) 10 = false := by rw [rdBit, rd_emit]; exact still
  rw [mbAnswer_eq, eventLogs_mbNotice _ _ _ _ sent, eventLogs, emit_ev, put, wrFld_ev, wr_ev, eventLogs]

/-- A result that finds room in the Tally fires nothing. -/
theorem ev_mbResult_room (unhalted : s.halted = none) (room : tlyHeld s.tly < 60000) (mb opc tag res rc rsn : Nat) (inp : Word) (out : List Word) :
    (mbResult mb opc tag res rc rsn inp out s).ev = s.ev := by
  have full : tlyFull s = false := by simp [tlyFull]; omega
  have lose : tlyLose s = s := by simp [tlyLose, full]
  have quiet : ∀ orig kind res tg old new aux, (tally orig kind res tg old new aux s).ev = s.ev := fun orig kind res tg old new aux => by
    have held : tlyHeld (tlyPut orig kind res tg old new aux s).tly ≠ 64512 := by
      show s.tly.next + 1 - s.tly.exported - s.tly.lost.length ≠ 64512
      unfold tlyHeld at room
      omega
    simp only [tally, lose]
    rw [if_neg (by simp [unhalted]), if_neg (fun h => held h.1)]
    rfl
  exact quiet ..

/-- The event log `k` emptied (R513). -/
def logCleared (k : Nat) (s : State) : State :=
  { s with ev := { s.ev with logs := mput [] s.ev.logs k [], logOvf := s.ev.logOvf.filter (· ≠ k) } }

theorem opClearEventRecords_all (acc : MbAccepts s mb 0) (tag : BitVec 16) (log : Fin 4) :
    opClearEventRecords mb tag log true [] s = doneEnd mb 0x0101 tag.toNat (mbInput mb s).1 [] (logCleared (4 * mb.val + log.val) (opened mb s)) := by
  unfold opClearEventRecords
  extract_lets k act
  refine mbRun_done (f := act) acc tag 0x0101 false ?_
  have empty : ∀ l : List LogRec, l.filter (fun r => !(true || decide (r.handle ∈ ([] : List Nat)))) = [] := fun l => by simp
  simp only [act, empty]
  rfl

theorem opClearEventRecords_spec (acc : MbAccepts s mb 0) (tag : BitVec 16) (log : Fin 4) :
    ∃ t, opClearEventRecords mb tag log true [] s = t ∧ Sent.mailbox mb 0 [] ∈ t.out ∧ t.tly.next = s.tly.next + 1 ∧
      (mb.val < 16 → rdBit s (aMbCtl mb) 10 = false → tlyHeld s.tly < 60000 →
        mgetD [] t.ev.logs (4 * mb.val + log.val) = [] ∧ 4 * mb.val + log.val ∉ t.ev.logOvf) := by
  obtain ⟨⟨unhalted, -⟩, -⟩ := id acc
  obtain ⟨free, parts, eq⟩ := opened_eq mb s
  have unhalted' : (logCleared (4 * mb.val + log.val) (opened mb s)).halted = none := by rw [eq]; exact unhalted
  have next : (logCleared (4 * mb.val + log.val) (opened mb s)).tly.next = s.tly.next := by rw [eq]; rfl
  refine ⟨_, opClearEventRecords_all acc tag log, sent_doneEnd .., (next_doneEnd _ _ _ _ _ unhalted').trans (congrArg (· + 1) next), fun host quiet room => ?_⟩
  rw [opened_host host] at unhalted' ⊢
  have still : rdBit (mbResult mb 0x0101 tag.toNat 0 0 0 (mbInput mb s).1 [] (logCleared (4 * mb.val + log.val) s)) (aMbCtl mb) 10 = false := by
    rw [rdBit, rd_mbResult]
    exact quiet
  have events := ev_mbResult_room unhalted' room mb 0x0101 tag.toNat 0 0 0 (mbInput mb s).1 []
  have kept := (eventLogs_mbAnswer host 0x0101 tag.toNat still).trans (congrArg (fun e : Rec => (e.logs, e.logOvf)) events)
  have logs := congrArg Prod.fst kept
  have ovf : (doneEnd mb 0x0101 tag.toNat (mbInput mb s).1 [] (logCleared (4 * mb.val + log.val) s)).ev.logOvf =
      s.ev.logOvf.filter (· ≠ 4 * mb.val + log.val) := congrArg Prod.snd kept
  have gone : mgetD [] (logCleared (4 * mb.val + log.val) s).ev.logs (4 * mb.val + log.val) = [] :=
    mgetD_mput_self ([] : List LogRec) s.ev.logs (4 * mb.val + log.val) []
  exact ⟨(congrArg (fun m => mgetD [] m (4 * mb.val + log.val)) logs).trans gone, by rw [ovf]; simp⟩

/-! ### REG_WRITE -/

theorem length_writePairs (o : Nat) (pairs : List (BitVec 24 × Word)) (s : State) : (writePairs o pairs s).1.length = pairs.length := by
  induction pairs generalizing s with
  | nil => rfl
  | cons x pairs ih => exact congrArg (· + 1) (ih _)

theorem opRegWrite_done {pairs : List (BitVec 24 × Word)} (acc : MbAccepts s mb 1) (tag : BitVec 16) (few : pairs.length ≤ 127) :
    opRegWrite mb tag pairs s =
      doneEnd mb 0xC002 tag.toNat (mbInput mb s).1 (writePairs (mbOrigin mb) pairs (opened mb s)).1 (writePairs (mbOrigin mb) pairs (opened mb s)).2 :=
  mbRun_done acc tag 0xC002 false (if_neg (by omega))

end Sys2Proof.Machine

namespace Sys2Proof

open Machine

/-- Settles O31: each setting by what its command leaves of the opened block, its record and its answer. -/
theorem mailboxSettings : Obligations.MailboxSettings := by
  intro s mb tag
  refine ⟨fun acc => ⟨fun log => ?_, fun v => ?_, fun v => ?_, ?_, ?_⟩, fun acc v => ?_, fun acc behind pairs few => ?_⟩
  · obtain ⟨t, run, spec⟩ := opClearEventRecords_spec acc tag log
    exact ⟨t, congrArg Host.Outcome.next run, spec⟩
  · obtain ⟨t, run, set, next, -⟩ := mbRun_setHead acc tag 0x0103 fun s => { head s mb with policy := v }
    exact ⟨t, congrArg Host.Outcome.next run, congrArg Head.policy set, next⟩
  · obtain ⟨t, run, set, next, -⟩ := mbRun_setHead acc tag 0x4202 fun s => { head s mb with alertCfg := v }
    exact ⟨t, congrArg Host.Outcome.next run, congrArg Head.alertCfg set, next⟩
  · obtain ⟨t, run, clean, dirty, -, next⟩ := opSetShutdownState_spec acc tag true
    exact ⟨t, congrArg Host.Outcome.next run, dirty rfl, clean, next⟩
  · obtain ⟨t, run, clean, -, dirty, next⟩ := opSetShutdownState_spec acc tag false
    exact ⟨t, congrArg Host.Outcome.next run, clean, dirty rfl, next⟩
  · obtain ⟨free, parts, eq⟩ := opened_eq mb s
    obtain ⟨t, run, set, -, time⟩ := mbRun_setHead acc tag 0x0301 fun s => { head s mb with tsOff := v - s.time.ft }
    refine ⟨t, congrArg Host.Outcome.next run, congrArg Time.ft time, ?_⟩
    rw [congrArg Head.tsOff set, time, eq]
    exact (BitVec.add_comm ..).trans (BitVec.sub_add_cancel ..)
  · have done := opRegWrite_done acc tag few
    have run : exec (.regWrite mb tag pairs) s = .next (followAfter s (opRegWrite mb tag pairs s)) := congrArg Host.Outcome.next (windowAfter_idle behind _)
    refine ⟨_, _, run, done ▸ sent_doneEnd .., length_writePairs .., fun host => ⟨(writePairs (mbOrigin mb) pairs s).2, ?_, ?_⟩⟩
    · rw [opened_host host]
    · rw [done, opened_host host]
      have kept := beyond_doneEnd mb 0xC002 tag.toNat (mbInput mb s).1 (writePairs (mbOrigin mb) pairs s).1 (writePairs (mbOrigin mb) pairs s).2
      exact ⟨hc_of_beyond kept, brd_doneEnd (by omega) .., sl_of_beyond kept, time_of_beyond kept⟩

end Sys2Proof
end

section
/-! PROOFS. What the work of a flush leaves (R290, R555): the part, the power state, admission, time and control stand through every operation that a
flush may run, from the cleaning of a line to the write-back of a block. -/

namespace Sys2Proof.Machine

variable {s : State}

/-- What no work on lines, hosts, cells and blocks changes. -/
def core (s : State) : Part × Pwr × Bool × Time × Ctl × List BgTask × List HubId × Nat :=
  (s.part, s.pwr, s.ports.closed, s.time, s.ctl, s.bg, s.fab.joins, s.mir.planned)

theorem part_of_core {s t : State} (h : core t = core s) : t.part = s.part := by
  have kept := congrArg Prod.fst h
  exact kept

theorem pwr_of_core {s t : State} (h : core t = core s) : t.pwr = s.pwr := by
  have kept := congrArg (fun c => c.2.1) h
  exact kept

theorem closed_of_core {s t : State} (h : core t = core s) : t.ports.closed = s.ports.closed := by
  have kept := congrArg (fun c => c.2.2.1) h
  exact kept

theorem ctl_of_core {s t : State} (h : core t = core s) : t.ctl = s.ctl := by
  have kept := congrArg (fun c => c.2.2.2.2.1) h
  exact kept

theorem joins_of_core {s t : State} (h : core t = core s) : t.fab.joins = s.fab.joins := by
  have kept := congrArg (fun c => c.2.2.2.2.2.2.1) h
  exact kept

theorem planned_of_core {s t : State} (h : core t = core s) : t.mir.planned = s.mir.planned := by
  have kept := congrArg (fun c => c.2.2.2.2.2.2.2) h
  exact kept

/-! ### Events, counts and messages -/

@[simp] theorem core_fire (n c : Nat) (o : Obj) (s : State) : core (fire n c o s) = core s := by simp [core]

@[simp] theorem core_count (a n : Nat) (s : State) : core (count a n s) = core s := by simp [core]

@[simp] theorem core_post (q k p : Nat) (w : List Word) (s : State) : core (post q k p w s) = core s := by simp [core]

@[simp] theorem core_tallyAuto (orig a src : Nat) (old new : Word) (o : Obj) (s : State) : core (tallyAuto orig a src old new o s) = core s := by simp [core]

@[simp] theorem core_wr (a : Nat) (v : Word) (s : State) : core (wr a v s) = core s := rfl

@[simp] theorem core_wrFld (a lo n v : Nat) (s : State) : core (wrFld a lo n v s) = core s := rfl

@[simp] theorem core_emit (x : Sent) (s : State) : core (emit x s) = core s := rfl

@[simp] theorem core_enqueue (b : Nat) (w : Waiter) (s : State) : core (enqueue b w s) = core s := rfl

@[simp] theorem core_toHost (p k tc e : Nat) (cells : List Nat) (l : LineAddr) (a : HostAns) (s : State) : core (toHost p k tc e cells l a s) = core s := rfl

@[simp] theorem core_egress (p i : Nat) (cells : List Nat) (m : Msg) (s : State) : core (egress p i cells m s) = core s := rfl

@[simp] theorem core_dispatch (i : Nat) (cells : List Nat) (m : Msg) (s : State) : core (dispatch i cells m s) = core s := by
  unfold dispatch
  split
  · rfl
  · exact apply_ite_same core (core_fire ..) rfl

@[simp] theorem core_sendMgt (opc : Opc) (dst : HubId) (x len : Nat) (d : BitVec 512) (s : State) (cells : List Nat) :
    core (sendMgt opc dst x len d s cells) = core s := by
  unfold sendMgt
  extract_lets m
  split
  · rfl
  · exact core_dispatch ..

@[simp] theorem core_send (opc : Opc) (dst : HubId) (h : Hdr) (d : Data) (cells : List Nat) (s : State) : core (send opc dst h d cells s) = core s :=
  core_dispatch ..

/-! ### Larder cells -/

theorem core_takeCellFrom {sh tc n : Nat} {x : Nat × State} (h : takeCellFrom sh tc n s = some x) : core x.2 = core s := by
  obtain ⟨c, -, rfl⟩ := Option.map_eq_some_iff.1 h
  rfl

theorem core_takeFrom {sh tc n : Nat} {x : List Nat × State} (h : takeFrom sh tc n s = some x) : core x.2 = core s := by
  induction n generalizing s x with
  | zero => cases h; rfl
  | succ n ih =>
    unfold takeFrom at h
    split at h
    · obtain ⟨y, took, rest⟩ := Option.bind_eq_some_iff.1 h
      obtain ⟨z, more, rfl⟩ := Option.map_eq_some_iff.1 rest
      exact (ih more).trans (core_takeCellFrom took)
    · cases h

theorem core_takeCells {tc n k : Nat} {x : List Nat × State} (h : takeCells tc n k s = some x) : core x.2 = core s := by
  induction k generalizing s x with
  | zero => cases h; rfl
  | succ k ih =>
    obtain ⟨sh, -, h⟩ := Option.bind_eq_some_iff.1 h
    obtain ⟨y, took, rest⟩ := Option.bind_eq_some_iff.1 h
    obtain ⟨z, more, rfl⟩ := Option.map_eq_some_iff.1 rest
    exact (ih more).trans (core_takeCellFrom took)

@[simp] theorem core_protoCell (tc : Nat) (s : State) : core (protoCell tc s).2 = core s := by
  unfold protoCell
  cases took : takeFrom (backShare s) tc 1 s with
  | none => rfl
  | some x => exact core_takeFrom took

@[simp] theorem core_doneReading (cs : List Nat) (s : State) : core (doneReading cs s) = core s := rfl

@[simp] theorem core_moreReaders (cs : List Nat) (s : State) : core (moreReaders cs s) = core s := rfl

@[simp] theorem core_charge (b c e : Nat) (s : State) : core (charge b c e s) = core s := rfl

@[simp] theorem core_send0 (opc : Opc) (dst : HubId) (h : Hdr) (s : State) (caused : Bool) : core (send0 opc dst h s caused) = core s := by
  unfold send0
  split
  · exact (core_send ..).trans (core_protoCell ..)
  · exact core_send ..

/-! ### Filter, directory and cache state -/

@[simp] theorem core_hfPut (l : LineAddr) (e : HfEnt) (s : State) : core (hfPut l e s) = core s := by
  unfold hfPut
  extract_lets e'
  split
  · rfl
  · split
    · rfl
    · split
      · exact core_count ..
      · rfl

@[simp] theorem core_hfClear (l : LineAddr) (p : Nat) (s : State) : core (hfClear l p s) = core s := core_hfPut ..

@[simp] theorem core_hfRecord (l : LineAddr) (p : Nat) (hx : Bool) (s : State) : core (hfRecord l p hx s) = core s := core_hfPut ..

@[simp] theorem core_hfSetSt (l : LineAddr) (st : St) (s : State) : core (hfSetSt l st s) = core s := core_hfPut ..

@[simp] theorem core_dirPut (l : LineAddr) (e : DirEnt) (s : State) : core (dirPut l e s) = core s := by
  unfold dirPut
  split
  · split <;> rfl
  · split
    · rfl
    · split
      · exact core_count ..
      · rfl

@[simp] theorem core_setBusy (l : LineAddr) (b : Bool) (s : State) : core (setBusy l b s) = core s := apply_ite_same core rfl (core_dirPut ..)

@[simp] theorem core_setWaySt (k : Nat) (l : LineAddr) (st : St) (s : State) : core (setWaySt k l st s) = core s := by
  unfold setWaySt
  exact apply_ite_same core rfl rfl

@[simp] theorem core_setCacheSt (l : LineAddr) (st : St) (s : State) : core (setCacheSt l st s) = core s := by
  unfold setCacheSt
  split
  · rfl
  · exact core_setWaySt ..

@[simp] theorem core_unwatch (u a : Nat) (s : State) : core (unwatch u a s) = core s := by
  unfold unwatch
  exact apply_ite_same core rfl rfl

@[simp] theorem core_setCacheData (l : LineAddr) (d : Data) (s : State) : core (setCacheData l d s) = core s := by
  unfold setCacheData
  split
  · rfl
  · exact core_unwatch ..

@[simp] theorem core_dropLine (l : LineAddr) (s : State) : core (dropLine l s) = core s := (core_hfSetSt ..).trans (core_setCacheSt ..)

@[simp] theorem core_drainOf (p : LineAddr → Bool) (s : State) : core (drainOf p s) = core s := rfl

@[simp] theorem core_drainAll (s : State) : core (drainAll s) = core s := rfl

@[simp] theorem core_awaitWt (op : Nat) (l : LineAddr) (n : Nat) (s : State) : core (awaitWt op l n s) = core s := apply_ite_same core rfl rfl

@[simp] theorem core_heldForCells (c : Nat) (s : State) : core (heldForCells c s) = core s := apply_ite_same core rfl (core_fire ..)

/-! ### Answers to demands -/

@[simp] theorem core_ownDone (d : Demand) (s : State) : core (ownDone d s) = core s := apply_ite_same core rfl (core_setBusy ..)

@[simp] theorem core_answerFence (f : Fence) (s : State) : core (answerFence f s) = core s := core_send0 ..

@[simp] theorem core_numberDone (id : Nat) (s : State) (cel : List Nat) : core (numberDone id s cel) = core s := by
  unfold numberDone
  split
  · rfl
  · exact foldl_frame core (fun _ _ => core_answerFence ..) ..

@[simp] theorem core_writeDone (d : Demand) (s : State) : core (writeDone d s) = core s := core_numberDone ..

@[simp] theorem core_sampleDone (d : Demand) (pz : Bool) (s : State) : core (sampleDone d pz s) = core s := by
  unfold sampleDone
  split
  · rfl
  · extract_lets w q _ t
    have posted : core t = core s := core_post ..
    exact apply_ite_same core posted ((core_fire ..).trans posted)

@[simp] theorem core_answerHost (d : Demand) (a : HostAns) (s : State) : core (answerHost d a s) = core s :=
  (core_toHost ..).trans ((core_ownDone ..).trans (core_sampleDone ..))

@[simp] theorem core_answerWrite (d : Demand) (s : State) : core (answerWrite d s) = core s := by
  unfold answerWrite
  split <;> simp

@[simp] theorem core_slotDone (p n code : Nat) (old : BitVec 128) (s : State) : core (slotDone p n code old s) = core s := by
  unfold slotDone
  extract_lets key
  split
  · rfl
  · exact apply_ite_same core (core_post ..) rfl

@[simp] theorem core_answerAtom (d : Demand) (code : Nat) (old : BitVec 128) (s : State) : core (answerAtom d code old s) = core s := by
  unfold answerAtom
  split <;> simp

@[simp] theorem core_recordRead (d : Demand) (s : State) : core (recordRead d s).2 = core s := by
  unfold recordRead
  extract_lets l
  split <;> simp

@[simp] theorem core_openKeep (l : LineAddr) (s : State) : core (openKeep l s) = core s := apply_ite_same core rfl rfl

@[simp] theorem core_hbmQueue (k : Nat) (op : HbmOp) (s : State) : core (hbmQueue k op s) = core s := rfl

@[simp] theorem core_enqueueAll (l : List (Nat × Waiter)) (s : State) : core (l.foldl (fun s o => enqueue o.1 o.2 s) s) = core s :=
  foldl_frame core (fun _ _ => core_enqueue ..) l s

@[simp] theorem core_fromCache (l : LineAddr) (outs : List (Nat × Waiter)) (d : Option Demand) (s : State) : core (fromCache l outs d s) = core s := by
  unfold fromCache
  split
  · exact apply_ite_same core (core_hbmQueue ..) (core_enqueueAll ..)
  · exact core_enqueueAll ..

@[simp] theorem core_answerRead (d : Demand) (data : Data) (cache rec : Bool) (s : State) : core (answerRead d data cache rec s) = core s := by
  unfold answerRead
  extract_lets b w x s1 s2 outs s3 outs'
  have h1 : core s1 = core s := by
    refine (core_ownDone ..).trans ((core_sampleDone ..).trans ?_)
    exact apply_ite_same (fun x : Bool × State => core x.2) (core_recordRead ..) rfl
  have h2 : core s2 = core s := apply_ite_same core ((core_openKeep ..).trans h1) h1
  have h3 : core s3 = core s := apply_ite_same core ((core_doneReading ..).trans h2) h2
  exact apply_ite_same core ((core_fromCache ..).trans h3) ((core_enqueueAll ..).trans h3)

@[simp] theorem core_answerDead (d : Demand) (code : Nat) (s : State) : core (answerDead d code s) = core s := by
  unfold answerDead
  split <;> simp

@[simp] theorem core_answerNoRoute (d : Demand) (s : State) : core (answerNoRoute d s) = core s := (core_answerDead ..).trans (core_fire ..)

/-! ### The cellar path and miss registers -/

@[simp] theorem core_lostWrite (id : Nat) (s : State) : core (lostWrite id s) = core s := rfl

@[simp] theorem core_markDirty (s : State) : core (markDirty s) = core s := rfl

@[simp] theorem core_notPersisted (op : Nat) (s : State) : core (notPersisted op s) = core s := rfl

@[simp] theorem core_cellarPut (l : LineAddr) (d : Data) (mask : BitVec 64) (s : State) (cells : List Nat) (ent : Option Word) (drain : Bool)
    (cls : Option (Nat × Nat)) : core (cellarPut l d mask s cells ent drain cls) = core s := by
  unfold cellarPut
  extract_lets n cel s1 s2
  have h1 : core s1 = core s := rfl
  split
  · have h2 : core s2 = core s := (core_fire ..).trans h1
    exact apply_ite_same core h2 h2
  · split
    · exact (core_fire ..).trans h1
    · exact apply_ite_same core ((core_fire ..).trans h1) h1

@[simp] theorem core_cellarWrite (l : LineAddr) (d : Data) (mask : BitVec 64) (s : State) (cells : List Nat) (ent : Option Word)
    (cls : Option (Nat × Nat)) : core (cellarWrite l d mask s cells ent cls) = core s := core_cellarPut ..

@[simp] theorem core_cellarRead (l : LineAddr) (dest : CelTo) (s : State) (cells : List Nat) (ent : Option Word) : core (cellarRead l dest s cells ent) = core s := rfl

@[simp] theorem core_cellarBack (l : LineAddr) (d : Data) (tc e : Nat) (s : State) : core (cellarBack l d tc e s) = core s :=
  (core_cellarWrite ..).trans (core_protoCell ..)

@[simp] theorem core_wait (w : Why) (d : Demand) (s : State) : core (wait w d s) = core s := rfl

@[simp] theorem core_mrPut (n : Nat) (m : MissReg) (s : State) : core (mrPut n m s) = core s := rfl

@[simp] theorem core_noteHome (p : Nat) (ids : List Nat) (h : HubId) (s : State) : core (noteHome p ids h s) = core s := rfl

@[simp] theorem core_noteSent (d : Demand) (h : HubId) (s : State) : core (noteSent d h s) = core s := apply_ite_same core rfl rfl

@[simp] theorem core_sendMr (n : Nat) (m : MissReg) (s : State) (cells : List Nat) : core (sendMr n m s cells) = core s := by
  unfold sendMr
  extract_lets h full
  split
  · rfl
  · exact core_send ..
  · split
    · split
      · exact core_send ..
      · rfl
    · rfl
  · exact core_send0 ..

/-- A miss register that is opened, sends its request or waits. -/
@[simp] theorem core_openMr (k : MrKind) (d : Demand) (f : MissReg → MissReg) (s : State) : core (openMr k d f s) = core s := by
  unfold openMr
  extract_lets l pf
  split
  · exact core_answerNoRoute ..
  · split
    · exact core_count ..
    · split
      · rfl
      next fc s' took =>
        have h1 : core s' = core s := by
          split at took
          · exact core_takeCells took
          · cases took
            rfl
        extract_lets m c m' s2 s3
        have h2 : core s2 = core s := apply_ite_same core ((core_moreReaders ..).trans h1) h1
        have h3 : core s3 = core s := (core_count ..).trans ((core_mrPut ..).trans h2)
        exact apply_ite_same core h3 ((core_sendMr ..).trans (apply_ite_same core ((core_noteSent ..).trans h3) h3))

/-! ### Lines cleaned and released -/

@[simp] theorem core_admitClean (op : Nat) (l : LineAddr) (s : State) : core (admitClean op l s).2 = core s := by
  unfold admitClean
  extract_lets tc b e given
  have kept : ∀ (x : Option (List Nat × State)) (no : State), (∀ y, x = some y → core y.2 = core s) → core no = core s → core (given x no).2 = core s := by
    intro x no taken refused
    cases x with
    | none => exact refused
    | some y => exact taken y rfl
  split
  · exact kept _ _ (fun _ => core_takeFrom) rfl
  · split
    · split
      · exact core_count ..
      · refine kept _ _ (fun y some_cells => ?_) (core_heldForCells ..)
        obtain ⟨x, took, rfl⟩ := Option.map_eq_some_iff.1 some_cells
        exact (core_charge b tc e x.2).trans (core_takeCells took)
    · split
      · rfl
      · exact kept _ _ (fun _ => core_takeCells) rfl

@[simp] theorem core_cleanNow (op : Nat) (l : LineAddr) (s : State) : core (cleanNow op l s) = core s := by
  unfold cleanNow
  have admitted : ∀ {x : Option (List Nat) × State}, admitClean op l s = x → core x.2 = core s := by
    rintro x rfl
    exact core_admitClean ..
  split
  · rfl
  · split
    · split
      · rfl
      · split
        · rfl
        · split
          · rfl
          · split
            next cs s' some_cells => exact (core_setCacheSt ..).trans ((core_cellarWrite ..).trans (admitted some_cells))
            next s' no_cells => exact (core_awaitWt ..).trans (admitted no_cells)
    · split
      · exact core_awaitWt ..
      · split
        · exact core_awaitWt ..
        · split
          · exact core_awaitWt ..
          · split
            next s' no_cells => exact (core_awaitWt ..).trans (admitted no_cells)
            next cs s' some_cells => exact (core_openMr ..).trans ((core_awaitWt ..).trans (admitted some_cells))

/-! ### Snoops of hosts -/

@[simp] theorem core_sendBi (l : LineAddr) (kind p tc e : Nat) (hpa : Hpa) (s : State) : core (sendBi l kind p tc e hpa s) = core s :=
  (core_count ..).trans ((core_count ..).trans (core_toHost ..))

@[simp] theorem core_snoopHost (l : LineAddr) (kind p tc e : Nat) (s : State) : core (snoopHost l kind p tc e s).1 = core s := by
  unfold snoopHost
  split
  · exact core_hfClear ..
  · split
    · exact (core_fire ..).trans (core_hfClear ..)
    · split
      · rfl
      · exact core_sendBi ..

@[simp] theorem core_snoopHosts (l : LineAddr) (kind tc e : Nat) (ps : List Nat) (s : State) : core (snoopHosts l kind tc e ps s).1 = core s := by
  induction ps generalizing s with
  | nil => rfl
  | cons p ps ih => exact (ih _).trans (core_snoopHost ..)

/-- Hosts are snooped before what goes on goes on. -/
theorem core_withHosts {k : State → State} (goes_on : ∀ s, core (k s) = core s) (l : LineAddr) (kind : Nat) (hosts : List Nat) (tc e : Nat) (c : Cont)
    (s : State) (dirty : Option Data) : core (withHosts l kind hosts tc e c k s dirty) = core s := by
  unfold withHosts
  extract_lets x t
  have snooped : core x.1 = core s := core_snoopHosts ..
  exact apply_ite_same core ((goes_on _).trans snooped) ((core_hfPut ..).trans snooped)

@[simp] theorem core_cleanLine (op : Nat) (s : State) (l : LineAddr) : core (cleanLine op s l) = core s := core_withHosts (core_cleanNow op l) ..

@[simp] theorem core_releaseNow (l : LineAddr) (tc e : Nat) (dirty : Option Data) (s : State) : core (releaseNow l tc e dirty s) = core s := by
  unfold releaseNow
  extract_lets st data isM s1 k x s2 h
  have h1 : core s1 = core s := core_dropLine ..
  have hx : core x.2 = core s := apply_ite_same (fun x : List Nat × State => core x.2) ((core_protoCell ..).trans h1) h1
  have h2 : core s2 = core s := hx
  split
  · exact (core_setCacheData ..).trans (core_setCacheSt ..)
  · split
    · exact apply_ite_same core ((core_cellarBack ..).trans h1) h1
    · split
      · exact h1
      · split
        · exact (core_count ..).trans ((core_send ..).trans ((core_moreReaders ..).trans h2))
        · exact (core_count ..).trans ((core_send0 ..).trans h2)

@[simp] theorem core_release (l : LineAddr) (tc e : Nat) (dirty : Option Data) (s : State) : core (release l tc e dirty s) = core s := by
  unfold release
  split
  · extract_lets present s1
    show core s1 = core s
    unfold s1
    split
    · exact apply_ite_same core ((core_setCacheData ..).trans (core_setCacheSt ..)) (core_hfSetSt ..)
    · rfl
  · exact core_releaseNow ..

@[simp] theorem core_releaseHosts (l : LineAddr) (tc e : Nat) (s : State) (dirty : Option Data) : core (releaseHosts l tc e s dirty) = core s :=
  core_withHosts (core_release l tc e dirty) ..

@[simp] theorem core_flushLines (cause : Nat) (s : State) : core (flushLines cause s) = core s := by
  unfold flushLines
  split
  · rfl
  · extract_lets own s1
    have h1 : core s1 = core s := foldl_frame core (core_cleanLine 0) ..
    exact apply_ite_same core h1 ((foldl_frame core (fun s l => core_releaseHosts l 7 (epochNow s) s none) ..).trans h1)

/-! ### Blocks written back -/

@[simp] theorem core_eraseKeys (s : State) : core (eraseKeys s) = core s := rfl

/-- A seal halt's end: keys erased, the shutdown state dirty. -/
theorem core_halted (s : State) (cause : Nat) : core (markDirty { eraseKeys s with halted := some cause }) = core s := rfl

theorem core_withSl (s : State) (x : Seal) : core { s with sl := x } = core s := rfl

theorem core_withCel (s : State) (x : Cel) : core { s with cel := x } = core s := rfl

@[simp] theorem core_sealHalt (cause port la : Nat) (s : State) : core (sealHalt cause port la s) = core s := by
  unfold sealHalt
  split
  · rfl
  · extract_lets o s1 s2 s3 s4
    have h1 : core s1 = core s := (core_wr ..).trans ((core_wr ..).trans (core_wrFld ..))
    have h2 : core s2 = core s := (core_tallyAuto ..).trans ((core_fire ..).trans h1)
    have h3 : core s3 = core s := (foldl_frame core (fun _ _ => core_emit ..) ..).trans h2
    exact (core_halted s3 cause).trans h3

@[simp] theorem core_putBlk (level idx : Nat) (b : SealBlk) (s : State) : core (putBlk level idx b s) = core s := rfl

@[simp] theorem core_setCtr (level idx v : Nat) (s : State) : core (setCtr level idx v s) = core s := by
  unfold setCtr
  split
  · rfl
  · split <;> rfl

@[simp] theorem core_writeMeta_ (level index : Nat) (mirror : Bool) (bits : LineBits) (s : State) : core (writeMeta_ level index mirror bits s) = core s := rfl

@[simp] theorem core_writeBlk (level idx : Nat) (s : State) : core (writeBlk level idx s) = core s := by
  unfold writeBlk
  split
  · rfl
  next b _ =>
    extract_lets c bits s1 k _ s2 s3 s4 s5
    have h1 : core s1 = core s := (core_setCtr ..).trans (core_putBlk ..)
    have h2 : core s2 = core s := (core_withSl s1 _).trans h1
    have h3 : core s3 = core s := (core_writeMeta_ ..).trans h2
    have h4 : core s4 = core s := apply_ite_same core ((core_writeMeta_ ..).trans h3) h3
    have h5 : core s5 = core s := (core_count ..).trans h4
    exact apply_ite_same core (core_sealHalt ..) (apply_ite_same core h5 ((core_withCel s5 _).trans h5))

@[simp] theorem core_writeBack_ (level idx : Nat) (s : State) : core (writeBack_ level idx s) = core s := by
  unfold writeBack_
  split
  · rfl
  · extract_lets k
    split
    · rfl
    · split
      · exact apply_ite_same core rfl rfl
      · exact core_writeBlk ..

@[simp] theorem core_flushBlocks (s : State) : core (flushBlocks s) = core s :=
  foldl_frame core (fun _ _ => foldl_frame core (fun _ _ => core_writeBack_ ..) ..) ..

/-- The work of a flush leaves the part, the power state, admission, time and control. -/
@[simp] theorem core_flushGo (s : State) : core (flushGo s) = core s := by
  unfold flushGo
  extract_lets c s1
  have h1 : core s1 = core s := core_flushLines ..
  exact apply_ite_same core ((core_flushBlocks ..).trans h1) h1

/-! ### A hub that reports itself -/

@[simp] theorem core_saveRoot (s : State) : core (saveRoot s) = core s := apply_ite_same core rfl rfl

end Sys2Proof.Machine
end

section
/-! PROOFS. Warm resets (R290, R331, R554, R559): how they begin, what an abandoned or ended flush leaves, and readiness. -/

namespace Sys2Proof.Machine

variable {s : State}

/-! ### Writes of squares -/

/-- What writes of squares leave beside the Boards: the part and the hub cache. -/
def partCache (s : State) : Part × Hc := (s.part, s.hc)

theorem partCache_recompute (b : Nat) (s : State) : partCache (recompute b s) = partCache s := by
  have set : ∀ v, partCache (setAdm b v s) = partCache s := fun v => by
    unfold setAdm
    exact apply_ite_same partCache rfl rfl
  unfold recompute
  exact apply_ite_same partCache rfl (set _)

theorem partCache_applySquare (b q v : Nat) (s : State) : partCache (applySquare b q v s) = partCache s := by
  unfold applySquare
  split
  · rfl
  · exact partCache_recompute ..

theorem partCache_fire (n c : Nat) (o : Obj) (s : State) : partCache (fire n c o s) = partCache s := by simp [partCache]

theorem partCache_writeSquare (b q v : Nat) (s : State) : partCache (writeSquare b q v s) = partCache s := by
  unfold writeSquare
  extract_lets v' old _ s1 s2 _ s3
  have h2 : partCache s2 = partCache s := apply_ite_same partCache rfl rfl
  have h3 : partCache s3 = partCache s := apply_ite_same partCache h2 ((partCache_applySquare ..).trans h2)
  exact apply_ite_same partCache rfl ((partCache_fire ..).trans h3)

theorem partCache_tally (orig kind res : Nat) (tg old new aux : Word) (s : State) : partCache (tally orig kind res tg old new aux s) = partCache s := by
  simp [partCache]

theorem partCache_boardWrite (orig : Nat) (l : List (Nat × Nat × Word)) (s : State) : partCache (boardWrite orig l s) = partCache s := by
  refine foldl_frame partCache (fun s x => ?_) l s
  exact apply_ite_same partCache (partCache_tally ..) ((partCache_tally ..).trans (partCache_writeSquare ..))

theorem partCache_retrainBoard (n : Nat) (s : State) : partCache (retrainBoard n s) = partCache s := partCache_boardWrite ..

/-! ### How a warm reset begins and ends -/

theorem beginReset_ready (hub : Bool) (cause : Nat) (ready : s.part.phase = .ready) : beginReset hub cause s =
    { s with part := { s.part with phase := .flush hub }, ports := { s.ports with closed := true }, pwr := { s.pwr with cause := cause } } := by
  simp only [beginReset, ready]

theorem opPerstAssert_ready (unhalted : s.halted = none) (ready : s.part.phase = .ready) : opPerstAssert s =
    flushGo (beginReset false 1 { s with part := { s.part with perstN := false }, cel := { s.cel with lost := false } }) := by
  simp only [opPerstAssert, ready, unhalted]
  rfl

theorem opPerstAssert_resetting {hub : Bool} (unhalted : s.halted = none) (reset : s.part.phase = .resetting hub) : opPerstAssert s =
    wr aGlStat 1 { s with part := { s.part with perstN := false, phase := .resetting false } } := by
  simp only [opPerstAssert, reset, unhalted]
  rfl

/-- What still resets is ready again once its time has come (R554). -/
theorem opWarmResetReady_partCache {hub : Bool} (unhalted : s.halted = none) (reset : s.part.phase = .resetting hub)
    (released : hub = true ∨ s.part.perstN = true) :
    partCache (opWarmResetReady s) = ({ s.part with phase := .ready }, s.hc) := by
  have go : ¬(s.halted.isSome || (!hub && !s.part.perstN)) = true := by rcases released with h | h <;> simp [unhalted, h]
  have again : partCache (readyAgain hub s) = ({ s.part with phase := .ready }, s.hc) := by simp [partCache, readyAgain]
  unfold opWarmResetReady
  rw [reset]
  refine (congrArg partCache (if_neg go)).trans ?_
  exact (foldl_frame partCache (fun _ _ => partCache_retrainBoard ..) _ (readyAgain hub s)).trans again

/-! ### A hub that reports itself -/

/-- What a report of this hub's own death leaves: flash, and what no work on lines changes. -/
def flashCore (s : State) : Flash × (Part × Pwr × Bool × Time × Ctl × List BgTask × List HubId × Nat) := (s.flash, core s)

theorem of_flashCore {s t : State} (h : flashCore t = flashCore s) : t.flash = s.flash ∧ core t = core s := Prod.ext_iff.1 h

theorem flashCore_sendMgt (opc : Opc) (dst : HubId) (x len : Nat) (d : BitVec 512) (s : State) (cells : List Nat) :
    flashCore (sendMgt opc dst x len d s cells) = flashCore s :=
  Prod.ext (flash_of_beyond (beyondMb_of_past (past_sendMgt ..))) (core_sendMgt ..)

theorem flashCore_reportDeath (h : HubId) (cause : Nat) (s : State) : flashCore (reportDeath h cause s) = flashCore s := by
  unfold reportDeath
  split
  · unfold rootDeclare
    split
    · rfl
    · exact foldl_frame flashCore (fun _ _ => flashCore_sendMgt ..) ..
  · split
    · exact flashCore_sendMgt ..
    · rfl

/-- Messages that pass through leave the output buffers (R331): nothing but Boards and Larder cells changes. -/
theorem dropTransit_frame {γ : Type} (g : State → γ) (boards : ∀ s b, g { s with brd := b } = g s) (cells : ∀ s l, g { s with lar := l } = g s) (s : State) :
    g (dropTransit s) = g s := by
  refine foldl_frame g (fun s q => ?_) _ s
  exact apply_ite_same g ((cells _ _).trans (boards _ _)) rfl

theorem rd_dropTransit (s : State) (a : Nat) : rd (dropTransit s) a = rd s a :=
  dropTransit_frame (fun s => rd s a) (fun _ _ => rd_congr rfl rfl a) (fun _ _ => rd_congr rfl rfl a) s

theorem flashCore_reportSelf (s : State) : flashCore (reportSelf s) = flashCore s :=
  (dropTransit_frame flashCore (fun _ _ => rfl) (fun _ _ => rfl) _).trans (flashCore_reportDeath ..)

theorem fbStat_reportSelf (s : State) : rdFld (reportSelf s) aFbStat 0 2 = 3 := by
  rw [reportSelf, rdFld, rd_dropTransit, rd_wrFld_self, fld_setFld_self _ _ _ _ (by decide)]
  rfl

/-! ### What a reset clears -/

/-- What a hub reset empties, and the shutdown state that it keeps. -/
def emptied (s : State) : SMap HfEnt × SMap DirEnt × List EvEnt × Bool := (s.hf, s.dir, s.hc.evt, s.flash.dirty)

theorem of_emptied {t : State} {hf : SMap HfEnt} {dir : SMap DirEnt} {evt : List EvEnt} {dirty : Bool} (h : emptied t = (hf, dir, evt, dirty)) :
    t.hf = hf ∧ t.dir = dir ∧ t.hc.evt = evt ∧ t.flash.dirty = dirty := by
  simpa [emptied] using h

theorem emptied_wr (a : Nat) (v : Word) (s : State) : emptied (wr a v s) = emptied s := rfl

theorem emptied_wrFld (a lo n v : Nat) (s : State) : emptied (wrFld a lo n v s) = emptied s := rfl

theorem emptied_restoreRoot (s : State) : emptied (restoreRoot s) = emptied s := by
  unfold restoreRoot
  split
  · rfl
  next r _ =>
    extract_lets s1 s2
    have h1 : emptied s1 = emptied s := foldl_frame emptied (fun _ _ => emptied_wr ..) ..
    have h2 : emptied s2 = emptied s1 := rfl
    exact h2.trans h1

theorem emptied_linksDown (s : State) : emptied (linksDown s) = emptied s :=
  foldl_frame emptied (fun _ _ => apply_ite_same emptied rfl (emptied_wr ..)) ..

theorem emptied_unverify (s : State) : emptied (unverify s) = emptied s :=
  foldl_frame emptied (fun _ _ => apply_ite_same emptied (emptied_wrFld ..) rfl) ..

theorem emptied_takeSetting (p : Nat) (s : State) : emptied (takeSetting p s) = emptied s := rfl

theorem emptied_seedDies (s : State) : emptied (seedDies s) = emptied s := by
  unfold seedDies
  apply foldl_frame emptied
  exact fun _ _ => rfl

theorem flash_freeRx (x : RxMsg) (s : State) : (freeRx x s).flash = s.flash := by
  unfold freeRx
  exact apply_ite_same State.flash rfl rfl

theorem emptied_hubCleared (hub : Bool) (s : State) : emptied (hubCleared hub s) = ([], [], [], s.flash.dirty) := by
  unfold hubCleared
  extract_lets s1 stat idle z ways part time hc hst sl prot pwr t t1 t2 t3 t4
  have h0 : s1.flash = s.flash := foldl_frame State.flash (fun _ _ => flash_freeRx ..) ..
  have ht : emptied t = ([], [], [], s.flash.dirty) := congrArg (fun f : Flash => (([], [], [], f.dirty) : SMap HfEnt × SMap DirEnt × List EvEnt × Bool)) h0
  have h1 : emptied t1 = emptied t := (emptied_wrFld ..).trans ((emptied_wrFld ..).trans ((emptied_linksDown ..).trans (emptied_unverify t)))
  have h2 : emptied t2 = emptied t1 := foldl_frame emptied (fun _ _ => emptied_takeSetting ..) ..
  have h3 : emptied t3 = emptied t2 := foldl_frame emptied (fun _ _ => emptied_wrFld ..) ..
  have h4 : emptied t4 = emptied t3 := emptied_wr ..
  rw [emptied_seedDies, emptied_restoreRoot, h4, h3, h2, h1, ht]

theorem hubCleared_empty (hub : Bool) (s : State) :
    (hubCleared hub s).hf = [] ∧ (hubCleared hub s).dir = [] ∧ (hubCleared hub s).hc.evt = [] ∧ (hubCleared hub s).flash.dirty = s.flash.dirty :=
  of_emptied (emptied_hubCleared hub s)

theorem hubCleared_dirty (hub : Bool) (s : State) : (hubCleared hub s).flash.dirty = s.flash.dirty := (hubCleared_empty hub s).2.2.2

/-! ### A planned reset reports itself first -/

/-- How a planned reset may end its flush: reset, or waiting for its own report to leave. -/
def ResetOrTold (hub : Bool) (t : State) : Prop :=
  t.part.phase = .resetting hub ∨ (t.part.phase = .flush hub ∧ rdFld t aFbStat 0 2 = 3 ∧ selfReportWaits t = true)

theorem endFlush_planned {hub : Bool} (planned : s.pwr.cause = 1 ∨ s.pwr.cause = 2) (untold : rdFld s aFbStat 0 2 ≠ 3) :
    endFlush hub s = if selfReportWaits (reportSelf s) then reportSelf s else hubCleared hub (reportSelf s) := by
  have first : (decide (s.pwr.cause = 1) || decide (s.pwr.cause = 2)) = true := by simpa using planned
  have silent : reportedSelf s = false := by simpa [reportedSelf] using untold
  unfold endFlush
  extract_lets p t
  have hp : p = true := first
  have ht : t = reportSelf s := if_pos (by rw [hp, silent]; rfl)
  rw [hp, ht, Bool.true_and]

theorem endFlush_planned_spec {hub : Bool} (flush : s.part.phase = .flush hub) (planned : s.pwr.cause = 1 ∨ s.pwr.cause = 2)
    (untold : rdFld s aFbStat 0 2 ≠ 3) : ResetOrTold hub (endFlush hub s) ∧ (endFlush hub s).flash.dirty = s.flash.dirty := by
  obtain ⟨flash_kept, core_kept⟩ := of_flashCore (flashCore_reportSelf s)
  have phase : (reportSelf s).part.phase = .flush hub := by rw [part_of_core core_kept, flush]
  have dirty : (reportSelf s).flash.dirty = s.flash.dirty := by rw [flash_kept]
  rw [endFlush_planned planned untold]
  split
  next waits => exact ⟨.inr ⟨phase, fbStat_reportSelf s, waits⟩, dirty⟩
  · exact ⟨.inl (hubCleared_phase ..), (hubCleared_dirty ..).trans dirty⟩

/-- A reset that was not planned, or that has reported itself, ends its flush in the reset. -/
theorem endFlush_clears {hub : Bool} (go : (s.pwr.cause ≠ 1 ∧ s.pwr.cause ≠ 2) ∨ (rdFld s aFbStat 0 2 = 3 ∧ selfReportWaits s = false)) :
    endFlush hub s = hubCleared hub s := by
  unfold endFlush
  extract_lets p t
  rcases go with ⟨h1, h2⟩ | ⟨told, left⟩
  · have hp : p = false := by simp [p, h1, h2]
    have ht : t = s := if_neg (by rw [hp]; simp)
    rw [hp, ht]
    rfl
  · have ht : t = s := if_neg (by simp [reportedSelf, told])
    rw [ht, left, Bool.and_false]
    rfl

/-! ### The end of a flush -/

/-- The root record, for a reset that keeps the metadata (R448). -/
def rootSaved (s : State) : State := if s.pwr.cause = 1 ∨ s.pwr.cause = 2 ∨ s.pwr.cause = 4 then saveRoot s else s

theorem rootSaved_eq (s : State) : ∃ f, rootSaved s = { s with flash := f } := by
  unfold rootSaved saveRoot
  split
  · split
    · exact ⟨s.flash, rfl⟩
    · exact ⟨_, rfl⟩
  · exact ⟨s.flash, rfl⟩

theorem rootSaved_kept (s : State) : (rootSaved s).part = s.part ∧ (rootSaved s).pwr = s.pwr ∧ rdFld (rootSaved s) aFbStat 0 2 = rdFld s aFbStat 0 2 ∧
    selfReportWaits (rootSaved s) = selfReportWaits s := by
  obtain ⟨f, saved⟩ := rootSaved_eq s
  rw [saved]
  exact ⟨rfl, rfl, rdFld_congr rfl rfl .., rfl⟩

theorem opResetFlushEnd_done {hub : Bool} (flush : s.part.phase = .flush hub) (done : flushDone (flushGo s) = true) :
    opResetFlushEnd s = endFlush hub (rootSaved (flushGo s)) := by
  simp only [opResetFlushEnd, flush, done]
  rfl

end Sys2Proof.Machine

namespace Sys2Proof

open Machine

/-- Settles O15: the flush leaves the phase, the cause and admission; what ends it clears the hub or reports it first. -/
theorem warmResets : Obligations.WarmResets := by
  intro s
  refine ⟨fun unhalted ready => ?_, fun hub unhalted reset => ?_, ⟨_, rfl, rfl⟩, fun hub unhalted reset released => ?_, fun hub run flush go => ?_,
    fun hub run flush planned untold => ?_, fun hub run flush done go => ?_, fun hub run flush done planned untold => ?_⟩
  · refine ⟨_, congrArg (fun z => Host.Outcome.next (follow z)) (opPerstAssert_ready unhalted ready), _, rfl, ?_⟩
    rw [beginReset_ready false 1 (s := { s with part := { s.part with perstN := false }, cel := { s.cel with lost := false } }) ready]
    exact ⟨rfl, rfl, rfl, rfl⟩
  · have stopped := opPerstAssert_resetting unhalted reset
    refine ⟨_, congrArg Host.Outcome.next ((congrArg follow stopped).trans (follow_stopped (by simp [running]))), rfl, rfl, rd_wr_self ..⟩
  · have kept := opWarmResetReady_partCache unhalted reset released
    have part : (opWarmResetReady s).part = { s.part with phase := .ready } := congrArg Prod.fst kept
    refine ⟨opWarmResetReady s, rfl, congrArg Part.phase part, congrArg Prod.snd kept, fun trained => ?_⟩
    rw [opWarmResetReady_eq unhalted reset released trained]
    simp [readyAgain]
  · refine ⟨_, (live_running run _ : execFlushTimeLimit s = _), ?_⟩
    rw [opFlushTimeLimit_eq flush go]
    obtain ⟨hf, dir, -, dirty⟩ := hubCleared_empty hub (markDirty s)
    exact ⟨hubCleared_phase .., dirty, hf, dir⟩
  · have told : reportedSelf s = false := by simpa [reportedSelf] using untold
    have ends : opFlushTimeLimit s = endFlush hub (markDirty s) := by simp only [opFlushTimeLimit, flush, told]; rfl
    obtain ⟨phase, dirty⟩ := endFlush_planned_spec (s := markDirty s) flush planned untold
    refine ⟨_, (live_running run _ : execFlushTimeLimit s = _), ?_⟩
    rw [ends]
    exact ⟨dirty, phase⟩
  · obtain ⟨-, pwr, told, waits⟩ := rootSaved_kept (flushGo s)
    refine ⟨_, (live_running run _ : execResetFlushEnd s = _), ?_⟩
    rw [opResetFlushEnd_done flush done, endFlush_clears (by rw [pwr, told, waits]; exact go)]
    obtain ⟨hf, -, evt, -⟩ := hubCleared_empty hub (rootSaved (flushGo s))
    exact ⟨hubCleared_phase .., hf, evt⟩
  · obtain ⟨part, pwr, told, -⟩ := rootSaved_kept (flushGo s)
    have phase : (rootSaved (flushGo s)).part.phase = .flush hub := by rw [part, part_of_core (core_flushGo s), flush]
    refine ⟨_, (live_running run _ : execResetFlushEnd s = _), ?_⟩
    rw [opResetFlushEnd_done flush done]
    exact (endFlush_planned_spec phase (by rw [pwr]; exact planned) (by rw [told]; exact untold)).1

end Sys2Proof
end

section
/-! PROOFS. Mailbox commands that start in the background, and those of resets and firmware (R290, R488, R492 to R496). -/

namespace Sys2Proof.Machine

variable {s : State} {mb : Mailbox}

/-! ### A command that is started -/

/-- What a command that is started leaves: its result, its background record and its answer. -/
def startEnd (mb opc tag : Nat) (inp : Word) (obj : Nat) (u : State) : State :=
  mbAnswer mb opc tag 1 0 [] (bgBegin mb opc tag obj (mbResult mb opc tag 0 1 0 inp [] u))

theorem mbRun_started {grp : Nat} (acc : MbAccepts s mb grp) (tag : BitVec 16) (opc : Nat) (changes back : Bool) {f : State → Ans × State} {obj : Nat}
    {u : State} (acts : f (opened mb s) = (.started obj, u)) :
    mbRun mb tag opc grp changes back f s = startEnd mb opc tag.toNat (mbInput mb s).1 obj u := by
  rw [mbRun_accepts acc, acts]
  rfl

theorem beyond_bgBegin (mb opc tag obj : Nat) (s : State) : beyondMb (bgBegin mb opc tag obj s) = beyondMb s := beyond_setBgStat ..

theorem rd_bgBegin {a : Nat} (off : OffMailbox a) (mb opc tag obj : Nat) (s : State) : rd (bgBegin mb opc tag obj s) a = rd s a :=
  (rd_setBgStat off ..).trans (rd_withCtl ..)

theorem setBgStat_bg (mb : Nat) (w : Word) (s : State) : (setBgStat mb w s).ctl.bg = s.ctl.bg :=
  apply_ite_same (fun s : State => s.ctl.bg) (congrArg Ctl.bg (wr_ctl ..)) rfl

theorem bgBegin_bg (mb opc tag obj : Nat) (s : State) : (bgBegin mb opc tag obj s).ctl.bg = mset s.ctl.bg mb ⟨opc, tag, obj⟩ := setBgStat_bg ..

theorem mbResult_bg (mb opc tag res rc rsn : Nat) (inp : Word) (out : List Word) (s : State) : (mbResult mb opc tag res rc rsn inp out s).ctl.bg = s.ctl.bg := by
  simp [mbResult]

theorem beyond_startEnd (mb opc tag : Nat) (inp : Word) (obj : Nat) (u : State) : beyondMb (startEnd mb opc tag inp obj u) = beyondMb u :=
  (beyondMb_of_past (past_mbAnswer ..)).trans ((beyond_bgBegin ..).trans (beyond_mbResult ..))

theorem rd_startEnd {a : Nat} (off : OffMailbox a) (mb opc tag : Nat) (inp : Word) (obj : Nat) (u : State) : rd (startEnd mb opc tag inp obj u) a = rd u a :=
  (rd_mbAnswer off ..).trans ((rd_bgBegin off ..).trans (rd_mbResult ..))

theorem sent_startEnd (mb opc tag : Nat) (inp : Word) (obj : Nat) (u : State) : Sent.mailbox mb 1 [] ∈ (startEnd mb opc tag inp obj u).out := sent_mbAnswer ..

theorem startEnd_bg (mb opc tag : Nat) (inp : Word) (obj : Nat) (u : State) : (startEnd mb opc tag inp obj u).ctl.bg = mset u.ctl.bg mb ⟨opc, tag, obj⟩ := by
  rw [startEnd, ctl_of_past (past_mbAnswer ..), bgBegin_bg, mbResult_bg]

/-! ### A command that starts and ends at once -/

theorem mbOnce_started {grp : Nat} (acc : MbAccepts s mb grp) (tag : BitVec 16) (opc rc : Nat) {f : State → Ans × State} {obj : Nat} {u : State}
    (acts : f (opened mb s) = (.started obj, u)) :
    mbOnce mb tag opc grp rc f s = bgEndOn mb ⟨opc, tag.toNat, obj⟩ rc (startEnd mb opc tag.toNat (mbInput mb s).1 obj u) := by
  obtain ⟨-, -, -, -, -, none_open⟩ := id acc
  unfold mbOnce
  rw [mbRun_started acc tag opc true true acts]
  extract_lets busy
  have idle : busy = false := by simp [busy, none_open]
  rw [idle, startEnd_bg, mget_mset_self]
  rfl

theorem beyond_once (mb opc tag rc : Nat) (inp : Word) (obj : Nat) (u : State) :
    beyondMb (bgEndOn mb ⟨opc, tag, obj⟩ rc (startEnd mb opc tag inp obj u)) = beyondMb u := (beyond_bgEndOn ..).trans (beyond_startEnd ..)

theorem rd_once {a : Nat} (off : OffMailbox a) (mb opc tag rc : Nat) (inp : Word) (obj : Nat) (u : State) :
    rd (bgEndOn mb ⟨opc, tag, obj⟩ rc (startEnd mb opc tag inp obj u)) a = rd u a := (rd_bgEndOn off ..).trans (rd_startEnd off ..)

/-- A background command that has ended is no longer open. -/
theorem bgEndOn_closed (mb : Nat) (b : BgCmd) (brc : Nat) (s : State) : mget (bgEndOn mb b brc s).ctl.bg mb = none := by
  unfold bgEndOn
  extract_lets w ctl s1 s2 s3
  have h1 : s1.ctl.bg = mdel s.ctl.bg mb := setBgStat_bg ..
  have h2 : s2.ctl.bg = mdel s.ctl.bg mb := (congrArg Ctl.bg (fireSeq_ctl ..)).trans h1
  have h3 : s3.ctl.bg = mdel s.ctl.bg mb := apply_ite_same (fun s : State => s.ctl.bg) h2 ((mbResult_bg ..).trans h2)
  rw [ctl_of_past (past_mbNotice ..), h3, mget_mdel_self]

/-! ### What of control stands beyond a mailbox -/

theorem unlocks_of_beyond {s t : State} (h : beyondMb t = beyondMb s) : t.ctl.unlocks = s.ctl.unlocks := by
  have kept := congrArg (fun u : State => u.ctl.unlocks) h
  exact kept

theorem staged_of_beyond {s t : State} (h : beyondMb t = beyondMb s) : t.ctl.staged = s.ctl.staged := by
  have kept := congrArg (fun u : State => u.ctl.staged) h
  exact kept

theorem act_of_beyond {s t : State} (h : beyondMb t = beyondMb s) : t.ctl.act = s.ctl.act := by
  have kept := congrArg (fun u : State => u.ctl.act) h
  exact kept

theorem act_restartBegun (s : State) : (restartBegun s).ctl.act = s.ctl.act := by
  simp [restartBegun]

theorem flash_restartBegun (s : State) : (restartBegun s).flash = s.flash := (fire_flash ..).trans (wrFld_flash ..)

theorem rd_foreground {a : Nat} (off : OffMailbox a) (l : List Nat) (hosts : ∀ p ∈ l, p < 16) (t : State) : rd (l.foldl (endForeground 5) t) a = rd t a := by
  induction l generalizing t with
  | nil => rfl
  | cons p l ih =>
    exact (ih (fun q hq => hosts q (List.mem_cons_of_mem _ hq)) _).trans (rd_endForeground off 5 t (hosts p (List.mem_cons_self ..)))

theorem rd_restartBegun (s : State) (a : Nat) : rd (restartBegun s) a = rd (wrFld aGlStat 3 1 1 s) a := (rd_withCtl ..).trans (rd_fire ..)

theorem rd_pelestRestart {a : Nat} (off : OffMailbox a) (s : State) : rd (pelestRestart s) a = rd (wrFld aGlStat 3 1 1 s) a := by
  rw [pelestRestart_eq]
  refine (foldl_frame (fun s => rd s a) (fun s (e : Nat × BgCmd) => rd_bgEndOn off e.1 e.2 0x12 s) _ _).trans ?_
  exact (rd_foreground off _ (fun p hp => List.mem_range.1 hp) _).trans (rd_restartBegun ..)

/-- Pelest's restart stands in GL_STAT (R488). -/
theorem restarting_pelestRestart (s : State) : rdBit (pelestRestart s) aGlStat 3 = true := by
  rw [rdBit, rd_pelestRestart (.inl (by decide))]
  exact rdBit_wrFld_self s 3 1 (by decide)

/-! ### Staging -/

/-- The slot that is not active, set (R492). -/
def stageSlot (f : Flash) (i : Option Image) : Flash := if f.actB then { f with slotA := i } else { f with slotB := i }

theorem stagePart_first {part : FwPart} (first : part.offset = 0) (more : part.last = false) (s : State) :
    stagePart part s = (0, { s with flash := stageSlot s.flash none, ctl := { s.ctl with staged := some 0 } }) := by
  simp only [stagePart, first, more]
  rfl

theorem stagePart_whole {part : FwPart} (first : part.offset = 0) (last : part.last = true) (good : part.verifies = true)
    (fresh : s.flash.minsv ≤ part.svn.toNat) :
    stagePart part s = (0, { s with flash := stageSlot s.flash (some ⟨part.version, part.svn⟩), ctl := { s.ctl with staged := none } }) := by
  simp only [stagePart, first, last, good, fresh]
  rfl

theorem actPending_opened (mb : Nat) (s : State) : actPending (opened mb s) = actPending s := by
  obtain ⟨free, parts, eq⟩ := opened_eq mb s
  rw [eq]
  rfl

theorem stagedReady_opened (mb : Nat) (s : State) : stagedReady (opened mb s) = stagedReady s := by
  obtain ⟨free, parts, eq⟩ := opened_eq mb s
  rw [eq]
  rfl

theorem flash_opened (mb : Nat) (s : State) : (opened mb s).flash = s.flash := by
  obtain ⟨free, parts, eq⟩ := opened_eq mb s
  rw [eq]

/-- A stage that is taken: flash and stage as the part leaves them, and no command open. -/
theorem stageOn_spec (acc : MbAccepts s mb 2) (tag : BitVec 16) (opc : Nat) (part : FwPart) (idle : actPending s = false) :
    ∃ t, stageOn mb tag opc part s = t ∧ t.flash = (stagePart part (opened mb s)).2.flash ∧ t.ctl.staged = (stagePart part (opened mb s)).2.ctl.staged ∧
      mget t.ctl.bg mb.val = none := by
  refine ⟨_, mbOnce_started acc tag opc _ (if_neg (by rw [actPending_opened, idle]; decide)), ?_, ?_, bgEndOn_closed ..⟩
  · exact flash_of_beyond (beyond_once ..)
  · exact staged_of_beyond (beyond_once ..)

theorem opFwStage_eq (ready : s.part.phase = .ready) (tag : BitVec 16) (part : FwPart) : opFwStage mb tag part s = stageOn mb tag 0xC010 part s :=
  if_neg (by simp [ready])

/-! ### Activation -/

/-- An activation that is begun restarts Pelest, which boots the other slot (R494). -/
theorem activateOn_spec (acc : MbAccepts s mb 2) (tag : BitVec 16) (opc : Nat) (ready : stagedReady s = true) :
    ∃ t, activateOn mb tag opc s = t ∧ t.ctl.act = some s.flash.actB ∧ rdBit t aGlStat 3 = true ∧ t.flash = s.flash := by
  refine ⟨_, mbRun_started acc tag opc true true (if_neg (by rw [stagedReady_opened, ready]; decide)), ?_, ?_, ?_⟩
  · rw [act_of_beyond (beyond_startEnd ..), act_of_beyond (beyond_pelestRestart _), act_restartBegun, flash_opened]
  · rw [rdBit, rd_startEnd (.inl (by decide))]
    exact restarting_pelestRestart _
  · rw [flash_of_beyond (beyond_startEnd ..), flash_of_beyond (beyond_pelestRestart _), flash_restartBegun, flash_opened]

/-- An activation put off to the next cold reset (R496). -/
theorem activateLater_spec (acc : MbAccepts s mb 2) (tag : BitVec 16) (opc : Nat) (ready : stagedReady s = true) :
    ∃ t, activateLater mb tag opc s = t ∧ t.flash = { s.flash with pend := true } ∧ rdBit t aGlStat 3 = rdBit s aGlStat 3 := by
  refine ⟨_, mbOnce_started acc tag opc 0 (if_neg (by rw [stagedReady_opened, ready]; decide)), ?_, ?_⟩
  · rw [flash_of_beyond (beyond_once ..), flash_opened]
  · rw [rdBit, rd_once (.inl (by decide)), rdBit]
    exact congrArg (bit · 3) ((rd_congr rfl rfl _).trans (rd_opened ..))

/-! ### Commit -/

/-- FW_COMMIT: the least version is at least that of the other slot (R495). -/
def committed (s : State) : State :=
  { s with flash := { s.flash with
    minsv := max s.flash.minsv (((if s.flash.actB then s.flash.slotB else s.flash.slotA).map fun i => i.svn.toNat).getD 0) } }

theorem opFwCommit_done (acc : MbAccepts s mb 2) (tag : BitVec 16) (idle : actPending s = false) :
    opFwCommit mb tag s = doneEnd mb 0xC012 tag.toNat (mbInput mb s).1 [] (committed (opened mb s)) := by
  unfold opFwCommit
  exact mbRun_done acc tag 0xC012 false (if_neg (by rw [actPending_opened, idle]; decide))

theorem opFwCommit_minsv (acc : MbAccepts s mb 2) (tag : BitVec 16) (idle : actPending s = false) :
    (opFwCommit mb tag s).flash.minsv =
      max s.flash.minsv (((if s.flash.actB then s.flash.slotB else s.flash.slotA).map fun i => i.svn.toNat).getD 0) := by
  rw [opFwCommit_done acc tag idle, flash_of_beyond (beyond_doneEnd ..), committed, flash_opened]

/-! ### Resets by command -/

/-- A hub reset by command begins with its flush (R554). -/
theorem opHubReset_spec (acc : MbAccepts s mb 2) (tag : BitVec 16) :
    ∃ u, opHubReset mb tag s = u ∧ Sent.mailbox mb 1 [] ∈ u.out ∧ u.part.phase = .flush true ∧ u.pwr.cause = 2 ∧ u.ports.closed = true := by
  obtain ⟨⟨-, ready⟩, -⟩ := id acc
  obtain ⟨free, parts, eq⟩ := opened_eq mb s
  have ready' : (opened mb s).part.phase = .ready := by rw [eq]; exact ready
  refine ⟨_, mbRun_started acc tag 0xC003 true true rfl, sent_startEnd .., ?_, ?_, ?_⟩
  · rw [part_of_beyond (beyond_startEnd ..), part_of_core (core_flushGo _), beginReset_ready]
    exact ready'
  · rw [pwr_of_beyond (beyond_startEnd ..), pwr_of_core (core_flushGo _), beginReset_ready]
    exact ready'
  · rw [ports_of_beyond (beyond_startEnd ..), closed_of_core (core_flushGo _), beginReset_ready]
    exact ready'

theorem opPelestRestart_done (acc : MbAccepts s mb 2) (tag : BitVec 16) :
    opPelestRestart mb tag s = doneEnd mb 0xC004 tag.toNat (mbInput mb s).1 [] (pelestRestart (opened mb s)) := mbRun_done acc tag 0xC004 false rfl

theorem opPelestRestart_spec (acc : MbAccepts s mb 2) (tag : BitVec 16) :
    rdBit (opPelestRestart mb tag s) aGlStat 3 = true ∧ (opPelestRestart mb tag s).ctl.unlocks = [] ∧ (opPelestRestart mb tag s).hc = s.hc ∧
      (opPelestRestart mb tag s).sl = s.sl := by
  obtain ⟨free, parts, eq⟩ := opened_eq mb s
  have hc : (opened mb s).hc = s.hc := by rw [eq]
  have sl : (opened mb s).sl = s.sl := by rw [eq]
  rw [opPelestRestart_done acc tag]
  have beyond := beyond_doneEnd mb 0xC004 tag.toNat (mbInput mb s).1 [] (pelestRestart (opened mb s))
  refine ⟨?_, ?_, ?_, ?_⟩
  · rw [rdBit, rd_doneEnd (.inl (by decide))]
    exact restarting_pelestRestart _
  · rw [unlocks_of_beyond beyond, pelestRestart_unlocks]
  · rw [hc_of_beyond beyond, pelestRestart_hc, hc]
  · rw [sl_of_beyond beyond, pelestRestart_sl, sl]

end Sys2Proof.Machine

namespace Sys2Proof

open Machine

/-- Settles O33: each command by what it does to the opened block; its result, its record and its answer leave flash and control. -/
theorem firmwareCommands : Obligations.FirmwareCommands := by
  intro s mb tag acc
  obtain ⟨⟨-, ready⟩, -⟩ := id acc
  refine ⟨?_, ?_, fun idle part first more => ?_, fun idle part first last good fresh => ?_, fun staged => ⟨?_, ?_⟩, fun idle => ?_⟩
  · obtain ⟨u, run, spec⟩ := opHubReset_spec acc tag
    exact ⟨u, congrArg (fun z => Host.Outcome.next (follow z)) run, spec⟩
  · exact ⟨_, rfl, opPelestRestart_spec acc tag⟩
  · obtain ⟨t, run, flash, stage, closed⟩ := stageOn_spec acc tag 0xC010 part idle
    obtain ⟨t', run', flash', -, -⟩ := stageOn_spec acc tag 0x0201 part idle
    have stage_run : opFwStage mb tag part s = t := (opFwStage_eq ready tag part).trans run
    rw [stagePart_first first more] at flash stage flash'
    refine ⟨t, t', congrArg Host.Outcome.next stage_run, congrArg Host.Outcome.next run', stage, flash'.trans flash.symm, ?_, closed⟩
    rw [flash, flash_opened]
    rfl
  · obtain ⟨t, run, flash, -, -⟩ := stageOn_spec acc tag 0xC010 part idle
    obtain ⟨t', run', flash', -, -⟩ := stageOn_spec acc tag 0x0201 part idle
    have stage_run : opFwStage mb tag part s = t := (opFwStage_eq ready tag part).trans run
    rw [stagePart_whole first last good (by rw [flash_opened]; exact fresh), flash_opened] at flash flash'
    refine ⟨t, t', congrArg Host.Outcome.next stage_run, congrArg Host.Outcome.next run', flash'.trans flash.symm, ?_, ?_⟩
    · rw [flash, stageSlot]
      split <;> rfl
    · rw [flash, stageSlot]
      split <;> rfl
  · obtain ⟨t, run, act, restarting, flash⟩ := activateOn_spec acc tag 0xC011 staged
    obtain ⟨t', run', act', restarting', flash'⟩ := activateOn_spec acc tag 0x0202 staged
    exact ⟨t, t', congrArg Host.Outcome.next run, congrArg Host.Outcome.next run', act, act', restarting, restarting', flash, flash'⟩
  · obtain ⟨-, pelest, -⟩ := id acc
    have up : rdBit s aGlStat 3 = false := by
      simp only [pelestUp, Bool.and_eq_true, Bool.not_eq_true'] at pelest
      exact pelest.1
    obtain ⟨t, run, flash, status⟩ := activateLater_spec acc tag 0xC011 staged
    obtain ⟨t', run', flash', -⟩ := activateLater_spec acc tag 0x0202 staged
    exact ⟨t, t', congrArg Host.Outcome.next run, congrArg Host.Outcome.next run', flash, flash'.trans flash.symm, status.trans up⟩
  · have least := opFwCommit_minsv acc tag idle
    refine ⟨_, rfl, ?_, fun i there => ?_⟩
    · rw [least]
      exact Nat.le_max_left ..
    · rw [least, there]
      rfl

end Sys2Proof
end

section
/-! PROOFS. The Tally's commands, snapshots and Boards by command (R482, R490, R501, R503). -/

namespace Sys2Proof.Machine

variable {s : State} {mb : Mailbox}

/-- The opened block, field by field. -/
theorem opened_kept (mb : Nat) (s : State) : (opened mb s).halted = s.halted ∧ (opened mb s).tly = s.tly ∧ (opened mb s).time = s.time ∧
    (opened mb s).brd = s.brd ∧ (opened mb s).regs = s.regs ∧ (opened mb s).part = s.part := by
  obtain ⟨free, parts, eq⟩ := opened_eq mb s
  rw [eq]
  exact ⟨rfl, rfl, rfl, rfl, rfl, rfl⟩

/-! ### The Tally -/

theorem opTallyVerify_answers (acc : MbAccepts s mb 3) (tag : BitVec 16) (boot : BitVec 32) (mac : Word) {recs : List (BitVec 512)} (few : recs.length ≤ 31) :
    Sent.mailbox mb 0 [BitVec.ofNat 64 (verified (Config.tallyKey boot) mac recs)] ∈ (opTallyVerify mb tag boot mac recs s).out ∧
      (opTallyVerify mb tag boot mac recs s).tly = s.tly := by
  obtain ⟨-, tly, -⟩ := opened_kept mb s
  have done : opTallyVerify mb tag boot mac recs s =
      mbAnswer mb 0xC020 tag.toNat 0 0 [BitVec.ofNat 64 (verified (Config.tallyKey boot) mac recs)] (opened mb s) := by
    rw [opTallyVerify, mbRun_accepts acc, if_neg (by omega)]
    rfl
  rw [done]
  exact ⟨sent_mbAnswer .., (tly_mbAnswer ..).trans tly⟩

theorem tlyLose_chkFirst (s : State) : (tlyLose s).tly.chkFirst = s.tly.chkFirst := by
  simp only [tlyLose]
  split
  · rfl
  · simp

/-- A record leaves where the checkpoints stand. -/
theorem tally_chkFirst (orig kind res : Nat) (tg old new aux : Word) (s : State) : (tally orig kind res tg old new aux s).tly.chkFirst = s.tly.chkFirst := by
  simp only [tally]
  split
  · rfl
  · split
    · rw [fireSeq_tly]
      exact tlyLose_chkFirst s
    · exact tlyLose_chkFirst s

theorem opTallyCheckpoint_done (acc : MbAccepts s mb 3) (tag : BitVec 16) :
    opTallyCheckpoint mb tag s = doneEnd mb 0xC021 tag.toNat (mbInput mb s).1 [] (checkpoint (opened mb s)) := mbRun_done acc tag 0xC021 false rfl

theorem checkpoint_unhalted (unhalted : s.halted = none) : (checkpoint s).halted = none :=
  (checkpoint_soFar unhalted (chkWords s) (Nat.le_refl 4)).unhalted

theorem chkFirst_doneEnd (mb opc tag : Nat) (inp : Word) (out : List Word) (u : State) : (doneEnd mb opc tag inp out u).tly.chkFirst = u.tly.chkFirst :=
  (congrArg Tly.chkFirst (tly_mbAnswer ..)).trans (tally_chkFirst ..)

theorem opTallyCheckpoint_spec (acc : MbAccepts s mb 3) (tag : BitVec 16) :
    (opTallyCheckpoint mb tag s).flash.chkNum = some (s.tly.exported - 1) ∧ (opTallyCheckpoint mb tag s).tly.chkFirst = s.tly.exported ∧
      (opTallyCheckpoint mb tag s).tly.next = s.tly.next + 5 := by
  obtain ⟨⟨unhalted, -⟩, -⟩ := id acc
  obtain ⟨halt, tly, -⟩ := opened_kept mb s
  have unhalted' := halt.trans unhalted
  obtain ⟨next, -, num, first, -⟩ := checkpoint_spec unhalted'
  rw [opTallyCheckpoint_done acc tag, flash_of_beyond (beyond_doneEnd ..), num, chkFirst_doneEnd, first,
    next_doneEnd _ _ _ _ _ (checkpoint_unhalted unhalted'), next, tly]
  exact ⟨rfl, rfl, rfl⟩

/-! ### Snapshots and Boards -/

theorem schedule_ahead {w : Word} (ahead : s.time.ft.toNat ≤ w.toNat) (a : SchedAct) :
    schedule w a s = { s with time := { s.time with sched := s.time.sched ++ [(w, a)] } } := if_neg (Nat.not_lt.2 ahead)

theorem unarmed_eq (l : List HubId) (s : State) : ∃ free, (unarmed l s).2 = { s with free := free } := by
  induction l generalizing s with
  | nil => exact ⟨s.free, rfl⟩
  | cons h l ih =>
    obtain ⟨free, eq⟩ := ih (drawFree s).2
    exact ⟨free, eq⟩

/-- A snapshot set for `w` (R482). -/
def snapshotSet (w : Word) (s : State) : State := schedule w .snapshot (wr aGlSnapat w (wrFld aGlSnapst 0 1 1 s))

theorem opSnapshotAt_done (acc : MbAccepts s mb 4) (tag : BitVec 16) (w : Word) (fabric : Bool) (idle : rdBit s aGlSnapst 0 = false) :
    ∃ out free, opSnapshotAt mb tag w fabric s =
      doneEnd mb 0xC030 tag.toNat (mbInput mb s).1 out { snapshotSet w (opened mb s) with free := free } := by
  have idle' : rdBit (opened mb s) aGlSnapst 0 = false := by rw [rdBit, rd_opened]; exact idle
  unfold opSnapshotAt
  cases fabric with
  | false => exact ⟨[], (snapshotSet w (opened mb s)).free, mbRun_done acc tag 0xC030 false (by rw [if_neg (by rw [idle']; decide)]; rfl)⟩
  | true =>
    obtain ⟨free, eq⟩ := unarmed_eq (liveHubs (snapshotSet w (opened mb s))) (snapshotSet w (opened mb s))
    refine ⟨(unarmed (liveHubs (snapshotSet w (opened mb s))) (snapshotSet w (opened mb s))).1, free, mbRun_done acc tag 0xC030 false ?_⟩
    rw [if_neg (by rw [idle']; decide), ← eq]
    rfl

theorem opSnapshotAt_spec (acc : MbAccepts s mb 4) (tag : BitVec 16) {w : Word} (fabric : Bool) (idle : rdBit s aGlSnapst 0 = false)
    (ahead : s.time.ft.toNat ≤ w.toNat) :
    ∃ out, Sent.mailbox mb 0 out ∈ (opSnapshotAt mb tag w fabric s).out ∧ rdBit (opSnapshotAt mb tag w fabric s) aGlSnapst 0 = true ∧
      rd (opSnapshotAt mb tag w fabric s) aGlSnapat = w ∧ (opSnapshotAt mb tag w fabric s).time.sched = s.time.sched ++ [(w, .snapshot)] := by
  obtain ⟨out, free, done⟩ := opSnapshotAt_done acc tag w fabric idle
  obtain ⟨-, -, time, -⟩ := opened_kept mb s
  have set : snapshotSet w (opened mb s) = { wr aGlSnapat w (wrFld aGlSnapst 0 1 1 (opened mb s)) with
      time := { (opened mb s).time with sched := (opened mb s).time.sched ++ [(w, .snapshot)] } } :=
    schedule_ahead (s := wr aGlSnapat w (wrFld aGlSnapst 0 1 1 (opened mb s))) (show (opened mb s).time.ft.toNat ≤ w.toNat by rw [time]; exact ahead) _
  have regs : ∀ a, rd { snapshotSet w (opened mb s) with free := free } a = rd (wr aGlSnapat w (wrFld aGlSnapst 0 1 1 (opened mb s))) a := fun a => by
    rw [set]
    exact rd_congr rfl rfl a
  rw [done]
  refine ⟨out, sent_doneEnd .., ?_, ?_, ?_⟩
  · rw [rdBit, rd_doneEnd (.inl (by decide)), regs, rd_wr_ne _ _ (by decide)]
    exact rdBit_wrFld_self _ 0 1 (by decide)
  · rw [rd_doneEnd (.inl (by decide)), regs, rd_wr_self]
  · rw [time_of_beyond (beyond_doneEnd ..), set, time]

/-- A command that answers a return code has its record in the Tally and its answer. -/
theorem mbRun_code {grp : Nat} (acc : MbAccepts s mb grp) (tag : BitVec 16) (opc : Nat) (changes back : Bool) {f : State → Ans × State} {rc : Nat}
    {u : State} (acts : f (opened mb s) = (.code rc, u)) : mbRun mb tag opc grp changes back f s =
      mbAnswer mb opc tag.toNat rc 0 [] (mbResult mb opc tag.toNat 8 rc 0 (mbInput mb s).1 [] u) := by
  rw [mbRun_accepts acc, acts]
  rfl

theorem opSnapshotAt_busy (acc : MbAccepts s mb 4) (tag : BitVec 16) (w : Word) (fabric : Bool) (busy : rdBit s aGlSnapst 0 = true) :
    Sent.mailbox mb 6 [] ∈ (opSnapshotAt mb tag w fabric s).out ∧ (opSnapshotAt mb tag w fabric s).time.sched = s.time.sched := by
  obtain ⟨-, -, time, -⟩ := opened_kept mb s
  have busy' : rdBit (opened mb s) aGlSnapst 0 = true := by rw [rdBit, rd_opened]; exact busy
  have coded : opSnapshotAt mb tag w fabric s = mbAnswer mb 0xC030 tag.toNat 6 0 [] (mbResult mb 0xC030 tag.toNat 8 6 0 (mbInput mb s).1 [] (opened mb s)) := by
    unfold opSnapshotAt
    exact mbRun_code acc tag 0xC030 true false (if_pos busy')
  rw [coded]
  refine ⟨sent_mbAnswer .., ?_⟩
  rw [time_of_beyond ((beyondMb_of_past (past_mbAnswer ..)).trans (beyond_mbResult ..)), time]

theorem opBoardWrite_later (acc : MbAccepts s mb 4) (tag : BitVec 16) {triples : List (Nat × Nat × Word)} (few : triples.length ≤ 240) {w : Word}
    (ahead : s.time.ft.toNat ≤ w.toNat) :
    (opBoardWrite mb tag triples (some w) s).time.sched = s.time.sched ++ [(w, .board triples 34)] ∧
      (mb.val ≤ 16 → (opBoardWrite mb tag triples (some w) s).brd = s.brd) := by
  obtain ⟨-, -, time, brd, -⟩ := opened_kept mb s
  have done : opBoardWrite mb tag triples (some w) s =
      doneEnd mb 0xC040 tag.toNat (mbInput mb s).1 [] (schedule w (.board triples 34) (opened mb s)) := by
    unfold opBoardWrite
    exact mbRun_done acc tag 0xC040 false (if_neg (by omega))
  rw [done, schedule_ahead (by rw [time]; exact ahead)]
  refine ⟨?_, fun own => ?_⟩
  · rw [time_of_beyond (beyond_doneEnd ..), time]
  · rw [brd_doneEnd (by omega)]
    exact brd

theorem opBoardWrite_now (acc : MbAccepts s mb 4) (tag : BitVec 16) {triples : List (Nat × Nat × Word)} (few : triples.length ≤ 240) (host : mb.val < 16) :
    (opBoardWrite mb tag triples none s).brd = (boardWrite 34 triples s).brd := by
  have done : opBoardWrite mb tag triples none s = doneEnd mb 0xC040 tag.toNat (mbInput mb s).1 [] (boardWrite 34 triples (opened mb s)) := by
    unfold opBoardWrite
    exact mbRun_done acc tag 0xC040 false (if_neg (by omega))
  rw [done, brd_doneEnd (by omega), opened_host host]

end Sys2Proof.Machine

namespace Sys2Proof

open Machine

/-- Settles O34: each command by what it does to the opened block and what its record and answer leave. -/
theorem tallyAndTimeCommands : Obligations.TallyAndTimeCommands := by
  intro s mb tag
  refine ⟨fun acc => ⟨fun boot mac recs few => ⟨_, rfl, opTallyVerify_answers acc tag boot mac few⟩, ⟨_, rfl, opTallyCheckpoint_spec acc tag⟩⟩,
    fun acc => ⟨fun w fabric idle ahead => ?_, fun w fabric busy => ⟨_, rfl, opSnapshotAt_busy acc tag w fabric busy⟩,
      fun triples w few ahead => ⟨_, rfl, opBoardWrite_later acc tag few ahead⟩, fun triples few host => ⟨_, rfl, opBoardWrite_now acc tag few host⟩⟩⟩
  obtain ⟨out, spec⟩ := opSnapshotAt_spec acc tag fabric idle ahead
  exact ⟨_, out, rfl, spec⟩

end Sys2Proof
end

section
/-! PROOFS. What a mailbox turns away (R485, R487, R488, R490, R499): each gate in its order, with its answer. -/

namespace Sys2Proof.Machine

variable {s : State} {mb : Mailbox}

/-- The block serves its mailboxes, and this one is its port's own. -/
structure Open (s : State) (mb : Mailbox) : Prop where
  unhalted : s.halted = none
  ready : s.part.phase = .ready
  lead : mb.val < 16 → nonLead s mb = false

theorem Open.own (h : Open s mb) : (decide (mb.val < 16) && nonLead s mb) = false := by
  by_cases host : mb.val < 16
  · simp [h.lead host]
  · simp [host]

theorem Open.served (h : Open s mb) : mbServed s = true := by simp [mbServed, h.ready]

/-- An answer of no words after a result in the Tally. -/
def turnedAway (mb opc tag res rc : Nat) (inp : Word) (u : State) : State := mbAnswer mb opc tag rc 0 [] (mbResult mb opc tag res rc 0 inp [] u)

/-- While Pelest restarts, a command that changes something is answered Retry and recorded (R488). -/
theorem mbRun_down (h : Open s mb) (down : pelestUp s = false) (tag : BitVec 16) (opc grp : Nat) (back : Bool) (f : State → Ans × State) :
    mbRun mb tag opc grp true back f s = turnedAway mb opc tag.toNat 8 6 (mbInput mb s).1 (mbInput mb s).2 := by
  unfold mbRun
  extract_lets t o say refuse i
  rw [if_neg (by simp [h.ready]), if_neg (by simp [h.served, h.own, h.unhalted]), if_pos (by simp [down])]
  rfl

/-- A command of a group that its mailbox may not use (R490). -/
theorem mbRun_unauthorised (h : Open s mb) (up : pelestUp s = true) {grp : Nat} (auth : (mbAuth s mb).testBit grp = false) (tag : BitVec 16) (opc : Nat)
    (changes back : Bool) (f : State → Ans × State) :
    mbRun mb tag opc grp changes back f s = turnedAway mb opc tag.toNat 2 3 (mbInput mb s).1 (opened mb s) := by
  obtain ⟨free, parts, eq⟩ := opened_eq mb s
  have auth' : (mbAuth (opened mb s) mb).testBit grp = false := by rw [eq]; exact auth
  unfold mbRun
  extract_lets t o say refuse i s1 _ s2
  have acts : s2 = opened mb s := rfl
  rw [if_neg (by simp [h.ready]), if_neg (by simp [h.served, h.own, h.unhalted]), if_neg (by simp [up]), if_neg (by simp [h.unhalted]), acts,
    if_pos (by simp [auth'])]
  rfl

/-- The block with a result noted as the mailbox's last. -/
def lastNoted (o res : Nat) (s : State) : State := { s with ctl := { s.ctl with last := mset s.ctl.last o (res, (mgetD (0, 0) s.ctl.last o).2) } }

/-- A command that changes something while the Tally is full and blocks (R499). -/
theorem mbRun_blocked (h : Open s mb) (up : pelestUp s = true) {grp : Nat} (auth : (mbAuth s mb).testBit grp = true)
    (blocked : blockedByTally s (mbOrigin mb) = true) (tag : BitVec 16) (opc : Nat) (back : Bool) (f : State → Ans × State) :
    mbRun mb tag opc grp true back f s = count aGlTlyref 1
      (mbAnswer mb opc tag.toNat 2 (reason (lastNoted (mbOrigin mb) 10 (opened mb s))).1 [] (reason (lastNoted (mbOrigin mb) 10 (opened mb s))).2) := by
  obtain ⟨free, parts, eq⟩ := opened_eq mb s
  have auth' : (mbAuth (opened mb s) mb).testBit grp = true := by rw [eq]; exact auth
  have blocked' : blockedByTally (opened mb s) (mbOrigin mb) = true := by rw [eq]; exact blocked
  unfold mbRun
  extract_lets t o say refuse i s1 _ s2
  have acts : s2 = opened mb s := rfl
  rw [if_neg (by simp [h.ready]), if_neg (by simp [h.served, h.own, h.unhalted]), if_neg (by simp [up]), if_neg (by simp [h.unhalted]), acts,
    if_neg (by simp [auth']), if_pos (by simp [o, blocked'])]
  rfl

/-- A background command while the mailbox runs one (R487). -/
theorem mbRun_busy (h : Open s mb) (up : pelestUp s = true) {grp : Nat} (auth : (mbAuth s mb).testBit grp = true)
    (unblocked : blockedByTally s (mbOrigin mb) = false) (busy : (mget s.ctl.bg mb.val).isSome = true) (tag : BitVec 16) (opc : Nat)
    (f : State → Ans × State) :
    mbRun mb tag opc grp true true f s = turnedAway mb opc tag.toNat 8 6 (mbInput mb s).1 (opened mb s) := by
  obtain ⟨free, parts, eq⟩ := opened_eq mb s
  have auth' : (mbAuth (opened mb s) mb).testBit grp = true := by rw [eq]; exact auth
  have unblocked' : blockedByTally (opened mb s) (mbOrigin mb) = false := by rw [eq]; exact unblocked
  have busy' : (mget (opened mb s).ctl.bg mb.val).isSome = true := by rw [eq]; exact busy
  unfold mbRun
  extract_lets t o say refuse i s1 _ s2
  have acts : s2 = opened mb s := rfl
  rw [if_neg (by simp [h.ready]), if_neg (by simp [h.served, h.own, h.unhalted]), if_neg (by simp [up]), if_neg (by simp [h.unhalted]), acts,
    if_neg (by simp [auth']), if_neg (by simp [o, unblocked']), if_pos (by simp [busy'])]
  rfl

/-! ### What is turned away has no effect -/

theorem beyond_turnedAway (mb opc tag res rc : Nat) (inp : Word) (u : State) : beyondMb (turnedAway mb opc tag res rc inp u) = beyondMb u :=
  (beyondMb_of_past (past_mbAnswer ..)).trans (beyond_mbResult ..)

theorem sent_turnedAway (mb opc tag res rc : Nat) (inp : Word) (u : State) : Sent.mailbox mb rc [] ∈ (turnedAway mb opc tag res rc inp u).out := sent_mbAnswer ..

theorem next_turnedAway (mb opc tag res rc : Nat) (inp : Word) {u : State} (unhalted : u.halted = none) :
    (turnedAway mb opc tag res rc inp u).tly.next = u.tly.next + 1 := (congrArg Tly.next (tly_mbAnswer ..)).trans (mbResult_next unhalted ..)

/-- The same for a block that drew free values only. -/
theorem turnedAway_spec (mb opc tag res rc : Nat) (inp : Word) {u : State} (unhalted : s.halted = none) (halted : u.halted = s.halted) (tly : u.tly = s.tly)
    (flash : u.flash = s.flash) : Sent.mailbox mb rc [] ∈ (turnedAway mb opc tag res rc inp u).out ∧ (turnedAway mb opc tag res rc inp u).flash = s.flash ∧
      (turnedAway mb opc tag res rc inp u).tly.next = s.tly.next + 1 :=
  ⟨sent_turnedAway .., (flash_of_beyond (beyond_turnedAway ..)).trans flash,
    (next_turnedAway _ _ _ _ _ _ (halted.trans unhalted)).trans (by rw [tly])⟩

end Sys2Proof.Machine

namespace Sys2Proof

open Machine

/-- Settles O32: the gates in their order, each answered before the command has run. -/
theorem mailboxGates : Obligations.MailboxGates := by
  intro s mb tag unhalted ready lead
  have gate : Open s mb := ⟨unhalted, ready, lead⟩
  refine ⟨fun down => ?_, fun up auth => ?_, fun up auth blocked => ?_, fun up auth unblocked busy slot => ?_⟩
  · obtain ⟨free, eq⟩ := mbInput_eq mb s
    refine ⟨_, congrArg Host.Outcome.next (mbRun_down gate down tag 0xC012 2 false _), ?_⟩
    exact turnedAway_spec _ _ _ _ _ _ unhalted (by rw [eq]) (by rw [eq]) (by rw [eq])
  · obtain ⟨halted, tly, -⟩ := opened_kept mb s
    refine ⟨_, congrArg Host.Outcome.next (mbRun_unauthorised gate up auth tag 0xC012 true false _), ?_⟩
    exact turnedAway_spec _ _ _ _ _ _ unhalted halted tly (flash_opened mb s)
  · obtain ⟨-, tly, -⟩ := opened_kept mb s
    refine ⟨_, congrArg Host.Outcome.next (mbRun_blocked gate up auth blocked tag 0xC012 false _), ?_, ?_, ?_⟩
    · exact (out_count _ _ _).subset (sent_mbAnswer ..)
    · rw [count_flash, flash_of_beyond (beyondMb_of_past (past_mbAnswer ..))]
      exact flash_opened mb s
    · rw [count_tly, tly_mbAnswer]
      exact tly
  · have turned : opKeyRetire mb tag slot s = turnedAway mb 0xC101 tag.toNat 8 6 (mbInput mb s).1 (opened mb s) := by
      unfold opKeyRetire
      exact mbRun_busy gate up auth unblocked busy tag 0xC101 _
    obtain ⟨free, parts, eq⟩ := opened_eq mb s
    refine ⟨_, congrArg (fun z => Host.Outcome.next (follow z)) turned, sent_turnedAway .., ?_, ?_⟩
    · rw [sl_of_beyond (beyond_turnedAway ..), eq]
    · rw [bg_of_beyond (beyond_turnedAway ..), eq]

end Sys2Proof
end

section
/-! PROOFS. The state of an Idior port (IP_STAT.STATE) and what it keeps of its link: what setting them leaves (R308). -/

namespace Sys2Proof.Machine

variable {s : State}

/-! ### A link set -/

@[simp] theorem link_setLink_self (p : Nat) (k : Link) (s : State) : link (setLink p k s) p = k := mgetD_mput_self ..

theorem link_setLink_ne (k : Link) (s : State) {p q : Nat} (h : q ≠ p) : link (setLink p k s) q = link s q := mgetD_mput_ne _ _ _ _ h

theorem link_congr {t : State} (h : t.links = s.links) (p : Nat) : link t p = link s p := by rw [link, h, link]

theorem rd_setLink (p : Nat) (k : Link) (s : State) (a : Nat) : rd (setLink p k s) a = rd s a := rd_congr rfl rfl a

theorem linkState_setLink (p q : Nat) (k : Link) (s : State) : linkState (setLink p k s) q = linkState s q := by rw [linkState, rdFld, rd_setLink, linkState, rdFld]

/-! ### A state set -/

/-- A port's state written with its status bit, before the events. -/
def stateWritten (p st : Nat) (s : State) : State := rsq (aIpStat p) 6 (wrFld (aIpStat p) 0 3 st s)

theorem rd_ite {c : Prop} [Decidable c] {t u : State} {a : Nat} {w : Word} (h : rd t a = w) (k : rd u a = w) : rd (if c then t else u) a = w := by
  split
  · exact h
  · exact k

theorem rd_setLinkState (p st : Nat) (s : State) (a : Nat) :
    rd (setLinkState p st s) a = if linkState s p = st then rd s a else rd (stateWritten p st s) a := by
  unfold setLinkState
  extract_lets old s1 q s2 s3
  split
  · rfl
  · have h2 : rd s2 a = rd s1 a := rd_ite (rd_fireSeq ..) rfl
    have h3 : rd s3 a = rd s1 a := rd_ite ((rd_fireSeq ..).trans h2) h2
    exact rd_ite ((rd_fireSeq ..).trans h3) h3

theorem past_setLinkState (p st : Nat) (s : State) : pastAnswer (setLinkState p st s) = pastAnswer s := by
  unfold setLinkState
  extract_lets old s1 q s2 s3
  split
  · rfl
  · have h1 : pastAnswer s1 = pastAnswer s := (past_wr ..).trans (past_wrFld ..)
    have h2 : pastAnswer s2 = pastAnswer s := apply_ite_same pastAnswer ((past_fireSeq ..).trans h1) h1
    have h3 : pastAnswer s3 = pastAnswer s := apply_ite_same pastAnswer ((past_fireSeq ..).trans h2) h2
    exact apply_ite_same pastAnswer ((past_fireSeq ..).trans h3) h3

theorem links_of_past {s t : State} (h : pastAnswer t = pastAnswer s) : t.links = s.links := links_of_beyond (beyondMb_of_past h)

theorem link_setLinkState (p st q : Nat) (s : State) : link (setLinkState p st s) q = link s q := link_congr (links_of_past (past_setLinkState ..)) q

/-- A field of IP_STAT beside the state and its status bit stands. -/
theorem rdFld_setLinkState_off (p st : Nat) (s : State) {lo n : Nat} (h3 : 3 ≤ lo) (h48 : lo + n ≤ 48) (h6 : lo + n ≤ 6 ∨ 6 < lo) :
    rdFld (setLinkState p st s) (aIpStat p) lo n = rdFld s (aIpStat p) lo n := by
  rw [rdFld, rd_setLinkState]
  split
  · rfl
  · exact (rdFld_rsq_off _ (by decide) h48 h6).trans (rdFld_wrFld_off _ _ _ _ _ _ (by decide) (.inr h3))

theorem rd_setLinkState_ne (p st : Nat) (s : State) {a : Nat} (h : a / 8 ≠ aIpStat p / 8) : rd (setLinkState p st s) a = rd s a := by
  rw [rd_setLinkState]
  split
  · rfl
  · exact (rd_rsq_ne _ _ h).trans (rd_wrFld_ne _ _ _ _ h)

@[simp] theorem linkState_setLinkState {p st : Nat} (small : st < 8) (s : State) : linkState (setLinkState p st s) p = st := by
  rw [linkState, rdFld, rd_setLinkState]
  split
  next same => exact same
  · exact (rdFld_rsq_off _ (by decide) (by decide) (.inl (by decide))).trans
      ((congrArg (fld · 0 3) (rd_wrFld_self ..)).trans ((fld_setFld_self _ _ _ _ (by decide)).trans (Nat.mod_eq_of_lt small)))

end Sys2Proof.Machine
end

section
/-! PROOFS. The commands of keys and sealing (R449, R450, R452, R453, R459). -/

namespace Sys2Proof.Machine

variable {s : State} {mb : Mailbox}

/-- A command that is refused undoes what it did, records the refusal and answers it. -/
theorem mbRun_refused {grp : Nat} (acc : MbAccepts s mb grp) (tag : BitVec 16) (opc : Nat) (changes back : Bool) {f : State → Ans × State} {u : State}
    (acts : f (opened mb s) = (.refused, u)) : mbRun mb tag opc grp changes back f s =
      mbAnswer mb opc tag.toNat 2 (reason (opened mb s)).1 [] (mbResult mb opc tag.toNat 1 2 (reason (opened mb s)).1 (mbInput mb s).1 []
        (reason (opened mb s)).2) := by
  rw [mbRun_accepts acc, acts]
  rfl

theorem inSession_opened (mb : Mailbox) (s : State) : inSession (opened mb s) mb = inSession s mb := by
  obtain ⟨free, parts, eq⟩ := opened_eq mb s
  rw [eq]
  rfl

theorem links_opened (mb : Nat) (s : State) : (opened mb s).links = s.links := by
  obtain ⟨free, parts, eq⟩ := opened_eq mb s
  rw [eq]

/-! ### Keys -/

/-- SL_KS of a slot that has been loaded: ACTIVE, its generation, and how the key came (R449). -/
def loadedWord (gen : Nat) (persist given : Bool) : Word := mkWord [(0, 2, 1), (2, 8, gen), (10, 1, persist.toNat), (11, 1, given.toNat)]

theorem loadedWord_fields {gen : Nat} (small : gen < 2 ^ 8) (persist given : Bool) :
    fld (loadedWord gen persist given) 0 2 = 1 ∧ fld (loadedWord gen persist given) 2 8 = gen := by
  have word : loadedWord gen persist given = setFld (setFld (setFld (setFld 0 0 2 1) 2 8 gen) 10 1 persist.toNat) 11 1 given.toNat := rfl
  rw [word, fld_setFld_ne _ _ _ _ _ _ (by decide) (.inl (by decide)), fld_setFld_ne _ _ _ _ _ _ (by decide) (.inl (by decide)),
    fld_setFld_ne _ _ _ _ _ _ (by decide) (.inl (by decide)), fld_setFld_self _ _ _ _ (by decide),
    fld_setFld_ne _ _ _ _ _ _ (by decide) (.inl (by decide)), fld_setFld_ne _ _ _ _ _ _ (by decide) (.inl (by decide)),
    fld_setFld_self _ _ _ _ (by decide)]
  exact ⟨rfl, Nat.mod_eq_of_lt small⟩

/-- The slot `n` loaded with `k` (R449). -/
def keyLoaded (n : Nat) (k : BitVec 256) (persist given : Bool) (s : State) : State :=
  let w := loadedWord (rdFld s (aSlKs n) 2 8) persist given
  let f := if persist then { s.flash with keys := mset s.flash.keys n k, slots := mset s.flash.slots n w } else s.flash
  fire 229 0 (oKey n) (wr (aSlKs n) w { s with sl := { s.sl with keys := mset s.sl.keys n k }, flash := f })

theorem opKeyLoad_done (acc : MbAccepts s mb 5) (tag : BitVec 16) (slot : BitVec 10) (key : Option (BitVec 256)) (persist : Bool)
    (empty : rdFld s (aSlKs slot.toNat) 0 2 = 0) (session : key.isSome = true → inSession s mb = true) :
    ∃ free k, (∀ k', key = some k' → k = k') ∧ opKeyLoad mb tag slot key persist s =
      doneEnd mb 0xC100 tag.toNat (mbInput mb s).1 [] (keyLoaded slot.toNat k persist key.isSome { opened mb s with free := free }) := by
  have empty' : rdFld (opened mb s) (aSlKs slot.toNat) 0 2 = 0 := by rw [rdFld, rd_opened]; exact empty
  unfold opKeyLoad
  cases key with
  | none =>
    refine ⟨(opened mb s).free + 1, Config.entropy (opened mb s).free, ⟨fun _ h => (nomatch h), mbRun_done acc tag 0xC100 false ?_⟩⟩
    rw [if_neg (by simp [empty'])]
    rfl
  | some k =>
    have session' : inSession (opened mb s) mb = true := (inSession_opened mb s).trans (session rfl)
    refine ⟨(opened mb s).free, k, ⟨fun _ h => Option.some.inj h, mbRun_done acc tag 0xC100 false ?_⟩⟩
    rw [if_neg (by simp [empty', session'])]
    rfl

theorem rd_keyLoaded (n : Nat) (k : BitVec 256) (persist given : Bool) (s : State) :
    rd (keyLoaded n k persist given s) (aSlKs n) = loadedWord (rdFld s (aSlKs n) 2 8) persist given := (rd_fire ..).trans (rd_wr_self ..)

theorem keys_keyLoaded (n : Nat) (k : BitVec 256) (persist given : Bool) (s : State) : mget (keyLoaded n k persist given s).sl.keys n = some k := by
  unfold keyLoaded
  extract_lets w f
  rw [fire_sl, wr_sl]
  exact mget_mset_self ..

theorem flash_keyLoaded (n : Nat) (k : BitVec 256) (persist given : Bool) (s : State) :
    (keyLoaded n k persist given s).flash = if persist then { s.flash with
      keys := mset s.flash.keys n k, slots := mset s.flash.slots n (loadedWord (rdFld s (aSlKs n) 2 8) persist given) } else s.flash := by
  unfold keyLoaded
  extract_lets w f
  rw [fire_flash, wr_flash]

theorem offMailbox_aSlKs (slot : BitVec 10) : OffMailbox (aSlKs slot.toNat) := .inl (by have := slot.isLt; unfold aSlKs; omega)

theorem opKeyLoad_spec (acc : MbAccepts s mb 5) (tag : BitVec 16) (slot : BitVec 10) (key : Option (BitVec 256)) (persist : Bool)
    (empty : rdFld s (aSlKs slot.toNat) 0 2 = 0) (session : key.isSome = true → inSession s mb = true) :
    ∃ t k, opKeyLoad mb tag slot key persist s = t ∧ rdFld t (aSlKs slot.toNat) 0 2 = 1 ∧
      rdFld t (aSlKs slot.toNat) 2 8 = rdFld s (aSlKs slot.toNat) 2 8 ∧ mget t.sl.keys slot.toNat = some k ∧ (∀ k', key = some k' → k = k') ∧
      (persist = true → mget t.flash.keys slot.toNat = some k) ∧ (persist = false → t.flash = s.flash) := by
  obtain ⟨free, k, given, done⟩ := opKeyLoad_done acc tag slot key persist empty session
  have gen : rdFld { opened mb s with free := free } (aSlKs slot.toNat) 2 8 = rdFld s (aSlKs slot.toNat) 2 8 := by
    rw [rdFld, rdFld, ← rd_opened mb s]
    exact congrArg (fld · 2 8) (rd_congr rfl rfl _)
  obtain ⟨state, kept⟩ := loadedWord_fields (fld_lt (rd s (aSlKs slot.toNat)) 2 8) persist key.isSome
  have beyond := beyond_doneEnd mb 0xC100 tag.toNat (mbInput mb s).1 [] (keyLoaded slot.toNat k persist key.isSome { opened mb s with free := free })
  refine ⟨_, k, done, ?_, ?_, ?_, given, fun kept_over => ?_, fun volatile => ?_⟩
  · rw [rdFld, rd_doneEnd (offMailbox_aSlKs slot), rd_keyLoaded, gen]
    exact state
  · rw [rdFld, rd_doneEnd (offMailbox_aSlKs slot), rd_keyLoaded, gen]
    exact kept
  · rw [sl_of_beyond beyond, keys_keyLoaded]
  · rw [flash_of_beyond beyond, flash_keyLoaded, if_pos kept_over]
    exact mget_mset_self ..
  · rw [flash_of_beyond beyond, flash_keyLoaded, if_neg (by simp [volatile])]
    exact flash_opened mb s

/-! ### Retirement of a key -/

/-- A key's retirement begun: RETIRING, and a task that recalls what the key seals (R450). -/
def retireBegun (n : Nat) (s : State) : State :=
  { wrFld aSlStat 2 11 (1 + 2 * n) (wrFld (aSlKs n) 0 2 2 s) with bg := s.bg ++ [⟨.keyRetire, 0, 0, n, false⟩] }

theorem opKeyRetire_started (acc : MbAccepts s mb 5) (tag : BitVec 16) (slot : BitVec 10) (idle : rdBit s aSlStat 2 = false)
    (allowed : retireRefused s slot.toNat = false) :
    opKeyRetire mb tag slot s = startEnd mb 0xC101 tag.toNat (mbInput mb s).1 slot.toNat (retireBegun slot.toNat (opened mb s)) := by
  obtain ⟨free, parts, eq⟩ := opened_eq mb s
  have idle' : rdBit (opened mb s) aSlStat 2 = false := by rw [rdBit, rd_opened]; exact idle
  have allowed' : retireRefused (opened mb s) slot.toNat = false := by rw [eq]; exact allowed
  unfold opKeyRetire
  refine mbRun_started acc tag 0xC101 true true ?_
  rw [if_neg (by rw [idle']; decide), if_neg (by rw [allowed']; decide)]
  rfl

theorem rd_retireBegun (n : Nat) (s : State) (a : Nat) : rd (retireBegun n s) a = rd (wrFld aSlStat 2 11 (1 + 2 * n) (wrFld (aSlKs n) 0 2 2 s)) a :=
  rd_congr rfl rfl a

theorem opKeyRetire_spec (acc : MbAccepts s mb 5) (tag : BitVec 16) (slot : BitVec 10) (idle : rdBit s aSlStat 2 = false)
    (allowed : retireRefused s slot.toNat = false) :
    ∃ u, opKeyRetire mb tag slot s = u ∧ rdBit u aSlStat 2 = true ∧ rdFld u aSlStat 3 10 = slot.toNat ∧ rdFld u (aSlKs slot.toNat) 0 2 = 2 ∧
      u.bg = s.bg ++ [⟨.keyRetire, 0, 0, slot.toNat, false⟩] ∧ u.sl.keys = s.sl.keys := by
  obtain ⟨free, parts, eq⟩ := opened_eq mb s
  have bound := slot.isLt
  have apart : aSlKs slot.toNat / 8 ≠ aSlStat / 8 := by unfold aSlKs aSlStat; omega
  have beyond := beyond_startEnd mb 0xC101 tag.toNat (mbInput mb s).1 slot.toNat (retireBegun slot.toNat (opened mb s))
  refine ⟨_, opKeyRetire_started acc tag slot idle allowed, ?_, ?_, ?_, ?_, ?_⟩
  · rw [rdBit, rd_startEnd (.inl (by decide)), rd_retireBegun]
    refine (rdBit_wrFld_in _ _ _ _ _ (by decide) (by decide) (by decide)).trans ?_
    simp
  · rw [rdFld, rd_startEnd (.inl (by decide)), rd_retireBegun]
    refine (rdFld_wrFld_in _ _ _ _ _ _ (by decide) (by decide) (by decide)).trans ?_
    omega
  · rw [rdFld, rd_startEnd (offMailbox_aSlKs slot), rd_retireBegun, rd_wrFld_ne _ _ _ _ apart, rd_wrFld_self, fld_setFld_self _ _ _ _ (by decide)]
    rfl
  · rw [bg_of_beyond beyond, retireBegun, eq]
  · rw [sl_of_beyond beyond, retireBegun, eq]
    rfl

/-! ### Link keys -/

theorem psk_loadLinkKey (p : Nat) (k : BitVec 256) (s : State) : (link (loadLinkKey p k s) p).psk = some k := by
  unfold loadLinkKey
  extract_lets _ s1 st
  have h1 : (link s1 p).psk = some k := congrArg Link.psk (link_setLink_self ..)
  split
  · rw [link_setLinkState, link_setLink_self, h1]
  · split
    · rw [link_setLink_self, h1]
    · split
      · exact h1
      · rw [link_setLinkState, h1]

/-- A link key loaded retrains the port, or starts it over (R459). -/
theorem linkState_loadLinkKey (p : Nat) (k : BitVec 256) (s : State) : linkState (loadLinkKey p k s) p =
    if linkState s p = 3 then 4 else if linkState s p = 0 ∨ linkState s p = 4 then linkState s p else 1 := by
  unfold loadLinkKey
  extract_lets _ s1 st
  have same : st = linkState s p := linkState_setLink ..
  rw [← same]
  by_cases h3 : st = 3
  · rw [if_pos h3, if_pos h3, linkState_setLinkState (by decide)]
  · by_cases h4 : st = 4
    · rw [if_neg h3, if_neg h3, if_pos h4, if_pos (.inr h4), linkState_setLink]
    · by_cases h0 : st = 0
      · rw [if_neg h3, if_neg h3, if_neg h4, if_pos h0, if_pos (.inl h0)]
      · rw [if_neg h3, if_neg h3, if_neg h4, if_neg h0, if_neg (by simp [h0, h4]), linkState_setLinkState (by decide)]

theorem offMailbox_aIpStat (p : IPort) : OffMailbox (aIpStat p) := .inl (by have := p.isLt; unfold aIpStat; omega)

theorem linkState_of_rd {t u : State} {p : Nat} (h : rd t (aIpStat p) = rd u (aIpStat p)) : linkState t p = linkState u p := by
  rw [linkState, rdFld, h, linkState, rdFld]

theorem opLinkKey_spec (acc : MbAccepts s mb 5) (tag : BitVec 16) (p : IPort) (key : BitVec 256) (session : inSession s mb = true) :
    Sent.mailbox mb 0 [] ∈ (opLinkKey mb tag p key s).out ∧ (link (opLinkKey mb tag p key s) p).psk = some key ∧
      linkState (opLinkKey mb tag p key s) p =
        (if linkState s p = 3 then 4 else if linkState s p = 0 ∨ linkState s p = 4 then linkState s p else 1) := by
  have done : opLinkKey mb tag p key s = doneEnd mb 0xC102 tag.toNat (mbInput mb s).1 [] (loadLinkKey p key (opened mb s)) := by
    unfold opLinkKey
    exact mbRun_done acc tag 0xC102 false (if_pos ((inSession_opened mb s).trans session))
  have state : linkState (opened mb s) p = linkState s p := linkState_of_rd (rd_opened ..)
  rw [done, link_congr (links_of_beyond (beyond_doneEnd ..)), psk_loadLinkKey, linkState_of_rd (rd_doneEnd (offMailbox_aIpStat p) ..),
    linkState_loadLinkKey, state]
  exact ⟨sent_doneEnd .., rfl, rfl⟩

theorem opLinkKey_refused (acc : MbAccepts s mb 5) (tag : BitVec 16) (p : IPort) (key : BitVec 256) (session : inSession s mb = false) :
    Sent.mailbox mb 2 [] ∈ (opLinkKey mb tag p key s).out ∧ (link (opLinkKey mb tag p key s) p).psk = (link s p).psk := by
  have refused : opLinkKey mb tag p key s = mbAnswer mb 0xC102 tag.toNat 2 (reason (opened mb s)).1 []
      (mbResult mb 0xC102 tag.toNat 1 2 (reason (opened mb s)).1 (mbInput mb s).1 [] (reason (opened mb s)).2) := by
    unfold opLinkKey
    exact mbRun_refused acc tag 0xC102 true false (if_neg (by rw [inSession_opened, session]; decide))
  rw [refused, link_congr ((links_of_past (past_mbAnswer ..)).trans (links_of_beyond (beyond_mbResult ..)))]
  exact ⟨sent_mbAnswer .., congrArg Link.psk (link_congr (links_opened mb s) p)⟩

/-! ### The seal's tree -/

/-- A tree of no counters: ready, its roots at 0 and the first major counter at 1 (R452). -/
def sealFresh (s : State) : State :=
  fire 237 0 oNone (wrFld aSlStat 0 2 2 (wr aSlMajsrc 1 ((List.range 8).foldl (fun s k => wr (aSlRoot k) 0 s) (newTree s))))

theorem opSealInit_done (acc : MbAccepts s mb 5) (tag : BitVec 16) (none_there : rdFld s aSlStat 0 2 = 0) :
    opSealInit mb tag s = doneEnd mb 0xC103 tag.toNat (mbInput mb s).1 [] (sealFresh (opened mb s)) := by
  unfold opSealInit
  exact mbRun_done acc tag 0xC103 false (if_neg (by rw [rdFld, rd_opened]; exact not_not.2 none_there))

theorem rd_sealFresh_roots (s : State) {k : Nat} (hk : k < 8) : rd (sealFresh s) (aSlRoot k) = 0 := by
  have apart : ∀ b, b = aSlStat ∨ b = aSlMajsrc → aSlRoot k / 8 ≠ b / 8 := by
    rintro b (rfl | rfl) <;> (simp only [aSlRoot, aSlStat, aSlMajsrc]; omega)
  have zeroed : ∀ n, n ≤ 8 → k < n → rd ((List.range n).foldl (fun s k => wr (aSlRoot k) 0 s) (newTree s)) (aSlRoot k) = 0 := by
    intro n
    induction n with
    | zero => exact fun _ h => absurd h (Nat.not_lt_zero k)
    | succ n ih =>
      intro hn hk
      rw [List.range_succ, List.foldl_append, List.foldl_cons, List.foldl_nil]
      rcases Nat.lt_succ_iff_lt_or_eq.1 hk with before | rfl
      · rw [rd_wr_ne _ _ (by simp only [aSlRoot]; omega)]
        exact ih (Nat.le_of_succ_le hn) before
      · exact rd_wr_self ..
  rw [sealFresh, rd_fire, rd_wrFld_ne _ _ _ _ (apart _ (.inl rfl)), rd_wr_ne _ _ (apart _ (.inr rfl))]
  exact zeroed 8 (Nat.le_refl 8) hk

theorem rd_sealFresh_major (s : State) : rd (sealFresh s) aSlMajsrc = 1 := by
  rw [sealFresh, rd_fire, rd_wrFld_ne _ _ _ _ (by decide), rd_wr_self]

theorem rdFld_sealFresh (s : State) : rdFld (sealFresh s) aSlStat 0 2 = 2 := by
  rw [sealFresh, rdFld, rd_fire, rd_wrFld_self, fld_setFld_self _ _ _ _ (by decide)]
  rfl

/-- A tree whose rebuilding has begun (R453). -/
def sealRebuilding (s : State) : State := fire 233 0 oNone (wrFld aSlStat 0 2 1 (newTree s))

theorem opSealRebuild_started (acc : MbAccepts s mb 5) (tag : BitVec 16) (none_there : rdFld s aSlStat 0 2 = 0) :
    opSealRebuild mb tag s = startEnd mb 0xC104 tag.toNat (mbInput mb s).1 0 (sealRebuilding (opened mb s)) := by
  unfold opSealRebuild
  exact mbRun_started acc tag 0xC104 true true (if_neg (by rw [rdFld, rd_opened]; exact not_not.2 none_there))

end Sys2Proof.Machine

namespace Sys2Proof

open Machine

/-- Settles O35: each command by what it does to the opened block, read in the registers and stores that its answer leaves. -/
theorem keyCommands : Obligations.KeyCommands := by
  intro s mb tag acc
  refine ⟨fun slot key persist empty session => ?_, fun slot idle allowed => ?_, fun p key session => ⟨_, rfl, opLinkKey_spec acc tag p key session⟩,
    fun p key session => ⟨_, rfl, opLinkKey_refused acc tag p key session⟩, fun none_there => ⟨?_, ?_⟩⟩
  · obtain ⟨t, k, run, spec⟩ := opKeyLoad_spec acc tag slot key persist empty session
    exact ⟨t, k, congrArg Host.Outcome.next run, spec⟩
  · obtain ⟨u, run, spec⟩ := opKeyRetire_spec acc tag slot idle allowed
    exact ⟨u, congrArg (fun z => Host.Outcome.next (follow z)) run, spec⟩
  · refine ⟨_, congrArg (fun z => Host.Outcome.next (follow z)) (opSealInit_done acc tag none_there), ?_, fun k hk => ?_, ?_⟩
    · rw [rdFld, rd_doneEnd (.inl (by decide))]
      exact rdFld_sealFresh _
    · rw [rd_doneEnd (.inl (by simp only [aSlRoot]; omega)), rd_sealFresh_roots _ hk]
    · rw [rd_doneEnd (.inl (by decide)), rd_sealFresh_major]
  · refine ⟨_, congrArg (fun z => Host.Outcome.next (follow z)) (opSealRebuild_started acc tag none_there), ?_, ?_⟩
    · rw [rdFld, rd_startEnd (.inl (by decide)), sealRebuilding, rd_fire, rd_wrFld_self, fld_setFld_self _ _ _ _ (by decide)]
      rfl
    · rw [sl_of_beyond (beyond_startEnd ..), sealRebuilding, fire_sl, wrFld_sl]
      rfl

end Sys2Proof
end

section
/-! PROOFS. A message whose payload takes a cell of the Larder (R250, R254): what finding a cell and freeing the receive buffer leave. -/

namespace Sys2Proof.Machine

variable {s : State}

/-- A command of the running block acts, and then what goes on by itself. -/
theorem live_follow (run : running s = true) (f : State → State) : live s (fun s => follow (f s)) = .next (follow (f s)) := live_running run _

theorem takeCellFrom_larder {sh tc n : Nat} {x : Nat × State} (h : takeCellFrom sh tc n s = some x) : ∃ lar, x.2 = { s with lar := lar } := by
  obtain ⟨c, -, rfl⟩ := Option.map_eq_some_iff.1 h
  exact ⟨_, rfl⟩

/-- Taking cells changes the Larder only. -/
theorem takeCells_larder {tc n k : Nat} {x : List Nat × State} (h : takeCells tc n k s = some x) : ∃ lar, x.2 = { s with lar := lar } := by
  induction k generalizing s x with
  | zero =>
    obtain rfl := Option.some.inj h
    exact ⟨s.lar, rfl⟩
  | succ k ih =>
    obtain ⟨sh, -, h⟩ := Option.bind_eq_some_iff.1 h
    obtain ⟨c, one, h⟩ := Option.bind_eq_some_iff.1 h
    obtain ⟨y, rest, rfl⟩ := Option.map_eq_some_iff.1 h
    obtain ⟨l1, e1⟩ := takeCellFrom_larder one
    obtain ⟨l2, e2⟩ := ih rest
    exact ⟨l2, by rw [e2, e1]⟩

/-- Freeing a message's place in the receive buffer changes the buffer and the links only. -/
theorem takeRx_buffer (opc : Opc) (h : Hdr) (s : State) : ∃ rx links, takeRx opc h s = { s with rx := rx, links := links } := by
  unfold takeRx
  split
  · exact ⟨s.rx, s.links, rfl⟩
  next x rest _ =>
    unfold freeRx
    extract_lets k c r own sh
    split
    · exact ⟨rest, s.links, rfl⟩
    · exact ⟨rest, _, rfl⟩

variable {i : Instr} {opc : Opc} {h : Hdr} {f : List Nat → State → State}

/-- With no cell left the message waits. -/
theorem withPayload_full (full : takeCells h.tc.toNat 1 1 s = none) :
    withPayload i opc h f s = { s with lar := { s.lar with held := s.lar.held ++ [(i, 60, h.tc.toNat)] } } := by
  rw [withPayload, full]

/-- With a cell the message acts on the block, whose Larder, receive buffer and links have changed. -/
theorem withPayload_taken (free : (takeCells h.tc.toNat 1 1 s).isSome = true) (i : Instr) (opc : Opc) (f : List Nat → State → State) :
    ∃ cs lar rx links, withPayload i opc h f s = f cs { s with lar := lar, rx := rx, links := links } := by
  obtain ⟨⟨cs, t⟩, taken⟩ := Option.isSome_iff_exists.1 free
  obtain ⟨lar, eq⟩ := takeCells_larder taken
  obtain ⟨rx, links, eq'⟩ := takeRx_buffer opc h t
  refine ⟨cs, lar, rx, links, ?_⟩
  rw [withPayload, taken]
  show f cs (takeRx opc h t) = _
  rw [eq', show t = _ from eq]

end Sys2Proof.Machine
end

section
/-! PROOFS. Fabric commands and the fabric mailbox (R320, R330, R338, R343, R351, R484). -/

namespace Sys2Proof.Machine

variable {s : State} {mb : Mailbox}

theorem rd_congr_bits {t : State} {a : Nat} (h : rd t a = rd s a) (i : Nat) : rdBit t a i = rdBit s a i := by rw [rdBit, h, rdBit]

theorem rd_congr_fld {t : State} {a : Nat} (h : rd t a = rd s a) (lo n : Nat) : rdFld t a lo n = rdFld s a lo n := by rw [rdFld, h, rdFld]

/-! ### Routes -/

theorem opRouteSet_done (acc : MbAccepts s mb 6) (tag : BitVec 16) {entries : List (HubId × Word)} (few : entries.length ≤ 127) :
    opRouteSet mb tag entries s = doneEnd mb 0xC200 tag.toNat (mbInput mb s).1 []
      (entries.foldl (fun s e => writeReg 34 (aFbRt e.1.toNat) e.2 none s) (opened mb s)) := by
  unfold opRouteSet
  exact mbRun_done acc tag 0xC200 false (if_neg (by omega))

theorem offMailbox_aFbRt (h : HubId) : OffMailbox (aFbRt h.toNat) := .inl (by have := h.isLt; unfold aFbRt; omega)

theorem opRouteSet_spec (acc : MbAccepts s mb 6) (tag : BitVec 16) {entries : List (HubId × Word)} (few : entries.length ≤ 127) :
    Sent.mailbox mb 0 [] ∈ (opRouteSet mb tag entries s).out ∧ (mb.val < 16 → ∀ h : HubId, rd (opRouteSet mb tag entries s) (aFbRt h.toNat) =
      rd (entries.foldl (fun s e => writeReg 34 (aFbRt e.1.toNat) e.2 none s) s) (aFbRt h.toNat)) := by
  rw [opRouteSet_done acc tag few]
  refine ⟨sent_doneEnd .., fun host h => ?_⟩
  rw [rd_doneEnd (offMailbox_aFbRt h), opened_host host]

/-! ### Joining -/

theorem opFabricJoin_started (acc : MbAccepts s mb 6) (tag : BitVec 16) (known : rdBit s aFbHubid 12 = true) (out : rdFld s aFbStat 0 2 = 0)
    {r : HubId} (other : isRoot s = false) (root : rootId s = some r) :
    opFabricJoin mb tag s =
      startEnd mb 0xC201 tag.toNat (mbInput mb s).1 0 (sendMgt .jnReq r 0 0 0 (wrFld aFbStat 0 2 1 (opened mb s))) := by
  have known' : rdBit (opened mb s) aFbHubid 12 = true := (rd_congr_bits (rd_opened ..) 12).trans known
  have out' : rdFld (opened mb s) aFbStat 0 2 = 0 := (rd_congr_fld (rd_opened ..) 0 2).trans out
  have other' : isRoot (opened mb s) = false := (isRoot_congr (rd_opened ..)).trans other
  have root' : rootId (opened mb s) = some r := (rootId_congr (rd_opened ..)).trans root
  unfold opFabricJoin
  refine mbRun_started acc tag 0xC201 true true ?_
  rw [if_neg (by simp [known', out']), if_neg (by simp [other']), root']

theorem opFabricJoin_spec (acc : MbAccepts s mb 6) (tag : BitVec 16) (known : rdBit s aFbHubid 12 = true) (out : rdFld s aFbStat 0 2 = 0)
    {r : HubId} (other : isRoot s = false) (root : rootId s = some r) :
    rdFld (opFabricJoin mb tag s) aFbStat 0 2 = 1 ∧ Sent.mailbox mb 1 [] ∈ (opFabricJoin mb tag s).out := by
  rw [opFabricJoin_started acc tag known out other root]
  refine ⟨?_, sent_startEnd ..⟩
  rw [rdFld, rd_startEnd (.inl (by decide)), rd_sendMgt, rd_wrFld_self, fld_setFld_self _ _ _ _ (by decide)]
  rfl

/-! ### Buddies -/

/-- A buddy set: the mirror starts with nothing sent (R343). -/
def paired (hub : HubId) (s : State) : State :=
  wrFld aFbBuddy 3 12 hub.toNat (wrFld aFbBuddy 0 2 1 { s with mir :=
    { s.mir with next := 1, sent := [], tries := 0, held := [], expect := 1, early := [], applied := [], copies := [] } })

theorem opBuddyPair_done (acc : MbAccepts s mb 6) (tag : BitVec 16) {hub : HubId} (other : hub ≠ hubId s) (none_yet : rdFld s aFbBuddy 0 2 = 0)
    (whole : rdBit s aFbBuddy 2 = false) :
    opBuddyPair mb tag hub s = doneEnd mb 0xC202 tag.toNat (mbInput mb s).1 [] (paired hub (opened mb s)) := by
  have same : hubId (opened mb s) = hubId s := congrArg (BitVec.ofNat 12) (rd_congr_fld (rd_opened ..) 0 12)
  have whole' : rdBit (opened mb s) aFbBuddy 2 = false := (rd_congr_bits (rd_opened ..) 2).trans whole
  unfold opBuddyPair
  extract_lets pst
  have zero : pst = 0 := none_yet
  refine mbRun_done acc tag 0xC202 false (if_neg ?_)
  rw [same, whole', zero]
  simp [other]

theorem rdFld_paired (hub : HubId) (s : State) : rdFld (paired hub s) aFbBuddy 0 2 = 1 ∧ rdFld (paired hub s) aFbBuddy 3 12 = hub.toNat := by
  refine ⟨?_, ?_⟩
  · rw [paired, rdFld_wrFld_off _ _ _ _ _ _ (by decide) (.inl (by decide)), rdFld, rd_wrFld_self, fld_setFld_self _ _ _ _ (by decide)]
    rfl
  · rw [paired, rdFld, rd_wrFld_self, fld_setFld_self _ _ _ _ (by decide)]
    exact Nat.mod_eq_of_lt hub.isLt

theorem opBuddyPair_spec (acc : MbAccepts s mb 6) (tag : BitVec 16) {hub : HubId} (other : hub ≠ hubId s) (none_yet : rdFld s aFbBuddy 0 2 = 0)
    (whole : rdBit s aFbBuddy 2 = false) :
    ∃ u, opBuddyPair mb tag hub s = u ∧ rdFld u aFbBuddy 0 2 = 1 ∧ buddy u = hub ∧ u.mir.next = 1 ∧ u.mir.sent = [] := by
  obtain ⟨state, of⟩ := rdFld_paired hub (opened mb s)
  have regs : rd (doneEnd mb 0xC202 tag.toNat (mbInput mb s).1 [] (paired hub (opened mb s))) aFbBuddy = rd (paired hub (opened mb s)) aFbBuddy :=
    rd_doneEnd (.inl (by decide)) ..
  have mir : (paired hub (opened mb s)).mir.next = 1 ∧ (paired hub (opened mb s)).mir.sent = [] := ⟨rfl, rfl⟩
  refine ⟨_, opBuddyPair_done acc tag other none_yet whole, (rd_congr_fld regs 0 2).trans state, ?_, ?_, ?_⟩
  · rw [buddy, rd_congr_fld regs, of, BitVec.ofNat_toNat, BitVec.setWidth_eq]
  · rw [mir_of_beyond (beyond_doneEnd ..)]
    exact mir.1
  · rw [mir_of_beyond (beyond_doneEnd ..)]
    exact mir.2

theorem opBuddyUnpair_spec (acc : MbAccepts s mb 6) (tag : BitVec 16) (there : rdFld s aFbBuddy 0 2 ≠ 0) (unused : pairInUse s = false) :
    ∃ u, opBuddyUnpair mb tag s = u ∧ rd u aFbBuddy = 0 := by
  obtain ⟨free, parts, eq⟩ := opened_eq mb s
  have unused' : pairInUse (opened mb s) = false := by rw [eq]; exact unused
  have done : opBuddyUnpair mb tag s = doneEnd mb 0xC202 tag.toNat (mbInput mb s).1 [] (wr aFbBuddy 0 (opened mb s)) := by
    unfold opBuddyUnpair
    refine mbRun_done acc tag 0xC202 false (if_neg ?_)
    rw [rd_congr_fld (rd_opened ..), unused']
    simp [there]
  exact ⟨_, done, by rw [rd_doneEnd (.inl (by decide)), rd_wr_self]⟩

/-! ### Takeovers that are planned -/

theorem mirrorOn_opened (on : mirrorOn s = true) : mirrorOn (opened mb s) = true := by
  rw [mirrorOn, rd_congr_fld (rd_opened ..)]
  exact on

theorem mir_opened (mb : Nat) (s : State) : (opened mb s).mir = s.mir := by
  obtain ⟨free, parts, eq⟩ := opened_eq mb s
  rw [eq]

theorem opTakeover_spec (acc : MbAccepts s mb 6) (tag : BitVec 16) (unplanned : s.mir.planned = 0) (on : mirrorOn s = true) :
    ∃ u, opTakeover mb tag s = u ∧ u.mir = { s.mir with planned := 1 } := by
  have started : opTakeover mb tag s =
      startEnd mb 0xC203 tag.toNat (mbInput mb s).1 0 { opened mb s with mir := { (opened mb s).mir with planned := 1 } } := by
    unfold opTakeover
    refine mbRun_started acc tag 0xC203 true true ?_
    rw [if_neg (by rw [mir_opened]; exact not_not.2 unplanned), if_neg (by rw [mirrorOn_opened on]; decide)]
  exact ⟨_, started, by rw [mir_of_beyond (beyond_startEnd ..), mir_opened]⟩

/-- A handback begun: a task that gives the entries back (R351). -/
def handing (s : State) : State := { s with mir := { s.mir with back := true }, bg := s.bg ++ [⟨.handback, 0, 0, 0, false⟩] }

theorem opTakeoverHandback_spec (acc : MbAccepts s mb 6) (tag : BitVec 16) (idle : s.mir.back = false) (taken : rdBit s aFbBuddy 2 = true)
    (on : mirrorOn s = true) :
    ∃ u, opTakeoverHandback mb tag s = u ∧ u.mir.back = true ∧ u.bg = s.bg ++ [⟨.handback, 0, 0, 0, false⟩] := by
  obtain ⟨free, parts, eq⟩ := opened_eq mb s
  have started : opTakeoverHandback mb tag s = startEnd mb 0xC203 tag.toNat (mbInput mb s).1 1 (handing (opened mb s)) := by
    unfold opTakeoverHandback
    refine mbRun_started acc tag 0xC203 true true ?_
    rw [if_neg (by rw [mir_opened, idle]; decide), rd_congr_bits (rd_opened ..), taken, mirrorOn_opened on]
    rfl
  refine ⟨_, started, ?_, ?_⟩
  · rw [mir_of_beyond (beyond_startEnd ..)]
    rfl
  · rw [bg_of_beyond (beyond_startEnd ..), handing, eq]

/-! ### Messages of the fabric mailbox -/

variable {h : Hdr} {payload : BitVec 512}

/-- A payload found its cell: the message acts, and its cell has been read. -/
theorem opMbmsg_taken (free : (takeCells h.tc.toNat 1 1 s).isSome = true) (payload : BitVec 512) :
    ∃ cs lar rx links, opMbmsg h payload s = doneReading cs (mbPart h payload { s with lar := lar, rx := rx, links := links }) := by
  unfold opMbmsg
  exact withPayload_taken free _ _ _

theorem mbPart_kept (small : h.xtra.toNat < 2 ^ 63) (listed : fmSource s h.src = true) : mbPart h payload s =
    { s with ctl := { s.ctl with parts := mupd [] s.ctl.parts h.src.toNat fun l => l ++ [payload], src := h.src.toNat } } := by
  rw [mbPart, if_neg (by omega), listed]
  rfl

theorem mbPart_unlisted (small : h.xtra.toNat < 2 ^ 63) (unlisted : fmSource s h.src = false) : mbPart h payload s = s := by
  rw [mbPart, if_neg (by omega), unlisted]
  rfl

/-- A mirror entry of the buddy set (R349). -/
theorem rd_mbPart_entry (entry : 2 ^ 63 ≤ h.xtra.toNat) (from_buddy : h.src = buddy s) (there : rdFld s aFbBuddy 0 2 ≠ 0) :
    rd (mbPart h payload s) (aFbPmir (h.xtra.toNat % 8)) = BitVec.ofNat 64 payload.toNat ∧
      rd (mbPart h payload s) (aFbPmir (h.xtra.toNat % 8) + 8) = BitVec.ofNat 64 (payload.toNat / 2 ^ 64) := by
  have apart : (aFbPmir (h.xtra.toNat % 8) + 8) / 8 ≠ aFbPmir (h.xtra.toNat % 8) / 8 := by omega
  rw [mbPart, if_pos entry, if_neg (by simp [from_buddy, there])]
  refine ⟨rd_wr_self .., ?_⟩
  rw [rd_wr_ne _ _ apart, rd_wr_self, Nat.shiftRight_eq_div_pow]

theorem opMbmsg_kept (free : (takeCells h.tc.toNat 1 1 s).isSome = true) (small : h.xtra.toNat < 2 ^ 63) (listed : fmSource s h.src = true) :
    (opMbmsg h payload s).ctl.src = h.src.toNat ∧
      mgetD [] (opMbmsg h payload s).ctl.parts h.src.toNat = mgetD [] s.ctl.parts h.src.toNat ++ [payload] := by
  obtain ⟨cs, lar, rx, links, eq⟩ := opMbmsg_taken free payload
  rw [eq, mbPart_kept small (s := { s with lar := lar, rx := rx, links := links }) listed]
  exact ⟨rfl, mgetD_mput_self ..⟩

theorem opMbmsg_unlisted (small : h.xtra.toNat < 2 ^ 63) (unlisted : fmSource s h.src = false) : (opMbmsg h payload s).ctl = s.ctl := by
  cases found : takeCells h.tc.toNat 1 1 s with
  | none =>
    unfold opMbmsg
    rw [withPayload_full found]
  | some x =>
    obtain ⟨cs, lar, rx, links, eq⟩ := opMbmsg_taken (Option.isSome_iff_exists.2 ⟨x, found⟩) payload
    rw [eq, mbPart_unlisted small (s := { s with lar := lar, rx := rx, links := links }) unlisted]
    rfl

theorem opMbmsg_entry (free : (takeCells h.tc.toNat 1 1 s).isSome = true) (entry : 2 ^ 63 ≤ h.xtra.toNat) (from_buddy : h.src = buddy s)
    (there : rdFld s aFbBuddy 0 2 ≠ 0) :
    rd (opMbmsg h payload s) (aFbPmir (h.xtra.toNat % 8)) = BitVec.ofNat 64 payload.toNat ∧
      rd (opMbmsg h payload s) (aFbPmir (h.xtra.toNat % 8) + 8) = BitVec.ofNat 64 (payload.toNat / 2 ^ 64) := by
  obtain ⟨cs, lar, rx, links, eq⟩ := opMbmsg_taken free payload
  have regs : ∀ (t : State) a, rd (doneReading cs t) a = rd t a := fun t => rd_congr rfl rfl
  rw [eq, regs, regs]
  exact rd_mbPart_entry (s := { s with lar := lar, rx := rx, links := links }) entry from_buddy there

end Sys2Proof.Machine

namespace Sys2Proof

open Machine

/-- Settles O36: a command by what it does to the opened block, and a message by what it does once its payload has a cell. -/
theorem fabricCommands : Obligations.FabricCommands := by
  refine ⟨fun s mb tag acc => ⟨fun entries few => ⟨_, rfl, opRouteSet_spec acc tag few⟩, fun known out r other root => ⟨_, rfl, ?_⟩, ?_, ?_, ?_, ?_⟩,
    fun s h payload run => ⟨fun full => ⟨_, live_follow run (opMbmsg h payload), withPayload_full full⟩, fun free small listed => ⟨_, live_follow run (opMbmsg h payload), ?_⟩,
      fun small unlisted => ⟨_, live_follow run (opMbmsg h payload), ?_⟩, fun free entry from_buddy there => ⟨_, live_follow run (opMbmsg h payload), ?_⟩⟩⟩
  · exact opFabricJoin_spec acc tag known out other root
  · intro hub other none_yet whole
    obtain ⟨u, eq, spec⟩ := opBuddyPair_spec acc tag other none_yet whole
    exact ⟨u, congrArg (fun z => Host.Outcome.next (follow z)) eq, spec⟩
  · intro there unused
    obtain ⟨u, eq, spec⟩ := opBuddyUnpair_spec acc tag there unused
    exact ⟨u, congrArg (fun z => Host.Outcome.next (follow z)) eq, spec⟩
  · intro unplanned on
    obtain ⟨u, eq, spec⟩ := opTakeover_spec acc tag unplanned on
    exact ⟨u, congrArg (fun z => Host.Outcome.next (follow z)) eq, spec⟩
  · intro idle taken on
    obtain ⟨u, eq, spec⟩ := opTakeoverHandback_spec acc tag idle taken on
    exact ⟨u, congrArg (fun z => Host.Outcome.next (follow z)) eq, spec⟩
  · exact opMbmsg_kept free small listed
  · exact opMbmsg_unlisted small unlisted
  · exact opMbmsg_entry free entry from_buddy there

end Sys2Proof
end

section
/-! PROOFS. The commands of retirement and repair (R394 to R416, R573, R575). -/

namespace Sys2Proof.Machine

variable {s : State} {mb : Mailbox}

/-- With room on the Lumber list a repair goes on. -/
theorem unlessFull_room (room : s.flash.lumber.length < 4096) (f : State → Ans × State) : unlessFull f s = f s := if_neg (by omega)

theorem room_opened (mb : Nat) (room : s.flash.lumber.length < 4096) : (opened mb s).flash.lumber.length < 4096 := by
  rw [flash_opened]
  exact room

/-- A repair command with room on the list is started where what it does to the opened block starts it. -/
theorem repair_started (acc : MbAccepts s mb 7) (tag : BitVec 16) (opc : Nat) (room : s.flash.lumber.length < 4096) {f : State → Ans × State} {obj : Nat}
    {u : State} (acts : f (opened mb s) = (.started obj, u)) :
    mbRun mb tag opc 7 true true (unlessFull f) s = startEnd mb opc tag.toNat (mbInput mb s).1 obj u :=
  mbRun_started acc tag opc true true ((unlessFull_room (room_opened mb room) f).trans acts)

/-- What the opened block keeps for the repairs. -/
theorem opened_repair (mb : Nat) (s : State) : (opened mb s).hc = s.hc ∧ (opened mb s).prot = s.prot ∧ (opened mb s).bg = s.bg := by
  obtain ⟨free, parts, eq⟩ := opened_eq mb s
  rw [eq]
  exact ⟨rfl, rfl, rfl⟩

/-! ### Frames and pseudo-channels -/

theorem opRetireFrame_spec (acc : MbAccepts s mb 7) (tag : BitVec 16) (room : s.flash.lumber.length < 4096) {set way : Nat} (hway : way < 16)
    (hset : set < if isH1 s then 2097152 else 229376) (whole : (getWay s (16 * set + way)).ret = false) (unwanted : 16 * set + way ∉ s.hc.retWant) :
    ∃ u, opRetireFrame mb tag set way s = u ∧ u.hc.retWant = s.hc.retWant ++ [16 * set + way] ∧ Sent.mailbox mb 1 [] ∈ u.out := by
  obtain ⟨hc, -, -⟩ := opened_repair mb s
  have size : isH1 (opened mb s) = isH1 s := by
    obtain ⟨free, parts, eq⟩ := opened_eq mb s
    rw [eq]
    rfl
  have started : opRetireFrame mb tag set way s = startEnd mb 0xC300 tag.toNat (mbInput mb s).1 (16 * set + way)
      { opened mb s with hc := { (opened mb s).hc with retWant := (opened mb s).hc.retWant ++ [16 * set + way] } } := by
    unfold opRetireFrame
    refine repair_started acc tag 0xC300 room (if_neg ?_)
    have whole' : (getWay (opened mb s) (16 * set + way)).ret = false := by rw [getWay, hc]; exact whole
    rw [size, whole', hc]
    simp only [unwanted, or_false, Bool.false_eq_true, not_or]
    omega
  refine ⟨_, started, ?_, sent_startEnd ..⟩
  rw [hc_of_beyond (beyond_startEnd ..), hc]

/-- A pseudo-channel's retirement begun: a task that empties it (R573). -/
def pcRetiring (pc : Nat) (s : State) : State := { s with hc := { s.hc with pcWant := some pc }, bg := s.bg ++ [⟨.pcRetire, 0, 0, 0, false⟩] }

theorem opRetirePc_spec (acc : MbAccepts s mb 7) (tag : BitVec 16) (room : s.flash.lumber.length < 4096) {pc : Nat} (idle : s.hc.pcWant = none)
    (h1 : isH1 s = true) (hpc : pc < 128) (whole : pc ∉ s.hc.retPcs) :
    ∃ u, opRetirePc mb tag pc s = u ∧ u.hc.pcWant = some pc ∧ u.bg = s.bg ++ [⟨.pcRetire, 0, 0, 0, false⟩] := by
  obtain ⟨hc, -, bg⟩ := opened_repair mb s
  have size : isH1 (opened mb s) = true := by
    obtain ⟨free, parts, eq⟩ := opened_eq mb s
    rw [eq]
    exact h1
  have started : opRetirePc mb tag pc s = startEnd mb 0xC301 tag.toNat (mbInput mb s).1 pc (pcRetiring pc (opened mb s)) := by
    unfold opRetirePc
    refine repair_started acc tag 0xC301 room ?_
    rw [if_neg (by rw [hc, idle]; decide), if_neg (by simp [size, hc, whole, hpc])]
    rfl
  refine ⟨_, started, ?_, ?_⟩
  · rw [hc_of_beyond (beyond_startEnd ..)]
    rfl
  · rw [bg_of_beyond (beyond_startEnd ..), pcRetiring, bg]

/-! ### Spare rows and banks -/

theorem opSpareRow_spec (acc : MbAccepts s mb 7) (tag : BitVec 16) (room : s.flash.lumber.length < 4096) (unit : Fin 16) {row : Nat} (hrow : row < 65536)
    (left : rowsUsed s (row % 4) (row / 4 % 32) < 8) : ∃ u, opSpareRow mb tag unit row s = u ∧ u.prot.rows = s.prot.rows ++ [(unit.val, row, 0)] := by
  obtain ⟨-, prot, -⟩ := opened_repair mb s
  have left' : rowsUsed (opened mb s) (row % 4) (row / 4 % 32) < 8 := by rw [rowsUsed, flash_opened, prot]; exact left
  have taken : startRow unit row 0 (opened mb s) =
      (true, { opened mb s with prot := { (opened mb s).prot with rows := (opened mb s).prot.rows ++ [(unit.val, row % 65536, 0)] } }) :=
    if_neg (Nat.not_le.2 left')
  have started : opSpareRow mb tag unit row s = startEnd mb 0xC302 tag.toNat (mbInput mb s).1 row
      { opened mb s with prot := { (opened mb s).prot with rows := (opened mb s).prot.rows ++ [(unit.val, row % 65536, 0)] } } := by
    unfold opSpareRow
    refine repair_started acc tag 0xC302 room ?_
    rw [if_neg (by omega), taken]
    rfl
  refine ⟨_, started, ?_⟩
  rw [prot_of_beyond (beyond_startEnd ..), prot, Nat.mod_eq_of_lt hrow]

theorem opSpareBank_spec (acc : MbAccepts s mb 7) (tag : BitVec 16) (room : s.flash.lumber.length < 4096) {bank : Nat} (hbank : bank < 128)
    (left : spareBankUsed s bank = false) : ∃ u, opSpareBank mb tag bank s = u ∧ u.prot.banks = s.prot.banks ++ [bank] := by
  obtain ⟨-, prot, -⟩ := opened_repair mb s
  have left' : spareBankUsed (opened mb s) bank = false := by rw [spareBankUsed, flash_opened, prot]; exact left
  have started : opSpareBank mb tag bank s = startEnd mb 0xC303 tag.toNat (mbInput mb s).1 bank
      { opened mb s with prot := { (opened mb s).prot with banks := (opened mb s).prot.banks ++ [bank] } } := by
    unfold opSpareBank
    refine repair_started acc tag 0xC303 room ?_
    rw [if_neg (by omega), if_neg (by rw [left']; decide)]
  refine ⟨_, started, ?_⟩
  rw [prot_of_beyond (beyond_startEnd ..), prot]

/-- A full Lumber list refuses the repair. -/
theorem opSpareBank_full (acc : MbAccepts s mb 7) (tag : BitVec 16) (full : 4096 ≤ s.flash.lumber.length) (bank : Nat) :
    Sent.mailbox mb 2 [] ∈ (opSpareBank mb tag bank s).out ∧ (opSpareBank mb tag bank s).prot = s.prot := by
  obtain ⟨-, prot, -⟩ := opened_repair mb s
  have refused : opSpareBank mb tag bank s = mbAnswer mb 0xC303 tag.toNat 2 (reason (opened mb s)).1 []
      (mbResult mb 0xC303 tag.toNat 1 2 (reason (opened mb s)).1 (mbInput mb s).1 [] (reason (opened mb s)).2) := by
    unfold opSpareBank
    exact mbRun_refused acc tag 0xC303 true true (if_pos (by rw [flash_opened]; exact full))
  rw [refused]
  refine ⟨sent_mbAnswer .., ?_⟩
  rw [prot_of_beyond ((beyondMb_of_past (past_mbAnswer ..)).trans (beyond_mbResult ..))]
  exact prot

/-! ### Pages -/

/-- A page's retirement begun: a task that moves its lines to the spare page (R413). -/
def pageMoving (page n spare : Nat) (s : State) : State :=
  { s with prot := { s.prot with moving := some (page, n, spare, 0) }, bg := s.bg ++ [⟨.pageRetire, 0, 0, 0, false⟩] }

theorem opRetirePage_spec (acc : MbAccepts s mb 7) (tag : BitVec 16) (room : s.flash.lumber.length < 4096) {page n : Nat} (idle : s.prot.moving = none)
    (set : isetOf s (64 * page) = some n) (pages : s.flash.pages.length < 1024) (spare : nextSpare s n < 1024) (there : populated s (64 * page) = true) :
    ∃ u, opRetirePage mb tag page s = u ∧ u.prot.moving = some (page, n, nextSpare s n, 0) ∧ u.bg = s.bg ++ [⟨.pageRetire, 0, 0, 0, false⟩] := by
  obtain ⟨-, prot, bg⟩ := opened_repair mb s
  obtain ⟨free, parts, eq⟩ := opened_eq mb s
  have set' : isetOf (opened mb s) (64 * page) = some n := by rw [eq]; exact set
  have there' : populated (opened mb s) (64 * page) = true := by rw [eq]; exact there
  have next : nextSpare (opened mb s) n = nextSpare s n := by rw [nextSpare, flash_opened, nextSpare]
  have started : opRetirePage mb tag page s = startEnd mb 0xC304 tag.toNat (mbInput mb s).1 page (pageMoving page n (nextSpare s n) (opened mb s)) := by
    unfold opRetirePage
    refine repair_started acc tag 0xC304 room ?_
    rw [if_neg (by rw [prot, idle]; decide), set']
    refine (if_neg ?_).trans (congrArg (fun k => (Ans.started page, pageMoving page n k (opened mb s))) next)
    rw [flash_opened, next, there']
    simp [pages, spare]
  refine ⟨_, started, ?_, ?_⟩
  · rw [prot_of_beyond (beyond_startEnd ..)]
    rfl
  · rw [bg_of_beyond (beyond_startEnd ..), pageMoving, bg]

/-! ### Slice drains -/

/-- A slice's drain begun: PM_DRAIN shows it, and a task empties it (R181). -/
def drainBegun (slice : Fin 32) (hold : Bool) (left : Nat) (s : State) : State :=
  { wrFld aPmDrain 8 32 left (wrFld aPmDrain 0 6 (1 + 2 * slice.val) s) with bg := s.bg ++ [⟨.sliceDrain, slice, 0, hold.toNat, false⟩] }

theorem rd_draining (slice : Fin 32) (hold : Bool) (left : Nat) (s : State) (a : Nat) :
    rd (drainBegun slice hold left s) a = rd (wrFld aPmDrain 8 32 left (wrFld aPmDrain 0 6 (1 + 2 * slice.val) s)) a := rd_congr rfl rfl a

theorem rdFld_draining (slice : Fin 32) (hold : Bool) (left : Nat) (s : State) :
    rdBit (drainBegun slice hold left s) aPmDrain 0 = true ∧ rdFld (drainBegun slice hold left s) aPmDrain 1 5 = slice.val := by
  have bound := slice.isLt
  refine ⟨?_, ?_⟩
  · rw [rd_congr_bits (rd_draining ..), rdBit_wrFld_off _ _ _ _ _ (by decide) (.inl (by decide)),
      rdBit_wrFld_in _ _ _ _ _ (by decide) (by decide) (by decide)]
    simp
  · rw [rd_congr_fld (rd_draining ..), rdFld_wrFld_off _ _ _ _ _ _ (by decide) (.inl (by decide)),
      rdFld_wrFld_in _ _ _ _ _ _ (by decide) (by decide) (by decide)]
    omega

theorem opSliceDrain_spec (acc : MbAccepts s mb 7) (tag : BitVec 16) (slice : Fin 32) (hold : Bool) (idle : rdBit s aPmDrain 0 = false)
    (free : rdBit s aPmDrain 6 = false) :
    ∃ u, opSliceDrain mb tag slice hold s = u ∧ rdBit u aPmDrain 0 = true ∧ rdFld u aPmDrain 1 5 = slice.val ∧
      u.bg = s.bg ++ [⟨.sliceDrain, slice, 0, hold.toNat, false⟩] := by
  obtain ⟨-, -, bg⟩ := opened_repair mb s
  obtain ⟨on, of⟩ := rdFld_draining slice hold (sliceLeft slice (wrFld aPmDrain 0 6 (1 + 2 * slice.val) (opened mb s))) (opened mb s)
  have started : opSliceDrain mb tag slice hold s = startEnd mb 0xC305 tag.toNat (mbInput mb s).1 slice
      (drainBegun slice hold (sliceLeft slice (wrFld aPmDrain 0 6 (1 + 2 * slice.val) (opened mb s))) (opened mb s)) := by
    unfold opSliceDrain
    refine mbRun_started acc tag 0xC305 true true ?_
    rw [if_neg (by simp [rd_congr_bits (rd_opened mb s aPmDrain), idle, free])]
    rfl
  refine ⟨_, started, ?_, ?_, ?_⟩
  · rw [rd_congr_bits (rd_startEnd (.inl (by decide)) ..)]
    exact on
  · rw [rd_congr_fld (rd_startEnd (.inl (by decide)) ..)]
    exact of
  · rw [bg_of_beyond (beyond_startEnd ..), drainBegun, bg]

theorem opSliceDrainRelease_spec (acc : MbAccepts s mb 7) (tag : BitVec 16) (slice : Fin 32) (held : rdBit s aPmDrain 6 = true)
    (of : rdFld s aPmDrain 1 5 = slice.val) :
    ∃ u, opSliceDrainRelease mb tag slice s = u ∧ rdBit u aPmDrain 6 = false ∧ mget u.ctl.bg mb.val = none := by
  have started : opSliceDrainRelease mb tag slice s = bgEndOn mb ⟨0xC305, tag.toNat, 0⟩ 0
      (startEnd mb 0xC305 tag.toNat (mbInput mb s).1 0 (wrFld aPmDrain 6 1 0 (opened mb s))) := by
    unfold opSliceDrainRelease
    refine mbOnce_started acc tag 0xC305 0 ?_
    rw [if_neg (by simp [rd_congr_bits (rd_opened mb s aPmDrain), rd_congr_fld (rd_opened mb s aPmDrain), held, of])]
  refine ⟨_, started, ?_, bgEndOn_closed ..⟩
  rw [rd_congr_bits (rd_once (.inl (by decide)) ..), rdBit_wrFld_in _ _ _ _ _ (by decide) (by decide) (by decide)]
  rfl

end Sys2Proof.Machine

namespace Sys2Proof

open Machine

/-- Settles O37: each command by what it does to the opened block. -/
theorem retirementCommands : Obligations.RetirementCommands := by
  intro s mb tag acc
  have runs : ∀ {P : State → Prop} {t : State}, (∃ u, t = u ∧ P u) → ∃ u, Host.Outcome.next (follow t) = (.next (follow u) : Host.Outcome State Fault Refusal) ∧ P u :=
    fun ⟨u, eq, h⟩ => ⟨u, congrArg (fun z => Host.Outcome.next (follow z)) eq, h⟩
  refine ⟨fun room => ⟨fun set way hway hset whole unwanted => ?_, fun pc idle h1 hpc whole => ?_, fun unit row hrow left => ?_, fun bank hbank left => ?_,
    fun page n idle set pages spare there => ?_⟩, fun full bank => ⟨_, rfl, opSpareBank_full acc tag full bank⟩, fun slice hold idle free => ?_,
    fun slice held of => ?_⟩
  · exact runs (opRetireFrame_spec acc tag room hway hset whole unwanted)
  · exact runs (opRetirePc_spec acc tag room idle h1 hpc whole)
  · exact runs (opSpareRow_spec acc tag room unit hrow left)
  · exact runs (opSpareBank_spec acc tag room hbank left)
  · exact runs (opRetirePage_spec acc tag room idle set pages spare there)
  · exact runs (opSliceDrain_spec acc tag slice hold idle free)
  · exact runs (opSliceDrainRelease_spec acc tag slice held of)

end Sys2Proof
end

section
/-! PROOFS. Configuration requests and secured sessions of a head (R290, R363, R452). -/

namespace Sys2Proof.Machine

variable {s : State} {p : HPort}

theorem opHeadConfigurationRequest_cold (served : inService s p = true) (host : hostMode s p = true) (cold : s.part.phase = .cold) (c : HeadCfg) :
    opHeadConfigurationRequest p c s = emit (.cfgAns p true 0) s := by
  rw [opHeadConfigurationRequest, if_neg (by simp [served, host]), cold]

theorem opHeadConfigurationRequest_ready (served : inService s p = true) (host : hostMode s p = true) (ready : s.part.phase = .ready) (c : HeadCfg) :
    opHeadConfigurationRequest p c s = configure p c s := by
  rw [opHeadConfigurationRequest, if_neg (by simp [served, host]), ready]

theorem sent_emit (x : Sent) (s : State) : x ∈ (emit x s).out := List.mem_append_right _ (List.mem_singleton_self x)

theorem head_emit (x : Sent) (s : State) (q : Nat) : head (emit x s) q = head s q := rfl

/-- A head's session as its messages leave it (R363). -/
theorem opSpdmMessage_session (served : inService s p = true) (host : hostMode s p = true) (mbs : mbServed s = true) (pelest : pelestUp s = true) :
    opSpdmMessage (p.castLE (by decide)) (.finish true) s = emit (.spdm p true) (setHead p { head s p with session := true } s) ∧
      opSpdmMessage (p.castLE (by decide)) .endSession s = emit (.spdm p false) (setHead p { head s p with session := false } s) := by
  have bound := p.isLt
  have neither : ∀ n, 16 ≤ n → ((p.castLE (by decide : 16 ≤ 18) : Mailbox) : Nat) ≠ n := fun n h => Nat.ne_of_lt (Nat.lt_of_lt_of_le bound h)
  refine ⟨?_, ?_⟩ <;>
    exact (if_neg (by simpa [mbs, pelest] using neither 17 (by decide))).trans ((if_neg (neither 16 (Nat.le_refl _))).trans (if_neg (by simp [served, host])))

end Sys2Proof.Machine

namespace Sys2Proof

open Machine

/-- Settles O23: each request as the head in service takes it. -/
theorem headRequests : Obligations.HeadRequests := by
  intro s p served host
  refine ⟨fun c cold => ⟨_, rfl, opHeadConfigurationRequest_cold served host cold c⟩, fun off be v ready => ⟨_, rfl, ?_⟩,
    fun base size ready => ⟨_, rfl, ?_⟩, fun mbs pelest => ⟨_, rfl, ?_⟩, fun mbs pelest => ⟨_, rfl, ?_⟩⟩
  · rw [opHeadConfigurationRequest_ready served host ready]
    refine ⟨sent_emit .., ?_, rfl⟩
    rw [configure, head_emit, head_setHead_self, mget_mset_self]
    rfl
  · rw [opHeadConfigurationRequest_ready served host ready]
    refine ⟨?_, rfl⟩
    rw [configure, head_emit, head_setHead_self]
  · rw [(opSpdmMessage_session served host mbs pelest).1]
    refine ⟨?_, sent_emit ..⟩
    rw [head_emit, head_setHead_self]
  · rw [(opSpdmMessage_session served host mbs pelest).2, head_emit, head_setHead_self]

end Sys2Proof
end

section
/-! PROOFS. Link encryption of host ports (R462, R463). -/

namespace Sys2Proof.Machine

variable {s : State} {p : HPort}

theorem hst_ideChanged (p : Nat) (h : Head) (s : State) : (ideChanged p h s).hst = s.hst := by
  rw [ideChanged, fireSeq_hst, rsq_hst, wrFld_hst]
  rfl

theorem head_ideChanged (p : Nat) (h : Head) (s : State) : head (ideChanged p h s) p = h := by
  have kept : (ideChanged p h s).ports = (setHead p h s).ports := by rw [ideChanged, fireSeq_ports, rsq_ports, wrFld_ports]
  rw [head_congr kept, head_setHead_self]

/-- A port whose links are no longer all secured shows it (R463). -/
theorem secured_ideChanged {h : Head} (open_io : h.ideIo = 0) (p : Nat) (s : State) : rdBit (ideChanged p h s) (aHpStat p) 8 = false := by
  have unsecured : allSecure (setHead p h s) p h = false := by simp [allSecure, open_io]
  rw [ideChanged, rd_congr_bits (rd_fireSeq ..), rdBit_rsq_self _ (by decide) (by decide), unsecured]
  exact (rdBit_wrFld_in _ _ _ _ _ (by decide) (by decide) (by decide)).trans rfl

/-- The links of port `p` unsecured. -/
def unsecured (p : Nat) (s : State) : State := ideChanged p { head s p with ideMem := 0, ideIo := 0 } s

theorem hostMode_unsecured (p : Nat) (s : State) : hostMode (unsecured p s) p = hostMode s p := by
  rw [hostMode, portSetting, unsecured, hst_ideChanged, hostMode, portSetting]

theorem opHostIdeFailure_agent (on : rdBit s (aHpCtl p) 0 = true) (lead : nonLead s p = false) (agent : hostMode s p = false) :
    opHostIdeFailure p s = { unsecured p s with ports := { (unsecured p s).ports with agentOff :=
      if p.val ∈ (unsecured p s).ports.agentOff then (unsecured p s).ports.agentOff else (unsecured p s).ports.agentOff ++ [p.val] } } := by
  rw [opHostIdeFailure, if_neg (by simp [on, lead])]
  exact if_neg (by rw [show hostMode (ideChanged p _ s) p = _ from hostMode_unsecured p s, agent]; decide)

theorem opHostIdeFailure_host (on : rdBit s (aHpCtl p) 0 = true) (lead : nonLead s p = false) (host : hostMode s p = true) :
    opHostIdeFailure p s = hostDies p (fire 236 0 (oPort 0 p) (unsecured p s)) := by
  rw [opHostIdeFailure, if_neg (by simp [on, lead])]
  exact if_pos ((hostMode_unsecured p s).trans host)

theorem mem_enter (l : List Nat) (x : Nat) : x ∈ (if x ∈ l then l else l ++ [x]) := by
  split <;> simp_all

theorem opHostIdeFailure_agent_spec (on : rdBit s (aHpCtl p) 0 = true) (lead : nonLead s p = false) (agent : hostMode s p = false) :
    p.val ∈ (opHostIdeFailure p s).ports.agentOff ∧ (head (opHostIdeFailure p s) p).ideIo = 0 ∧ rdBit (opHostIdeFailure p s) (aHpStat p) 8 = false := by
  rw [opHostIdeFailure_agent on lead agent]
  refine ⟨mem_enter .., ?_, ?_⟩
  · exact congrArg Head.ideIo (head_ideChanged p _ s)
  · exact (rd_congr_bits (rd_congr rfl rfl _) 8).trans (secured_ideChanged rfl p s)

/-- A key programmed in a session readies its stream. -/
theorem opIdeKmMessage_keyProg (mem : Bool) (session : (head s p).session = true) (none_yet : (if mem then (head s p).ideMem else (head s p).ideIo) = 0) :
    opIdeKmMessage p (.keyProg mem) s = setHead p (if mem then { head s p with ideMem := 1 } else { head s p with ideIo := 1 }) s := by
  rw [opIdeKmMessage]
  extract_lets
  rw [if_neg (by simp [session])]
  exact if_pos none_yet

end Sys2Proof.Machine

namespace Sys2Proof

open Machine

/-- Settles O29: what is unsecured, and what follows for an agent and for a host. -/
theorem securityEvents : Obligations.SecurityEvents := by
  intro s run
  refine ⟨fun p on lead agent => ⟨_, live_follow run (opHostIdeFailure p), opHostIdeFailure_agent_spec on lead agent⟩, fun p on lead host => ?_,
    fun p mem session none_yet => ⟨_, live_running run _, ?_⟩⟩
  · refine ⟨_, fire 236 0 (oPort 0 p) (unsecured p s), live_follow run (opHostIdeFailure p), opHostIdeFailure_host on lead host, ?_⟩
    have kept : head (fire 236 0 (oPort 0 p) (unsecured p s)) p = { head s p with ideMem := 0, ideIo := 0 } :=
      (head_congr (fire_ports ..) p).trans (head_ideChanged ..)
    rw [kept]
    exact ⟨rfl, rfl⟩
  · rw [opIdeKmMessage_keyProg mem session none_yet, head_setHead_self]
    cases mem <;> exact ⟨rfl, rfl⟩

end Sys2Proof
end

section
/-! PROOFS. What only messages, events, counters and records change: the block beside them. -/

namespace Sys2Proof.Machine

variable {s t : State}

/-- The block without its messages, events, counters, records, Boards and free values. -/
def still (s : State) : State :=
  { s with ev := State.reset.ev, out := [], brd := State.reset.brd, routeWait := [], free := 0, cnt := State.reset.cnt, tly := State.reset.tly }

/-- The block also without the cells of the Larder. -/
def quiet (s : State) : State := { still s with lar := State.reset.lar }

theorem quiet_of_still (h : still t = still s) : quiet t = quiet s := by rw [quiet, h, quiet]

/-! ### The fields that stand -/

theorem regs_of_quiet (h : quiet t = quiet s) : t.regs = s.regs := by
  have kept := congrArg State.regs h
  exact kept

theorem part_of_quiet (h : quiet t = quiet s) : t.part = s.part := by
  have kept := congrArg State.part h
  exact kept

theorem hc_of_quiet (h : quiet t = quiet s) : t.hc = s.hc := by
  have kept := congrArg State.hc h
  exact kept

theorem dir_of_quiet (h : quiet t = quiet s) : t.dir = s.dir := by
  have kept := congrArg State.dir h
  exact kept

theorem links_of_quiet (h : quiet t = quiet s) : t.links = s.links := by
  have kept := congrArg State.links h
  exact kept

theorem fab_of_quiet (h : quiet t = quiet s) : t.fab = s.fab := by
  have kept := congrArg State.fab h
  exact kept

theorem mir_of_quiet (h : quiet t = quiet s) : t.mir = s.mir := by
  have kept := congrArg State.mir h
  exact kept

theorem ports_of_quiet (h : quiet t = quiet s) : t.ports = s.ports := by
  have kept := congrArg State.ports h
  exact kept

theorem cel_of_quiet (h : quiet t = quiet s) : t.cel = s.cel := by
  have kept := congrArg State.cel h
  exact kept

theorem req_of_quiet (h : quiet t = quiet s) : t.req = s.req := by
  have kept := congrArg State.req h
  exact kept

theorem home_of_quiet (h : quiet t = quiet s) : t.home = s.home := by
  have kept := congrArg State.home h
  exact kept

theorem hst_of_quiet (h : quiet t = quiet s) : t.hst = s.hst := by
  have kept := congrArg State.hst h
  exact kept

theorem sl_of_quiet (h : quiet t = quiet s) : t.sl = s.sl := by
  have kept := congrArg State.sl h
  exact kept

theorem time_of_quiet (h : quiet t = quiet s) : t.time = s.time := by
  have kept := congrArg State.time h
  exact kept

theorem bg_of_quiet (h : quiet t = quiet s) : t.bg = s.bg := by
  have kept := congrArg State.bg h
  exact kept

theorem ctl_of_quiet (h : quiet t = quiet s) : t.ctl = s.ctl := by
  have kept := congrArg State.ctl h
  exact kept

theorem prot_of_quiet (h : quiet t = quiet s) : t.prot = s.prot := by
  have kept := congrArg State.prot h
  exact kept

theorem flash_of_quiet (h : quiet t = quiet s) : t.flash = s.flash := by
  have kept := congrArg State.flash h
  exact kept

theorem halted_of_quiet (h : quiet t = quiet s) : t.halted = s.halted := by
  have kept := congrArg State.halted h
  exact kept

theorem rx_of_quiet (h : quiet t = quiet s) : t.rx = s.rx := by
  have kept := congrArg State.rx h
  exact kept

theorem sweep_of_quiet (h : quiet t = quiet s) : t.sweep = s.sweep := by
  have kept := congrArg State.sweep h
  exact kept

theorem hf_of_quiet (h : quiet t = quiet s) : t.hf = s.hf := by
  have kept := congrArg State.hf h
  exact kept

theorem rd_of_quiet (h : quiet t = quiet s) (a : Nat) : rd t a = rd s a := rd_congr (part_of_quiet h) (regs_of_quiet h) a

theorem rdBit_of_quiet (h : quiet t = quiet s) (a i : Nat) : rdBit t a i = rdBit s a i := rd_congr_bits (rd_of_quiet h a) i

theorem rdFld_of_quiet (h : quiet t = quiet s) (a lo n : Nat) : rdFld t a lo n = rdFld s a lo n := rd_congr_fld (rd_of_quiet h a) lo n

theorem link_of_quiet (h : quiet t = quiet s) (p : Nat) : link t p = link s p := link_congr (links_of_quiet h) p

/-! ### Events, counters, records -/

@[simp] theorem still_fireSeq (n c : Nat) (o1 o2 : Obj) (q : Nat) (s : State) : still (fireSeq n c o1 o2 q s) = still s := by simp [still]

@[simp] theorem still_fire (n c : Nat) (o : Obj) (s : State) : still (fire n c o s) = still s := still_fireSeq ..

@[simp] theorem still_tally (orig kind res : Nat) (tg old new aux : Word) (s : State) : still (tally orig kind res tg old new aux s) = still s := by simp [still]

@[simp] theorem still_tallyAuto (orig a src : Nat) (old new : Word) (o : Obj) (s : State) : still (tallyAuto orig a src old new o s) = still s := still_tally ..

@[simp] theorem still_count (a n : Nat) (s : State) : still (count a n s) = still s := by simp [still]

@[simp] theorem quiet_fireSeq (n c : Nat) (o1 o2 : Obj) (q : Nat) (s : State) : quiet (fireSeq n c o1 o2 q s) = quiet s := quiet_of_still (still_fireSeq ..)

@[simp] theorem quiet_fire (n c : Nat) (o : Obj) (s : State) : quiet (fire n c o s) = quiet s := quiet_of_still (still_fire ..)

@[simp] theorem quiet_tallyAuto (orig a src : Nat) (old new : Word) (o : Obj) (s : State) : quiet (tallyAuto orig a src old new o s) = quiet s :=
  quiet_of_still (still_tallyAuto ..)

@[simp] theorem quiet_count (a n : Nat) (s : State) : quiet (count a n s) = quiet s := quiet_of_still (still_count ..)

/-! ### Messages -/

@[simp] theorem still_emit (x : Sent) (s : State) : still (emit x s) = still s := rfl

@[simp] theorem still_enqueue (b : Nat) (w : Waiter) (s : State) : still (enqueue b w s) = still s := rfl

@[simp] theorem still_egress (p i : Nat) (cells : List Nat) (m : Msg) (s : State) : still (egress p i cells m s) = still s := rfl

@[simp] theorem still_dispatch (i : Nat) (cells : List Nat) (m : Msg) (s : State) : still (dispatch i cells m s) = still s := by
  unfold dispatch
  split
  · rfl
  · exact apply_ite_same still (still_fire ..) rfl

@[simp] theorem still_sendMgt (opc : Opc) (dst : HubId) (x len : Nat) (d : BitVec 512) (s : State) (cells : List Nat) :
    still (sendMgt opc dst x len d s cells) = still s := by
  unfold sendMgt
  extract_lets m
  split
  · rfl
  · exact still_dispatch ..

@[simp] theorem still_send (opc : Opc) (dst : HubId) (h : Hdr) (d : Data) (cells : List Nat) (s : State) : still (send opc dst h d cells s) = still s :=
  still_dispatch ..

/-- A message that takes no cell of a reserve leaves the Larder. -/
theorem still_send0 {opc : Opc} (plain : queuedInReserve opc = false) (dst : HubId) (h : Hdr) (s : State) : still (send0 opc dst h s) = still s := by
  rw [send0, if_neg (by simp [plain])]
  exact still_send ..

@[simp] theorem quiet_sendMgt (opc : Opc) (dst : HubId) (x len : Nat) (d : BitVec 512) (s : State) (cells : List Nat) :
    quiet (sendMgt opc dst x len d s cells) = quiet s := quiet_of_still (still_sendMgt ..)

@[simp] theorem quiet_send (opc : Opc) (dst : HubId) (h : Hdr) (d : Data) (cells : List Nat) (s : State) : quiet (send opc dst h d cells s) = quiet s :=
  quiet_of_still (still_send ..)

theorem takeFrom_larder {sh tc n : Nat} {x : List Nat × State} (h : takeFrom sh tc n s = some x) : ∃ lar, x.2 = { s with lar := lar } := by
  induction n generalizing s x with
  | zero =>
    obtain rfl := Option.some.inj h
    exact ⟨s.lar, rfl⟩
  | succ n ih =>
    unfold takeFrom at h
    split at h
    · obtain ⟨c, one, h⟩ := Option.bind_eq_some_iff.1 h
      obtain ⟨y, rest, rfl⟩ := Option.map_eq_some_iff.1 h
      obtain ⟨l1, e1⟩ := takeCellFrom_larder one
      obtain ⟨l2, e2⟩ := ih rest
      exact ⟨l2, by rw [e2, e1]⟩
    · cases h

theorem protoCell_larder (tc : Nat) (s : State) : ∃ lar, (protoCell tc s).2 = { s with lar := lar } := by
  unfold protoCell
  cases taken : takeFrom (backShare s) tc 1 s with
  | none => exact ⟨s.lar, rfl⟩
  | some x => exact takeFrom_larder taken

@[simp] theorem quiet_protoCell (tc : Nat) (s : State) : quiet (protoCell tc s).2 = quiet s := by
  obtain ⟨lar, eq⟩ := protoCell_larder tc s
  rw [eq]
  rfl

@[simp] theorem quiet_send0 (opc : Opc) (dst : HubId) (h : Hdr) (s : State) (caused : Bool) : quiet (send0 opc dst h s caused) = quiet s := by
  unfold send0
  split
  · exact (quiet_send ..).trans (quiet_protoCell ..)
  · exact quiet_send ..

theorem quiet_foldl {α : Type} {step : State → α → State} (keeps : ∀ s x, quiet (step s x) = quiet s) (l : List α) (s : State) :
    quiet (l.foldl step s) = quiet s := foldl_frame quiet keeps l s

/-! ### What goes on after a command -/

/-- A command that leaves the cellar path, the mirror and the fences needs nothing to go on. -/
theorem followAfter_quiet (h : quiet t = quiet s) : followAfter s t = t := by
  rw [followAfter, if_pos]
  rw [cel_of_quiet h, mir_of_quiet h, ports_of_quiet h]
  exact ⟨rfl, rfl, rfl, rfl⟩

end Sys2Proof.Machine
end

section
/-! PROOFS. What the commands of an Idior link leave (R301 to R311): flits, wire units, retraining and failure of a port. -/

namespace Sys2Proof.Machine

variable {s t : State}

/-! ### The block beside its links -/

/-- The block without what a link, its messages and a seal halt change. -/
def offLink (s : State) : State :=
  { still s with regs := [], links := [], rx := [], sl := State.reset.sl, ports := State.reset.ports, flash := State.reset.flash, halted := none }

theorem offLink_of_still (h : still t = still s) : offLink t = offLink s := by rw [offLink, h, offLink]

theorem offLink_of_past (h : pastAnswer t = pastAnswer s) : offLink t = offLink s := by
  have past : ∀ u, offLink (pastAnswer u) = offLink u := fun _ => rfl
  rw [← past t, h, past s]

theorem hc_of_offLink (h : offLink t = offLink s) : t.hc = s.hc := by
  have kept := congrArg State.hc h
  exact kept

theorem dir_of_offLink (h : offLink t = offLink s) : t.dir = s.dir := by
  have kept := congrArg State.dir h
  exact kept

@[simp] theorem offLink_wr (a : Nat) (v : Word) (s : State) : offLink (wr a v s) = offLink s := rfl

@[simp] theorem offLink_wrFld (a lo n v : Nat) (s : State) : offLink (wrFld a lo n v s) = offLink s := rfl

@[simp] theorem offLink_fire (n c : Nat) (o : Obj) (s : State) : offLink (fire n c o s) = offLink s := offLink_of_still (still_fire ..)

@[simp] theorem offLink_tallyAuto (orig a src : Nat) (old new : Word) (o : Obj) (s : State) : offLink (tallyAuto orig a src old new o s) = offLink s :=
  offLink_of_still (still_tallyAuto ..)

@[simp] theorem offLink_count (a n : Nat) (s : State) : offLink (count a n s) = offLink s := offLink_of_still (still_count ..)

@[simp] theorem offLink_emit (x : Sent) (s : State) : offLink (emit x s) = offLink s := rfl

@[simp] theorem offLink_setLink (p : Nat) (k : Link) (s : State) : offLink (setLink p k s) = offLink s := rfl

@[simp] theorem offLink_setLinkState (p st : Nat) (s : State) : offLink (setLinkState p st s) = offLink s := offLink_of_past (past_setLinkState ..)

theorem offLink_halting (cause : Nat) (s : State) : offLink (markDirty { eraseKeys s with halted := some cause }) = offLink s := rfl

theorem offLink_foldl {α : Type} {step : State → α → State} (keeps : ∀ s x, offLink (step s x) = offLink s) (l : List α) (s : State) :
    offLink (l.foldl step s) = offLink s := foldl_frame offLink keeps l s

@[simp] theorem offLink_sealHalt (cause port la : Nat) (s : State) : offLink (sealHalt cause port la s) = offLink s := by
  unfold sealHalt
  split
  · rfl
  · extract_lets o s1 s2 s3 s4
    have h1 : offLink s1 = offLink s := (offLink_wr ..).trans ((offLink_wr ..).trans (offLink_wrFld ..))
    have h2 : offLink s2 = offLink s := (offLink_tallyAuto ..).trans ((offLink_fire ..).trans h1)
    have h3 : offLink s3 = offLink s := (offLink_foldl (fun _ _ => offLink_emit ..) _ _).trans h2
    exact (offLink_halting ..).trans h3

@[simp] theorem offLink_wireUnit (p : Nat) (s : State) : offLink (wireUnit p s) = offLink s := by
  unfold wireUnit
  extract_lets k
  exact apply_ite_same offLink (offLink_sealHalt ..) rfl

@[simp] theorem offLink_emitFlit (p seq : Nat) (ms : List Msg) (s : State) : offLink (emitFlit p seq ms s) = offLink s := rfl

@[simp] theorem offLink_sendNak (p : Nat) (s : State) : offLink (sendNak p s) = offLink s := by
  unfold sendNak
  extract_lets k
  exact apply_ite_same offLink rfl ((offLink_count ..).trans (offLink_wireUnit ..))

@[simp] theorem offLink_checkFlit (p : Nat) (f : FlitHead) (s : State) : offLink (checkFlit p f s).2 = offLink s := by
  unfold checkFlit
  extract_lets s1
  have h1 : offLink s1 = offLink s := offLink_count ..
  split
  · exact (offLink_sendNak ..).trans ((offLink_count ..).trans h1)
  · split
    · exact (offLink_sendNak ..).trans h1
    · split
      · exact (offLink_sealHalt ..).trans h1
      · exact h1

@[simp] theorem offLink_linkHead (p : Nat) (f : FlitHead) (s : State) : offLink (linkHead p f s) = offLink s := rfl

@[simp] theorem offLink_retrain (p : Nat) (full : Bool) (s : State) : offLink (retrain p full s) = offLink s := by
  unfold retrain
  split
  · rfl
  · extract_lets s1
    exact (offLink_fire ..).trans ((offLink_count ..).trans (offLink_setLinkState ..))

@[simp] theorem offLink_sendAgain (p : Nat) (fs : List (Nat × List Msg)) (s : State) : offLink (sendAgain p fs s) = offLink s := by
  refine offLink_foldl (fun s f => ?_) fs s
  exact (offLink_wireUnit ..).trans ((offLink_emitFlit ..).trans ((offLink_foldl (fun _ _ => offLink_emit ..) _ _).trans (offLink_count ..)))

@[simp] theorem offLink_failPort (p : Nat) (s : State) : offLink (failPort p s) = offLink s := by
  unfold failPort
  extract_lets _ s1 peer h
  have h1 : offLink s1 = offLink s := (offLink_setLinkState ..).trans (offLink_setLink ..)
  split
  · exact h1
  · exact (offLink_of_still (still_send0 rfl ..)).trans h1

@[simp] theorem offLink_nakIn (p : Nat) (f : FlitHead) (s : State) : offLink (nakIn p f s) = offLink s := by
  unfold nakIn
  extract_lets k n s1
  exact apply_ite_same offLink (offLink_retrain ..) (offLink_sendAgain ..)

@[simp] theorem offLink_reportAck (p : Nat) (s : State) : offLink (reportAck p s) = offLink s := by
  unfold reportAck
  extract_lets k ack one s1
  have units : ∀ s x, offLink (one s x) = offLink s := fun s x => offLink_foldl (fun _ _ => (offLink_wireUnit ..).trans (offLink_emit ..)) _ _
  have h1 : offLink s1 = offLink s := apply_ite_same offLink ((offLink_wireUnit ..).trans (offLink_emit ..)) (offLink_foldl units _ _)
  exact (offLink_setLink ..).trans h1

/-! ### Wire units -/

/-- A wire unit that is not a link's last only counts (R460). -/
theorem wireUnit_counts {p : Nat} (fits : (link s p).wires + 1 < 2 ^ 64) :
    wireUnit p s = setLink p { link s p with wires := (link s p).wires + 1 } s := by
  unfold wireUnit
  exact if_neg (by omega)

/-! ### Flits sent again -/

/-- `t` follows `s` by `n` wire units of port `p`: they are counted, and what was sent before still stands. -/
structure SentOn (p n : Nat) (s t : State) : Prop where
  link : link t p = { link s p with wires := (link s p).wires + n }
  regs : t.regs = s.regs
  part : t.part = s.part
  out : s.out <+: t.out

theorem SentOn.trans {p n m : Nat} {u : State} (h : SentOn p n s t) (k : SentOn p m t u) : SentOn p (n + m) s u where
  link := by rw [k.link, h.link, Nat.add_assoc]
  regs := k.regs.trans h.regs
  part := k.part.trans h.part
  out := h.out.trans k.out

/-- One flit sent again, before it goes out: counted, with its messages on the wire. -/
def flitOut (p : Nat) (f : Nat × List Msg) (s : State) : State :=
  f.2.foldl (fun s m => emit (.xfer (56 + p) (.msg m)) s) (count (aIpCnt p 5) 1 s)

theorem sendAgain_cons (p : Nat) (f : Nat × List Msg) (fs : List (Nat × List Msg)) (s : State) :
    sendAgain p (f :: fs) s = sendAgain p fs (wireUnit p (emitFlit p f.1 f.2 (flitOut p f s))) := rfl

theorem still_flitOut (p : Nat) (f : Nat × List Msg) (s : State) : still (flitOut p f s) = still s :=
  (foldl_frame still (fun _ _ => still_emit ..) _ _).trans (still_count ..)

theorem out_emitted (p : Nat) (ms : List Msg) (s : State) :
    (ms.foldl (fun s m => emit (.xfer (56 + p) (.msg m)) s) s).out = s.out ++ ms.map fun m => Sent.xfer (56 + p) (.msg m) := by
  induction ms generalizing s with
  | nil => simp
  | cons m ms ih =>
    rw [List.foldl_cons, ih]
    simp [emit]

theorem out_flitOut (p : Nat) (f : Nat × List Msg) (s : State) :
    s.out <+: (flitOut p f s).out ∧ ∀ m ∈ f.2, Sent.xfer (56 + p) (.msg m) ∈ (flitOut p f s).out := by
  rw [flitOut, out_emitted]
  refine ⟨(out_count s _ _).trans (List.prefix_append ..), fun m hm => List.mem_append_right _ ?_⟩
  exact List.mem_map_of_mem hm

/-- The tag and the slots of a flit of link `k` that is its wire unit `n` (R460). -/
def sealedFlit (serial p n : Nat) (k : Link) (e : Nat × List Msg) : Sent :=
  let iv := BitVec.ofNat 96 (serial % 2 ^ 32 * 2 ^ 64 + n)
  let slots := Config.linkSlots (k.key.getD 0) iv e.2
  let head := dataHead e.1 (lastGood k)
  .flit p head slots (Config.linkTag (k.key.getD 0) iv head slots)

theorem emitFlit_sealed (p : Nat) (f : Nat × List Msg) (s : State) :
    emitFlit p f.1 f.2 s = emit (sealedFlit s.part.serial.toNat p (link s p).wires (link s p) f) s := rfl

/-- One flit sent again. -/
theorem sendAgain_one {p : Nat} {f : Nat × List Msg} (fits : (link s p).wires + 1 < 2 ^ 64) :
    SentOn p 1 s (wireUnit p (emitFlit p f.1 f.2 (flitOut p f s))) ∧
      (∀ m ∈ f.2, Sent.xfer (56 + p) (.msg m) ∈ (wireUnit p (emitFlit p f.1 f.2 (flitOut p f s))).out) ∧
      sealedFlit s.part.serial.toNat p (link s p).wires (link s p) f ∈ (wireUnit p (emitFlit p f.1 f.2 (flitOut p f s))).out := by
  have same : quiet (flitOut p f s) = quiet s := quiet_of_still (still_flitOut ..)
  have regs := regs_of_quiet same
  have part := part_of_quiet same
  obtain ⟨grown, messages⟩ := out_flitOut p f s
  have here : link (emitFlit p f.1 f.2 (flitOut p f s)) p = link s p := link_of_quiet same p
  have flit := emitFlit_sealed p f (flitOut p f s)
  rw [link_of_quiet same, part_of_quiet same] at flit
  rw [wireUnit_counts (by rw [here]; exact fits), here, flit]
  refine ⟨⟨link_setLink_self .., regs, part, grown.trans (out_emit ..)⟩, fun m hm => ?_, ?_⟩
  · exact List.mem_append_left _ (messages m hm)
  · exact sent_emit ..

/-- The flits `fs` sent again, each sealed anew as a wire unit of its own (R306, R460). -/
theorem sendAgain_all {p : Nat} {fs : List (Nat × List Msg)} (fits : (link s p).wires + fs.length < 2 ^ 64) :
    SentOn p fs.length s (sendAgain p fs s) ∧ (∀ e ∈ fs, ∀ m ∈ e.2, Sent.xfer (56 + p) (.msg m) ∈ (sendAgain p fs s).out) ∧
      ∀ i e, fs[i]? = some e → sealedFlit s.part.serial.toNat p ((link s p).wires + i) (link s p) e ∈ (sendAgain p fs s).out := by
  induction fs generalizing s with
  | nil => exact ⟨⟨rfl, rfl, rfl, List.prefix_rfl⟩, nofun, fun i e h => (nomatch h)⟩
  | cons f fs ih =>
    rw [List.length_cons] at fits
    obtain ⟨one, messages, flit⟩ := sendAgain_one (s := s) (p := p) (f := f) (by omega)
    have wires : (link (wireUnit p (emitFlit p f.1 f.2 (flitOut p f s))) p).wires = (link s p).wires + 1 := by rw [one.link]
    obtain ⟨rest, messages', flits⟩ := ih (s := wireUnit p (emitFlit p f.1 f.2 (flitOut p f s))) (by rw [wires]; omega)
    rw [sendAgain_cons]
    refine ⟨?_, fun e he m hm => ?_, fun i e h => ?_⟩
    · rw [List.length_cons, Nat.add_comm]
      exact one.trans rest
    · rcases List.mem_cons.1 he with rfl | he
      · exact rest.out.subset (messages m hm)
      · exact messages' e he m hm
    · cases i with
      | zero =>
        obtain rfl := Option.some.inj h
        exact rest.out.subset flit
      | succ i =>
        have sent := flits i e h
        rw [one.part, one.link] at sent
        rw [Nat.add_comm i 1, ← Nat.add_assoc]
        exact sent

end Sys2Proof.Machine
end

section
/-! PROOFS. How the state of an Idior port changes (Table 08.6, R308, R459). -/

namespace Sys2Proof.Machine

variable {s t : State} {p : IPort}

/-! ### Flits checked -/

theorem checkFlit_good {f : FlitHead} (fec : f.fecOk = true) (crc : f.crcOk = true) (tag : f.tagOk = true) (p : Nat) (s : State) :
    checkFlit p f s = (true, count (aIpCnt p 2) f.symbols s) := by
  simp [checkFlit, fec, crc, tag]

theorem checkFlit_uncorrected {f : FlitHead} (fec : f.fecOk = false) (p : Nat) (s : State) :
    checkFlit p f s = (false, sendNak p (count (aIpCnt p 3) 1 (count (aIpCnt p 2) f.symbols s))) := by
  simp [checkFlit, fec]

/-- A NAK that is sent is a wire unit; it says the last flit taken. -/
theorem sendNak_sends {p : Nat} (unsent : (link s p).nakSent = false) (fits : (link s p).wires + 1 < 2 ^ 64) :
    link (sendNak p s) p = { link s p with nakSent := true, wires := (link s p).wires + 1 } ∧ Sent.nak p (lastGood (link s p)) ∈ (sendNak p s).out ∧
      (sendNak p s).regs = s.regs ∧ (sendNak p s).part = s.part ∧ (sendNak p s).rx = s.rx ∧ ((sendNak p s).fab = s.fab ∧ (sendNak p s).cel = s.cel ∧
      (sendNak p s).mir = s.mir ∧ (sendNak p s).ports = s.ports) := by
  have here : link (emit (.nak p (lastGood (link s p))) (setLink p { link s p with nakSent := true } s)) p = { link s p with nakSent := true } :=
    link_setLink_self ..
  have beside : ∀ (k : Link) (u : State), (setLink p k u).regs = u.regs ∧ (setLink p k u).part = u.part ∧ (setLink p k u).rx = u.rx ∧
      (setLink p k u).fab = u.fab ∧ (setLink p k u).cel = u.cel ∧ (setLink p k u).mir = u.mir ∧ (setLink p k u).ports = u.ports :=
    fun _ _ => ⟨rfl, rfl, rfl, rfl, rfl, rfl, rfl⟩
  obtain ⟨regs, part, rx, fab, cel, mir, ports⟩ := beside { link s p with nakSent := true } s
  unfold sendNak
  extract_lets k
  rw [if_neg (by simp [k, unsent]), wireUnit_counts (by rw [here]; exact fits), here, link_of_quiet (quiet_count ..), link_setLink_self, count_regs, count_part,
    count_rx, count_fab, count_cel, count_mir, count_ports]
  refine ⟨rfl, (out_count _ _ _).subset (sent_emit ..), ?_⟩
  obtain ⟨regs', part', rx', fab', cel', mir', ports'⟩ := beside { link s p with nakSent := true, wires := (link s p).wires + 1 }
    (emit (.nak p (lastGood (link s p))) (setLink p { link s p with nakSent := true } s))
  exact ⟨regs'.trans regs, part'.trans part, rx'.trans rx, fab'.trans fab, cel'.trans cel, mir'.trans mir, ports'.trans ports⟩

theorem sendNak_sent {p : Nat} (sent : (link s p).nakSent = true) : sendNak p s = s := if_pos sent

/-! ### A port fails -/

theorem linkState_failPort (p : Nat) (s : State) : linkState (failPort p s) p = 5 := by
  unfold failPort
  extract_lets _ s1 peer h
  have h1 : linkState s1 p = 5 := linkState_setLinkState (by decide) _
  split
  · rw [linkState_setLink, h1]
  · rw [linkState, rdFld_of_quiet (quiet_send0 ..)]
    exact (linkState_setLink ..).trans h1

theorem link_failPort_empty {p : Nat} (empty : (link s p).retry = []) : link (failPort p s) p = { link s p with part := none, retry := [] } := by
  unfold failPort
  extract_lets _ s1 peer k _ h
  have h1 : k = { link s p with part := none } := (link_setLinkState ..).trans (link_setLink_self ..)
  rw [if_pos (.inl (by rw [show link s1 p = _ from h1, empty]; rfl)), link_setLink_self]
  exact congrArg (fun k : Link => { k with retry := [] }) h1

/-- What a failed port held is searched for where its peer is known (R311). -/
theorem link_failPort_held {p : Nat} (held : (link s p).retry ≠ []) (known : bit (rd s (aIpPeer p)) 16 = true) :
    link (failPort p s) p = { link s p with part := none, lkWait := true } := by
  unfold failPort
  extract_lets _ s1 peer k _ h
  have h1 : k = { link s p with part := none } := (link_setLinkState ..).trans (link_setLink_self ..)
  have same : peer = rd s (aIpPeer p) := (rd_setLinkState_ne _ _ _ (by unfold aIpPeer aIpStat; omega)).trans (rd_setLink ..)
  rw [if_neg (by rw [show link s1 p = _ from h1, same]; simp [held, known]), link_of_quiet (quiet_send0 ..), link_setLink_self]
  exact congrArg (fun k : Link => { k with lkWait := true }) h1

/-! ### A port retrains -/

/-- A retraining of an active port begun. -/
def retraining (p : Nat) (full : Bool) (s : State) : State := setLinkState p 4 (setLink p { link s p with full := full, naks := 0 } s)

theorem retrainactive {p : Nat} (active : linkState s p = 3) (full : Bool) :
    retrain p full s = fire (97 + 4 * p) 0 (oPort 2 p) (count (aIpCnt p 7) 1 (retraining p full s)) := if_neg (not_not.2 active)

theorem quiet_retrain {p : Nat} (active : linkState s p = 3) (full : Bool) : quiet (retrain p full s) = quiet (retraining p full s) := by
  rw [retrainactive active]
  exact (quiet_fire ..).trans (quiet_count ..)

theorem linkState_retrain {p : Nat} (active : linkState s p = 3) (full : Bool) : linkState (retrain p full s) p = 4 := by
  rw [linkState, rdFld_of_quiet (quiet_retrain active full)]
  exact linkState_setLinkState (by decide) _

theorem link_retrain {p : Nat} (active : linkState s p = 3) (full : Bool) : link (retrain p full s) p = { link s p with full := full, naks := 0 } := by
  rw [link_of_quiet (quiet_retrain active full)]
  exact (link_setLinkState ..).trans (link_setLink_self ..)

/-- Fields of IP_STAT beside the state stand while a port retrains. -/
theorem rdFld_retrain {p : Nat} (active : linkState s p = 3) (full : Bool) {lo n : Nat} (h3 : 3 ≤ lo) (h6 : lo + n ≤ 6) :
    rdFld (retrain p full s) (aIpStat p) lo n = rdFld s (aIpStat p) lo n := by
  rw [rdFld_of_quiet (quiet_retrain active full)]
  exact (rdFld_setLinkState_off _ _ _ h3 (by omega) (.inl h6)).trans (rd_congr_fld (rd_setLink ..) lo n)

/-! ### A port trained -/

/-- The parameters taken, with the event of a link secured (R308, R459). -/
def paramsTaken (p : IPort) (peer : PeerParams) (s : State) : State := fire 235 0 (oPort 2 p) (takeParams p peer s)

/-- A link that starts anew. -/
def linkAnew (p : Nat) (s : State) : State := setLink p { link s p with seq := 0, retry := [], orig := [], expect := 0, sinceAck := 0, part := none } s

theorem linkTrained_good (training : linkState s p = 2) {peer : PeerParams} (good : peer.authOk = true) :
    linkTrained p peer s = setLinkState p 3 (resetCredits p (linkAnew p (paramsTaken p peer s))) := by
  unfold linkTrained
  extract_lets st
  have st2 : st = 2 := training
  rw [if_pos (by simp [st2]), if_neg (by simp [good]), if_neg (by omega)]
  rfl

theorem linkTrained_bad (training : linkState s p = 2) {peer : PeerParams} (bad : peer.authOk = false) :
    linkTrained p peer s = failPort p (fire 235 1 (oPort 2 p) s) := by
  unfold linkTrained
  extract_lets st
  have st2 : st = 2 := training
  rw [if_pos (by simp [st2]), if_pos (by simp [bad])]

/-- A link with the key of a peer that has authenticated itself. -/
def keyedLink (p : Nat) (peer : PeerParams) (nonce : Nat) (k : Link) (psk : Option (BitVec 256)) : Link :=
  { k with key := some (Config.linkKey p peer.serial (psk.getD 0) nonce), wires := 0, full := false, spare := peer.spare, naks := 0, nakSent := false }

theorem link_takeParams (p : Nat) (peer : PeerParams) (s : State) : link (takeParams p peer s) p =
    keyedLink p peer (drawFree s).1 (link s p) (link s p).psk := by
  unfold takeParams
  extract_lets x s1 psk s2 s3
  have h1 : s1.links = s.links := rfl
  have h2 : s2.links = s1.links := (wr_links ..).trans (wr_links ..)
  have h3 : s3.links = s1.links := (wrFld_links ..).trans h2
  have same : link s3 p = link s p := by rw [link, link, h3, h1]
  have first : psk = (link s p).psk := congrArg Link.psk (link_congr h1 p)
  have keyed : link (takeParams p peer s) p = keyedLink p peer x.1 (link s3 p) psk := link_setLink_self ..
  rw [same, first] at keyed
  exact keyed

/-- The registers that a training writes. -/
def paramsWritten (p : Nat) (peer : PeerParams) (s : State) : State :=
  wrFld aSlLpsk p 1 (link s p).psk.isSome.toNat
    (wr (aIpPeer p) (mkWord [(0, 12, peer.hub.toNat), (12, 4, peer.port.toNat), (16, 1, 1)]) (wr (aIpPser p) peer.serial s))

theorem rd_takeParams (p : Nat) (peer : PeerParams) (s : State) (a : Nat) : rd (takeParams p peer s) a = rd (paramsWritten p peer (drawFree s).2) a :=
  rd_setLink ..

theorem link_resetCredits (p : Nat) (s : State) : link (resetCredits p s) p =
    { link s p with used := ((link s p).retry.flatMap (·.2)).foldl (fun u m => takeCredits m u) [], mine := [], owe := [] } := link_setLink_self ..

theorem rd_resetCredits (p : Nat) (s : State) (a : Nat) : rd (resetCredits p s) a = rd s a := rd_congr rfl rfl a

/-- A trained link starts anew, with the key of its peer (R459). -/
theorem link_linkTrained (training : linkState s p = 2) {peer : PeerParams} (good : peer.authOk = true) :
    (link (linkTrained p peer s) p).retry = [] ∧ (link (linkTrained p peer s) p).expect = 0 ∧
      (link (linkTrained p peer s) p).key = some (Config.linkKey p peer.serial ((link s p).psk.getD 0) (drawFree s).1) := by
  have taken : link (paramsTaken p peer s) p = link (takeParams p peer s) p := link_of_quiet (quiet_fire ..) _
  rw [linkTrained_good training good, link_setLinkState, link_resetCredits, linkAnew, link_setLink_self, taken, link_takeParams]
  exact ⟨rfl, rfl, rfl⟩

theorem rd_linkTrained (training : linkState s p = 2) {peer : PeerParams} (good : peer.authOk = true) {a : Nat} (off : a / 8 ≠ aIpStat p / 8) :
    rd (linkTrained p peer s) a = rd (paramsWritten p peer (drawFree s).2) a := by
  have up : rd (linkAnew p (paramsTaken p peer s)) a = rd (takeParams p peer s) a := (rd_setLink ..).trans (rd_fire ..)
  rw [linkTrained_good training good, rd_setLinkState_ne _ _ _ off, rd_resetCredits, up, rd_takeParams]

theorem linkState_linkTrained (training : linkState s p = 2) {peer : PeerParams} (good : peer.authOk = true) : linkState (linkTrained p peer s) p = 3 := by
  rw [linkTrained_good training good]
  exact linkState_setLinkState (by decide) _

theorem rd_paramsWritten (p : IPort) (peer : PeerParams) (s : State) :
    rd (paramsWritten p peer s) (aIpPser p) = peer.serial ∧
      rd (paramsWritten p peer s) (aIpPeer p) = mkWord [(0, 12, peer.hub.toNat), (12, 4, peer.port.toNat), (16, 1, 1)] ∧
      rdBit (paramsWritten p peer s) aSlLpsk p = (link s p).psk.isSome := by
  have bound := p.isLt
  refine ⟨?_, ?_, ?_⟩
  · rw [paramsWritten, rd_wrFld_ne _ _ _ _ (by unfold aIpPser aSlLpsk; omega), rd_wr_ne _ _ (by unfold aIpPser aIpPeer; omega), rd_wr_self]
  · rw [paramsWritten, rd_wrFld_ne _ _ _ _ (by unfold aIpPeer aSlLpsk; omega), rd_wr_self]
  · rw [paramsWritten, rdBit_wrFld_self _ _ _ (by omega)]
    cases (link s p).psk with
    | none => rfl
    | some k => exact Nat.testBit_one_zero

theorem peerWord_fields (hub : HubId) (port : Nat) : fld (mkWord [(0, 12, hub.toNat), (12, 4, port), (16, 1, 1)]) 0 12 = hub.toNat ∧
    bit (mkWord [(0, 12, hub.toNat), (12, 4, port), (16, 1, 1)]) 16 = true := by
  have word : mkWord [(0, 12, hub.toNat), (12, 4, port), (16, 1, 1)] = setFld (setFld (setFld 0 0 12 hub.toNat) 12 4 port) 16 1 1 := rfl
  rw [word]
  refine ⟨?_, ?_⟩
  · rw [fld_setFld_ne _ _ _ _ _ _ (by decide) (.inl (by decide)), fld_setFld_ne _ _ _ _ _ _ (by decide) (.inl (by decide)), fld_setFld_self _ _ _ _ (by decide)]
    exact Nat.mod_eq_of_lt hub.isLt
  · rw [bit_setFld_in _ _ _ _ _ (by decide) (by decide) (by decide)]
    rfl

/-! ### Hub IDs given and ports reported -/

theorem still_sendAssign (serial : Word) (x : Nat) (s : State) : still (sendAssign serial x s) = still s := by
  unfold sendAssign
  split <;> rfl

theorem still_reportPort (p : Nat) (s : State) : still (reportPort p s) = still s := by
  unfold reportPort
  split <;> rfl

/-- Giving an ID writes this hub's own ID at most. -/
theorem giveId_frame (s : State) (x : Word) {a : Nat} (off : a / 8 ≠ aFbHubid / 8) : (giveId s x).links = s.links ∧ rd (giveId s x) a = rd s a := by
  unfold giveId
  extract_lets tell _ h
  have told : ∀ (h : HubId) (v : Nat) (s : State), (tell h v s).links = s.links ∧ rd (tell h v s) a = rd s a := by
    intro h v s
    simp only [tell]
    split
    · split
      · exact ⟨rfl, rfl⟩
      · exact ⟨wrFld_links .., rd_wrFld_ne _ _ _ _ off⟩
    · exact ⟨links_of_quiet (quiet_of_still (still_sendAssign ..)), rd_of_quiet (quiet_of_still (still_sendAssign ..)) a⟩
  have noted : ∀ (h : HubId) (v : Nat) (g : Fab), (tell h v { s with fab := g }).links = s.links ∧ rd (tell h v { s with fab := g }) a = rd s a := by
    intro h v g
    obtain ⟨links, regs⟩ := told h v { s with fab := g }
    exact ⟨links, regs.trans (rd_congr rfl rfl a)⟩
  split
  · split
    · exact told ..
    · exact noted ..
  · exact noted ..

theorem assignIds_frame (s : State) {a : Nat} (off : a / 8 ≠ aFbHubid / 8) : (assignIds s).links = s.links ∧ rd (assignIds s) a = rd s a := by
  unfold assignIds
  extract_lets all new s1
  split
  · exact ⟨rfl, rfl⟩
  · have links : ∀ (l : List Word) (s : State), (l.foldl giveId s).links = s.links := foldl_frame State.links fun s x => (giveId_frame s x off).1
    have regs : ∀ (l : List Word) (s : State), rd (l.foldl giveId s) a = rd s a := foldl_frame (fun s => rd s a) fun s x => (giveId_frame s x off).2
    exact ⟨(links ..).trans (links ..), (regs ..).trans (regs ..)⟩

/-- What follows a training leaves the link and every register but this hub's ID. -/
theorem opLinkTrained_frame (p : IPort) (peer : PeerParams) (s : State) {a : Nat} (off : a / 8 ≠ aFbHubid / 8) :
    (opLinkTrained p peer s).links = (linkTrained p peer s).links ∧ rd (opLinkTrained p peer s) a = rd (linkTrained p peer s) a := by
  unfold opLinkTrained
  extract_lets t
  split
  · exact ⟨rfl, rfl⟩
  · split
    · exact assignIds_frame t off
    · exact ⟨links_of_quiet (quiet_of_still (still_reportPort ..)), rd_of_quiet (quiet_of_still (still_reportPort ..)) a⟩

/-! ### The commands -/

theorem rdBit_of_fld {a i : Nat} (h : rdFld s a i 1 = 1) : rdBit s a i = true := by
  rw [rdFld, fld_one] at h
  cases on : rdBit s a i with
  | true => rfl
  | false =>
    rw [show bit (rd s a) i = false from on] at h
    exact absurd h (by decide)

variable (p)

theorem opPeerDetected_spec (on : rdBit s (aIpCtl p) 0 = true) (detecting : linkState s p = 1) :
    linkState (opPeerDetected p s) p = 2 ∧ (opPeerDetected p s).links = s.links := by
  rw [opPeerDetected, if_pos (by simp [on, detecting])]
  exact ⟨linkState_setLinkState (by decide) s, links_of_past (past_setLinkState ..)⟩

theorem opLinkTrained_good (training : linkState s p = 2) {peer : PeerParams} (good : peer.authOk = true) :
    linkState (opLinkTrained p peer s) p = 3 ∧ rd (opLinkTrained p peer s) (aIpPser p) = peer.serial ∧
      rdFld (opLinkTrained p peer s) (aIpPeer p) 0 12 = peer.hub.toNat ∧ rdBit (opLinkTrained p peer s) (aIpPeer p) 16 = true ∧
      (link (opLinkTrained p peer s) p).retry = [] ∧ (link (opLinkTrained p peer s) p).expect = 0 ∧
      (link (opLinkTrained p peer s) p).key = some (Config.linkKey p peer.serial ((link s p).psk.getD 0) (drawFree s).1) ∧
      rdBit (opLinkTrained p peer s) aSlLpsk p = (link s p).psk.isSome := by
  have bound := p.isLt
  obtain ⟨links, -⟩ := opLinkTrained_frame p peer s (a := 0) (by decide)
  have regs : ∀ {a}, a / 8 ≠ aFbHubid / 8 → rd (opLinkTrained p peer s) a = rd (linkTrained p peer s) a := fun off => (opLinkTrained_frame p peer s off).2
  have written : ∀ {a}, a / 8 ≠ aFbHubid / 8 → a / 8 ≠ aIpStat p / 8 → rd (opLinkTrained p peer s) a = rd (paramsWritten p peer (drawFree s).2) a :=
    fun off apart => (regs off).trans (rd_linkTrained training good apart)
  obtain ⟨serial, word, psk⟩ := rd_paramsWritten p peer (drawFree s).2
  obtain ⟨hub, known⟩ := peerWord_fields peer.hub peer.port.toNat
  have peerWord := (written (a := aIpPeer p) (by unfold aIpPeer aFbHubid; omega) (by unfold aIpPeer aIpStat; omega)).trans word
  rw [link_congr links]
  refine ⟨?_, (written (by unfold aIpPser aFbHubid; omega) (by unfold aIpPser aIpStat; omega)).trans serial, ?_, ?_, ?_⟩
  · rw [linkState, rd_congr_fld (regs (by unfold aIpStat aFbHubid; omega))]
    exact linkState_linkTrained training good
  · rw [rdFld, peerWord]
    exact hub
  · rw [rdBit, peerWord]
    exact known
  · obtain ⟨retry, expect, key⟩ := link_linkTrained training good
    exact ⟨retry, expect, key, (rd_congr_bits (written (by decide) (by unfold aSlLpsk aIpStat; omega)) p).trans psk⟩

theorem opLinkTrained_bad (training : linkState s p = 2) (empty : (link s p).retry = []) {peer : PeerParams} (bad : peer.authOk = false) :
    linkState (opLinkTrained p peer s) p = 5 ∧ (link (opLinkTrained p peer s) p).key = (link s p).key := by
  have failed : linkState (failPort p (fire 235 1 (oPort 2 p) s)) p = 5 := linkState_failPort ..
  have stays : opLinkTrained p peer s = failPort p (fire 235 1 (oPort 2 p) s) := by
    rw [opLinkTrained, linkTrained_bad training bad]
    refine if_pos ?_
    have inactive : portActive (failPort p (fire 235 1 (oPort 2 p) s)) p = false := by
      rw [portActive, decide_eq_false_iff_not]
      exact fun active => absurd (active.symm.trans failed) (by decide)
    rw [inactive]
    rfl
  have here : link (fire 235 1 (oPort 2 p) s) p = link s p := link_of_quiet (quiet_fire ..) p
  rw [stays, link_failPort_empty (by rw [here, empty]), here]
  exact ⟨failed, rfl⟩

theorem opRetrainDone_spec (retrains : linkState s p = 4) (short : (link s p).full = false) (fits : (link s p).wires + (link s p).retry.length < 2 ^ 64) :
    linkState (opRetrainDone p s) p = 3 ∧ (link (opRetrainDone p s) p).retry = (link s p).retry ∧
      ∀ e ∈ (link s p).retry, ∀ m ∈ e.2, Sent.xfer (56 + p) (.msg m) ∈ (opRetrainDone p s).out := by
  have here : link (setLinkState p 3 (setLink p { link s p with nakSent := false, naks := 0 } s)) p = { link s p with nakSent := false, naks := 0 } :=
    (link_setLinkState ..).trans (link_setLink_self ..)
  obtain ⟨on, messages, -⟩ := sendAgain_all (s := setLinkState p 3 (setLink p { link s p with nakSent := false, naks := 0 } s)) (p := p)
    (fs := (link s p).retry) (by rw [here]; exact fits)
  rw [opRetrainDone, if_pos (by simp [retrains, short])]
  refine ⟨?_, by rw [on.link, here], messages⟩
  rw [linkState, rdFld_congr on.part on.regs]
  exact linkState_setLinkState (by decide) _

theorem opFastRetrainTimeout_spec (retrains : linkState s p = 4) :
    linkState (opFastRetrainTimeout p s) p = 4 ∧ (link (opFastRetrainTimeout p s) p).full = true := by
  rw [opFastRetrainTimeout, if_pos retrains, link_setLink_self, linkState_setLink]
  exact ⟨retrains, rfl⟩

theorem opFecLockLoss_spec (active : linkState s p = 3) :
    linkState (opFecLockLoss p s) p = 4 ∧ (link (opFecLockLoss p s) p).full = false ∧ (opFecLockLoss p s).hc = s.hc := by
  unfold opFecLockLoss
  rw [link_retrain active]
  exact ⟨linkState_retrain active _, rfl, hc_of_offLink (offLink_retrain ..)⟩

/-! ### Lane faults -/

/-- A lane that has failed is replaced, as IP_STAT shows (R310). -/
def laneReplaced (p lane : Nat) (s : State) : State :=
  fire (98 + 4 * p) 0 (oPort 2 p) (wrFld (aIpStat p) 4 2 (lane % 4) (wrFld (aIpStat p) 3 1 1 s))

theorem opLaneFault_replaced (active : linkState s p = 3) {lane : Nat} (allowed : rdBit s (aIpCtl p) 1 = true) (spare : (link s p).spare = true)
    (unused : rdBit s (aIpStat p) 3 = false) :
    linkState (opLaneFault p lane true s) p = 4 ∧ rdBit (opLaneFault p lane true s) (aIpStat p) 3 = true ∧
      rdFld (opLaneFault p lane true s) (aIpStat p) 4 2 = lane % 4 := by
  have active' : linkState (laneReplaced p lane s) p = 3 := by
    rw [linkState, laneReplaced, rd_congr_fld (rd_fire ..), rdFld_wrFld_off _ _ _ _ _ _ (by decide) (.inl (by decide)),
      rdFld_wrFld_off _ _ _ _ _ _ (by decide) (.inl (by decide))]
    exact active
  have state : rdFld (laneReplaced p lane s) (aIpStat p) 3 1 = 1 ∧ rdFld (laneReplaced p lane s) (aIpStat p) 4 2 = lane % 4 := by
    rw [laneReplaced, rd_congr_fld (rd_fire ..), rd_congr_fld (rd_fire ..), rdFld_wrFld_off _ _ _ _ _ _ (by decide) (.inl (by decide)),
      rdFld_wrFld_in _ _ _ _ _ _ (by decide) (by decide) (by decide), rdFld_wrFld_in _ _ _ _ _ _ (by decide) (by decide) (by decide)]
    omega
  rw [opLaneFault, if_neg (by simp [active]), if_pos (by simp [allowed, spare, unused])]
  refine ⟨linkState_retrain active' false, ?_, ?_⟩
  · refine rdBit_of_fld ?_
    exact (rdFld_retrain active' false (by decide) (by decide)).trans state.1
  · exact (rdFld_retrain active' false (by decide) (by decide)).trans state.2

theorem opLaneFault_fails (active : linkState s p = 3) (lane : Nat) (barred : rdBit s (aIpCtl p) 1 = false) :
    linkState (opLaneFault p lane true s) p = 5 := by
  rw [opLaneFault, if_neg (by simp [active]), if_neg (by simp [barred])]
  exact linkState_failPort ..

theorem opLaneFault_kept (lane : Nat) (off : rdFld s (aIpCtl p) 4 8 = 0) : opLaneFault p lane false s = s := by
  rw [opLaneFault, if_pos (by simp [off])]

/-! ### Halt flits -/

theorem opHaltFlit_good (active : linkState s p = 3) {f : FlitHead} (fec : f.fecOk = true) (crc : f.crcOk = true) (tag : f.tagOk = true) (hub : HubId)
    (cause : BitVec 4) :
    opHaltFlit ⟨p, f⟩ hub cause s = declareDead hub 2 (failPort p (linkHead p f (count (aIpCnt p 2) f.symbols s))) := by
  unfold opHaltFlit
  extract_lets st x
  have good : x = (true, count (aIpCnt p 2) f.symbols s) := checkFlit_good fec crc tag p s
  rw [if_neg (by simp [st, active]), good, if_pos rfl]

theorem opHaltFlit_bad (active : linkState s p = 3) {f : FlitHead} (fec : f.fecOk = false) (hub : HubId) (cause : BitVec 4) :
    opHaltFlit ⟨p, f⟩ hub cause s = sendNak p (count (aIpCnt p 3) 1 (count (aIpCnt p 2) f.symbols s)) := by
  unfold opHaltFlit
  extract_lets st x
  have bad : x = (false, sendNak p (count (aIpCnt p 3) 1 (count (aIpCnt p 2) f.symbols s))) := checkFlit_uncorrected fec p s
  rw [if_neg (by simp [st, active]), bad, if_neg Bool.false_ne_true]

/-- A flit that the FEC could not correct leaves the port's state, and a NAK is sent for it. -/
theorem opHaltFlit_bad_spec (active : linkState s p = 3) {f : FlitHead} (fec : f.fecOk = false) (fits : (link s p).wires + 1 < 2 ^ 64) (hub : HubId)
    (cause : BitVec 4) :
    followAfter s (opHaltFlit ⟨p, f⟩ hub cause s) = opHaltFlit ⟨p, f⟩ hub cause s ∧ linkState (opHaltFlit ⟨p, f⟩ hub cause s) p = 3 ∧
      (link (opHaltFlit ⟨p, f⟩ hub cause s) p).nakSent = true ∧ (opHaltFlit ⟨p, f⟩ hub cause s).fab = s.fab := by
  rw [opHaltFlit_bad p active fec]
  have same : quiet (count (aIpCnt p 3) 1 (count (aIpCnt p 2) f.symbols s)) = quiet s := (quiet_count ..).trans (quiet_count ..)
  cases sent : (link s p).nakSent with
  | true =>
    rw [sendNak_sent (by rw [link_of_quiet same]; exact sent), link_of_quiet same, linkState, rdFld_of_quiet same]
    exact ⟨followAfter_quiet same, active, sent, fab_of_quiet same⟩
  | false =>
    obtain ⟨linked, -, regs, part, -, kept⟩ := sendNak_sends (s := count (aIpCnt p 3) 1 (count (aIpCnt p 2) f.symbols s)) (p := p)
      (by rw [link_of_quiet same]; exact sent) (by rw [link_of_quiet same]; exact fits)
    obtain ⟨fab, cel, mir, ports⟩ := kept
    rw [linked, linkState, rdFld_congr part regs, rdFld_of_quiet same, fab, fab_of_quiet same]
    refine ⟨if_pos ?_, active, rfl, rfl⟩
    rw [cel, mir, ports, cel_of_quiet same, mir_of_quiet same, ports_of_quiet same]
    exact ⟨rfl, rfl, rfl, rfl⟩

end Sys2Proof.Machine

namespace Sys2Proof

open Machine

/-- Settles O39: each command of a port by the state it leaves. -/
theorem linkTraining : Obligations.LinkTraining := by
  intro s p run
  refine ⟨fun on detecting => ⟨_, live_running run _, opPeerDetected_spec p on detecting⟩, fun training _ => ⟨_, live_running run _, ?_⟩,
    fun training peer good => ⟨_, live_follow run (opLinkTrained p peer), opLinkTrained_good p training good⟩,
    fun training empty peer bad => ⟨_, live_follow run (opLinkTrained p peer), opLinkTrained_bad p training empty bad⟩,
    fun retrains short fits => ⟨_, live_running run _, opRetrainDone_spec p retrains short fits⟩,
    fun retrains => ⟨_, live_running run _, opFastRetrainTimeout_spec p retrains⟩, fun retrains _ => ⟨_, live_running run _, ?_⟩,
    fun retrains held known => ⟨_, live_running run _, ?_⟩, fun active => ⟨_, live_running run _, opFecLockLoss_spec p active⟩,
    fun active lane => ⟨fun allowed spare unused => ⟨_, live_running run _, opLaneFault_replaced p active allowed spare unused⟩,
      fun barred _ => ⟨_, live_running run _, opLaneFault_fails p active lane barred⟩, fun off => ⟨_, live_running run _, opLaneFault_kept p lane off⟩⟩,
    fun active f hub cause => ⟨fun fec crc tag => ?_, fun fec fits => ?_⟩⟩
  · exact (congrArg (linkState · p) (if_pos training)).trans (linkState_failPort ..)
  · exact (congrArg (linkState · p) (if_pos retrains)).trans (linkState_failPort ..)
  · have failed : opRetrainFailTimeout p s = failPort p s := if_pos retrains
    rw [failed, link_failPort_held held known]
    exact ⟨linkState_failPort .., rfl, rfl⟩
  · have kept := (offLink_failPort p (linkHead p f (count (aIpCnt p 2) f.symbols s))).trans ((offLink_linkHead ..).trans (offLink_count ..))
    exact ⟨_, _, live_running run (fun s => followAfter s (opHaltFlit ⟨p, f⟩ hub cause s)), congrArg (followAfter s) (opHaltFlit_good p active fec crc tag hub cause), linkState_failPort .., hc_of_offLink kept,
      dir_of_offLink kept⟩
  · obtain ⟨stays, spec⟩ := opHaltFlit_bad_spec p active fec fits hub cause
    exact ⟨_, (live_running run (fun s => followAfter s (opHaltFlit ⟨p, f⟩ hub cause s))).trans (congrArg Host.Outcome.next stays), spec⟩

end Sys2Proof
end

section
/-! PROOFS. Flits received, discarded, acknowledged and sent again (R301 to R306, R460). -/

namespace Sys2Proof.Machine

variable {s : State} {p : IPort} {f : FlitHead}

theorem receives_of_active (active : linkState s p = 3) : receives s p = true := decide_eq_true active

theorem receives_of_inactive (inactive : linkState s p ≠ 3) : receives s p = false := decide_eq_false inactive

/-! ### Nothing at a port that is not active -/

theorem opFlits_inactive (inactive : linkState s p ≠ 3) (f : FlitHead) (ms : List FlitPiece) :
    opDataFlit p f ms s = s ∧ opControlFlit p f s = s ∧ opNak p f s = s ∧ opAckTimeout p s = s ∧ opAckReportTimer p s = s := by
  simp [opDataFlit, opControlFlit, opNak, opAckTimeout, opAckReportTimer, receives_of_inactive inactive]

/-! ### Flits discarded -/

theorem opDataFlit_uncorrected (active : linkState s p = 3) (fec : f.fecOk = false) (ms : List FlitPiece) :
    opDataFlit p f ms s = sendNak p (count (aIpCnt p 3) 1 (count (aIpCnt p 2) f.symbols s)) := by
  unfold opDataFlit
  extract_lets x
  have bad : x = (false, sendNak p (count (aIpCnt p 3) 1 (count (aIpCnt p 2) f.symbols s))) := checkFlit_uncorrected fec p s
  rw [receives_of_active active, bad]
  rfl

theorem opDataFlit_uncorrected_spec (active : linkState s p = 3) (fits : (link s p).wires + 1 < 2 ^ 64) (fec : f.fecOk = false) (ms : List FlitPiece)
    (unsent : (link s p).nakSent = false) :
    Sent.nak p (((link s p).expect + 1023) % 1024) ∈ (opDataFlit p f ms s).out ∧ (link (opDataFlit p f ms s) p).nakSent = true ∧
      (link (opDataFlit p f ms s) p).expect = (link s p).expect ∧ (opDataFlit p f ms s).rx = s.rx := by
  have same : quiet (count (aIpCnt p 3) 1 (count (aIpCnt p 2) f.symbols s)) = quiet s := (quiet_count ..).trans (quiet_count ..)
  obtain ⟨linked, sent, -, -, rx, -⟩ := sendNak_sends (s := count (aIpCnt p 3) 1 (count (aIpCnt p 2) f.symbols s)) (p := p)
    (by rw [link_of_quiet same]; exact unsent) (by rw [link_of_quiet same]; exact fits)
  rw [link_of_quiet same] at linked sent
  rw [opDataFlit_uncorrected active fec, linked]
  exact ⟨sent, rfl, rfl, rx.trans (rx_of_quiet same)⟩

theorem opDataFlit_forged (active : linkState s p = 3) (fec : f.fecOk = true) (crc : f.crcOk = true) (tag : f.tagOk = false) (ms : List FlitPiece) :
    opDataFlit p f ms s = sealHalt 4 p 0 (count (aIpCnt p 2) f.symbols s) := by
  unfold opDataFlit
  extract_lets x
  have bad : x = (false, sealHalt 4 p 0 (count (aIpCnt p 2) f.symbols s)) := by simp [x, checkFlit, fec, crc, tag]
  rw [receives_of_active active, bad]
  rfl

/-! ### A flit taken in sequence -/

/-- A link whose peer's flit header has been read: credits returned, flits acknowledged (R304, R306). -/
def linkHeaded (f : FlitHead) (k : Link) : Link :=
  { k with used := mupd 0 k.used (if f.csh then 12 else f.cvc.toNat) (· - f.ccnt.toNat), retry := k.retry.filter fun e => seqAfter e.1 f.ack.toNat,
           orig := k.orig.filter fun e => (k.retry.filter fun e => seqAfter e.1 f.ack.toNat).any fun x => x.1 = e.1 }

/-- A link that has taken the next flit in sequence. -/
def linkNext (k : Link) : Link := { k with expect := (k.expect + 1) % 1024, sinceAck := k.sinceAck + 1, nakSent := false }

theorem link_linkHead (p : Nat) (f : FlitHead) (s : State) : link (linkHead p f s) p = linkHeaded f (link s p) := link_setLink_self ..

/-- The header of a flit that passes its checks, read. -/
def headIn (p : Nat) (f : FlitHead) (s : State) : State := linkHead p f (count (aIpCnt p 2) f.symbols s)

theorem link_headIn (p : Nat) (f : FlitHead) (s : State) : link (headIn p f s) p = linkHeaded f (link s p) := by
  rw [headIn, link_linkHead, link_of_quiet (quiet_count ..)]

/-- The next flit taken, before its slots. -/
def flitIn (p : Nat) (f : FlitHead) (s : State) : State := count (aIpCnt p 1) 1 (setLink p (linkNext (link (headIn p f s) p)) (headIn p f s))

theorem link_flitIn (p : Nat) (f : FlitHead) (s : State) : link (flitIn p f s) p = linkNext (linkHeaded f (link s p)) := by
  rw [flitIn, link_of_quiet (quiet_count ..), link_setLink_self, link_headIn]

theorem setLink_kept (p : Nat) (k : Link) (s : State) : (setLink p k s).regs = s.regs ∧ (setLink p k s).part = s.part ∧ (setLink p k s).rx = s.rx :=
  ⟨rfl, rfl, rfl⟩

theorem headIn_kept (p : Nat) (f : FlitHead) (s : State) : (headIn p f s).regs = s.regs ∧ (headIn p f s).part = s.part ∧ (headIn p f s).rx = s.rx := by
  obtain ⟨regs, part, rx⟩ := setLink_kept p (linkHeaded f (link (count (aIpCnt p 2) f.symbols s) p)) (count (aIpCnt p 2) f.symbols s)
  exact ⟨regs.trans (count_regs ..), part.trans (count_part ..), rx.trans (count_rx ..)⟩

/-- Taking a flit leaves the registers, the reset and the receive buffer. -/
theorem flitIn_kept (p : Nat) (f : FlitHead) (s : State) : (flitIn p f s).regs = s.regs ∧ (flitIn p f s).part = s.part ∧ (flitIn p f s).rx = s.rx := by
  obtain ⟨regs, part, rx⟩ := headIn_kept p f s
  obtain ⟨regs', part', rx'⟩ := setLink_kept p (linkNext (link (headIn p f s) p)) (headIn p f s)
  rw [flitIn, count_regs, count_part, count_rx]
  exact ⟨regs'.trans regs, part'.trans part, rx'.trans rx⟩

theorem opDataFlit_taken (active : linkState s p = 3) (fec : f.fecOk = true) (crc : f.crcOk = true) (tag : f.tagOk = true)
    (next : f.seq.toNat = (link s p).expect) {ms : List FlitPiece} (few : (link (ms.foldl (takeSlots p) (flitIn p f s)) p).sinceAck < 16) :
    opDataFlit p f ms s = ms.foldl (takeSlots p) (flitIn p f s) := by
  have expected : (link (headIn p f s) p).expect = (link s p).expect := by rw [link_headIn]; rfl
  unfold opDataFlit
  rw [checkFlit_good fec crc tag, receives_of_active active]
  extract_lets x u k _ t
  have here : f.seq.toNat = k.expect := next.trans expected.symm
  rw [if_neg (by decide), if_neg (show ¬(!true) = true by decide), if_neg (not_not.2 here)]
  exact if_neg (Nat.not_le.2 few)

/-! ### The slots of a flit -/

theorem takeSlots_pads (p k : Nat) (s : State) : (List.replicate k FlitPiece.pad).foldl (takeSlots p) s = s := by
  induction k with
  | zero => rfl
  | succ k ih =>
    rw [List.replicate_succ, List.foldl_cons]
    exact ih

/-- The slots of `m` that a port has, once `n` more have come. -/
def slotsGot (k : Link) (m : Msg) (n : Nat) : Nat := n + match k.part with
  | some (m', j) => if m' = m then j else 0
  | none => 0

theorem takeSlots_more {p n : Nat} {m : Msg} (more : slotsGot (link s p) m n < slotsOf m) :
    takeSlots p s (.part m n) = setLink p { link s p with part := some (m, slotsGot (link s p) m n) } s := if_pos more

theorem takeSlots_last {p n : Nat} {m : Msg} (last : slotsOf m ≤ slotsGot (link s p) m n) :
    takeSlots p s (.part m n) = ingress p (setLink p { link s p with part := none } s) m := if_neg (Nat.not_lt.2 last)

theorem learnVia_kept (p : Nat) (m : Msg) (s : State) : (learnVia p m s).regs = s.regs ∧ (learnVia p m s).part = s.part ∧ (learnVia p m s).rx = s.rx ∧
    (learnVia p m s).links = s.links := by
  unfold learnVia
  split <;> exact ⟨rfl, rfl, rfl, rfl⟩

theorem bufferRx_kept (p : Nat) (m : Msg) (s : State) : (bufferRx p m s).regs = s.regs ∧ (bufferRx p m s).part = s.part ∧
    (bufferRx p m s).rx.map (fun x => x.m) = s.rx.map (fun x => x.m) ++ [m] ∧ link (bufferRx p m s) p = { link s p with mine := takeCredits m (link s p).mine } :=
  ⟨rfl, rfl, List.map_append, link_setLink_self ..⟩

theorem incOf_congr {t : State} (part : t.part = s.part) (regs : t.regs = s.regs) (h : HubId) : incOf t h = incOf s h := rdFld_congr part regs ..

/-- A message of a secured link for this hub stays in the receive buffer until it is taken. -/
theorem ingress_own {p : Nat} {m : Msg} (cls : classOf m.opc < 5) (secured : rdBit s aSlLpsk p = true) (own : m.dst = hubId s) (good : accepts s m.h = true) :
    ingress p s m = learnVia p m (bufferRx p m s) := by
  obtain ⟨regs, part, -, -⟩ := learnVia_kept p m (bufferRx p m s)
  obtain ⟨regs', part', -, -⟩ := bufferRx_kept p m s
  have secured' : rdBit (learnVia p m (bufferRx p m s)) aSlLpsk p = true := (rdBit_congr (part.trans part') (regs.trans regs') _ _).trans secured
  have own' : m.dst = hubId (learnVia p m (bufferRx p m s)) := own.trans (congrArg (BitVec.ofNat 12) (rdFld_congr (part.trans part') (regs.trans regs') _ _ _)).symm
  have good' : accepts (learnVia p m (bufferRx p m s)) m.h = true := by
    rw [accepts, incOf_congr (part.trans part') (regs.trans regs'), part.trans part']
    exact good
  have mgt : (classOf m.opc = 5) = False := by simp; omega
  unfold ingress
  extract_lets u mgt' reserved
  have unreserved : reserved = false := by
    cases kind : m.opc with
    | reserved _ => rw [kind] at cls; exact absurd cls (by simp [classOf])
    | _ => simp [reserved, kind]
  rw [unreserved, if_neg (by decide), if_neg (by simp [u, secured']), if_neg (by simp [mgt', mgt]), if_neg (not_not.2 own'), if_neg (by simp [u, good'])]

/-- A flit of one piece that does not complete its message. -/
theorem opDataFlit_more (active : linkState s p = 3) (fec : f.fecOk = true) (crc : f.crcOk = true) (tag : f.tagOk = true)
    (next : f.seq.toNat = (link s p).expect) (few : (link s p).sinceAck + 1 < 16) {m : Msg} {n : Nat} (fresh : (link s p).part = none) (more : n < slotsOf m) :
    (opDataFlit p f [.part m n] s).rx = s.rx ∧ (link (opDataFlit p f [.part m n] s) p).part = some (m, n) := by
  obtain ⟨-, -, rx⟩ := flitIn_kept p f s
  have got : slotsGot (link (flitIn p f s) p) m n = n := by
    rw [link_flitIn, slotsGot, show (linkNext (linkHeaded f (link s p))).part = (link s p).part from rfl, fresh]
    rfl
  have one : [FlitPiece.part m n].foldl (takeSlots p) (flitIn p f s) = setLink p { link (flitIn p f s) p with part := some (m, n) } (flitIn p f s) := by
    rw [List.foldl_cons, List.foldl_nil, takeSlots_more (by rw [got]; exact more), got]
  obtain ⟨-, -, rx'⟩ := setLink_kept p { link (flitIn p f s) p with part := some (m, n) } (flitIn p f s)
  rw [opDataFlit_taken active fec crc tag next (by rw [one, link_setLink_self, link_flitIn]; exact few), one, link_setLink_self]
  exact ⟨rx'.trans rx, rfl⟩

/-- A flit whose first piece completes a message for this hub (R303). -/
theorem opDataFlit_whole (active : linkState s p = 3) (fec : f.fecOk = true) (crc : f.crcOk = true) (tag : f.tagOk = true)
    (next : f.seq.toNat = (link s p).expect) (few : (link s p).sinceAck + 1 < 16) {m : Msg} {n k : Nat} (last : slotsOf m ≤ slotsGot (link s p) m n)
    (cls : classOf m.opc < 5) (secured : rdBit s aSlLpsk p = true) (own : m.dst = hubId s) (good : accepts s m.h = true) :
    (opDataFlit p f (.part m n :: List.replicate k .pad) s).rx.map (fun x => x.m) = s.rx.map (fun x => x.m) ++ [m] ∧
      (link (opDataFlit p f (.part m n :: List.replicate k .pad) s) p).part = none := by
  obtain ⟨regs, part, rx⟩ := flitIn_kept p f s
  have whole := setLink_kept p { link (flitIn p f s) p with part := none } (flitIn p f s)
  generalize cleared : setLink p { link (flitIn p f s) p with part := none } (flitIn p f s) = u at whole
  obtain ⟨regs', part', rx'⟩ := whole
  have linked : link u p = { linkNext (linkHeaded f (link s p)) with part := none } := by rw [← cleared, link_setLink_self, link_flitIn]
  have regsU := regs'.trans regs
  have partU := part'.trans part
  have got : slotsOf m ≤ slotsGot (link (flitIn p f s) p) m n := by rw [link_flitIn]; exact last
  have own' : m.dst = hubId u := own.trans (congrArg (BitVec.ofNat 12) (rdFld_congr partU regsU _ _ _)).symm
  have good' : accepts u m.h = true := by
    rw [accepts, incOf_congr partU regsU, partU]
    exact good
  have at_ingress : (FlitPiece.part m n :: List.replicate k .pad).foldl (takeSlots p) (flitIn p f s) = learnVia p m (bufferRx p m u) := by
    rw [List.foldl_cons, takeSlots_pads, takeSlots_last got, cleared,
      ingress_own cls ((rdBit_congr partU regsU _ _).trans secured) own' good']
  obtain ⟨-, -, rx2, links2⟩ := learnVia_kept p m (bufferRx p m u)
  obtain ⟨-, -, rx1, link1⟩ := bufferRx_kept p m u
  have linked' : link (learnVia p m (bufferRx p m u)) p = { link u p with mine := takeCredits m (link u p).mine } := (link_congr links2 p).trans link1
  rw [opDataFlit_taken active fec crc tag next (by rw [at_ingress, linked', linked]; exact few), at_ingress, linked', rx2, rx1, rx', rx, linked]
  exact ⟨rfl, rfl⟩

/-! ### Control flits and NAKs -/

theorem opControlFlit_good (active : linkState s p = 3) (fec : f.fecOk = true) (crc : f.crcOk = true) (tag : f.tagOk = true) (plain : f.nak = false) :
    opControlFlit p f s = headIn p f s := by
  unfold opControlFlit
  rw [checkFlit_good fec crc tag, receives_of_active active, plain]
  rfl

theorem opNak_good (active : linkState s p = 3) (fec : f.fecOk = true) (crc : f.crcOk = true) (tag : f.tagOk = true) :
    opNak p f s = nakIn p f (headIn p f s) := by
  unfold opNak
  rw [checkFlit_good fec crc tag, receives_of_active active]
  rfl

/-- The NAKs at flit `f.ack` in a row, with the one that has just come. -/
def naksNow (f : FlitHead) (k : Link) : Nat := if k.naks ≠ 0 ∧ k.nakAt = f.ack.toNat then k.naks + 1 else 1

/-- A link on which a NAK has come. -/
def linkNaked (f : FlitHead) (k : Link) : Link := { k with naks := naksNow f k, nakAt := f.ack.toNat }

/-- The NAK of a flit that passes its checks, noted. -/
def nakNoted (p : Nat) (f : FlitHead) (s : State) : State := setLink p (linkNaked f (link (headIn p f s) p)) (headIn p f s)

theorem nakIn_eq (p : Nat) (f : FlitHead) (s : State) : nakIn p f (headIn p f s) =
    if rdFld (nakNoted p f s) (aIpCtl p) 12 4 ≤ naksNow f (link (headIn p f s) p) then retrain p false (nakNoted p f s)
    else sendAgain p (link (headIn p f s) p).retry (nakNoted p f s) := rfl

theorem nakNoted_kept (p : Nat) (f : FlitHead) (s : State) (a lo n : Nat) : rdFld (nakNoted p f s) a lo n = rdFld s a lo n := by
  obtain ⟨regs, part, -⟩ := headIn_kept p f s
  obtain ⟨regs', part', -⟩ := setLink_kept p (linkNaked f (link (headIn p f s) p)) (headIn p f s)
  exact rdFld_congr (part'.trans part) (regs'.trans regs) ..

theorem link_nakNoted (p : Nat) (f : FlitHead) (s : State) : link (nakNoted p f s) p = linkNaked f (linkHeaded f (link s p)) := by
  rw [nakNoted, link_setLink_self, link_headIn]

theorem naksNow_pos (f : FlitHead) (k : Link) : 1 ≤ naksNow f k := by
  unfold naksNow
  split <;> omega

theorem opNak_retrains (active : linkState s p = 3) (fec : f.fecOk = true) (crc : f.crcOk = true) (tag : f.tagOk = true) (few : rdFld s (aIpCtl p) 12 4 ≤ 1) :
    linkState (opNak p f s) p = 4 := by
  rw [opNak_good active fec crc tag, nakIn_eq, nakNoted_kept, if_pos (few.trans (naksNow_pos ..))]
  exact linkState_retrain ((nakNoted_kept ..).trans active) false

/-- The first NAK at a flit has what follows it sent again. -/
theorem opNak_resends (active : linkState s p = 3) (fec : f.fecOk = true) (crc : f.crcOk = true) (tag : f.tagOk = true) (first : (link s p).naks = 0)
    (many : 1 < rdFld s (aIpCtl p) 12 4) (fits : (link s p).wires + (link s p).retry.length < 2 ^ 64) :
    linkState (opNak p f s) p = 3 ∧ ∀ e ∈ (link s p).retry, seqAfter e.1 f.ack.toNat = true → ∀ m ∈ e.2, Sent.xfer (56 + p) (.msg m) ∈ (opNak p f s).out := by
  have one : naksNow f (linkHeaded f (link s p)) = 1 := if_neg (fun again => again.1 first)
  have shorter := List.length_filter_le (fun e => seqAfter e.1 f.ack.toNat) (link s p).retry
  obtain ⟨on, messages, -⟩ := sendAgain_all (s := nakNoted p f s) (p := p) (fs := (linkHeaded f (link s p)).retry)
    (by rw [link_nakNoted]; exact Nat.lt_of_le_of_lt (Nat.add_le_add_left shorter _) fits)
  rw [opNak_good active fec crc tag, nakIn_eq, nakNoted_kept, link_headIn, one, if_neg (Nat.not_le.2 many)]
  refine ⟨?_, fun e he after m hm => messages e (List.mem_filter.2 ⟨he, after⟩) m hm⟩
  exact (rdFld_congr on.part on.regs ..).trans ((nakNoted_kept ..).trans active)

/-! ### Timers -/

theorem opAckTimeout_active (active : linkState s p = 3) : opAckTimeout p s = sendAgain p (link s p).retry s := if_pos (receives_of_active active)

/-- A header with no credit owed acknowledges alone (R306). -/
theorem opAckReportTimer_spec (active : linkState s p = 3) (fits : (link s p).wires + 1 < 2 ^ 64) (none_owed : (link s p).owe = []) :
    (link (opAckReportTimer p s) p).sinceAck = 0 ∧ Sent.control p (lastGood (link s p)) 0 0 false ∈ (opAckReportTimer p s).out := by
  have here : ∀ x, link (emit x s) p = link s p := fun x => link_of_quiet (quiet_of_still (still_emit ..)) p
  rw [opAckReportTimer, if_pos (receives_of_active active)]
  unfold reportAck
  extract_lets k ack one t
  have empty : k.owe.isEmpty = true := List.isEmpty_iff.2 none_owed
  have unit : t = setLink p { link s p with wires := (link s p).wires + 1 } (emit (.control p ack 0 0 false) s) := by
    have counted := wireUnit_counts (s := emit (.control p ack 0 0 false) s) (p := p) (by rw [here]; exact fits)
    rw [here] at counted
    exact (if_pos empty).trans counted
  rw [link_setLink_self, unit]
  exact ⟨rfl, sent_emit ..⟩

end Sys2Proof.Machine

namespace Sys2Proof

open Machine

/-- Settles O38: flits by the checks that they pass, and what the header, the slots and the timers then do. -/
theorem linkFlits : Obligations.LinkFlits := by
  intro s p run
  have unhalted := unhalted_of_running run
  refine ⟨fun inactive f ms => ?_, fun active fits => ⟨fun f ms fec unsent => ⟨_, live_running run _, opDataFlit_uncorrected_spec active fits fec ms unsent⟩,
    fun f ms fec crc tag => ⟨_, live_running run _, ?_⟩, fun f fec crc tag next few => ⟨⟨_, live_running run _, ?_⟩, fun m k cls secured own good =>
      ⟨_, live_running run _, ?_⟩, fun m n fresh more => ⟨_, live_running run _, opDataFlit_more active fec crc tag next few fresh more⟩,
      fun m j n begun last cls secured own good => ⟨_, live_running run _, ?_⟩⟩,
    fun f fec crc tag plain => ⟨_, live_running run _, ?_⟩, fun f fec crc tag few => ⟨_, live_running run _, opNak_retrains active fec crc tag few⟩,
    fun f fec crc tag first many fits => ⟨_, live_running run _, opNak_resends active fec crc tag first many fits⟩,
    fun fits => ⟨_, live_running run _, ?_⟩, fun none_owed => ⟨_, live_running run _, opAckReportTimer_spec active fits none_owed⟩⟩⟩
  · obtain ⟨data, control, nak, timeout, report⟩ := opFlits_inactive inactive f ms
    refine ⟨?_, ?_, ?_, ?_, ?_⟩
    · exact (live_running run _).trans (congrArg Host.Outcome.next data)
    · exact (live_running run _).trans (congrArg Host.Outcome.next control)
    · exact (live_running run _).trans (congrArg Host.Outcome.next nak)
    · exact (live_running run _).trans (congrArg Host.Outcome.next timeout)
    · exact (live_running run _).trans (congrArg Host.Outcome.next report)
  · have unhalted' : (count (aIpCnt p 2) f.symbols s).halted = none := (count_halted ..).trans unhalted
    rw [opDataFlit_forged active fec crc tag]
    exact ⟨sealHalt_halted unhalted' .., (sealHalt_erases unhalted' ..).1⟩
  · obtain ⟨-, -, rx⟩ := flitIn_kept p f s
    have taken : opDataFlit p f [] s = flitIn p f s :=
      opDataFlit_taken active fec crc tag next (by rw [List.foldl_nil, link_flitIn]; exact few)
    rw [taken, link_flitIn]
    exact ⟨rfl, rfl, rfl, rx⟩
  · exact opDataFlit_whole active fec crc tag next few (Nat.le_add_right ..) cls secured own good
  · refine opDataFlit_whole (k := 0) active fec crc tag next few ?_ cls secured own good
    rw [slotsGot, begun]
    simp only [if_true]
    omega
  · rw [opControlFlit_good active fec crc tag plain, link_headIn]
    exact ⟨mgetD_mput_self .., rfl⟩
  · obtain ⟨on, messages, flits⟩ := sendAgain_all (s := s) (p := p) fits
    rw [opAckTimeout_active active]
    exact ⟨on.link, messages, flits⟩

end Sys2Proof
end

section
/-! PROOFS. What a failed link held (R311), and waits for a route (R318, R332). -/

namespace Sys2Proof.Machine

variable {s : State}

/-! ### The search for what a failed link delivered -/

theorem opLkseqTimeout_waiting {p : IPort} (waits : (link s p).lkWait = true) :
    opLkseqTimeout p s = setLink p { link s p with retry := [], lkWait := false } s := if_pos waits

theorem opLkseqTimeout_idle {p : IPort} (idle : (link s p).lkWait = false) : opLkseqTimeout p s = s := if_neg (by simp [idle])

theorem takeRx_empty (empty : s.rx = []) (opc : Opc) (h : Hdr) : takeRx opc h s = s := by
  unfold takeRx
  rw [empty]
  rfl

/-- The answer to a search: the peer's port and the last flit that this port has taken. -/
def seqAnswer (h : Hdr) (s : State) : Msg :=
  { opc := .lkSeqR, dst := h.src, dl := false, sr := false, hops := 0, len := BitVec.ofNat 3 (lenOf .lkSeqR),
    h := { mkHdr s 0 h.tc.toNat h.epoch.toNat 0 0 0 with
           xtra := BitVec.ofNat 64 (rdFld s (aIpPeer (h.xtra.toNat % 16)) 12 4 + lastGood (link s (h.xtra.toNat % 16)) * 16) },
    data := Data.zero }

theorem opLkseqq_answers {h : Hdr} (port : h.xtra.toNat % 16 < 12) (empty : s.rx = []) (payload : BitVec 512) :
    opLkseqq h payload s = dispatch (sliceInput (sliceOf (seqAnswer h s).h.line)) [] (seqAnswer h s) s := by
  unfold opLkseqq
  rw [takeRx_empty empty]
  exact if_neg (Nat.not_le.2 port)

theorem seqAnswer_seq (h : Hdr) (s : State) : (seqAnswer h s).h.xtra.toNat / 16 = ((link s (h.xtra.toNat % 16)).expect + 1023) % 1024 := by
  have port := fld_lt (rd s (aIpPeer (h.xtra.toNat % 16))) 12 4
  have seq := Nat.mod_lt ((link s (h.xtra.toNat % 16)).expect + 1023) (by decide : 0 < 1024)
  show (BitVec.ofNat 64 (fld (rd s (aIpPeer (h.xtra.toNat % 16))) 12 4 + ((link s (h.xtra.toNat % 16)).expect + 1023) % 1024 * 16)).toNat / 16 = _
  rw [BitVec.toNat_ofNat]
  omega

/-! ### Messages on another way -/

theorem transitCell_larder {m : Msg} {x : List Nat × State} (h : transitCell m s = some x) : ∃ lar, x.2 = { s with lar := lar } := by
  unfold transitCell at h
  split at h
  · obtain rfl := Option.some.inj h
    exact ⟨s.lar, rfl⟩
  · split at h
    · obtain ⟨y, taken, rfl⟩ := Option.map_eq_some_iff.1 h
      unfold takeProto at taken
      split at taken
      · exact takeCellFrom_larder taken
      · cases taken
    · exact takeCells_larder h

theorem quiet_doneReading (cs : List Nat) (s : State) : quiet (doneReading cs s) = quiet s := rfl

theorem quiet_forward (p q : Nat) (m : Msg) (cells : List Nat) (s : State) : quiet (forward p q m cells s) = quiet s := by
  unfold forward
  extract_lets grp dl m'
  split <;> rfl

/-- The block without its receive buffers and links too. -/
def offRx (s : State) : State := { quiet s with rx := [], links := [] }

theorem offRx_of_quiet {t : State} (h : quiet t = quiet s) : offRx t = offRx s := by rw [offRx, h, offRx]

theorem offRx_freeRx (x : RxMsg) (s : State) : offRx (freeRx x s) = offRx s := by
  unfold freeRx
  extract_lets k c r own sh
  split <;> rfl

theorem offRx_withRx (s : State) (l : List RxMsg) : offRx { s with rx := l } = offRx s := rfl

theorem offRx_passOn (s : State) (x : RxMsg) : offRx (passOn s x) = offRx s := by
  unfold passOn
  extract_lets m
  split
  · rfl
  · split
    · exact offRx_freeRx ..
    · split
      · rfl
      · split
        · rfl
        next q cs t _ taken =>
          obtain ⟨lar, eq⟩ := transitCell_larder taken
          have kept : offRx t = offRx s := by
            rw [show t = _ from eq]
            rfl
          exact (offRx_freeRx ..).trans ((offRx_of_quiet (quiet_forward ..)).trans ((offRx_withRx ..).trans kept))
        · exact apply_ite_same offRx (offRx_of_quiet (quiet_fire ..)) rfl

theorem offRx_reroute (m : Msg) (input : Nat) (dl0 : Bool) (cells : List Nat) (s : State) : offRx (reroute m input dl0 cells s) = offRx s := by
  unfold reroute
  split
  · extract_lets x t
    exact (offRx_passOn ..).trans ((offRx_withRx ..).trans (offRx_of_quiet (quiet_doneReading ..)))
  · exact offRx_of_quiet (quiet_of_still (still_dispatch ..))

theorem hc_of_offRx {t : State} (h : offRx t = offRx s) : t.hc = s.hc := by
  have kept := congrArg State.hc h
  exact kept

/-- A message that owes no credits leaves the links as it passes on. -/
theorem links_passOn {x : RxMsg} (unowed : x.owed = false) (s : State) : (passOn s x).links = s.links := by
  have freed : ∀ u : State, freeRx x u = u := fun u => if_pos (by simp [unowed])
  unfold passOn
  extract_lets m
  split
  · rfl
  · split
    · rw [freed]
    · split
      · rfl
      · split
        · rfl
        next q cs t _ taken =>
          obtain ⟨lar, eq⟩ := transitCell_larder taken
          have kept : t.links = s.links := by rw [show t = _ from eq]
          rw [freed, links_of_quiet (quiet_forward ..)]
          exact kept
        · exact apply_ite_same State.links (fire_links ..) rfl

theorem links_reroute (m : Msg) (input : Nat) (dl0 : Bool) (cells : List Nat) (s : State) : (reroute m input dl0 cells s).links = s.links := by
  unfold reroute
  split
  · extract_lets x t
    exact links_passOn rfl _
  · exact links_of_quiet (quiet_of_still (still_dispatch ..))

/-- What a failed link held and its peer has not taken is sent again on another way (R311). -/
theorem opLkseqr_spec {h : Hdr} (port : h.xtra.toNat % 16 < 12) (empty : s.rx = []) (waits : (link s (h.xtra.toNat % 16)).lkWait = true)
    (payload : BitVec 512) :
    (link (opLkseqr h payload s) (h.xtra.toNat % 16)).retry = [] ∧ (link (opLkseqr h payload s) (h.xtra.toNat % 16)).lkWait = false ∧
      (opLkseqr h payload s).hc = s.hc := by
  unfold opLkseqr
  rw [takeRx_empty empty]
  extract_lets _ p n k ms t
  have eq : (if (decide (p ≥ 12) || !(link s p).lkWait) = true then s else ms.foldl (fun s x => reroute x.1 x.2.1 x.2.2 [] s) t) =
      ms.foldl (fun s x => reroute x.1 x.2.1 x.2.2 [] s) t := if_neg (by simp [waits, p]; omega)
  have links : (ms.foldl (fun s x => reroute x.1 x.2.1 x.2.2 [] s) t).links = t.links := foldl_frame State.links (fun s _ => links_reroute _ _ _ _ s) ms t
  have beside : offRx (ms.foldl (fun s x => reroute x.1 x.2.1 x.2.2 [] s) t) = offRx t := foldl_frame offRx (fun s _ => offRx_reroute _ _ _ _ s) ms t
  have cleared : link t p = { k with retry := [], orig := [], lkWait := false } := link_setLink_self ..
  rw [eq, hc_of_offRx beside, link_congr links, cleared]
  exact ⟨rfl, rfl, rfl⟩

/-! ### Messages that wait for a route -/

/-- A message that waits leaves once it has an output, and waits on otherwise. -/
def resumeOne (s : State) (x : Msg × List Nat) : State := match outPort s x.1.dst (channelOf x.1) with
  | some p => egress p (sliceInput (sliceOf x.1.h.line)) x.2 x.1 s
  | none => { s with routeWait := s.routeWait ++ [x] }

theorem opMessageRouteResume_eq (s : State) : opMessageRouteResume s =
    (s.routeWait.foldl resumeOne { s with routeWait := [] }).rx.foldl passOn (s.routeWait.foldl resumeOne { s with routeWait := [] }) := rfl

theorem outPort_routeWait (s : State) (l : List (Msg × List Nat)) (h : HubId) (c : Nat) : outPort { s with routeWait := l } h c = outPort s h c := by
  have most : ∀ ps, mostCredits { s with routeWait := l } c ps = mostCredits s c ps := by
    intro ps
    induction ps with
    | nil => rfl
    | cons p ps ih =>
      rw [mostCredits, mostCredits, ih]
      rfl
  unfold outPort
  extract_lets e ps e' ps'
  exact congrArg (fun m => if bit e 24 = true then m else ps.head?) (most ps)

/-- Messages without an output wait on in their order. -/
theorem resume_none (l w : List (Msg × List Nat)) (none_free : ∀ m ∈ l, outPort s m.1.dst (channelOf m.1) = none) :
    l.foldl resumeOne { s with routeWait := w } = { s with routeWait := w ++ l } := by
  induction l generalizing w with
  | nil => rw [List.append_nil]; rfl
  | cons m l ih =>
    have waits : resumeOne { s with routeWait := w } m = { s with routeWait := w ++ [m] } := by
      rw [resumeOne, outPort_routeWait, none_free m List.mem_cons_self]
    rw [List.foldl_cons, waits, ih _ (fun x hx => none_free x (List.mem_cons_of_mem _ hx)), List.append_assoc]
    rfl

theorem opMessageRouteResume_none (none_free : ∀ m ∈ s.routeWait, outPort s m.1.dst (channelOf m.1) = none) :
    opMessageRouteResume s = s.rx.foldl passOn s := by
  rw [opMessageRouteResume_eq, resume_none _ _ none_free]
  rfl

theorem resume_one {m : Msg × List Nat} {p : Nat} (free : outPort s m.1.dst (channelOf m.1) = some p) :
    resumeOne { s with routeWait := [] } m = egress p (sliceInput (sliceOf m.1.h.line)) m.2 m.1 { s with routeWait := [] } := by
  rw [resumeOne, outPort_routeWait, free]

theorem egress_waits (p i : Nat) (cells : List Nat) (m : Msg) (s : State) : (egress p i cells m s).routeWait = s.routeWait ∧ (egress p i cells m s).rx = s.rx ∧
    (mgetD [] (egress p i cells m s).brd.wait (56 + p)).length = (mgetD [] s.brd.wait (56 + p)).length + 1 := by
  refine ⟨rfl, rfl, ?_⟩
  unfold egress
  extract_lets dl m'
  rw [show ∀ w, mgetD [] (enqueue (56 + p) w s).brd.wait (56 + p) = mgetD [] s.brd.wait (56 + p) ++ [w] from fun w => mgetD_mset_self ..]
  exact List.length_append

/-! ### A hub without a route -/

theorem mem_ports {w : Word} {p : Nat} : p ∈ setBits 12 (fld w 0 12) ↔ p < 12 ∧ bit w p = true := by
  rw [setBits, List.mem_filter, List.mem_range]
  refine and_congr_right fun small => ?_
  rw [fld_testBit, Nat.zero_add, bit]
  simp [small]

theorem opRouteLossTimeout_routed {hub : HubId} (routed : ∃ p, p < 12 ∧ bit (route s hub) p = true ∧ portActive s p = true) :
    opRouteLossTimeout hub s = s := by
  obtain ⟨p, small, on, active⟩ := routed
  exact if_pos (List.any_eq_true.2 ⟨p, mem_ports.2 ⟨small, on⟩, active⟩)

theorem opRouteLossTimeout_lost {hub : HubId} (lost : ∀ p, p < 12 → bit (route s hub) p = true → portActive s p = false) :
    opRouteLossTimeout hub s = declareDead hub 1 s := by
  refine if_neg fun routed => ?_
  obtain ⟨p, hp, active⟩ := List.any_eq_true.1 routed
  obtain ⟨small, on⟩ := mem_ports.1 hp
  rw [lost p small on] at active
  exact absurd active (by decide)

end Sys2Proof.Machine

namespace Sys2Proof

open Machine

/-- Settles O40: the search's commands by what they leave of the link, and the waits by whether an output is there. -/
theorem linkRecoveryAndRoutes : Obligations.LinkRecoveryAndRoutes := by
  intro s run
  refine ⟨fun p waits => ⟨_, live_running run _, ?_⟩, fun p idle => ⟨_, live_running run _, opLkseqTimeout_idle idle⟩,
    fun h payload port empty => ⟨_, _, live_running run _, opLkseqq_answers port empty payload, rfl, rfl, seqAnswer_seq h s⟩,
    fun h payload port empty waits => ⟨_, live_running run _, opLkseqr_spec port empty waits payload⟩,
    fun none_free => ⟨_, live_follow run opMessageRouteResume, opMessageRouteResume_none none_free⟩, fun m p one free => ?_,
    fun hub routed => ⟨_, live_follow run (opRouteLossTimeout hub), opRouteLossTimeout_routed routed⟩,
    fun hub lost => ⟨_, live_follow run (opRouteLossTimeout hub), opRouteLossTimeout_lost lost⟩⟩
  · rw [opLkseqTimeout_waiting waits, link_setLink_self]
    exact ⟨rfl, rfl, rfl⟩
  · obtain ⟨route, rx, waiting⟩ := egress_waits p (sliceInput (sliceOf m.1.h.line)) m.2 m.1 { s with routeWait := [] }
    have resumed : s.routeWait.foldl resumeOne { s with routeWait := [] } = egress p (sliceInput (sliceOf m.1.h.line)) m.2 m.1 { s with routeWait := [] } := by
      rw [one, List.foldl_cons, List.foldl_nil, resume_one free]
    have eq := opMessageRouteResume_eq s
    rw [resumed] at eq
    exact ⟨_, (live_follow run opMessageRouteResume).trans (congrArg (fun z => Host.Outcome.next (follow z)) eq), route, rx, waiting⟩

end Sys2Proof
end

section
/-! PROOFS. Messages taken, turned away, and held for a cell of the protocol reserve (R156, R254): what they act on, and what they leave. -/

namespace Sys2Proof.Machine

variable {s t : State} {i : Instr} {opc : Opc} {h : Hdr}

/-- A message that is accepted acts on the block, whose receive buffer and links have changed. -/
theorem message_taken (good : accepts s h = true) (opc : Opc) (f : State → State) :
    ∃ rx links, message opc h f s = f { s with rx := rx, links := links } := by
  obtain ⟨rx, links, eq⟩ := takeRx_buffer opc h s
  refine ⟨rx, links, ?_⟩
  rw [message, if_pos good, eq]

theorem message_turned (bad : accepts s h = false) (opc : Opc) (f : State → State) : message opc h f s = turnAway opc h s := if_neg (by simp [bad])

theorem takeProto_larder {tc n : Nat} {x : Nat × State} (h : takeProto tc n s = some x) : ∃ lar, x.2 = { s with lar := lar } := by
  unfold takeProto at h
  split at h
  · exact takeCellFrom_larder h
  · cases h

/-- A message that is accepted and finds a cell of the reserve acts on the block, whose Larder, receive buffer and links have changed. -/
theorem withCell_taken {c : Nat} {v : State} (good : accepts s h = true) (found : takeProto h.tc.toNat 1 s = some (c, v)) (i : Instr) (opc : Opc)
    (f : List Nat → State → State) : ∃ lar rx links, withCell i opc h f s = f [c] { s with lar := lar, rx := rx, links := links } := by
  obtain ⟨lar, eq⟩ := takeProto_larder found
  obtain ⟨rx, links, eq'⟩ := takeRx_buffer opc h v
  refine ⟨lar, rx, links, ?_⟩
  rw [withCell, if_neg (by simp [good]), found]
  show f [c] (takeRx opc h v) = _
  rw [eq', show v = _ from eq]

theorem withCell_full (good : accepts s h = true) (full : takeProto h.tc.toNat 1 s = none) (i : Instr) (opc : Opc) (f : List Nat → State → State) :
    withCell i opc h f s = holdProto i h s := by
  rw [withCell, if_neg (by simp [good]), full]

theorem offRx_takeRx (opc : Opc) (h : Hdr) (s : State) : offRx (takeRx opc h s) = offRx s := by
  obtain ⟨rx, links, eq⟩ := takeRx_buffer opc h s
  rw [eq]
  rfl

/-- A message that is turned away leaves only its events, its counter and its place in the receive buffer. -/
theorem offRx_turnAway (opc : Opc) (h : Hdr) (s : State) : offRx (turnAway opc h s) = offRx s :=
  (offRx_takeRx ..).trans (offRx_of_quiet ((quiet_fire ..).trans (quiet_count ..)))

theorem holdProto_kept (i : Instr) (h : Hdr) (s : State) : (holdProto i h s).mir = s.mir ∧ (holdProto i h s).cel = s.cel ∧ (holdProto i h s).hc = s.hc ∧
    (holdProto i h s).lar.held = s.lar.held ++ [(i, 60, h.tc.toNat)] :=
  ⟨fire_mir .., fire_cel .., fire_hc .., congrArg Lar.held (fire_lar ..)⟩

theorem mir_of_offRx (h : offRx t = offRx s) : t.mir = s.mir := by
  have kept := congrArg State.mir h
  exact kept

theorem cel_of_offRx (h : offRx t = offRx s) : t.cel = s.cel := by
  have kept := congrArg State.cel h
  exact kept

theorem fab_of_offRx (h : offRx t = offRx s) : t.fab = s.fab := by
  have kept := congrArg State.fab h
  exact kept

end Sys2Proof.Machine
end

section
/-! PROOFS. Mirror messages between buddies (R343 to R346). -/

namespace Sys2Proof.Machine

variable {s t : State} {h : Hdr}

/-! ### As buddy -/

theorem mir_cellarPut (l : LineAddr) (d : Data) (mask : BitVec 64) (s : State) (cells : List Nat) (ent : Option Word) (drain : Bool)
    (cls : Option (Nat × Nat)) : (cellarPut l d mask s cells ent drain cls).mir = s.mir := by
  unfold cellarPut
  extract_lets n cel s1 s2
  have h1 : s1.mir = s.mir := rfl
  split
  · have h2 : s2.mir = s.mir := (fire_mir ..).trans h1
    exact apply_ite_same State.mir h2 h2
  · split
    · exact (fire_mir ..).trans h1
    · exact apply_ite_same State.mir ((fire_mir ..).trans h1) h1

theorem mir_cellarWrite (l : LineAddr) (d : Data) (mask : BitVec 64) (s : State) : (cellarWrite l d mask s).mir = s.mir := mir_cellarPut ..

/-- The mirror once message `n` has been applied. -/
def mirNoted (m : Msg) (id : Option Nat) (x : Mir) : Mir :=
  { x with expect := (m.h.xtra.toNat % 2 ^ 32 + 1) % 2 ^ 32, applied := x.applied ++ [(m.h.xtra.toNat % 2 ^ 32, id, m.h.tc.toNat, m.h.epoch.toNat)] }

/-- A mirror write applied, with the cellar write that it waits for. -/
theorem mir_mirApply_write {m : Msg} (write : m.opc = .mrW) (cells : List Nat) (s : State) :
    (mirApply m cells s).mir = mirNoted m ((mirTarget s m.h.line).map fun _ => s.cel.next) s.mir := by
  unfold mirApply
  extract_lets n _ u note
  have target : mirTarget u m.h.line = mirTarget s m.h.line := rfl
  have noted : ∀ id t, t.mir = u.mir → (note id t).mir = mirNoted m id s.mir := by
    intro id t same
    show ({ t.mir with applied := t.mir.applied ++ [(n, id, m.h.tc.toNat, m.h.epoch.toNat)] } : Mir) = _
    rw [same]
    rfl
  rw [write, target]
  cases mirTarget s m.h.line with
  | none => exact noted _ _ (fire_mir ..)
  | some l => exact noted _ _ (mir_cellarWrite ..)

theorem mirApply_start {m : Msg} (control : m.opc = .mrCtl) (start : m.h.xtra.toNat.testBit 36 = true) (cells : List Nat) (s : State) :
    (mirApply m cells s).mir.copies = s.mir.copies ++ [m.h.xtra.toNat / 2 ^ 32 % 8] ∧
      rdBit (mirApply m cells s) (aFbMir (m.h.xtra.toNat / 2 ^ 32 % 8)) 3 = false := by
  unfold mirApply
  extract_lets n _ u note e
  rw [control]
  simp only [start, if_true]
  have regs : ∀ id t a, rd (note id t) a = rd t a := fun _ _ a => rd_congr rfl rfl a
  refine ⟨rfl, ?_⟩
  rw [rd_congr_bits (regs ..)]
  exact rdBit_wrFld_self _ 3 0 (by decide)

theorem mirApply_end {m : Msg} (control : m.opc = .mrCtl) (ends : m.h.xtra.toNat.testBit 36 = false)
    (last : m.h.xtra.toNat / 2 ^ 32 % 8 ∉ s.mir.copies.erase (m.h.xtra.toNat / 2 ^ 32 % 8)) (cells : List Nat) :
    rdBit (mirApply m cells s) (aFbMir (m.h.xtra.toNat / 2 ^ 32 % 8)) 3 = true ∧
      (mirApply m cells s).mir.expect = (m.h.xtra.toNat % 2 ^ 32 + 1) % 2 ^ 32 := by
  unfold mirApply
  extract_lets n _ u note e _ left
  rw [control]
  have gone : ¬e ∈ left := last
  simp only [ends, Bool.false_eq_true, if_false, gone]
  have regs : ∀ id t a, rd (note id t) a = rd t a := fun _ _ a => rd_congr rfl rfl a
  refine ⟨?_, rfl⟩
  rw [rd_congr_bits (regs ..)]
  exact rdBit_wrFld_self _ 3 1 (by decide)

/-- A mirror message of the partner that is next in order is applied (R343). -/
theorem mirArrive_next {m : Msg} (from_buddy : m.h.src = buddy s) (on : mirrorOn s = true) (next : m.h.xtra.toNat % 2 ^ 32 = s.mir.expect)
    (none_early : s.mir.early = []) (cells : List Nat) : mirArrive m cells s = mirApply m cells s := by
  unfold mirArrive
  extract_lets n
  rw [if_neg (by simp [from_buddy, on]), if_pos next, none_early]
  rfl

theorem mirrorOn_of_paired (paired : rdFld s aFbBuddy 0 2 = 2) : mirrorOn s = true := decide_eq_true paired

theorem opMrw_next {d : Data} {c : Nat} {v : State} (good : accepts s h = true) (from_buddy : h.src = buddy s) (paired : rdFld s aFbBuddy 0 2 = 2)
    (next : h.xtra.toNat % 2 ^ 32 = s.mir.expect) (none_early : s.mir.early = []) (found : takeProto h.tc.toNat 1 s = some (c, v)) :
    (opMrw h d s).mir = mirNoted (mirIn .mrW h d) ((mirTarget s h.line).map fun _ => s.cel.next) s.mir := by
  obtain ⟨lar, rx, links, eq⟩ := withCell_taken good found (.mrw h d) .mrW (fun cs s => mirArrive (mirIn .mrW h d) cs s)
  rw [opMrw, eq, mirArrive_next (s := { s with lar := lar, rx := rx, links := links }) from_buddy (mirrorOn_of_paired paired) next none_early,
    mir_mirApply_write rfl]
  rfl

/-- What the header of an `MrCtl` says, as the partner sent it. -/
def ctlWord (h : Hdr) (start : Bool) (entry : Fin 8) : Nat := h.xtra.toNat % 2 ^ 32 + (entry.val + 16 * start.toNat) * 2 ^ 32

theorem ctlWord_fits (h : Hdr) (start : Bool) (entry : Fin 8) : (BitVec.ofNat 64 (ctlWord h start entry)).toNat = ctlWord h start entry := by
  have flag := Bool.toNat_le start
  have slot := entry.isLt
  have low := Nat.mod_lt h.xtra.toNat (by decide : 0 < 2 ^ 32)
  unfold ctlWord
  rw [BitVec.toNat_ofNat]
  exact Nat.mod_eq_of_lt (by omega)

theorem ctlWord_fields (h : Hdr) (start : Bool) (entry : Fin 8) : ctlWord h start entry % 2 ^ 32 = h.xtra.toNat % 2 ^ 32 ∧
    ctlWord h start entry / 2 ^ 32 % 8 = entry.val ∧ (ctlWord h start entry).testBit 36 = start := by
  have flag := Bool.toNat_le start
  have slot := entry.isLt
  have low := Nat.mod_lt h.xtra.toNat (by decide : 0 < 2 ^ 32)
  have bits : ctlWord h start entry / 2 ^ 36 = start.toNat := by unfold ctlWord; omega
  refine ⟨by unfold ctlWord; omega, by unfold ctlWord; omega, ?_⟩
  rw [Nat.testBit_eq_decide_div_mod_eq, bits]
  cases start <;> rfl

/-- The message that an `MrCtl` arrives as. -/
def ctlMsg (h : Hdr) (start : Bool) (entry : Fin 8) : Msg := mirIn .mrCtl { h with xtra := BitVec.ofNat 64 (ctlWord h start entry) } Data.zero

theorem mirIn_src (h : Hdr) (x : BitVec 64) : (mirIn .mrCtl { h with xtra := x } Data.zero).h.src = h.src := rfl

theorem ctlMsg_src (h : Hdr) (start : Bool) (entry : Fin 8) : (ctlMsg h start entry).h.src = h.src := mirIn_src h _

theorem ctlMsg_xtra (h : Hdr) (start : Bool) (entry : Fin 8) : (ctlMsg h start entry).h.xtra.toNat = ctlWord h start entry := ctlWord_fits ..

theorem opMrctl_eq (h : Hdr) (start : Bool) (entry : Fin 8) (s : State) :
    opMrctl h start entry s = message .mrCtl h (mirArrive (ctlMsg h start entry) []) s := rfl

theorem opMrctl_next {start : Bool} {entry : Fin 8} (good : accepts s h = true) (from_buddy : h.src = buddy s) (paired : rdFld s aFbBuddy 0 2 = 2)
    (next : h.xtra.toNat % 2 ^ 32 = s.mir.expect) (none_early : s.mir.early = []) :
    ∃ rx links, opMrctl h start entry s = mirApply (ctlMsg h start entry) [] { s with rx := rx, links := links } := by
  obtain ⟨rx, links, eq⟩ := message_taken good .mrCtl (mirArrive (ctlMsg h start entry) [])
  have seq : (ctlMsg h start entry).h.xtra.toNat % 2 ^ 32 = s.mir.expect := by
    rw [ctlMsg_xtra, (ctlWord_fields ..).1, next]
  refine ⟨rx, links, ?_⟩
  rw [opMrctl_eq]
  exact eq.trans (mirArrive_next (s := { s with rx := rx, links := links }) ((ctlMsg_src ..).trans from_buddy) (mirrorOn_of_paired paired) seq none_early [])

theorem opMrctl_start {entry : Fin 8} (good : accepts s h = true) (from_buddy : h.src = buddy s) (paired : rdFld s aFbBuddy 0 2 = 2)
    (next : h.xtra.toNat % 2 ^ 32 = s.mir.expect) (none_early : s.mir.early = []) :
    (opMrctl h true entry s).mir.copies = s.mir.copies ++ [entry.val] ∧ rdBit (opMrctl h true entry s) (aFbMir entry) 3 = false := by
  obtain ⟨rx, links, eq⟩ := opMrctl_next (start := true) (entry := entry) good from_buddy paired next none_early
  obtain ⟨-, slot, flag⟩ := ctlWord_fields h true entry
  rw [← ctlMsg_xtra] at slot flag
  obtain ⟨copies, bit⟩ := mirApply_start (m := ctlMsg h true entry) rfl flag [] { s with rx := rx, links := links }
  have at_entry : (ctlMsg h true entry).h.xtra.toNat / 2 ^ 32 % 8 = entry.val := slot
  rw [at_entry] at copies bit
  rw [eq]
  exact ⟨copies, bit⟩

theorem opMrctl_end {entry : Fin 8} (good : accepts s h = true) (from_buddy : h.src = buddy s) (paired : rdFld s aFbBuddy 0 2 = 2)
    (next : h.xtra.toNat % 2 ^ 32 = s.mir.expect) (none_early : s.mir.early = []) (last : entry.val ∉ s.mir.copies.erase entry.val) :
    rdBit (opMrctl h false entry s) (aFbMir entry) 3 = true ∧ (opMrctl h false entry s).mir.expect = (s.mir.expect + 1) % 2 ^ 32 := by
  obtain ⟨rx, links, eq⟩ := opMrctl_next (start := false) (entry := entry) good from_buddy paired next none_early
  obtain ⟨seq, slot, flag⟩ := ctlWord_fields h false entry
  rw [← ctlMsg_xtra] at slot flag seq
  have at_entry : (ctlMsg h false entry).h.xtra.toNat / 2 ^ 32 % 8 = entry.val := slot
  obtain ⟨bit, expect⟩ := mirApply_end (m := ctlMsg h false entry) (s := { s with rx := rx, links := links }) rfl flag (by rw [at_entry]; exact last) []
  have number : (ctlMsg h false entry).h.xtra.toNat % 2 ^ 32 = s.mir.expect := seq.trans next
  rw [at_entry] at bit
  rw [number] at expect
  rw [eq]
  exact ⟨bit, expect⟩

/-! ### As home -/

/-- What is acknowledged with nothing that waits and no completion owed. -/
theorem opMrack_spec (good : accepts s h = true) (from_buddy : h.src = buddy s) (none_held : s.mir.held = []) (none_owed : s.cel.owed = []) :
    (opMrack h s).mir.tries = 0 ∧ (opMrack h s).mir.sent = s.mir.sent.filter fun e => !mseqUpTo e.1 (h.xtra.toNat % 2 ^ 32) := by
  have acked : ∀ (n : Nat) (u : State), u.mir.held = [] → ackTo n u =
      { u with mir := { u.mir with sent := u.mir.sent.filter fun e => !mseqUpTo e.1 n, tries := 0 } } := by
    intro n u empty
    unfold ackTo
    extract_lets _ v
    have empty' : v.mir.held = [] := empty
    exact (congrArg (mirRelease · v) empty').trans rfl
  have settled : ∀ u : State, u.cel.owed = [] → (settleOwed u).mir = u.mir := by
    intro u empty
    unfold settleOwed
    extract_lets due _ v
    have none_due : due = [] := by
      show u.cel.owed.filter (owedDue u) = []
      rw [empty, List.filter_nil]
    rw [none_due]
    rfl
  obtain ⟨rx, links, eq⟩ := message_taken good .mrAck
    (fun s => if h.src = buddy s then settleOwed (ackTo (h.xtra.toNat % 2 ^ 32) s) else s)
  have done : opMrack h s = settleOwed (ackTo (h.xtra.toNat % 2 ^ 32) { s with rx := rx, links := links }) := by
    unfold opMrack
    exact eq.trans (if_pos from_buddy)
  have here := acked (h.xtra.toNat % 2 ^ 32) { s with rx := rx, links := links } none_held
  rw [done, settled _ (by rw [here]; exact none_owed), here]
  exact ⟨rfl, rfl⟩

theorem opMirrorResendTimeout_last (paired : rdFld s aFbBuddy 0 2 = 2) (open_ : s.mir.sent ≠ []) (many : 2 ≤ s.mir.tries) :
    opMirrorResendTimeout s = declareDead (buddy s) 0 s := by
  rw [opMirrorResendTimeout, if_neg (by simp [mirrorOn_of_paired paired, open_]), if_pos many]

/-- What is not acknowledged is sent again, once more tried. -/
theorem opMirrorResendTimeout_again (paired : rdFld s aFbBuddy 0 2 = 2) (open_ : s.mir.sent ≠ []) (few : s.mir.tries < 2) :
    quiet (opMirrorResendTimeout s) = quiet { s with mir := { s.mir with tries := s.mir.tries + 1 } } := by
  rw [opMirrorResendTimeout, if_neg (by simp [mirrorOn_of_paired paired, open_]), if_neg (Nat.not_le.2 few)]
  exact quiet_foldl (fun s e => quiet_of_still (still_dispatch ..)) _ _

theorem opMirrorResendTimeout_idle (unpaired : rdFld s aFbBuddy 0 2 ≠ 2) : opMirrorResendTimeout s = s := by
  rw [opMirrorResendTimeout, if_pos (by simp [mirrorOn, unpaired])]

theorem followAfter_self (s : State) : followAfter s s = s := followAfter_quiet rfl

end Sys2Proof.Machine

namespace Sys2Proof

open Machine

/-- Settles O45: each mirror message by what it applies or acknowledges. -/
theorem mirrorMessages : Obligations.MirrorMessages := by
  intro s run
  refine ⟨fun h d c v good from_buddy paired next none_early found => ⟨_, live_follow run (opMrw h d), ?_⟩,
    fun h d good full => ⟨_, live_follow run (opMrw h d), ?_⟩,
    fun h entry good from_buddy paired next none_early =>
      ⟨⟨_, live_follow run (opMrctl h true entry), opMrctl_start good from_buddy paired next none_early⟩,
        fun last => ⟨_, live_follow run (opMrctl h false entry), opMrctl_end good from_buddy paired next none_early last⟩⟩,
    fun h good from_buddy none_held none_owed => ⟨_, live_follow run (opMrack h), opMrack_spec good from_buddy none_held none_owed⟩,
    fun h bad => ⟨_, live_follow run (opMrack h), ?_⟩, fun paired open_ many => ⟨_, live_running run (fun s => followAfter s (opMirrorResendTimeout s)), ?_⟩, fun paired open_ few => ?_,
    fun unpaired => ?_⟩
  · rw [opMrw_next good from_buddy paired next none_early found, ← next]
    exact ⟨rfl, rfl⟩
  · obtain ⟨mir, cel, -, held⟩ := holdProto_kept (.mrw h d) h s
    rw [opMrw, withCell_full good full]
    exact ⟨mir, cel, held⟩
  · have turned : offRx (opMrack h s) = offRx s := by
      unfold opMrack
      rw [message_turned bad]
      exact offRx_turnAway ..
    exact ⟨mir_of_offRx turned, cel_of_offRx turned⟩
  · exact congrArg (followAfter s) (opMirrorResendTimeout_last paired open_ many)
  · have same := opMirrorResendTimeout_again paired open_ few
    have still : followAfter s (opMirrorResendTimeout s) = opMirrorResendTimeout s := by
      rw [followAfter, if_pos]
      rw [cel_of_quiet same, mir_of_quiet same, ports_of_quiet same]
      exact ⟨rfl, rfl, rfl, rfl⟩
    refine ⟨_, (live_running run (fun s => followAfter s (opMirrorResendTimeout s))).trans (congrArg Host.Outcome.next still), ?_⟩
    rw [mir_of_quiet same, hc_of_quiet same]
    exact ⟨rfl, rfl, rfl⟩
  · refine (live_running run (fun s => followAfter s (opMirrorResendTimeout s))).trans (congrArg Host.Outcome.next ?_)
    rw [opMirrorResendTimeout_idle unpaired, followAfter_self]

end Sys2Proof
end

section
/-! PROOFS. Deaths found, reported and noted (R153, R319, R331). -/

namespace Sys2Proof.Machine

variable {s t : State} {h : Hdr}

/-! ### Deaths found -/

/-- The only snoop of a transaction once tried again. -/
def triedAgain (t : Txn) (x : SnpOut) : Txn := { t with snps := [{ x with tries := x.tries + 1 }] }

variable {line : LineAddr} {hub : HubId}

theorem opSnoopTimeout_none (closed : txnOf s (inLine s line) = none) : opSnoopTimeout line hub s = s := by
  unfold opSnoopTimeout
  extract_lets l
  rw [show txnOf s l = none from closed]

theorem opSnoopTimeout_last {t : Txn} {x : SnpOut} (opened : txnOf s (inLine s line) = some t) (one : t.snps = [x]) (told : x.hub = hub)
    (open_ : x.ans = none) (many : 3 ≤ x.tries) : opSnoopTimeout line hub s = declareDead hub 0 s := by
  unfold opSnoopTimeout
  extract_lets l
  have found : t.snps.find? (fun x => x.hub = hub && x.ans.isNone) = some x := by simp [one, told, open_]
  rw [show txnOf s l = some t from opened]
  simp only [found, ge_iff_le, many, if_true]

theorem opSnoopTimeout_again {t : Txn} {x : SnpOut} (opened : txnOf s (inLine s line) = some t) (one : t.snps = [x]) (told : x.hub = hub)
    (open_ : x.ans = none) (few : x.tries < 3) : quiet (opSnoopTimeout line hub s) = quiet (setTxn (triedAgain t x) s) := by
  have found : t.snps.find? (fun x => x.hub = hub && x.ans.isNone) = some x := by simp [one, told, open_]
  unfold opSnoopTimeout
  extract_lets l more
  rw [show txnOf s l = some t from opened]
  simp -zeta only [found, ge_iff_le, Nat.not_le.2 few, if_false]
  extract_lets t' s' m
  have tried : t' = triedAgain t x := by simp [t', more, triedAgain, one, told, open_]
  have set : s' = setTxn (triedAgain t x) s := congrArg (setTxn · s) tried
  rw [← set]
  split
  · rfl
  · exact quiet_of_still (still_dispatch ..)

/-- A hub that is not live, or this hub, is not declared dead. -/
theorem declareDead_spared (hub : HubId) (cause : Nat) (spared : hub = hubId s ∨ hubLive s hub = false) : declareDead hub cause s = s :=
  if_pos (by rcases spared with same | gone <;> simp [*])

/-! ### Deaths noted -/

/-- A notice that names this hub, noted: its shutdown state is dirty (R331). -/
def selfNoted (s : State) : State := markDirty (wrFld aFbStat 0 2 3 (fire 195 1 (oHub (hubId s)) s))

theorem beginReset_kept (hub : Bool) (cause : Nat) (s : State) : (beginReset hub cause s).flash = s.flash ∧ (beginReset hub cause s).regs = s.regs := by
  unfold beginReset
  split <;> exact ⟨rfl, rfl⟩

/-- The registers do not depend on the phase. -/
theorem rd_beginReset (hub : Bool) (cause : Nat) (s : State) (a : Nat) : rd (beginReset hub cause s) a = rd s a := by
  unfold beginReset
  split <;> rfl

theorem takeNote_self (cause : Nat) : takeNote (hubId s) cause s = beginReset true 6 (selfNoted s) := by
  have same : hubId (fire 195 1 (oHub (hubId s)) s) = hubId s := congrArg (BitVec.ofNat 12) (rd_congr_fld (rd_fire ..) ..)
  unfold takeNote
  extract_lets u
  exact if_pos same.symm

theorem takeNote_other {d : HubId} (other : d ≠ hubId s) (cause : Nat) : takeNote d cause s = noteEffects d cause (fire 195 1 (oHub d) s) := by
  have same : hubId (fire 195 1 (oHub d) s) = hubId s := congrArg (BitVec.ofNat 12) (rd_congr_fld (rd_fire ..) ..)
  unfold takeNote
  extract_lets u
  exact if_neg (fun h => other (h.trans same))

theorem selfNoted_kept (s : State) : (selfNoted s).part = s.part ∧ (selfNoted s).flash.dirty = true ∧ rdFld (selfNoted s) aFbStat 0 2 = 3 := by
  have marked : ∀ u : State, (markDirty u).part = u.part ∧ (markDirty u).flash.dirty = true ∧ ∀ a, rd (markDirty u) a = rd u a :=
    fun u => ⟨rfl, rfl, fun a => rd_congr rfl rfl a⟩
  obtain ⟨part, dirty, regs⟩ := marked (wrFld aFbStat 0 2 3 (fire 195 1 (oHub (hubId s)) s))
  refine ⟨part.trans (fire_part ..), dirty, ?_⟩
  rw [selfNoted, rd_congr_fld (regs _), rdFld, rd_wrFld_self, fld_setFld_self _ _ _ _ (by decide)]
  rfl

theorem takeNote_self_spec (ready : s.part.phase = .ready) (cause : Nat) :
    (takeNote (hubId s) cause s).part.phase = .flush true ∧ (takeNote (hubId s) cause s).flash.dirty = true ∧
      rdFld (takeNote (hubId s) cause s) aFbStat 0 2 = 3 ∧ (takeNote (hubId s) cause s).pwr.cause = 6 := by
  obtain ⟨part, dirty, state⟩ := selfNoted_kept s
  have ready' : (selfNoted s).part.phase = .ready := by rw [part]; exact ready
  rw [takeNote_self, rd_congr_fld (rd_beginReset ..), (beginReset_kept ..).1, beginReset_ready true 6 ready']
  exact ⟨rfl, dirty, state, rfl⟩

/-! ### Deaths reported to the root -/

theorem rootDeclare_deaths {d : HubId} (fresh : mget s.fab.deaths d.toNat = none) (cause : Nat) :
    (mget (rootDeclare d cause s).fab.deaths d.toNat).map (fun x => x.1) = some s.time.ft := by
  unfold rootDeclare
  rw [if_neg (by simp [fresh])]
  extract_lets live _ u
  rw [fab_of_quiet (quiet_foldl (fun s x => quiet_sendMgt ..) _ _)]
  show (mget (mset s.fab.deaths d.toNat (s.time.ft, hubId s :: live)) d.toNat).map _ = _
  rw [mget_mset_self]
  rfl

theorem opDhrpt_other (empty : s.rx = []) (other : isRoot s = false) (payload : BitVec 512) : opDhrpt h payload s = s := by
  rw [opDhrpt, takeRx_empty empty]
  exact if_pos (by simp [other])

theorem opDhrpt_known (empty : s.rx = []) (root : isRoot s = true) (known : (mget s.fab.deaths (hubIn h).toNat).isSome = true) (payload : BitVec 512) :
    opDhrpt h payload s = s := by
  rw [opDhrpt, takeRx_empty empty]
  exact (if_neg (by simp [root])).trans (if_pos known)

theorem opDhrpt_new (empty : s.rx = []) (root : isRoot s = true) (fresh : mget s.fab.deaths (hubIn h).toNat = none) (payload : BitVec 512) :
    opDhrpt h payload s = dropOwing (hubIn h) (takeNote (hubIn h) (h.xtra.toNat / 2 ^ 12 % 16) (rootDeclare (hubIn h) (h.xtra.toNat / 2 ^ 12 % 16) s)) := by
  rw [opDhrpt, takeRx_empty empty]
  exact (if_neg (by simp [root])).trans (if_neg (by simp [fresh]))

end Sys2Proof.Machine

namespace Sys2Proof

open Machine

/-- Settles O41: what a time-out, a notice and a report find, and what they then do. -/
theorem deathNotices : Obligations.DeathNotices := by
  intro s run
  refine ⟨fun line hub closed => ⟨_, live_follow run (opSnoopTimeout line hub), opSnoopTimeout_none closed⟩, fun line hub t x opened one told open_ =>
      ⟨fun many => ⟨_, live_follow run (opSnoopTimeout line hub), opSnoopTimeout_last opened one told open_ many⟩,
       fun few => ⟨_, live_follow run (opSnoopTimeout line hub), ?_⟩⟩,
    fun line hub t x opened one told open_ many spared => ⟨_, live_follow run (opSnoopTimeout line hub), ?_⟩,
    fun h payload empty names ready => ⟨_, live_follow run (opDhnote h payload), ?_⟩,
    fun h payload empty other => ⟨_, fire 195 1 (oHub (hubIn h)) s, live_follow run (opDhnote h payload), ?_, fire_hc .., fire_regs ..⟩,
    fun h payload empty other => ⟨_, live_running run (fun s => followAfter s (opDhrpt h payload s)), ?_⟩,
    fun h payload empty root known => ⟨_, live_running run (fun s => followAfter s (opDhrpt h payload s)), ?_⟩,
    fun h payload empty root fresh => ⟨_, rootDeclare (hubIn h) (h.xtra.toNat / 2 ^ 12 % 16) s,
      live_running run (fun s => followAfter s (opDhrpt h payload s)), ?_, rootDeclare_deaths fresh _⟩⟩
  · have same := opSnoopTimeout_again opened one told open_ few
    rw [home_of_quiet same, dir_of_quiet same, hc_of_quiet same]
    exact ⟨rfl, rfl, rfl⟩
  · exact (opSnoopTimeout_last opened one told open_ many).trans (declareDead_spared hub 0 spared)
  · rw [opDhnote, takeRx_empty empty, names]
    exact takeNote_self_spec ready _
  · rw [opDhnote, takeRx_empty empty]
    exact takeNote_other other _
  · exact (congrArg (followAfter s) (opDhrpt_other empty other payload)).trans (followAfter_self s)
  · exact (congrArg (followAfter s) (opDhrpt_known empty root known payload)).trans (followAfter_self s)
  · exact congrArg (followAfter s) (opDhrpt_new empty root fresh payload)

end Sys2Proof
end

section
/-! PROOFS. The ends of waits and reclaims, and takeovers (R319, R346 to R351). -/

namespace Sys2Proof.Machine

variable {s t : State} {h : Hdr}

/-! ### The same field written in many registers -/

/-- A field written in the registers of a list reads so in each of them, and in one where it read so before. -/
theorem rdBit_foldl_wrFld {A : Nat → Nat} (apart : ∀ m n, m ≠ n → A n / 8 ≠ A m / 8) {lo w v i : Nat} (fits : lo + w ≤ 64) (low : lo ≤ i) (high : i < lo + w)
    (l : List Nat) (s : State) (n : Nat) (here : n ∈ l ∨ rdBit s (A n) i = v.testBit (i - lo)) :
    rdBit (l.foldl (fun s n => wrFld (A n) lo w v s) s) (A n) i = v.testBit (i - lo) := by
  induction l generalizing s with
  | nil => exact here.resolve_left List.not_mem_nil
  | cons m l ih =>
    refine ih _ ?_
    by_cases same : m = n
    · right
      rw [same]
      exact rdBit_wrFld_in _ _ _ _ _ fits low high
    · rcases here with member | before
      · exact .inl ((List.mem_cons.1 member).resolve_left (Ne.symm same))
      · right
        rw [rdBit, rd_wrFld_ne _ _ _ _ (apart m n same)]
        exact before

theorem rd_foldl_wrFld {A : Nat → Nat} {a : Nat} (apart : ∀ n, a / 8 ≠ A n / 8) (lo w v : Nat) (l : List Nat) (s : State) :
    rd (l.foldl (fun s n => wrFld (A n) lo w v s) s) a = rd s a := foldl_frame (fun s => rd s a) (fun _ n => rd_wrFld_ne _ _ _ _ (apart n)) l s

theorem aFbMir_apart (m n : Nat) (h : m ≠ n) : aFbMir n / 8 ≠ aFbMir m / 8 := by unfold aFbMir; omega

/-! ### Waits for a dead home -/

/-- A wait that is over, with no miss register and no demand waiting (R319). -/
theorem waitOver_empty {hub : HubId} (mrs : s.req.mrs = []) (waits : s.req.waits = []) :
    deadWait (waitOver hub s) hub = 2 ∧ (waitOver hub s).hc = s.hc ∧ (waitOver hub s).regs = s.regs := by
  unfold waitOver
  extract_lets _ u
  have resolved : resolveRegs hub u = u := by
    unfold resolveRegs
    extract_lets mine
    have none_mine : mine = [] := by
      show s.req.mrs.filter _ = []
      rw [mrs, List.filter_nil]
    rw [none_mine]
    rfl
  have retried : ∀ p, retryAll p u = { u with req := { u.req with waits := [] } } := by
    intro p
    unfold retryAll
    extract_lets go _
    rw [show u.req.waits = [] from waits]
    rfl
  rw [resolved, retried]
  exact ⟨mgetD_mset_self .., rfl, rfl⟩

theorem opDeadHomeWaitExpiry_waiting {hub : HubId} (waits : deadWait s hub = 1) : opDeadHomeWaitExpiry hub s = waitOver hub s := if_pos waits

theorem opDeadHomeWaitExpiry_idle {hub : HubId} (idle : deadWait s hub ≠ 1) : opDeadHomeWaitExpiry hub s = s := if_neg idle

/-! ### Reclaims -/

theorem opHubReclaimEnd_done {hub : HubId} (on : hub ∈ s.fab.reclaims) (done : reclaimLeft hub s = false) (other : isRoot s = false) :
    quiet (opHubReclaimEnd hub s) = quiet { s with fab := { s.fab with reclaims := s.fab.reclaims.filter (· ≠ hub) } } := by
  unfold opHubReclaimEnd
  rw [if_neg (by simp [on, done])]
  extract_lets _ u
  have unrooted : isRoot u = false := (isRoot_congr (rd_fire ..)).trans other
  rw [unrooted]
  have ended : quiet u = quiet { s with fab := { s.fab with reclaims := s.fab.reclaims.filter (· ≠ hub) } } := quiet_fire ..
  rw [if_neg Bool.false_ne_true]
  cases rootId u with
  | none => exact ended
  | some r => exact (quiet_sendMgt ..).trans ended

theorem opHubReclaimEnd_left {hub : HubId} (left : reclaimLeft hub s = true) : opHubReclaimEnd hub s = s := if_pos (by simp [left])

theorem quiet_moreReaders (cs : List Nat) (s : State) : quiet (moreReaders cs s) = quiet s := rfl

theorem quiet_toAll (opc : Opc) (xtra len : Nat) (payload : BitVec 512) (s : State) (cells : List Nat) : quiet (toAll opc xtra len payload s cells) = quiet s :=
  quiet_foldl (fun s _ => (quiet_sendMgt _ _ _ _ _ (moreReaders cells s) _).trans (quiet_moreReaders ..)) _ _

theorem takeClear_kept (hub : HubId) (s : State) : (takeClear hub s).fab = s.fab ∧ (takeClear hub s).dir = s.dir := by
  unfold takeClear
  split
  · exact ⟨foldl_frame State.fab (fun s n => wrFld_fab ..) _ _, foldl_frame State.dir (fun s n => wrFld_dir ..) _ _⟩
  · exact ⟨rfl, rfl⟩

/-- The last hub that owed the end of a reclaim has told it (R319). -/
theorem reclaimEnded_last {hub by_ : HubId} {w : Word} (owed : mget s.fab.deaths hub.toNat = some (w, [by_])) :
    mget (reclaimEnded hub by_ s).fab.deaths hub.toNat = some (w, []) := by
  unfold reclaimEnded
  rw [owed]
  simp -zeta only
  extract_lets left _ u
  have gone : left = [] := by simp [left]
  have told : mget u.fab.deaths hub.toNat = some (w, []) := (mget_mset_self ..).trans (by rw [gone])
  refine (congrArg (fun f : Fab => mget f.deaths hub.toNat) (apply_ite_same State.fab ?_ rfl : _ = u.fab)).trans told
  exact (takeClear_kept ..).1.trans (fab_of_quiet (quiet_toAll ..))

theorem takeClear_buddy {hub : HubId} (same : buddy s = hub) : takeClear hub s = (List.range 8).foldl (fun s n => wrFld (aFbMir n) 2 1 0 s) s := if_pos same

/-! ### Probes -/

theorem quiet_sendSnoop (t : Txn) (s : State) (x : SnpOut) : quiet (sendSnoop t s x) = quiet s := by
  unfold sendSnoop
  extract_lets u v
  have h1 : quiet u = quiet s := quiet_count ..
  have h2 : quiet v = quiet s := apply_ite_same quiet ((quiet_count ..).trans h1) h1
  exact (quiet_send0 ..).trans h2

/-- A transaction whose requester is probed (R126). -/
def probed (t : Txn) (q : Hdr) (s : State) : Txn :=
  { t with probing := true, snps := t.snps ++ [⟨q.rqh, .snpX, true, false, 1, none, (outPort s q.rqh (2 * classOf .snpX)).toList⟩] }

theorem quiet_probe {t : Txn} {q : Hdr} (remote : t.rq = .remote q) (live : hubLive s q.rqh = true) : quiet (probe s t) = quiet (setTxn (probed t q s) s) := by
  unfold probe
  split
  next q' is =>
    obtain rfl : q' = q := Rq.remote.inj (is.symm.trans remote)
    exact (congrArg quiet (if_neg (by simp [live]))).trans (quiet_sendSnoop ..)
  next is => exact absurd remote (is q)

theorem opProbeTimer_one {t : Txn} {q : Hdr} (one : s.home.opened = [t]) (forwarded : forwardedOpen t = true) (remote : t.rq = .remote q)
    (live : hubLive s q.rqh = true) : (opProbeTimer s).home.opened = [probed t q s] := by
  have here : opProbeTimer s = probe s t := by
    rw [opProbeTimer, one, List.filter_cons_of_pos forwarded, List.filter_nil]
    rfl
  rw [here, home_of_quiet (quiet_probe remote live), setTxn, one]
  exact if_pos (by simp [probed])

/-! ### Takeovers -/

/-- The entries that a takeover serves: complete ones that are not served yet (R349). -/
def toServe (s : State) : List Nat := (List.range 8).filter fun n => rdBit s (aFbMir n) 0 && rdBit s (aFbMir n) 3 && !rdBit s (aFbMir n) 1

/-- The entries served, and the pair taken over, before it is told. -/
def served (s : State) : State :=
  wrFld aFbBuddy 2 1 1 ((toServe s).foldl (fun s n => wrFld (aFbMir n) 1 2 3 s)
    { s with mir := { s.mir with gave := s.mir.gave.filter (· ∉ toServe s) } })

theorem served_kept (s : State) : (served s).halted = s.halted ∧ (served s).tly = s.tly ∧ (served s).mir = { s.mir with gave := s.mir.gave.filter (· ∉ toServe s) } := by
  unfold served
  rw [wrFld_halted, wrFld_tly, wrFld_mir]
  exact ⟨foldl_frame State.halted (fun s n => wrFld_halted ..) _ _, foldl_frame State.tly (fun s n => wrFld_tly ..) _ _,
    foldl_frame State.mir (fun s n => wrFld_mir ..) _ _⟩

theorem isRoot_served (s : State) : isRoot (served s) = isRoot s := by
  refine isRoot_congr ?_
  rw [served, rd_wrFld_ne _ _ _ _ (by decide), rd_foldl_wrFld (fun n => by unfold aFbStat aFbMir; omega)]
  exact rd_congr rfl rfl _

theorem served_bits {n : Nat} (serves : n ∈ toServe s) :
    rdBit (served s) (aFbMir n) 1 = true ∧ rdBit (served s) (aFbMir n) 2 = true ∧ rdBit (served s) aFbBuddy 2 = true := by
  have bound : n < 8 := List.mem_range.1 (List.mem_filter.1 serves).1
  have apart : aFbMir n / 8 ≠ aFbBuddy / 8 := by unfold aFbMir aFbBuddy; omega
  refine ⟨?_, ?_, rdBit_wrFld_self _ 2 1 (by decide)⟩
  · rw [served, rdBit, rd_wrFld_ne _ _ _ _ apart]
    exact rdBit_foldl_wrFld aFbMir_apart (by decide) (by decide) (by decide) _ _ n (.inl serves)
  · rw [served, rdBit, rd_wrFld_ne _ _ _ _ apart]
    exact rdBit_foldl_wrFld aFbMir_apart (by decide) (by decide) (by decide) _ _ n (.inl serves)

theorem tly_sendMgt (opc : Opc) (dst : HubId) (xtra len : Nat) (payload : BitVec 512) (s : State) (cells : List Nat) :
    (sendMgt opc dst xtra len payload s cells).tly = s.tly := tly_of_past (past_sendMgt ..)

theorem viaRoot_other (other : isRoot s = false) (opc : Opc) (xtra len : Nat) (payload : BitVec 512) :
    quiet (viaRoot opc xtra len payload s) = quiet s ∧ (viaRoot opc xtra len payload s).tly = s.tly := by
  unfold viaRoot
  rw [if_neg (by simp [other])]
  cases rootId s with
  | none => exact ⟨rfl, rfl⟩
  | some r => exact ⟨quiet_sendMgt .., tly_sendMgt ..⟩

/-- A takeover by a hub that is not the root: its entries served, and two records (R349). -/
theorem takeOver_other (other : isRoot s = false) (some_ : toServe s ≠ []) :
    quiet (takeOver s) = quiet (served s) ∧ (s.halted = none → (takeOver s).tly.next = s.tly.next + 2) := by
  have unrooted : isRoot (served s) = false := (isRoot_served s).trans other
  obtain ⟨halted, tly, -⟩ := served_kept s
  unfold takeOver
  extract_lets ns p _ s1 s2 rs s3 x s4
  rw [if_neg (by simp [show ns = toServe s from rfl, some_])]
  have h2 : s2 = served s := rfl
  have h3 : quiet s3 = quiet s2 := (quiet_tallyAuto ..).trans (quiet_fire ..)
  have unrooted3 : isRoot s3 = false := (isRoot_congr (rd_of_quiet h3 _)).trans unrooted
  obtain ⟨via, viaTly⟩ := viaRoot_other unrooted3 .tkNote x 2 (tkPayload rs)
  have h4 : quiet s4 = quiet s2 := (quiet_tallyAuto ..).trans (via.trans h3)
  have unrooted4 : isRoot s4 = false := (isRoot_congr (rd_of_quiet h4 _)).trans unrooted
  rw [unrooted4, if_neg Bool.false_ne_true]
  refine ⟨h4, fun unhalted => ?_⟩
  have unhalted2 : s2.halted = none := halted.trans unhalted
  have unhaltedFire : (fire 200 0 (oHub p) s2).halted = none := (fire_halted ..).trans unhalted2
  have unhaltedVia : (viaRoot .tkNote x 2 (tkPayload rs) s3).halted = none := (halted_of_quiet (via.trans h3)).trans unhalted2
  calc s4.tly.next = (viaRoot .tkNote x 2 (tkPayload rs) s3).tly.next + 1 := tallyAuto_next unhaltedVia ..
    _ = s3.tly.next + 1 := by rw [viaTly]
    _ = (fire 200 0 (oHub p) s2).tly.next + 1 + 1 := congrArg (· + 1) (tallyAuto_next unhaltedFire ..)
    _ = s.tly.next + 2 := by rw [fire_tly, h2, tly]

theorem takeOver_none (none_ : toServe s = []) : takeOver s = s :=
  if_pos (show (toServe s).isEmpty = true by rw [none_]; rfl)

/-- The wait for the partner is over. -/
def waitEnded (s : State) : State := { s with mir := { s.mir with await := false } }

theorem toServe_waitEnded (s : State) : toServe (waitEnded s) = toServe s := rfl

theorem opTakeoverWaitExpiry_waiting (waits : s.mir.await = true) : opTakeoverWaitExpiry s = takeOver (waitEnded s) := if_pos waits

theorem opTakeoverWaitExpiry_spec (waits : s.mir.await = true) (other : isRoot s = false) (unhalted : s.halted = none) :
    (opTakeoverWaitExpiry s).mir.await = false ∧ (∀ n, n < 8 → rdBit s (aFbMir n) 0 = true → rdBit s (aFbMir n) 3 = true → rdBit s (aFbMir n) 1 = false →
      rdBit (opTakeoverWaitExpiry s) (aFbMir n) 1 = true ∧ rdBit (opTakeoverWaitExpiry s) (aFbMir n) 2 = true ∧
        rdBit (opTakeoverWaitExpiry s) aFbBuddy 2 = true ∧ (opTakeoverWaitExpiry s).tly.next = s.tly.next + 2) := by
  have unrooted : isRoot (waitEnded s) = false := other
  rw [opTakeoverWaitExpiry_waiting waits]
  by_cases empty : toServe (waitEnded s) = []
  · rw [takeOver_none empty]
    refine ⟨rfl, fun n small valid complete unserved => absurd empty (List.ne_nil_of_mem (a := n) ?_)⟩
    rw [toServe_waitEnded]
    exact List.mem_filter.2 ⟨List.mem_range.2 small, by simp [valid, complete, unserved]⟩
  · obtain ⟨same, next⟩ := takeOver_other unrooted empty
    obtain ⟨-, -, mir⟩ := served_kept (waitEnded s)
    refine ⟨by rw [mir_of_quiet same, mir]; rfl, fun n small valid complete unserved => ?_⟩
    have serves : n ∈ toServe (waitEnded s) := by
      rw [toServe_waitEnded]
      exact List.mem_filter.2 ⟨List.mem_range.2 small, by simp [valid, complete, unserved]⟩
    obtain ⟨srv, rb, taken⟩ := served_bits serves
    rw [rdBit_of_quiet same, rdBit_of_quiet same, rdBit_of_quiet same]
    exact ⟨srv, rb, taken, next unhalted⟩

/-! ### Takeovers told -/

/-- The word of a takeover recorded in FB_TKO (R350). -/
def tkoWord (dead bud : HubId) (n : Nat) : Word := mkWord [(0, 1, 1), (1, 12, dead.toNat), (13, 12, bud.toNat), (25, 4, min n 8)]

theorem tkoWord_fields (dead bud : HubId) (n : Nat) :
    bit (tkoWord dead bud n) 0 = true ∧ fld (tkoWord dead bud n) 1 12 = dead.toNat ∧ fld (tkoWord dead bud n) 13 12 = bud.toNat := by
  have word : tkoWord dead bud n = setFld (setFld (setFld (setFld 0 0 1 1) 1 12 dead.toNat) 13 12 bud.toNat) 25 4 (min n 8) := rfl
  rw [word]
  refine ⟨?_, ?_, ?_⟩
  · rw [bit_setFld_ne _ _ _ _ _ (by decide) (.inl (by decide)), bit_setFld_ne _ _ _ _ _ (by decide) (.inl (by decide)),
      bit_setFld_ne _ _ _ _ _ (by decide) (.inl (by decide)), bit_setFld_in _ _ _ _ _ (by decide) (by decide) (by decide)]
    rfl
  · rw [fld_setFld_ne _ _ _ _ _ _ (by decide) (.inl (by decide)), fld_setFld_ne _ _ _ _ _ _ (by decide) (.inl (by decide)),
      fld_setFld_self _ _ _ _ (by decide)]
    exact Nat.mod_eq_of_lt dead.isLt
  · rw [fld_setFld_ne _ _ _ _ _ _ (by decide) (.inl (by decide)), fld_setFld_self _ _ _ _ (by decide)]
    exact Nat.mod_eq_of_lt bud.isLt

theorem recordTk_first {i : Nat} (small : i < 64) (free : rdBit s (aFbTko i) 0 = false) (before : ∀ j, j < i → rdBit s (aFbTko j) 0 = true) (dead bud : HubId)
    (n : Nat) (payload : BitVec 512) :
    rd (recordTk dead bud n payload s).2 (aFbTko i) = tkoWord dead bud n ∧ (recordTk dead bud n payload s).2.hc = s.hc ∧
      (recordTk dead bud n payload s).2.fab = s.fab := by
  have first : (List.range 64).find? (fun i => !rdBit s (aFbTko i) 0) = some i := by
    rw [List.find?_range_eq_some]
    exact ⟨by simp [free], List.mem_range.2 small, fun j hj => by simp [before j hj]⟩
  unfold recordTk
  rw [first]
  simp -zeta only
  extract_lets u v
  have value : ∀ (l : List Nat) (u : State), rd (l.foldl (fun s k => wr (aFbTko i + 8 * (k + 1)) (BitVec.ofNat 64 (payload.toNat >>> (64 * k))) s) u) (aFbTko i) =
      rd u (aFbTko i) := foldl_frame (fun s => rd s (aFbTko i)) (fun s k => rd_wr_ne _ _ (by omega))
  have hc : v.hc = u.hc := foldl_frame State.hc (fun s k => wr_hc ..) _ _
  have fab : v.fab = u.fab := foldl_frame State.fab (fun s k => wr_fab ..) _ _
  rw [rd_fire, fire_hc, fire_fab]
  exact ⟨(value _ u).trans (rd_wr_self ..), hc.trans (wr_hc ..), fab.trans (wr_fab ..)⟩

theorem opTknote_spec {payload : BitVec 512} {i : Nat} (other : isRoot s = false) (waits : deadWait s (BitVec.ofNat 12 h.xtra.toNat) ≠ 1)
    (small : i < 64) (free : rdBit s (aFbTko i) 0 = false) (before : ∀ j, j < i → rdBit s (aFbTko j) 0 = true)
    (cell : (takeCells h.tc.toNat 1 1 s).isSome = true) :
    rd (opTknote h payload s) (aFbTko i) = tkoWord (BitVec.ofNat 12 h.xtra.toNat) (BitVec.ofNat 12 (h.xtra.toNat / 2 ^ 12)) (h.xtra.toNat / 2 ^ 24 % 16) ∧
      (opTknote h payload s).hc = s.hc := by
  obtain ⟨cs, lar, rx, links, eq⟩ := withPayload_taken cell (.tknote h payload) .tkNote (fun cs s =>
    takeTk (BitVec.ofNat 12 h.xtra.toNat) (BitVec.ofNat 12 (h.xtra.toNat / 2 ^ 12)) (h.xtra.toNat / 2 ^ 24 % 16) payload
      (doneReading cs (if isRoot s then toAll .tkNote h.xtra.toNat 2 payload s cs else s)))
  have told : opTknote h payload s = _ := eq
  have unrooted : isRoot { s with lar := lar, rx := rx, links := links } = false := other
  rw [unrooted, if_neg Bool.false_ne_true] at told
  generalize read : doneReading cs { s with lar := lar, rx := rx, links := links } = u at told
  have regs : ∀ a, rd u a = rd s a := fun a => by rw [← read]; exact rd_congr rfl rfl a
  have hc : u.hc = s.hc := by rw [← read]; rfl
  have fab : u.fab = s.fab := by rw [← read]; rfl
  obtain ⟨word, hc', fab'⟩ := recordTk_first (s := u) small ((rd_congr_bits (regs _) 0).trans free) (fun j hj => (rd_congr_bits (regs _) 0).trans (before j hj))
    (BitVec.ofNat 12 h.xtra.toNat) (BitVec.ofNat 12 (h.xtra.toNat / 2 ^ 12)) (h.xtra.toNat / 2 ^ 24 % 16) payload
  have settled : deadWait u (BitVec.ofNat 12 h.xtra.toNat) ≠ 1 := by rw [deadWait, fab]; exact waits
  have recorded : opTknote h payload s = (recordTk (BitVec.ofNat 12 h.xtra.toNat) (BitVec.ofNat 12 (h.xtra.toNat / 2 ^ 12)) (h.xtra.toNat / 2 ^ 24 % 16) payload u).2 :=
    told.trans (if_neg settled)
  rw [recorded]
  exact ⟨word, hc'.trans hc⟩

/-- The words of entry `i` of FB_TKO cleared. -/
def entryCleared (s : State) (i : Nat) : State := (List.range 5).foldl (fun s k => wr (aFbTko i + 8 * k) 0 s) s

theorem rd_entryCleared_self (s : State) (i : Nat) : rd (entryCleared s i) (aFbTko i) = 0 := by
  have words : entryCleared s i = wr (aFbTko i + 8 * 4) 0 (wr (aFbTko i + 8 * 3) 0 (wr (aFbTko i + 8 * 2) 0 (wr (aFbTko i + 8 * 1) 0
    (wr (aFbTko i + 8 * 0) 0 s)))) := rfl
  rw [words, rd_wr_ne _ _ (by omega), rd_wr_ne _ _ (by omega), rd_wr_ne _ _ (by omega), rd_wr_ne _ _ (by omega)]
  exact rd_wr_self ..

theorem rd_entryCleared_ne (s : State) {i j : Nat} (other : j ≠ i) : rd (entryCleared s j) (aFbTko i) = rd s (aFbTko i) := by
  have apart : ∀ k ∈ List.range 5, aFbTko i / 8 ≠ (aFbTko j + 8 * k) / 8 := by
    intro k hk
    have := List.mem_range.1 hk
    unfold aFbTko
    omega
  unfold entryCleared
  generalize List.range 5 = l at apart
  induction l generalizing s with
  | nil => rfl
  | cons k l ih =>
    exact (ih _ fun x hx => apart x (List.mem_cons_of_mem _ hx)).trans (rd_wr_ne _ _ (apart k List.mem_cons_self))

/-- Entries cleared read 0, and the others as before. -/
theorem rd_foldl_entryCleared (l : List Nat) (s : State) (i : Nat) :
    rd (l.foldl entryCleared s) (aFbTko i) = if i ∈ l then 0 else rd s (aFbTko i) := by
  induction l generalizing s with
  | nil => rfl
  | cons j l ih =>
    rw [List.foldl_cons, ih]
    by_cases same : j = i
    · rw [same, rd_entryCleared_self, ite_self, if_pos List.mem_cons_self]
    · rw [rd_entryCleared_ne s same]
      simp [Ne.symm same]

/-- The entries of FB_TKO that name the hub. -/
def tkoEntries (hub : HubId) (s : State) : List Nat :=
  (List.range 64).filter fun i => rdBit s (aFbTko i) 0 && rdFld s (aFbTko i) 1 12 = hub.toNat

theorem clearTk_eq (hub : HubId) (s : State) : clearTk hub s = (tkoEntries hub s).foldl entryCleared s := rfl

/-- No entry names the hub any more (R351). -/
theorem clearTk_entry (hub : HubId) {i : Nat} (small : i < 64) (on : rdBit (clearTk hub s) (aFbTko i) 0 = true) :
    rdFld (clearTk hub s) (aFbTko i) 1 12 ≠ hub.toNat := by
  intro names
  rw [rdBit, clearTk_eq, rd_foldl_entryCleared] at on
  rw [rdFld, clearTk_eq, rd_foldl_entryCleared] at names
  split at on
  · exact absurd on (by decide)
  next kept =>
    rw [if_neg kept] at names
    refine kept (List.mem_filter.2 ⟨List.mem_range.2 small, ?_⟩)
    rw [rdBit, on, rdFld, names]
    simp

theorem hc_clearTk (hub : HubId) (s : State) : (clearTk hub s).hc = s.hc := by
  rw [clearTk_eq]
  exact foldl_frame State.hc (fun s i => foldl_frame State.hc (fun s k => wr_hc ..) _ s) _ s

end Sys2Proof.Machine

namespace Sys2Proof

open Machine

/-- Settles O42: each end by what it leaves of the waits and reclaims, and each takeover by the entries it writes. -/
theorem reclaimsAndTakeovers : Obligations.ReclaimsAndTakeovers := by
  intro s run
  refine ⟨fun hub waits mrs demands => ⟨_, live_follow run (opDeadHomeWaitExpiry hub), ?_⟩,
    fun hub idle => ⟨_, live_follow run (opDeadHomeWaitExpiry hub), opDeadHomeWaitExpiry_idle idle⟩,
    fun hub on done other => ⟨_, live_follow run (opHubReclaimEnd hub), ?_⟩,
    fun hub left => ⟨_, live_follow run (opHubReclaimEnd hub), opHubReclaimEnd_left left⟩,
    fun h payload w empty root owed => ⟨_, live_follow run (opDhdone h payload), ?_⟩,
    fun h payload empty other => ⟨_, live_follow run (opDhdone h payload), ?_⟩,
    fun h payload empty same => ⟨_, live_follow run (opDhclear h payload), ?_⟩,
    fun h payload empty apart => ⟨_, live_follow run (opDhclear h payload), ?_⟩,
    fun none_ => ⟨_, live_running run _, ?_⟩,
    fun t q one forwarded remote live => ⟨_, _, live_running run _, opProbeTimer_one one forwarded remote live, rfl, rfl⟩,
    fun waits other => ⟨_, live_follow run opTakeoverWaitExpiry, opTakeoverWaitExpiry_spec waits other (unhalted_of_running run)⟩,
    fun idle => ⟨_, live_follow run opTakeoverWaitExpiry, if_neg (by simp [idle])⟩,
    fun h payload i _ other waits small free before cell => ⟨_, live_follow run (opTknote h payload), ?_⟩,
    fun h payload full => ⟨_, live_follow run (opTknote h payload), withPayload_full full⟩,
    fun h payload empty other => ⟨_, live_follow run (opTkback h payload), ?_⟩⟩
  · rw [opDeadHomeWaitExpiry_waiting waits]
    exact waitOver_empty mrs demands
  · have same := opHubReclaimEnd_done on done other
    rw [fab_of_quiet same, dir_of_quiet same]
    exact ⟨rfl, rfl⟩
  · rw [opDhdone, takeRx_empty empty]
    exact (congrArg (fun t : State => mget t.fab.deaths (hubIn h).toNat) (if_neg (by simp [root]))).trans (reclaimEnded_last owed)
  · rw [opDhdone, takeRx_empty empty]
    exact if_pos (by simp [other])
  · rw [opDhclear, takeRx_empty empty]
    refine ⟨fun n small => ?_, (takeClear_kept ..).2⟩
    rw [takeClear_buddy same]
    exact rdBit_foldl_wrFld aFbMir_apart (by decide) (by decide) (by decide) _ _ n (.inl (List.mem_range.2 small))
  · rw [opDhclear, takeRx_empty empty]
    exact if_neg apart
  · rw [opProbeTimer, List.filter_eq_nil_iff.2 (by simpa using none_)]
    rfl
  · obtain ⟨word, hc⟩ := opTknote_spec (payload := payload) other waits small free before cell
    obtain ⟨on, dead, bud⟩ := tkoWord_fields (BitVec.ofNat 12 h.xtra.toNat) (BitVec.ofNat 12 (h.xtra.toNat / 2 ^ 12)) (h.xtra.toNat / 2 ^ 24 % 16)
    rw [rdBit, rdFld, rdFld, word, on, dead, bud, BitVec.toNat_ofNat, BitVec.toNat_ofNat]
    exact ⟨rfl, rfl, rfl, hc⟩
  · have cleared : opTkback h payload s = clearTk (hubIn h) s := by
      rw [opTkback, takeRx_empty empty]
      exact congrArg (clearTk (hubIn h)) (if_neg (by simp [other]))
    rw [cleared]
    exact ⟨hc_clearTk .., fun i small on => clearTk_entry (hubIn h) small on⟩

end Sys2Proof
end

section
/-! PROOFS. Dormant stacks, load bands, and the ends of verification and gathering (R563 to R570). -/

namespace Sys2Proof.Machine

variable {s : State}

/-! ### Dormant stacks -/

theorem opDormantEntry_enters {k : Fin 4} (h1 : isH1 s = true) (allowed : rdBit s aPmDorm k = true) (awake : rdBit s aPmDorm (16 + k) = false)
    (idle : stackBusy s k = false) : rdBit (opDormantEntry k s) aPmDorm (16 + k) = true := by
  have bound := k.isLt
  unfold opDormantEntry
  extract_lets n
  rw [if_neg (by simp [n, h1, allowed, awake, idle]), rd_congr_bits (rd_fire ..)]
  exact rdBit_wrFld_self _ _ 1 (by omega)

theorem opDormantExit_exits {k : Fin 4} (h1 : isH1 s = true) (dormant : rdBit s aPmDorm (16 + k) = true) :
    rdBit (opDormantExit k s) aPmDorm (16 + k) = false := by
  have bound := k.isLt
  unfold opDormantExit
  extract_lets n
  rw [if_neg (by simp [n, h1, dormant]), rd_congr_bits (rd_fire ..), rdBit_of_quiet (quiet_count ..)]
  exact rdBit_wrFld_self _ _ 0 (by omega)

/-! ### Load bands -/

/-- PM_LOAD with a load and its band (R566). -/
def loadWord (load band : Nat) : Word := mkWord [(0, 7, satTo 127 load), (7, 2, band)]

theorem satTo_eq_min (m v : Nat) : satTo m v = min v m := by
  unfold satTo
  split <;> omega

theorem loadWord_fields (load : Nat) {band : Nat} (small : band < 4) : fld (loadWord load band) 0 7 = min load 127 ∧ fld (loadWord load band) 7 2 = band := by
  have word : loadWord load band = setFld (setFld 0 0 7 (satTo 127 load)) 7 2 band := rfl
  have bound : satTo 127 load < 2 ^ 7 := by
    rw [satTo_eq_min]
    omega
  refine ⟨?_, ?_⟩
  · rw [word, fld_setFld_ne _ _ _ _ _ _ (by decide) (.inl (by decide)), fld_setFld_self _ _ _ _ (by decide), Nat.mod_eq_of_lt bound, satTo_eq_min]
  · rw [word, fld_setFld_self _ _ _ _ (by decide)]
    exact Nat.mod_eq_of_lt small

/-- The load's reading noted. -/
def loadNoted (load band : Nat) (s : State) : State := wr aPmLoad (loadWord load band) s

theorem rdFld_loadNoted (load : Nat) {band : Nat} (small : band < 4) (s : State) :
    rdFld (loadNoted load band s) aPmLoad 0 7 = min load 127 ∧ rdFld (loadNoted load band s) aPmLoad 7 2 = band := by
  rw [rdFld, rdFld, loadNoted, rd_wr_self]
  exact loadWord_fields load small

theorem opLoadBandChange_low {load : Nat} (up : awake s = true) (low : load ≤ 60) : opLoadBandChange load s =
    if rdBit (loadNoted load (if load < 30 then 0 else 1) s) aPmStat 4 then stopVerify (loadNoted load (if load < 30 then 0 else 1) s)
    else loadNoted load (if load < 30 then 0 else 1) s := by
  have band : (if load < 30 then 0 else if load ≤ 60 then 1 else 2) = if load < 30 then 0 else 1 := by simp [low]
  unfold opLoadBandChange
  rw [if_neg (by simp [up])]
  extract_lets b u
  have below : b ≠ 2 := by
    rw [show b = _ from band]
    split <;> decide
  rw [if_neg below, show u = loadNoted load (if load < 30 then 0 else 1) s from congrArg (loadNoted load · s) band]

theorem opLoadBandChange_high {load : Nat} (up : awake s = true) (high : 60 < load) : opLoadBandChange load s = startVerify (loadNoted load 2 s) := by
  have band : (if load < 30 then 0 else if load ≤ 60 then 1 else 2) = 2 := by
    rw [if_neg (by omega), if_neg (by omega)]
  unfold opLoadBandChange
  rw [if_neg (by simp [up])]
  extract_lets b u
  rw [if_pos band, show u = loadNoted load 2 s from congrArg (loadNoted load · s) band]

/-- Records go back to unverified, and PM_STAT and PM_LOAD stand. -/
theorem rd_unverify {a : Nat} (off : ∀ n, a / 8 ≠ aPmCal n / 8) (s : State) : rd (unverify s) a = rd s a := by
  refine foldl_frame (fun s => rd s a) (fun s n => ?_) (List.range 56) s
  exact apply_ite_same (fun s => rd s a) (rd_wrFld_ne _ _ _ _ (off n)) rfl

theorem aPmCal_off {a : Nat} (low : a < 0x180400) (n : Nat) : a / 8 ≠ aPmCal n / 8 := by unfold aPmCal; omega

theorem stopVerify_spec (s : State) : rdBit (stopVerify s) aPmStat 4 = false ∧ rd (stopVerify s) aPmLoad = rd s aPmLoad := by
  refine ⟨?_, ?_⟩
  · rw [stopVerify, rd_congr_bits (rd_unverify (aPmCal_off (by decide)) _)]
    exact rdBit_wrFld_self _ 4 0 (by decide)
  · rw [stopVerify, rd_unverify (aPmCal_off (by decide)), rd_wrFld_ne _ _ _ _ (by decide)]

/-! ### Verification and gathering -/

theorem startVerify_empty (empty : unverified s = []) : startVerify s = s := if_pos (.inr (.inr (by simp [empty])))

theorem startVerify_below (below : rdFld s aPmLoad 7 2 ≠ 2) : startVerify s = s := if_pos (.inl below)

/-- A verification that no record is under, and no record waits for, ends (R567). -/
theorem opLoadVerificationEnd_idle (up : awake s = true) (verifies : rdBit s aPmStat 4 = true)
    (none_waits : ∀ n, n < 56 → hasRecord s n = true → rdFld s (aPmCal n) 22 2 ≠ 1 ∨ rdBit s (aPmCal n) 24 = true)
    (none_under : ∀ n, n < 56 → hasRecord s n = true → rdFld s (aPmCal n) 22 2 ≠ 3) : rdBit (opLoadVerificationEnd [] s) aPmStat 4 = false := by
  have none_now : ((List.range 56).filter fun n => hasRecord s n && rdFld s (aPmCal n) 22 2 = 3) = [] :=
    List.filter_eq_nil_iff.2 fun n hn => by
      have small := List.mem_range.1 hn
      by_cases has : hasRecord s n = true
      · simp [none_under n small has]
      · simp [has]
  have ended : opLoadVerificationEnd [] s =
      startVerify (fireSeq 266 0 oNone oNone (seqOf (wrFld aPmStat 4 1 0 s) aPmStat) (wrFld aPmStat 4 1 0 s)) := by
    unfold opLoadVerificationEnd
    rw [if_neg (by simp [up, verifies])]
    extract_lets l bad u v w
    have empty : l = [] := none_now
    have none_bad : bad = [] := by simp [bad, empty]
    have kept : w = wrFld aPmStat 4 1 0 s := by simp [w, v, u, none_bad, empty]
    rw [none_bad, kept]
  have quietly : quiet (fireSeq 266 0 oNone oNone (seqOf (wrFld aPmStat 4 1 0 s) aPmStat) (wrFld aPmStat 4 1 0 s)) = quiet (wrFld aPmStat 4 1 0 s) :=
    quiet_fireSeq ..
  generalize fireSeq 266 0 oNone oNone (seqOf (wrFld aPmStat 4 1 0 s) aPmStat) (wrFld aPmStat 4 1 0 s) = u at ended quietly
  have cal : ∀ n, rd u (aPmCal n) = rd s (aPmCal n) := fun n => (rd_of_quiet quietly _).trans (rd_wrFld_ne _ _ _ _ (aPmCal_off (by decide) n).symm)
  have empty : unverified u = [] := List.filter_eq_nil_iff.2 fun n hn => by
    have small := List.mem_range.1 hn
    have record : hasRecord u n = hasRecord s n := by
      rw [hasRecord, isH1, part_of_quiet quietly]
      rfl
    rw [record, rd_congr_fld (cal n), rd_congr_bits (cal n)]
    by_cases has : hasRecord s n = true
    · rcases none_waits n small has with state | full
      · simp [state]
      · simp [full]
    · simp [has]
  rw [ended, startVerify_empty empty, rdBit_of_quiet quietly]
  exact rdBit_wrFld_self _ 4 0 (by decide)

/-- A record as it is gathered (R568). -/
theorem gather_low {n temp mv band : Nat} (low : band ≠ 2) (s : State) : rd (gather n temp mv band s) (aPmCal n) =
      mkWord [(0, 8, temp), (8, 12, mv), (20, 2, band), (22, 2, 1), (24, 1, 0), (32, 32, fld s.time.ft 20 32)] ∧
    ∀ a, a / 8 ≠ aPmCal n / 8 → rd (gather n temp mv band s) a = rd s a := by
  unfold Machine.gather
  extract_lets full u _ v
  rw [if_neg low]
  have none_full : full = 0 := if_neg low
  have regs : ∀ a, rd v a = rd u a := rd_congr rfl rfl
  refine ⟨?_, fun a off => (regs a).trans (rd_wr_ne _ _ off)⟩
  rw [regs]
  exact (rd_wr_self ..).trans (by rw [none_full])

theorem gathered_fields (temp mv band full time : Nat) :
    let w := mkWord [(0, 8, temp), (8, 12, mv), (20, 2, band), (22, 2, 1), (24, 1, full), (32, 32, time)]
    fld w 0 8 = temp % 2 ^ 8 ∧ fld w 8 12 = mv % 2 ^ 12 ∧ fld w 22 2 = 1 := by
  intro w
  have word : w = setFld (setFld (setFld (setFld (setFld (setFld 0 0 8 temp) 8 12 mv) 20 2 band) 22 2 1) 24 1 full) 32 32 time := rfl
  rw [word]
  have past : ∀ (v : Word) lo n, lo + n ≤ 24 → fld (setFld (setFld v 24 1 full) 32 32 time) lo n = fld v lo n := fun v lo n h => by
    rw [fld_setFld_ne _ _ _ _ _ _ (by decide) (.inl (by omega)), fld_setFld_ne _ _ _ _ _ _ (by decide) (.inl (by omega))]
  rw [past _ 0 8 (by decide), past _ 8 12 (by decide), past _ 22 2 (by decide)]
  refine ⟨?_, ?_, ?_⟩
  · rw [fld_setFld_ne _ _ _ _ _ _ (by decide) (.inl (by decide)), fld_setFld_ne _ _ _ _ _ _ (by decide) (.inl (by decide)),
      fld_setFld_ne _ _ _ _ _ _ (by decide) (.inl (by decide)), fld_setFld_self _ _ _ _ (by decide)]
  · rw [fld_setFld_ne _ _ _ _ _ _ (by decide) (.inl (by decide)), fld_setFld_ne _ _ _ _ _ _ (by decide) (.inl (by decide)), fld_setFld_self _ _ _ _ (by decide)]
  · exact fld_setFld_self _ _ _ _ (by decide)

theorem opDroopRegatherDone_spec {n : Fin 56} (w : BitVec 32) (up : awake s = true) (droop : 52 ≤ n.val) (due : rdFld s (aPmCal n) 22 2 = 2)
    (below : rdFld s aPmLoad 7 2 < 2) :
    rdFld (opDroopRegatherDone n w s) (aPmCal n) 0 8 = w.toNat % 256 ∧ rdFld (opDroopRegatherDone n w s) (aPmCal n) 8 12 = w.toNat / 256 % 4096 ∧
      rdFld (opDroopRegatherDone n w s) (aPmCal n) 22 2 = 1 := by
  obtain ⟨record, others⟩ := gather_low (n := n) (temp := w.toNat % 256) (mv := w.toNat / 256 % 4096) (Nat.ne_of_lt below) s
  obtain ⟨temp, mv, state⟩ := gathered_fields (w.toNat % 256) (w.toNat / 256 % 4096) (rdFld s aPmLoad 7 2) 0 (fld s.time.ft 20 32)
  have done : opDroopRegatherDone n w s = gather n (w.toNat % 256) (w.toNat / 256 % 4096) (rdFld s aPmLoad 7 2) s := by
    unfold opDroopRegatherDone
    extract_lets k
    rw [if_neg (by simp [up, k, due]; omega)]
    exact startVerify_below (by rw [rd_congr_fld (others _ (aPmCal_off (by decide) n))]; exact Nat.ne_of_lt below)
  rw [done]
  generalize gather n (w.toNat % 256) (w.toNat / 256 % 4096) (rdFld s aPmLoad 7 2) s = u at record
  rw [rdFld, rdFld, rdFld, record, temp, mv, state]
  exact ⟨Nat.mod_mod .., Nat.mod_mod .., rfl⟩

theorem opRetrainingEnd_unit {n : Fin 56} (w : BitVec 32) (up : awake s = true) (unit : n.val < 52) (trains : rdBit s (aPmCal n) 25 = true) :
    opRetrainingEnd n w s = startVerify (endRetrain n (gather n (w.toNat % 256) (w.toNat / 256 % 4096) (rdFld s aPmLoad 7 2) s)) := by
  unfold opRetrainingEnd
  extract_lets k
  exact if_neg (by simp [up, k, trains, unit])

end Sys2Proof.Machine

namespace Sys2Proof

open Machine

/-- Settles O19: each event by the registers that it writes. -/
theorem calibrationEvents : Obligations.CalibrationEvents := by
  intro s run
  have up := awake_of_running run
  refine ⟨fun k h1 allowed awake idle => ⟨_, live_running run _, opDormantEntry_enters h1 allowed awake idle⟩,
    fun k h1 dormant => ⟨_, live_running run _, opDormantExit_exits h1 dormant⟩, fun load low idle => ⟨_, rfl, ?_⟩, fun load low verifies => ⟨_, rfl, ?_⟩,
    fun load high => ⟨_, loadNoted load 2 s, rfl, opLoadBandChange_high up high, rfl, ?_⟩,
    fun verifies none_waits none_under => ⟨_, rfl, opLoadVerificationEnd_idle up verifies none_waits none_under⟩,
    fun n w unit trains => ⟨_, rfl, opRetrainingEnd_unit w up unit trains⟩,
    fun n w droop due below => ⟨_, rfl, opDroopRegatherDone_spec w up droop due below⟩⟩
  · have kept : rdBit (loadNoted load (if load < 30 then 0 else 1) s) aPmStat 4 = false := (rdBit_wr_ne _ _ _ (by decide)).trans idle
    obtain ⟨reading, band⟩ := rdFld_loadNoted load (band := if load < 30 then 0 else 1) (by split <;> decide) s
    rw [opLoadBandChange_low up low, kept, if_neg Bool.false_ne_true, reading, band]
    exact ⟨by omega, rfl⟩
  · have kept : rdBit (loadNoted load (if load < 30 then 0 else 1) s) aPmStat 4 = true := (rdBit_wr_ne _ _ _ (by decide)).trans verifies
    obtain ⟨reading, -⟩ := rdFld_loadNoted load (band := if load < 30 then 0 else 1) (by split <;> decide) s
    obtain ⟨stopped, same⟩ := stopVerify_spec (loadNoted load (if load < 30 then 0 else 1) s)
    rw [opLoadBandChange_low up low, kept, if_pos rfl, rd_congr_fld same, reading]
    exact ⟨stopped, by omega⟩
  · obtain ⟨reading, band⟩ := rdFld_loadNoted load (band := 2) (by decide) s
    exact ⟨band, reading⟩

end Sys2Proof
end

section
/-! PROOFS. Recovery and enumeration of a cellar port (R374, R376, R378, Table 09.1). -/

namespace Sys2Proof.Machine

variable {s : State} {d : DPort}

/-- A cellar port's state written with its status bit. -/
def cellarWritten (d ls : Nat) (s : State) : State := rsq (aDpStat d) 10 (wrFld (aDpStat d) 0 3 ls s)

theorem setCellarLink_new {d ls : Nat} (new : rdFld s (aDpStat d) 0 3 ≠ ls) : setCellarLink d ls s =
    fireSeq (64 + 4 * d) 0 (oPort 1 d) oNone (seqOf (cellarWritten d ls s) (aDpStat d)) (cellarWritten d ls s) := if_neg new

theorem rd_setCellarLink {d ls : Nat} (new : rdFld s (aDpStat d) 0 3 ≠ ls) (a : Nat) : rd (setCellarLink d ls s) a = rd (cellarWritten d ls s) a := by
  rw [setCellarLink_new new]
  exact rd_fireSeq ..

theorem rdFld_cellarWritten {d ls : Nat} (small : ls < 8) (s : State) : rdFld (cellarWritten d ls s) (aDpStat d) 0 3 = ls := by
  rw [cellarWritten, rdFld_rsq_off _ (by decide) (by decide) (.inl (by decide)), rdFld, rd_wrFld_self, fld_setFld_self _ _ _ _ (by decide)]
  exact Nat.mod_eq_of_lt small

/-- Fields of DP_STAT between the state and the status bits stand. -/
theorem rdFld_cellarWritten_off (d ls : Nat) (s : State) {lo n : Nat} (h3 : 3 ≤ lo) (h10 : lo + n ≤ 10) :
    rdFld (cellarWritten d ls s) (aDpStat d) lo n = rdFld s (aDpStat d) lo n := by
  rw [cellarWritten, rdFld_rsq_off _ (by decide) (by omega) (.inl h10), rdFld_wrFld_off _ _ _ _ _ _ (by decide) (.inr h3)]

theorem cel_cellarWritten (d ls : Nat) (s : State) : (cellarWritten d ls s).cel = s.cel := (rsq_cel ..).trans (wrFld_cel ..)

/-! ### Recovery -/

theorem cellarRecovery_begins (on : rdBit s (aDpCtl d) 0 = true) (present : rdBit s (aDpStat d) 9 = false) (well : rdFld s (aDpStat d) 0 3 ≠ 6) :
    rdFld (cellarRecovery d s) (aDpStat d) 0 3 = 6 ∧ (cellarRecovery d s).cel = s.cel := by
  unfold cellarRecovery
  extract_lets a u
  rw [if_neg (by simp [on, show rdBit s a 9 = false from present, show rdFld s a 0 3 ≠ 6 from well])]
  have same : quiet (fireSeq (65 + 4 * d) 0 (oPort 1 d) oNone (seqOf u a) u) = quiet (setCellarLink d 6 s) := (quiet_fireSeq ..).trans (quiet_count ..)
  rw [rdFld_of_quiet same, cel_of_quiet same, rd_congr_fld (rd_setCellarLink well _), rdFld_cellarWritten (by decide), setCellarLink_new well, fireSeq_cel,
    cel_cellarWritten]
  exact ⟨rfl, rfl⟩

/-! ### Enumeration -/

variable {e : ExpanderInfo}

/-- What an expander says of itself, noted (R376). -/
def expanderNoted (d : DPort) (e : ExpanderInfo) (s : State) : State :=
  let s := wr (aDpCap d) (BitVec.ofNat 64 (e.cap.toNat % 2 ^ 52)) (wr (aDpEbnd d) (BitVec.ofNat 64 (satTo 65535 e.latency)) (noteSerial d e.serial s))
  wr (aDpDsc d) (mkWord [(0, 32, e.shutdownCount.toNat), (32, 1, e.persistent.toNat)]) s

/-- Its GPF time, noted (R295). -/
def gpfNoted (d : DPort) (e : ExpanderInfo) (s : State) : State := { s with pwr := { s.pwr with gpfExp := mset s.pwr.gpfExp d e.gpfTime } }

/-- The training of a cellar port in DP_STAT. -/
def cellarTrained (d : DPort) (e : ExpanderInfo) (s : State) : State :=
  wrFld (aDpStat d) 3 7 (min 3 e.train.width.toNat + 8 * e.train.rate.toNat + 32) (gpfNoted d e (expanderNoted d e s))

theorem enumerated_first (first : rdBit s (aDpStat d) 9 = false) : enumerated d e s =
    fireSeq (64 + 4 * d) 1 (oPort 1 d) oNone (seqOf (setCellarLink d 3 (cellarTrained d e s)) (aDpStat d)) (setCellarLink d 3 (cellarTrained d e s)) := by
  unfold enumerated
  extract_lets a back s1 s2 s3 _ s4 s5 s6
  have fresh : ¬ back = true := by simp [back, a, first]
  have noted : s3 = expanderNoted d e s := rfl
  have timed : s4 = gpfNoted d e (expanderNoted d e s) := congrArg (gpfNoted d e) noted
  have trained : s5 = setCellarLink d 3 (cellarTrained d e s) := by
    show setCellarLink d 3 (wrFld _ _ _ _ s4) = _
    rw [timed]
    rfl
  rw [if_neg fresh]
  show fireSeq _ _ _ _ (seqOf s5 _) s5 = _
  rw [trained]

/-- A serial kept for a port. -/
def serialKept (d : Nat) (serial : Word) (s : State) : State := { s with flash := { s.flash with serials := mset s.flash.serials (128 + d) serial } }

theorem noteSerial_first (none_known : s.flash.serials = []) (d : Nat) (serial : Word) :
    noteSerial d serial s = serialKept d serial s := by
  unfold noteSerial
  extract_lets bad u _
  have none_bad : bad = [] := List.filter_eq_nil_iff.2 fun n _ => by
    rw [none_known]
    exact Bool.false_ne_true
  have kept : u = s := by
    show bad.foldl (fun s n => dropPages n s) s = s
    rw [none_bad]
    rfl
  exact congrArg (serialKept d serial) kept

theorem rd_expanderNoted (none_known : s.flash.serials = []) {a : Nat} (cap : a / 8 ≠ aDpCap d / 8) (ebnd : a / 8 ≠ aDpEbnd d / 8)
    (dsc : a / 8 ≠ aDpDsc d / 8) : rd (expanderNoted d e s) a = rd s a := by
  rw [expanderNoted, rd_wr_ne _ _ dsc, rd_wr_ne _ _ cap, rd_wr_ne _ _ ebnd, noteSerial_first none_known]
  exact rd_congr rfl rfl a

theorem rd_gpfNoted (s : State) (a : Nat) : rd (gpfNoted d e s) a = rd s a := rd_congr rfl rfl a

theorem rdFld_cellarTrained (none_known : s.flash.serials = []) : rdFld (cellarTrained d e s) (aDpStat d) 0 3 = rdFld s (aDpStat d) 0 3 := by
  rw [cellarTrained, rdFld_wrFld_off _ _ _ _ _ _ (by decide) (.inl (by decide)), rd_congr_fld (rd_gpfNoted ..),
    rd_congr_fld (rd_expanderNoted none_known (by unfold aDpStat aDpCap; omega) (by unfold aDpStat aDpEbnd; omega) (by unfold aDpStat aDpDsc; omega))]

theorem trainedWord (w r : Nat) (hw : w ≤ 3) (hr : r < 4) : (w + 8 * r + 32).testBit 5 = true ∧ (w + 8 * r + 32) / 2 ^ 0 % 2 ^ 3 = w ∧
    (w + 8 * r + 32) / 2 ^ 3 % 2 ^ 2 = r := by
  refine ⟨?_, by omega, by omega⟩
  rw [Nat.testBit_eq_decide_div_mod_eq]
  simp only [decide_eq_true_eq]
  omega

/-- Rate and width of the training, and the port's readiness (Table 09.1). -/
theorem cellarTrained_stat (s : State) : rdBit (cellarTrained d e s) (aDpStat d) 8 = true ∧
    rdFld (cellarTrained d e s) (aDpStat d) 3 3 = min 3 e.train.width.toNat ∧ rdFld (cellarTrained d e s) (aDpStat d) 6 2 = e.train.rate.toNat := by
  obtain ⟨ready, width, rate⟩ := trainedWord (min 3 e.train.width.toNat) e.train.rate.toNat (Nat.min_le_left ..) e.train.rate.isLt
  rw [cellarTrained, rdBit_wrFld_in _ _ _ _ _ (by decide) (by decide) (by decide), rdFld_wrFld_in _ _ _ _ _ _ (by decide) (by decide) (by decide),
    rdFld_wrFld_in _ _ _ _ _ _ (by decide) (by decide) (by decide)]
  exact ⟨ready, width, rate⟩

theorem opEnumerationEnd_enumerates (run : running s = true) (on : rdBit s (aDpCtl d) 0 = true) (enumerates : rdFld s (aDpStat d) 0 3 = 2)
    (trained : e.trained = true) (trains : peerTrains e.train = true) (secure : rdBit s (aDpCtl d) 1 = false ∨ e.authOk = true) :
    opEnumerationEnd d e s = enumerated d e s := by
  unfold opEnumerationEnd
  extract_lets a ls up
  have here : up = true := by
    simp only [running, Bool.and_eq_true] at run
    obtain ⟨unhalted, phase⟩ := run
    revert phase
    simp only [up, unhalted, Bool.true_and]
    cases s.part.phase <;> simp
  have state : ls = 2 := enumerates
  rw [if_neg (by simp [here, on, state]), if_neg (by simp [trained, trains]), if_neg (by rcases secure with plain | good <;> simp [*])]

theorem opEnumerationEnd_spec (run : running s = true) (on : rdBit s (aDpCtl d) 0 = true) (present : rdBit s (aDpStat d) 9 = false)
    (enumerates : rdFld s (aDpStat d) 0 3 = 2) (trained : e.trained = true) (trains : peerTrains e.train = true)
    (secure : rdBit s (aDpCtl d) 1 = false ∨ e.authOk = true) (none_known : s.flash.serials = []) :
    ∃ u, opEnumerationEnd d e s = u ∧ rdFld u (aDpStat d) 0 3 = 3 ∧ rdBit u (aDpStat d) 8 = true ∧ rdFld u (aDpCap d) 0 52 = e.cap.toNat % 2 ^ 52 ∧
      mget u.pwr.gpfExp d = some e.gpfTime ∧ rdFld u (aDpStat d) 3 3 = min 3 e.train.width.toNat ∧ rdFld u (aDpStat d) 6 2 = e.train.rate.toNat := by
  have new : rdFld (cellarTrained d e s) (aDpStat d) 0 3 ≠ 3 := by rw [rdFld_cellarTrained none_known, enumerates]; decide
  obtain ⟨ready, width, rate⟩ := cellarTrained_stat (d := d) (e := e) s
  have done := (opEnumerationEnd_enumerates run on enumerates trained trains secure).trans (enumerated_first (e := e) present)
  refine ⟨_, done, ?_⟩
  have regs : ∀ a, rd (fireSeq (64 + 4 * d) 1 (oPort 1 d) oNone (seqOf (setCellarLink d 3 (cellarTrained d e s)) (aDpStat d))
      (setCellarLink d 3 (cellarTrained d e s))) a = rd (cellarWritten d 3 (cellarTrained d e s)) a := fun a => (rd_fireSeq ..).trans (rd_setCellarLink new a)
  have pwr : (fireSeq (64 + 4 * d) 1 (oPort 1 d) oNone (seqOf (setCellarLink d 3 (cellarTrained d e s)) (aDpStat d))
      (setCellarLink d 3 (cellarTrained d e s))).pwr = (cellarTrained d e s).pwr := by
    rw [fireSeq_pwr, setCellarLink_new new, fireSeq_pwr]
    exact (rsq_pwr ..).trans (wrFld_pwr ..)
  have cap : rd (cellarWritten d 3 (cellarTrained d e s)) (aDpCap d) = BitVec.ofNat 64 (e.cap.toNat % 2 ^ 52) := by
    rw [cellarWritten, rd_rsq_ne _ _ (by unfold aDpCap aDpStat; omega), rd_wrFld_ne _ _ _ _ (by unfold aDpCap aDpStat; omega), cellarTrained,
      rd_wrFld_ne _ _ _ _ (by unfold aDpCap aDpStat; omega), rd_gpfNoted, expanderNoted, rd_wr_ne _ _ (by unfold aDpCap aDpDsc; omega), rd_wr_self]
  refine ⟨?_, ?_, ?_, ?_, ?_, ?_⟩
  · rw [rd_congr_fld (regs _), rdFld_cellarWritten (by decide)]
  · rw [rd_congr_bits (regs _)]
    refine rdBit_of_fld ?_
    rw [rdFld_cellarWritten_off _ _ _ (by decide) (by decide), rdFld, fld_one, show bit (rd (cellarTrained d e s) (aDpStat d)) 8 = true from ready]
    rfl
  · rw [rdFld, regs, cap]
    have small : e.cap.toNat % 2 ^ 52 < 2 ^ 52 := Nat.mod_lt _ (by decide)
    rw [fld, BitVec.toNat_ofNat, Nat.shiftRight_zero]
    omega
  · rw [pwr, cellarTrained, wrFld_pwr]
    exact mget_mset_self ..
  · rw [rd_congr_fld (regs _), rdFld_cellarWritten_off _ _ _ (by decide) (by decide), width]
  · rw [rd_congr_fld (regs _), rdFld_cellarWritten_off _ _ _ (by decide) (by decide), rate]

end Sys2Proof.Machine

namespace Sys2Proof

open Machine

/-- Settles O22: a recovery and an enumeration by what they write of the port. -/
theorem cellarLinkEvents : Obligations.CellarLinkEvents := by
  intro s d run on present
  refine ⟨fun well => ⟨_, live_running run _, cellarRecovery_begins on present well⟩, fun e enumerates trained trains secure none_known => ?_⟩
  obtain ⟨u, done, spec⟩ := opEnumerationEnd_spec run on present enumerates trained trains secure none_known
  exact ⟨u, congrArg (fun z => Host.Outcome.next (follow z)) done, spec⟩

end Sys2Proof
end

section
/-! PROOFS. The ends of sweeps and reclaims (R53, R61, R77, R146, R148). -/

namespace Sys2Proof.Machine

variable {s : State} {t : BgTask}

/-! ### A task that ends -/

theorem takeFirst_of_find? {α : Type} {p : α → Bool} {l : List α} {x : α} (found : l.find? p = some x) :
    ∃ r, takeFirst p l = some (x, r) ∧ r.length + 1 = l.length := by
  induction l with
  | nil => exact absurd found (by simp)
  | cons a l ih =>
    rw [takeFirst]
    by_cases first : p a = true
    · rw [List.find?_cons_of_pos first] at found
      cases found
      exact ⟨l, if_pos first, rfl⟩
    · rw [List.find?_cons_of_neg first] at found
      obtain ⟨r, taken, length⟩ := ih found
      exact ⟨a :: r, by rw [if_neg first, taken]; rfl, by simp [length]⟩

theorem taskOf_kind {k : BgKind} (task : taskOf s k = some t) : t.kind = k := by simpa using List.find?_some task

/-- A task that ends is one fewer at the background engine, and nothing else changes. -/
theorem endTask_of_task {k : BgKind} (task : taskOf s k = some t) : ∃ r, endTask t s = { s with bg := r } ∧ r.length + 1 = s.bg.length := by
  have found : s.bg.find? (fun x => x.kind = t.kind) = some t := by rw [taskOf_kind task]; exact task
  obtain ⟨r, taken, length⟩ := takeFirst_of_find? found
  exact ⟨r, by rw [endTask, taken], length⟩

theorem raised_fired {n : Nat} (unhalted : s.halted = none) (known : reservedSource s n = false) (high : 64 ≤ n) (c : Nat) (o1 o2 : Obj) (q : Nat) :
    raised (fireSeq n c o1 o2 q s) n = true := raised_fireSeq (evReserved_eq_false unhalted known high) ..

/-! ### Sweeps of a window, of the domain and of a range -/

theorem windowSweepEnd_spec (p : HPort) (n : BitVec 8) (unhalted : s.halted = none) (task : taskOf s (.windowSweep p n) = some t)
    (none_left : windowLeft p t s = []) (none_asked : windowAsked p t s = false) :
    ∃ u, opWindowSweepEnd p n s = u ∧ rdBit u (aHpWinstat p (n.toNat / 64)) (n.toNat % 64) = false ∧ u.bg.length + 1 = s.bg.length ∧ raised u 197 = true := by
  obtain ⟨r, ended, length⟩ := endTask_of_task task
  unfold opWindowSweepEnd
  rw [task]
  simp -zeta only
  rw [if_neg (by simp [none_left, none_asked])]
  extract_lets a old v
  have same : quiet (tallyAuto 35 a 197 old (rd v a) (oPort 0 p) (fire 197 0 (oPort 0 p) v)) = quiet v := (quiet_tallyAuto ..).trans (quiet_fire ..)
  refine ⟨_, rfl, ?_, ?_, ?_⟩
  · rw [rdBit_of_quiet same, show rdBit v a (n.toNat % 64) = _ from rdBit_wrFld_self _ _ _ (by omega)]
    rfl
  · rw [bg_of_quiet same, show v.bg = _ from wrFld_bg .., ended]
    exact length
  · refine (StatKept.tallyAuto ..).bits _ (raised_fired ?_ (by simp [reservedSource]) (by decide) ..)
    rw [show v.halted = _ from wrFld_halted .., ended]
    exact unhalted

theorem domainSweepEnd_spec (task : taskOf s .domainSweep = some t) (all : 2 ^ 24 ≤ t.next)
    (none_snooped : ∀ x, x ∈ s.home.opened → x.rq = .home → x.opc ≠ .snpBc) :
    ∃ u, opDomainSweepEnd s = u ∧ u.sweep = [] ∧ rdBit u aDrSweep 0 = false ∧ rdBit u aDrSweep 1 = true ∧ u.bg.length + 1 = s.bg.length := by
  obtain ⟨r, ended, length⟩ := endTask_of_task (s := { s with sweep := [] }) (show taskOf { s with sweep := [] } .domainSweep = some t from task)
  unfold opDomainSweepEnd
  rw [task]
  simp -zeta only
  rw [if_neg (by simpa using ⟨all, none_snooped⟩)]
  extract_lets old v
  have same : quiet (tallyAuto 35 aDrSweep 197 old (rd v aDrSweep) oNone (fireSeq 197 1 oNone oNone (seqOf v aDrSweep) v)) = quiet v :=
    (quiet_tallyAuto ..).trans (quiet_fireSeq ..)
  refine ⟨_, rfl, ?_, ?_, ?_, ?_⟩
  · rw [sweep_of_quiet same, show v.sweep = _ from rsq_sweep .., wrFld_sweep, wrFld_sweep, ended]
  · rw [rdBit_of_quiet same, show rdBit v aDrSweep 0 = _ from rdBit_rsq_self _ (by decide) (by decide), rdBit_wrFld_self _ _ _ (by decide)]
    rfl
  · rw [rdBit_of_quiet same, show rdBit v aDrSweep 1 = _ from rdBit_rsq_self _ (by decide) (by decide)]
    rfl
  · rw [bg_of_quiet same, show v.bg = _ from rsq_bg .., wrFld_bg, wrFld_bg, ended]
    exact length

theorem rangeFlushEnd_spec (unhalted : s.halted = none) (only : s.bg = [t]) (flush : t.kind = .rangeFlush)
    (empty : purged (inRange s t.next t.last) s = true) (no_fills : fillsIn (inRange s t.next t.last) s = false) :
    ∃ u, opRangeFlushEnd s = u ∧ u.bg = [] ∧ raised u 197 = true := by
  have found : s.bg.find? (fun t => t.kind = .rangeFlush && purged (inRange s t.next t.last) s && !fillsIn (inRange s t.next t.last) s) = some t := by
    simp [only, flush, empty, no_fills]
  unfold opRangeFlushEnd
  rw [found]
  simp -zeta only
  extract_lets o v
  have none_left : v.bg = [] := by simp [v, only]
  refine ⟨_, rfl, ?_, (StatKept.tallyAuto ..).bits _ (raised_fired (s := v) unhalted (by simp [reservedSource]) (by decide) ..)⟩
  exact (bg_of_quiet ((quiet_tallyAuto ..).trans (quiet_fire ..))).trans none_left

/-! ### The reclaim of a host -/

theorem hostReclaimEnd_spec (p : HPort) (task : taskOf s (.hostReclaim p) = some t) (none_left : hostLines p s = []) :
    ∃ v, opHostReclaimEnd p s = readmit p v ∧ p.val ∈ v.hst.reclaimed ∧ v.bg.length + 1 = s.bg.length := by
  obtain ⟨r, ended, length⟩ := endTask_of_task task
  unfold opHostReclaimEnd
  rw [task]
  simp -zeta only
  rw [if_neg (by simp [none_left])]
  extract_lets v rs
  refine ⟨_, rfl, ?_, ?_⟩
  · show p.val ∈ (if p.val ∈ rs then rs else rs ++ [p.val])
    split
    · assumption
    · simp
  · show v.bg.length + 1 = _
    rw [bg_of_quiet (quiet_fire ..), ended]
    exact length

end Sys2Proof.Machine

namespace Sys2Proof

open Machine

/-- Settles O24: each end by what it takes off the background engine and what it fires. -/
theorem sweepsEnd : Obligations.SweepsEnd := by
  intro s run
  have unhalted := unhalted_of_running run
  refine ⟨fun p n t task left asked => ?_, fun t task all none_snooped => ?_, fun t only flush empty no_fills => ?_, fun p t task left => ?_⟩
  · obtain ⟨u, rfl, spec⟩ := windowSweepEnd_spec p n unhalted task left asked
    exact ⟨_, live_follow run (opWindowSweepEnd p n), spec⟩
  · obtain ⟨u, rfl, spec⟩ := domainSweepEnd_spec task all none_snooped
    exact ⟨_, live_follow run opDomainSweepEnd, spec⟩
  · obtain ⟨u, rfl, spec⟩ := rangeFlushEnd_spec unhalted only flush empty no_fills
    exact ⟨_, live_follow run opRangeFlushEnd, spec⟩
  · obtain ⟨v, done, spec⟩ := hostReclaimEnd_spec p task left
    exact ⟨_, v, live_follow run (opHostReclaimEnd p), done, spec⟩

end Sys2Proof
end

section
/-! PROOFS. The ends of a maintenance operation, a mirror copy, a rekey sweep, a key retirement and a rebuild (R212, R345, R450, R453, R457). -/

namespace Sys2Proof.Machine

variable {s : State} {t : BgTask}

/-! ### A maintenance operation -/

theorem maintenanceOpEnd_spec (task : taskOf s .maint = some t) (done : maintDone s = true) :
    ∃ u, opMaintenanceOpEnd s = u ∧ u.hc.maint = none ∧ rdBit u aHcMopc 4 = false ∧ rdBit u aHcMopc 5 = true ∧ seqOf u aHcMopc = (seqOf s aHcMopc + 1) % 2 ^ 16 := by
  obtain ⟨r, ended, -⟩ := endTask_of_task (s := { s with hc := { s.hc with maint := none } })
    (show taskOf { s with hc := { s.hc with maint := none } } .maint = some t from task)
  unfold opMaintenanceOpEnd
  rw [task]
  simp -zeta only
  rw [if_neg (by simp [done])]
  extract_lets old _ z v
  have same : quiet (tallyAuto 35 aHcMopc 212 old (rd v aHcMopc) oNone (fireSeq 212 0 oNone oNone (seqOf v aHcMopc) v)) = quiet v :=
    (quiet_tallyAuto ..).trans (quiet_fireSeq ..)
  have kept : z = _ := ended
  have bits : ∀ j, j < 48 → rdBit v aHcMopc j = (decide (j = 5) || rdBit (wrFld aHcMopc 4 1 0 z) aHcMopc j) := fun j small =>
    rdBit_rsq_self _ (by decide) small
  refine ⟨_, rfl, ?_, ?_, ?_, ?_⟩
  · rw [hc_of_quiet same, show v.hc = _ from rsq_hc .., wrFld_hc, kept]
  · rw [rdBit_of_quiet same, bits 4 (by decide), rdBit_wrFld_self _ _ _ (by decide)]
    rfl
  · rw [rdBit_of_quiet same, bits 5 (by decide)]
    rfl
  · rw [seqOf, rdFld_of_quiet same, show rdFld v aHcMopc 48 16 = _ from seqOf_rsq .., seqOf, rdFld_wrFld_off _ _ _ _ _ _ (by decide) (.inr (by decide)), kept]
    rfl

/-! ### A mirror copy -/

/-- What a mirror message leaves: the next MSEQ, and the message sent, or held while 4,096 of them are. -/
theorem mirSend_spec (opc : Opc) (l : LineAddr) (d : Data) (more : Nat) (s : State) : ∃ m, m.opc = opc ∧ m.dst = buddy s ∧
    ∃ mir, quiet (mirSend opc l d more s) = quiet { s with mir := mir } ∧ mir.next = (s.mir.next + 1) % 2 ^ 32 ∧
      (if s.mir.sent.length < 4096 then (s.mir.next, m) ∈ mir.sent else m ∈ mir.held) := by
  refine ⟨mirMsg s opc l d more (7, epochNow s), rfl, rfl, ?_⟩
  by_cases room : s.mir.sent.length < 4096
  · refine ⟨{ s.mir with next := (s.mir.next + 1) % 2 ^ 32, sent := s.mir.sent ++ [(s.mir.next, mirMsg s opc l d more (7, epochNow s))] }, ?_, rfl, ?_⟩
    · unfold mirSend
      extract_lets m n _ z
      rw [if_neg (show ¬ z.mir.sent.length ≥ 4096 from Nat.not_le.2 room)]
      exact quiet_of_still (still_dispatch ..)
    · rw [if_pos room]
      simp
  · refine ⟨{ s.mir with next := (s.mir.next + 1) % 2 ^ 32, held := s.mir.held ++ [mirMsg s opc l d more (7, epochNow s)] }, ?_, rfl, ?_⟩
    · unfold mirSend
      extract_lets m n _ z
      rw [if_pos (show z.mir.sent.length ≥ 4096 from Nat.not_lt.1 room)]
    · rw [if_neg room]
      simp

theorem mirrorCopyEnd_off (only : s.bg = [t]) (copy : t.kind = .mirrorCopy) (unpaired : mirrorOn s = false) (all_read : copiesRead s = true) :
    opMirrorCopyEnd s = { s with bg := [] } := by
  unfold opMirrorCopyEnd
  extract_lets ended
  rw [show s.bg.find? ended = some t by simp [ended, only, copy, unpaired]]
  simp -zeta only
  rw [if_neg (by simp [all_read])]
  extract_lets z
  have none_left : z = { s with bg := [] } := by simp [z, only]
  rw [none_left]
  exact if_neg (by rw [show mirrorOn { s with bg := [] } = false from unpaired]; exact Bool.false_ne_true)

theorem mirrorCopyEnd_on (only : s.bg = [t]) (copy : t.kind = .mirrorCopy) (paired : mirrorOn s = true) (last : t.last < t.next) (all_read : copiesRead s = true) :
    opMirrorCopyEnd s = fire 201 0 (oNum t.arg) (mirSend .mrCtl 0 Data.zero t.arg { s with bg := [] }) := by
  unfold opMirrorCopyEnd
  extract_lets ended
  rw [show s.bg.find? ended = some t by simp [ended, only, copy, last]]
  simp -zeta only
  rw [if_neg (by simp [all_read])]
  extract_lets z
  have none_left : z = { s with bg := [] } := by simp [z, only]
  rw [none_left]
  exact if_pos paired

theorem mirrorCopyEnd_spec (unhalted : s.halted = none) (only : s.bg = [t]) (copy : t.kind = .mirrorCopy) (paired : mirrorOn s = true) (last : t.last < t.next)
    (all_read : copiesRead s = true) :
    ∃ u m, opMirrorCopyEnd s = u ∧ u.bg = [] ∧ u.mir.next = (s.mir.next + 1) % 2 ^ 32 ∧ raised u 201 = true ∧
      m.opc = .mrCtl ∧ m.dst = buddy s ∧ (if s.mir.sent.length < 4096 then (s.mir.next, m) ∈ u.mir.sent else m ∈ u.mir.held) ∧ u.hc = s.hc ∧ u.dir = s.dir := by
  obtain ⟨m, opc, dst, mir, sent, next, here⟩ := mirSend_spec .mrCtl 0 Data.zero t.arg { s with bg := [] }
  have same := (quiet_fire 201 0 (oNum t.arg) (mirSend .mrCtl 0 Data.zero t.arg { s with bg := [] })).trans sent
  refine ⟨_, m, mirrorCopyEnd_on only copy paired last all_read, (bg_of_quiet same).trans rfl, ?_, ?_, opc, dst, ?_, (hc_of_quiet same).trans rfl, (dir_of_quiet same).trans rfl⟩
  · rw [mir_of_quiet same]
    exact next
  · exact raised_fired ((halted_of_quiet sent).trans unhalted) (by simp [reservedSource]) (by decide) ..
  · rw [mir_of_quiet same]
    exact here

/-! ### A rekey sweep -/

theorem rekeyFrames_hc (n slot : Nat) (s : State) : ∃ hc, rekeyFrames n slot s = { s with hc := hc } := by
  unfold rekeyFrames
  split
  · exact ⟨s.hc, rfl⟩
  · exact ⟨_, rfl⟩

theorem rd_rekeyFrames (n slot : Nat) (s : State) (a : Nat) : rd (rekeyFrames n slot s) a = rd s a := by
  obtain ⟨hc, frames⟩ := rekeyFrames_hc n slot s
  rw [frames]
  exact rd_congr rfl rfl a

/-- What the end of a rekey sweep writes of the key range `e` and of SL_RKCTL (R453). -/
def rekeyWritten (e slot gen : Nat) (s : State) : State := wrFld aSlRkctl 31 1 0 (wrFld e 3 10 slot (wrFld e 13 8 gen s))

theorem rekeyWritten_spec {e slot gen : Nat} (other : e / 8 ≠ aSlRkctl / 8) (slot_small : slot < 2 ^ 10) (gen_small : gen < 2 ^ 8) (s : State) :
    rdBit (rekeyWritten e slot gen s) aSlRkctl 31 = false ∧ rdFld (rekeyWritten e slot gen s) e 3 10 = slot ∧ rdFld (rekeyWritten e slot gen s) e 13 8 = gen := by
  refine ⟨(rdBit_wrFld_self _ _ _ (by decide)).trans rfl, ?_, ?_⟩
  · rw [rekeyWritten, rdFld_wrFld_ne _ _ _ _ _ _ other, rdFld, rd_wrFld_self, fld_setFld_self _ _ _ _ (by decide)]
    exact Nat.mod_eq_of_lt slot_small
  · rw [rekeyWritten, rdFld_wrFld_ne _ _ _ _ _ _ other, rdFld_wrFld_off _ _ _ _ _ _ (by decide) (.inr (by decide)), rdFld, rd_wrFld_self,
      fld_setFld_self _ _ _ _ (by decide)]
    exact Nat.mod_eq_of_lt gen_small

theorem rekeySweepEnd_spec (task : taskOf s .rekey = some t)
    (all : rdFld s (aSlKrt (fld (rd s aSlRkctl) 0 12) + 8) 0 34 < rdFld s aSlRkptr 0 34) (none_open : s.sl.reseals = []) :
    ∃ u, opRekeySweepEnd s = u ∧ rdBit u aSlRkctl 31 = false ∧ rdFld u (aSlKrt (fld (rd s aSlRkctl) 0 12)) 3 10 = fld (rd s aSlRkctl) 12 10 ∧
      rdFld u (aSlKrt (fld (rd s aSlRkctl) 0 12)) 13 8 = fld (rd s aSlRkctl) 22 8 := by
  unfold opRekeySweepEnd
  rw [task]
  simp -zeta only
  extract_lets c n e old v w mine _ x
  rw [if_neg (by rw [none_open]; simpa using all)]
  have regs : ∀ a, rd (tallyAuto 35 e 231 old (rd x e) (oKey (fld c 12 10)) (fire 231 0 (oKey (fld c 12 10)) x)) a =
      rd (rekeyWritten e (fld c 12 10) (fld c 22 8) (endTask t s)) a := fun a => by
    rw [rd_of_quiet ((quiet_tallyAuto ..).trans (quiet_fire ..))]
    exact (rd_congr rfl rfl a).trans (rd_rekeyFrames ..)
  obtain ⟨idle, slot, gen⟩ := rekeyWritten_spec (e := e) (slot := fld c 12 10) (gen := fld c 22 8) (by simp only [e, aSlKrt, aSlRkctl]; omega) (fld_lt ..) (fld_lt ..)
    (endTask t s)
  refine ⟨_, rfl, ?_, ?_, ?_⟩
  · rw [rd_congr_bits (regs _)]
    exact idle
  · rw [rd_congr_fld (regs _)]
    exact slot
  · rw [rd_congr_fld (regs _)]
    exact gen

/-! ### A key retirement -/

theorem bgEnd_none (none_open : s.ctl.bg = []) (opc obj brc : Nat) : bgEnd opc obj brc s = s := by rw [bgEnd, none_open]; rfl

/-- The word of an EMPTY slot of generation `gen`. -/
theorem emptySlot_fields (gen : Nat) (small : gen < 256) : fld (mkWord [(2, 8, gen)]) 0 2 = 0 ∧ fld (mkWord [(2, 8, gen)]) 2 8 = gen := by
  have word : mkWord [(2, 8, gen)] = setFld 0 2 8 gen := rfl
  rw [word, fld_setFld_ne _ _ _ _ _ _ (by decide) (.inl (by decide)), fld_setFld_self _ _ _ _ (by decide)]
  exact ⟨rfl, Nat.mod_eq_of_lt small⟩

theorem keyRetireEnd_spec (task : taskOf s .keyRetire = some t) (empty : purged (ofSlot t.arg s) s = true)
    (stored : storedAll (ofSlot t.arg s) s = true) (none_open : s.ctl.bg = []) :
    ∃ u, opKeyRetireEnd s = u ∧ mget u.sl.keys t.arg = none ∧ mget u.flash.keys t.arg = none ∧ rdFld u (aSlKs t.arg) 0 2 = 0 ∧
      rdFld u (aSlKs t.arg) 2 8 = (if rdFld s (aSlKs t.arg) 2 8 = 255 then 1 else rdFld s (aSlKs t.arg) 2 8 + 1) ∧ rdFld u (aSlKs t.arg) 2 8 ≠ 0 := by
  unfold opKeyRetireEnd
  rw [task]
  simp -zeta only
  extract_lets n a old gen new _ f _ x y
  rw [if_neg (by simp [n, empty, stored])]
  have erased := fun (z : State) (same : taskOf z .keyRetire = some t) => endTask_of_task same
  obtain ⟨r, ended, -⟩ := erased { s with sl := { s.sl with keys := mdel s.sl.keys n }, flash := f } task
  have same : quiet (tallyAuto 35 a 230 old new (oKey n) (fire 230 0 (oKey n) y)) = quiet y := (quiet_tallyAuto ..).trans (quiet_fire ..)
  have open_y : y.ctl = s.ctl := by rw [show y.ctl = _ from wrFld_ctl .., show x.ctl = _ from wr_ctl .., ended]
  rw [bgEnd_none (by rw [ctl_of_quiet same, open_y]; exact none_open)]
  have word : rd y a = new := by
    rw [show rd y a = _ from rd_wrFld_ne _ _ _ _ (by simp only [a, aSlKs, aSlStat]; omega)]
    exact rd_wr_self ..
  have small : gen < 256 ∧ gen ≠ 0 := by
    have := fld_lt old 2 8
    simp only [gen]
    split <;> omega
  obtain ⟨state, generation⟩ := emptySlot_fields gen small.1
  refine ⟨_, rfl, ?_, ?_, ?_, ?_, ?_⟩
  · rw [sl_of_quiet same, show y.sl = _ from wrFld_sl .., show x.sl = _ from wr_sl .., ended]
    exact mget_mdel_self ..
  · rw [flash_of_quiet same, show y.flash = _ from wrFld_flash .., show x.flash = _ from wr_flash .., ended]
    exact mget_mdel_self ..
  · rw [rdFld_of_quiet same, rdFld, word]
    exact state
  · rw [rdFld_of_quiet same, rdFld, word]
    exact generation
  · rw [rdFld_of_quiet same, rdFld, word, generation]
    exact small.2

/-! ### A rebuild -/

/-- A root counter drawn anew (R457). -/
def rootDrawn (s : State) (k : Nat) : State := wr (aSlRoot k) (BitVec.ofNat 64 ((Config.freeWord (drawFree s).1).toNat % 2)) (drawFree s).2

theorem rootsDrawn (l : List Nat) (s : State) : (l.foldl rootDrawn s).free = s.free + l.length ∧ (l.foldl rootDrawn s).ctl = s.ctl := by
  induction l generalizing s with
  | nil => exact ⟨rfl, rfl⟩
  | cons k l ih =>
    obtain ⟨free, ctl⟩ := ih (rootDrawn s k)
    rw [List.foldl_cons, free, ctl, rootDrawn, wr_free, wr_ctl]
    exact ⟨by simp [drawFree]; omega, rfl⟩

theorem rebuildEnd_spec (rebuilding : rdFld s aSlStat 0 2 = 1) (none_open : s.ctl.bg = []) :
    ∃ u, opRebuildEnd s = u ∧ rdFld u aSlStat 0 2 = 2 ∧ u.free = s.free + 9 := by
  unfold opRebuildEnd
  rw [if_neg (by simp [rebuilding])]
  extract_lets root x y z v
  obtain ⟨free, ctl⟩ := rootsDrawn (List.range 8) s
  have ctl_v : v.ctl = s.ctl := by
    rw [show v.ctl = _ from wrFld_ctl .., show z.ctl = _ from wr_ctl ..]
    exact ctl
  rw [bgEnd_none (by rw [ctl_of_quiet (quiet_fire ..), ctl_v]; exact none_open)]
  refine ⟨_, rfl, ?_, ?_⟩
  · rw [rdFld_of_quiet (quiet_fire ..), rdFld, show rd v aSlStat = _ from rd_wrFld_self .., fld_setFld_self _ _ _ _ (by decide)]
    rfl
  · rw [fire_free, show v.free = _ from wrFld_free .., show z.free = _ from wr_free ..]
    show x.free + 1 = _
    rw [show x.free = _ from free]
    rfl

end Sys2Proof.Machine

namespace Sys2Proof

open Machine

/-- Settles O25: each end by what it writes. -/
theorem keyAndCopyTasksEnd : Obligations.KeyAndCopyTasksEnd := by
  intro s run
  refine ⟨fun t task done => ?_, fun t only copy unpaired all_read => ?_, fun t only copy paired last all_read => ?_, fun t task all none_open => ?_,
    fun t task _ empty stored _ none_open => ?_, fun rebuilding none_open => ?_⟩
  · obtain ⟨u, rfl, spec⟩ := maintenanceOpEnd_spec task done
    exact ⟨_, live_follow run opMaintenanceOpEnd, spec⟩
  · exact ⟨_, live_follow run opMirrorCopyEnd, mirrorCopyEnd_off only copy unpaired all_read⟩
  · obtain ⟨u, m, rfl, spec⟩ := mirrorCopyEnd_spec (unhalted_of_running run) only copy paired last all_read
    exact ⟨_, m, live_follow run opMirrorCopyEnd, spec⟩
  · obtain ⟨u, rfl, spec⟩ := rekeySweepEnd_spec task all none_open
    exact ⟨_, live_follow run opRekeySweepEnd, spec⟩
  · obtain ⟨u, rfl, spec⟩ := keyRetireEnd_spec task empty stored none_open
    exact ⟨_, live_follow run opKeyRetireEnd, spec⟩
  · obtain ⟨u, rfl, spec⟩ := rebuildEnd_spec rebuilding none_open
    exact ⟨_, live_follow run opRebuildEnd, spec⟩

end Sys2Proof
end

section
/-! PROOFS. The ends of a slice drain, a page move, a pseudo-channel's retirement and a Strong-set rebuild (R180, R181, R391, R413, R573). -/

namespace Sys2Proof.Machine

variable {s : State} {t : BgTask}

/-! ### A slice drain -/

/-- What the end of a slice drain writes of PM_DRAIN (R573). -/
def drainWritten (arg : Nat) (s : State) : State := rsq aPmDrain 7 (wrFld aPmDrain 0 1 0 (wrFld aPmDrain 6 1 arg (wrFld aPmDrain 8 32 0 s)))

theorem drainWritten_spec {arg : Nat} (small : arg < 2) (s : State) : rdBit (drainWritten arg s) aPmDrain 0 = false ∧
    rdFld (drainWritten arg s) aPmDrain 6 1 = arg ∧ rdFld (drainWritten arg s) aPmDrain 8 32 = 0 ∧ rdBit (drainWritten arg s) aPmDrain 7 = true := by
  refine ⟨?_, ?_, ?_, ?_⟩
  · rw [drainWritten, rdBit_rsq_self _ (by decide) (by decide), rdBit_wrFld_self _ _ _ (by decide)]
    rfl
  · rw [drainWritten, rdFld_rsq_off _ (by decide) (by decide) (.inl (by decide)), rdFld_wrFld_off _ _ _ _ _ _ (by decide) (.inr (by decide)), rdFld,
      rd_wrFld_self, fld_setFld_self _ _ _ _ (by decide)]
    exact Nat.mod_eq_of_lt small
  · rw [drainWritten, rdFld_rsq_off _ (by decide) (by decide) (.inr (by decide)), rdFld_wrFld_off _ _ _ _ _ _ (by decide) (.inr (by decide)),
      rdFld_wrFld_off _ _ _ _ _ _ (by decide) (.inr (by decide)), rdFld, rd_wrFld_self, fld_setFld_self _ _ _ _ (by decide)]
    rfl
  · rw [drainWritten, rdBit_rsq_self _ (by decide) (by decide)]
    rfl

theorem drainWritten_ctl (arg : Nat) (s : State) : (drainWritten arg s).ctl = s.ctl := by
  rw [drainWritten, rsq_ctl, wrFld_ctl, wrFld_ctl, wrFld_ctl]

theorem sliceDrainEnd_spec (none_open : s.ctl.bg = []) (task : taskOf s .sliceDrain = some t) (small : t.arg < 2) (empty : sliceEmpty t.next s = true) :
    ∃ u, opSliceDrainEnd s = u ∧ rdBit u aPmDrain 0 = false ∧ rdFld u aPmDrain 6 1 = t.arg ∧ rdFld u aPmDrain 8 32 = 0 ∧ rdBit u aPmDrain 7 = true := by
  unfold opSliceDrainEnd
  rw [task]
  simp -zeta only
  extract_lets old _ x _ y z
  rw [if_neg (by simp [empty])]
  have written : y = drainWritten t.arg (endTask t x) := rfl
  obtain ⟨r, ended, -⟩ := endTask_of_task (s := x) (show taskOf x .sliceDrain = some t from task)
  have same : quiet (tallyAuto 35 aPmDrain 268 old (rd z aPmDrain) (oNum t.next) z) = quiet y := (quiet_tallyAuto ..).trans (quiet_fireSeq ..)
  rw [bgEnd_none (by rw [ctl_of_quiet same, written, drainWritten_ctl, ended]; exact none_open)]
  obtain ⟨busy, asked, rest, over_⟩ := drainWritten_spec small (endTask t x)
  refine ⟨_, rfl, ?_, ?_, ?_, ?_⟩
  · rw [rdBit_of_quiet same, written, busy]
  · rw [rdFld_of_quiet same, written, asked]
  · rw [rdFld_of_quiet same, written, rest]
  · rw [rdBit_of_quiet same, written, over_]

/-! ### Entries of the Lumber list -/

/-- A list with room takes one entry more, and nothing else that is not erased by `quiet` changes but it. -/
theorem addLumber_room (kind cause loc aux : Nat) (room : s.flash.lumber.length < 4095) : ∃ e,
    (addLumber kind cause loc aux s).2 = { s with flash := { s.flash with lumber := s.flash.lumber ++ [e] } } := by
  unfold addLumber
  rw [if_neg (by omega)]
  extract_lets e _ z
  refine ⟨e, ?_⟩
  show (if z.flash.lumber.length = 4096 then fire 285 0 oNone z else z) = _
  rw [if_neg (by show (s.flash.lumber ++ [e]).length ≠ 4096; simp; omega)]

/-! ### A page move -/

theorem pageRetireEnd_spec {page set spare : Nat} (none_open : s.ctl.bg = []) (room : s.flash.lumber.length < 4095) (task : taskOf s .pageRetire = some t)
    (moved : s.prot.moving = some (page, set, spare, 64)) (none_left : s.cel.ops = []) :
    ∃ u, opPageRetireEnd s = u ∧ u.prot.moving = none ∧ mget u.flash.pages page = some (set, spare) ∧ u.flash.lumber.length = s.flash.lumber.length + 1 := by
  obtain ⟨r, ended, -⟩ := endTask_of_task (s := { s with prot := { s.prot with moving := none } })
    (show taskOf { s with prot := { s.prot with moving := none } } .pageRetire = some t from task)
  unfold opPageRetireEnd
  rw [task, moved]
  simp -zeta only
  extract_lets _ x y ports note _ f w
  rw [if_neg (by simp [none_left])]
  obtain ⟨e, noted⟩ := addLumber_room (s := x) 4 0 page (spare % 1024 + set * 1024) (by rw [show x = _ from ended]; exact room)
  have kept : w = _ := noted
  rw [show x = _ from ended] at kept
  have open_w : w.ctl.bg = [] := by rw [kept]; exact none_open
  have still_w : w.prot.moving = none := by rw [kept]
  have listed : w.flash.lumber = s.flash.lumber ++ [e] := by rw [kept]
  generalize moved_to : ({ w with flash := f } : State) = z
  have same : quiet (tallyAuto 35 0 0 0 (BitVec.ofNat 64 page) (oVal page) z) = quiet z := quiet_tallyAuto ..
  rw [bgEnd_none (by rw [ctl_of_quiet same, ← moved_to]; exact open_w)]
  refine ⟨_, rfl, ?_, ?_, ?_⟩
  · rw [prot_of_quiet same, ← moved_to]
    exact still_w
  · rw [flash_of_quiet same, ← moved_to]
    exact mget_mset_self ..
  · rw [flash_of_quiet same, ← moved_to, show f.lumber = _ from listed]
    exact List.length_append

/-! ### A pseudo-channel's retirement -/

theorem pcRetired {g : Nat} (none_open : s.ctl.bg = []) (room : s.flash.lumber.length < 4095) (src : Nat) :
    ∃ e, quiet (pcRecord g src s) = quiet { s with flash := { s.flash with lumber := s.flash.lumber ++ [e] } } := by
  obtain ⟨e, noted⟩ := addLumber_room (s := s) 1 0 g 0 room
  unfold pcRecord
  extract_lets x
  have kept : x.2 = _ := noted
  have same : quiet (tallyAuto 35 aHcPcmap src 0 (rd x.2 aHcPcmap) (oVal g) (fire src 0 (oVal g) x.2)) = quiet x.2 := (quiet_tallyAuto ..).trans (quiet_fire ..)
  rw [bgEnd_none (by rw [ctl_of_quiet same, kept]; exact none_open)]
  exact ⟨e, same.trans (congrArg quiet kept)⟩

theorem pcRetireEnd_spec {g : Nat} (none_open : s.ctl.bg = []) (room : s.flash.lumber.length < 4095) (task : taskOf s .pcRetire = some t)
    (wanted : s.hc.pcWant = some g) (empty : pcWays g s = []) (none_leaving : s.hc.evs = []) (mapped : rdBit s aHcPcmap (6 * (g % 4) + 5) = true) :
    ∃ u, opPcRetireEnd s = u ∧ u.hc.pcWant = none ∧ g ∈ u.hc.retPcs ∧ u.flash.lumber.length = s.flash.lumber.length + 1 := by
  obtain ⟨r, ended, -⟩ := endTask_of_task (s := { s with hc := { s.hc with pcWant := none } })
    (show taskOf { s with hc := { s.hc with pcWant := none } } .pcRetire = some t from task)
  unfold opPcRetireEnd
  rw [task, wanted]
  simp -zeta only
  extract_lets _ x z
  have kept : x = _ := ended
  have on : rdBit x aHcPcmap (6 * (g % 4) + 5) = true := by
    rw [kept]
    exact mapped
  have open_x : x.ctl.bg = [] := by rw [kept]; exact none_open
  have listed : x.flash.lumber = s.flash.lumber := by rw [kept]
  have idle : z.pcWant = none := by rw [show z = x.hc from rfl, kept]
  rw [if_neg (by simp [empty, none_leaving]), if_neg (by simp [on])]
  generalize retired : ({ x with hc := { z with retPcs := z.retPcs ++ [g] } } : State) = y
  obtain ⟨e, same⟩ := pcRetired (s := y) (g := g) (by rw [← retired]; exact open_x) (by rw [← retired]; exact listed ▸ room) 215
  refine ⟨_, rfl, ?_, ?_, ?_⟩
  · rw [hc_of_quiet same, ← retired]
    exact idle
  · rw [hc_of_quiet same, ← retired]
    exact List.mem_append_right _ (List.mem_singleton_self g)
  · rw [flash_of_quiet same, ← retired]
    show (x.flash.lumber ++ [e]).length = _
    rw [listed]
    exact List.length_append

/-! ### A Strong-set rebuild -/

theorem strongRebuildEnd_spec (unhalted : s.halted = none) {d : DPort} (only : s.bg = [t]) (rebuild : t.kind = .strongRebuild d) (last : t.last < t.next)
    (none_left : s.cel.ops = []) : ∃ u, opStrongRebuildEnd d s = u ∧ u.bg = [] ∧ raised u (64 + 4 * d.val) = true := by
  have task : taskOf s (.strongRebuild d) = some t := by simp [taskOf, only, rebuild]
  obtain ⟨r, ended, length⟩ := endTask_of_task task
  have none_more : r = [] := List.length_eq_zero_iff.1 (by rw [only] at length; simpa using length)
  unfold opStrongRebuildEnd
  rw [task]
  simp -zeta only
  extract_lets x
  rw [if_neg (by simp [none_left, Nat.not_le.2 last])]
  have empty : x.bg = [] := by rw [show x = _ from ended]; exact none_more
  rw [if_neg (by simp [taskOf, empty])]
  refine ⟨_, rfl, (bg_of_quiet ((quiet_tallyAuto ..).trans (quiet_fire ..))).trans empty, (StatKept.tallyAuto ..).bits _ (raised_fired (s := x) ?_ ?_ (by omega) ..)⟩
  · rw [show x = _ from ended]
    exact unhalted
  · have := d.isLt
    simp [reservedSource]
    omega

end Sys2Proof.Machine

namespace Sys2Proof

open Machine

/-- Settles O26: each end by what it takes off the background engine and what it writes. -/
theorem retirementTasksEnd : Obligations.RetirementTasksEnd := by
  intro s run none_open room
  refine ⟨fun t task _ small empty => ?_, fun t page set spare task moved none_left => ?_, fun t g task wanted _ empty none_leaving mapped => ?_,
    fun d t only rebuild last none_left => ?_⟩
  · obtain ⟨u, rfl, spec⟩ := sliceDrainEnd_spec none_open task small empty
    exact ⟨_, live_follow run opSliceDrainEnd, spec⟩
  · obtain ⟨u, rfl, spec⟩ := pageRetireEnd_spec none_open room task moved none_left
    exact ⟨_, live_follow run opPageRetireEnd, spec⟩
  · obtain ⟨u, rfl, spec⟩ := pcRetireEnd_spec none_open room task wanted empty none_leaving mapped
    exact ⟨_, live_follow run opPcRetireEnd, spec⟩
  · obtain ⟨u, rfl, spec⟩ := strongRebuildEnd_spec (unhalted_of_running run) only rebuild last none_left
    exact ⟨_, live_follow run (opStrongRebuildEnd d), spec⟩

end Sys2Proof
end

section
/-! PROOFS. One unit of background work, its pause and its resumption (R115, R257, Table 01.8). -/

namespace Sys2Proof.Machine

variable {s : State} {t : BgTask} {k : BgKind}

theorem backgroundWorkUnit_works (task : taskOf s k = some t) (goes : t.paused = false) (room : larUsed s 1 < shareLimit s 1 ∨ taskNo k = 0) :
    opBackgroundWorkUnit k s = asTask (taskNo k) (workUnit t) s := by
  unfold opBackgroundWorkUnit
  rw [task]
  simp -zeta only
  rw [if_neg (by simp [goes]), if_neg]
  rcases room with room | free
  · simp [room]
  · simp [free]

/-! ### Probes -/

theorem probe_works (task : taskOf s k = some t) (goes : t.paused = false) (probe : taskNo k = 0) :
    opBackgroundWorkUnit k s = workUnit t s := by
  rw [backgroundWorkUnit_works task goes (.inr probe), asTask]
  exact if_pos probe

/-- A probe's line is found or not: what it writes beside its result is two register words. -/
theorem probeDir_none (missing : dirFindIn s (ownLine s (rdFld s aDrProbe 6 42)) 16 0 = none) :
    probeDir s = wrFld aDrProbe 48 6 1 (wr aDrProbed 0 s) := by
  unfold probeDir
  extract_lets l
  rw [missing]

theorem probeDir_some {i : Nat} (found : dirFindIn s (ownLine s (rdFld s aDrProbe 6 42)) 16 0 = some i) :
    probeDir s = wrFld aDrProbe 48 6 (3 + 4 * (i % 16)) (wr aDrProbed (dirWord (mgetD {} s.dir i)) s) := by
  unfold probeDir
  extract_lets l
  rw [found]

theorem probeHf_none (missing : hfFindIn s (inLine s (BitVec.ofNat 54 (rdFld s aHfProbe 6 54))) 16 0 = none) :
    probeHf s = wrFld aHfProbe 60 2 1 (wr aHfProbed 0 s) := by
  unfold probeHf
  extract_lets l
  rw [missing]

theorem probeHf_some {i : Nat} (found : hfFindIn s (inLine s (BitVec.ofNat 54 (rdFld s aHfProbe 6 54))) 16 0 = some i) :
    probeHf s = wrFld aHfProbe 60 2 3 (wr aHfProbed (hfWord (mgetD {} s.hf i)) s) := by
  unfold probeHf
  extract_lets l
  rw [found]

/-- A probe's answer: the word it writes and the field of its own register. -/
theorem rd_probed {a p lo n v : Nat} {w : Word} (other : p / 8 ≠ a / 8) (s : State) : rd (wrFld a lo n v (wr p w s)) p = w := by
  rw [rd_wrFld_ne _ _ _ _ other, rd_wr_self]

theorem probeDir_spec (s : State) : rdBit (probeDir s) aDrProbe 48 = true ∧ (probeDir s).bg = s.bg ∧ (probeDir s).dir = s.dir ∧
    (dirFindIn s (ownLine s (rdFld s aDrProbe 6 42)) 16 0 = none → rdBit (probeDir s) aDrProbe 49 = false ∧ rd (probeDir s) aDrProbed = 0) ∧
    (∀ i, dirFindIn s (ownLine s (rdFld s aDrProbe 6 42)) 16 0 = some i → rdBit (probeDir s) aDrProbe 49 = true ∧
      rdFld (probeDir s) aDrProbe 50 4 = i % 16 ∧ rd (probeDir s) aDrProbed = dirWord (mgetD {} s.dir i)) := by
  cases found : dirFindIn s (ownLine s (rdFld s aDrProbe 6 42)) 16 0 with
  | none =>
    rw [probeDir_none found, rdBit_wrFld_in _ _ _ _ _ (by decide) (by decide) (by decide), rdBit_wrFld_in _ _ _ _ _ (by decide) (by decide) (by decide),
      wrFld_bg, wr_bg, wrFld_dir, wr_dir, rd_probed (by decide)]
    exact ⟨rfl, rfl, rfl, fun _ => ⟨rfl, rfl⟩, fun i absurd_ => nomatch absurd_⟩
  | some i =>
    rw [probeDir_some found, rdBit_wrFld_in _ _ _ _ _ (by decide) (by decide) (by decide), rdBit_wrFld_in _ _ _ _ _ (by decide) (by decide) (by decide),
      wrFld_bg, wr_bg, wrFld_dir, wr_dir, rd_probed (by decide), rdFld_wrFld_in _ _ _ _ _ _ (by decide) (by decide) (by decide)]
    have valid : (3 + 4 * (i % 16)).testBit 0 = true ∧ (3 + 4 * (i % 16)).testBit 1 = true := by
      simp only [Nat.testBit_eq_decide_div_mod_eq, decide_eq_true_eq]
      omega
    refine ⟨valid.1, rfl, rfl, fun absurd_ => (nomatch absurd_), fun j same => ?_⟩
    cases same
    exact ⟨valid.2, by omega, rfl⟩

theorem probeHf_spec (s : State) : rdBit (probeHf s) aHfProbe 60 = true ∧ (probeHf s).bg = s.bg ∧ (probeHf s).hf = s.hf ∧
    (hfFindIn s (inLine s (BitVec.ofNat 54 (rdFld s aHfProbe 6 54))) 16 0 = none → rdBit (probeHf s) aHfProbe 61 = false ∧ rd (probeHf s) aHfProbed = 0) ∧
    (∀ i, hfFindIn s (inLine s (BitVec.ofNat 54 (rdFld s aHfProbe 6 54))) 16 0 = some i → rdBit (probeHf s) aHfProbe 61 = true ∧
      rd (probeHf s) aHfProbed = hfWord (mgetD {} s.hf i)) := by
  cases found : hfFindIn s (inLine s (BitVec.ofNat 54 (rdFld s aHfProbe 6 54))) 16 0 with
  | none =>
    rw [probeHf_none found, rdBit_wrFld_in _ _ _ _ _ (by decide) (by decide) (by decide), rdBit_wrFld_in _ _ _ _ _ (by decide) (by decide) (by decide),
      wrFld_bg, wr_bg, wrFld_hf, wr_hf, rd_probed (by decide)]
    exact ⟨rfl, rfl, rfl, fun _ => ⟨rfl, rfl⟩, fun i absurd_ => nomatch absurd_⟩
  | some i =>
    rw [probeHf_some found, rdBit_wrFld_in _ _ _ _ _ (by decide) (by decide) (by decide), rdBit_wrFld_in _ _ _ _ _ (by decide) (by decide) (by decide),
      wrFld_bg, wr_bg, wrFld_hf, wr_hf, rd_probed (by decide)]
    refine ⟨rfl, rfl, rfl, fun absurd_ => (nomatch absurd_), fun j same => ?_⟩
    cases same
    exact ⟨rfl, rfl⟩

/-- A probe that is done, by what it wrote. -/
theorem probe_ends {z : State} (task : taskOf s k = some t) (bg : z.bg = s.bg) : ∃ r, endTask t z = { z with bg := r } ∧ r.length + 1 = s.bg.length := by
  rw [← bg]
  exact endTask_of_task (k := k) (by rw [taskOf, bg]; exact task)

/-! ### Pause and resumption -/

theorem find?_updFirst {α : Type} {p : α → Bool} {x y : α} {l : List α} (found : l.find? p = some x) (put : p y = true) :
    (updFirst p (fun _ => y) l).find? p = some y := by
  induction l with
  | nil => exact absurd found (by simp)
  | cons a l ih =>
    rw [updFirst]
    by_cases first : p a = true
    · rw [if_pos first, List.find?_cons_of_pos put]
    · rw [if_neg first, List.find?_cons_of_neg first]
      exact ih (by rwa [List.find?_cons_of_neg first] at found)

theorem pauseFor_spec (task : taskOf s k = some t) : (∃ t', taskOf (pauseFor k s) k = some t' ∧ t'.paused = true) ∧ (pauseFor k s).hc = s.hc ∧
    (pauseFor k s).dir = s.dir := by
  have same : quiet (pauseFor k s) = quiet (setTask { t with paused := true } s) := by
    rw [pauseFor, task]
    exact quiet_fire ..
  refine ⟨⟨{ t with paused := true }, ?_, rfl⟩, (hc_of_quiet same).trans rfl, (dir_of_quiet same).trans rfl⟩
  rw [taskOf, bg_of_quiet same]
  have kind := taskOf_kind task
  subst kind
  exact find?_updFirst task (decide_eq_true rfl)

theorem backgroundWorkUnit_pauses (task : taskOf s k = some t) (goes : t.paused = false) (needs : taskNo k ≠ 0) (full : shareLimit s 1 ≤ larUsed s 1) :
    opBackgroundWorkUnit k s = pauseFor k s := by
  unfold opBackgroundWorkUnit
  rw [task]
  simp -zeta only
  rw [if_neg (by simp [goes]), if_pos (by simp [needs, full])]

theorem backgroundResume_spec (room : larUsed s 1 < shareLimit s 1) : (∀ t, t ∈ (opBackgroundResume s).bg → t.paused = false) ∧
    (opBackgroundResume s).bg.length = s.bg.length := by
  rw [opBackgroundResume, if_neg (Nat.not_le.2 room)]
  refine ⟨fun t here => ?_, List.length_map ..⟩
  obtain ⟨x, -, rfl⟩ := List.mem_map.1 here
  rfl

end Sys2Proof.Machine

namespace Sys2Proof

open Machine

/-- Settles O27: a unit of work, a probe's answer, the pause and the resumption. -/
theorem backgroundUnits : Obligations.BackgroundUnits := by
  intro s run
  refine ⟨fun k t task goes room => ⟨_, live_follow run (opBackgroundWorkUnit k), backgroundWorkUnit_works task goes room⟩,
    fun t task goes => ⟨_, live_follow run (opBackgroundWorkUnit .probeDir), ?_⟩, fun t task goes => ⟨_, live_follow run (opBackgroundWorkUnit .probeHf), ?_⟩,
    fun k t task goes needs full => ⟨_, live_follow run (opBackgroundWorkUnit k), ?_⟩, fun room => ⟨_, live_follow run opBackgroundResume, backgroundResume_spec room⟩⟩
  · obtain ⟨valid, bg, dir, missing, found⟩ := probeDir_spec s
    obtain ⟨r, ended, length⟩ := probe_ends task bg
    have unit : workUnit t s = endTask t (probeDir s) := by rw [workUnit, taskOf_kind task]
    rw [probe_works task goes rfl, unit, ended]
    exact ⟨valid, length, dir, missing, found⟩
  · obtain ⟨valid, bg, hf, missing, found⟩ := probeHf_spec s
    obtain ⟨r, ended, length⟩ := probe_ends task bg
    have unit : workUnit t s = endTask t (probeHf s) := by rw [workUnit, taskOf_kind task]
    rw [probe_works task goes rfl, unit, ended]
    exact ⟨valid, length, hf, missing, found⟩
  · rw [backgroundWorkUnit_pauses task goes needs full]
    exact pauseFor_spec task

end Sys2Proof
end

section
/-! PROOFS. Protection of stored data: accesses done, records, scrubs, leaks and spares (R382, R394 to R403, R408). -/

namespace Sys2Proof.Machine

variable {s : State}

/-! ### Accesses of the hub cache's memory -/

theorem mem_hbmHeads {op : HbmOp} (s : State) : ∀ seen ops, op ∈ hbmHeads s seen ops → op ∈ ops
  | _, [], here => here
  | seen, x :: ops, here => by
    rw [hbmHeads, List.mem_append] at here
    rcases here with first | later
    · have same : op = x := by
        split at first
        · exact absurd first List.not_mem_nil
        · exact List.mem_singleton.1 first
      exact same ▸ List.mem_cons_self ..
    · exact List.mem_cons_of_mem _ (mem_hbmHeads s _ _ later)

theorem takeFirst_of_mem {α : Type} [DecidableEq α] {x : α} {l : List α} (here : x ∈ l) : ∃ r, takeFirst (fun y => decide (y = x)) l = some (x, r) := by
  cases found : l.find? fun y => decide (y = x) with
  | none => exact absurd (List.find?_eq_none.1 found x here) (by simp)
  | some y =>
    have same : y = x := by simpa using List.find?_some found
    obtain ⟨r, taken, -⟩ := takeFirst_of_find? found
    exact ⟨r, same ▸ taken⟩

theorem hbmNext_mem {pc : Nat} {op : HbmOp} {x : Nat × Nat} (next : hbmNext s pc = some (op, x)) : op ∈ mgetD [] s.hc.hbm pc := by
  obtain ⟨y, -, found⟩ := Option.bind_eq_some_iff.1 next
  obtain ⟨z, first, same⟩ := Option.map_eq_some_iff.1 found
  cases same
  exact mem_hbmHeads _ _ _ (List.mem_of_find?_eq_some first)

/-- An access taken off the queue of a pseudo-channel, which its Board has granted (R181). -/
def hbmTaken (pc : Nat) (x : Nat × Nat) (rest : List HbmOp) (s : State) : State :=
  granted (hbmBoard pc) x { s with hc := { s.hc with hbm := mput [] s.hc.hbm pc rest } }

/-- What a clean access goes on with. -/
def hbmDone (op : HbmOp) (s : State) : State := match op with
  | .write _ _ _ cells _ => doneReading cells s
  | .read _ _ _ outs _ => outs.foldl (fun s o => enqueue o.1 o.2 s) s

theorem hbmAccessDone_clean {pc : Nat} {op : HbmOp} {x : Nat × Nat} (next : hbmNext s pc = some (op, x)) (awake : rdBit s aPmDorm (16 + pc % 4) = false) :
    ∃ rest, takeFirst (fun y => y = op) (mgetD [] s.hc.hbm pc) = some (op, rest) ∧ opHbmAccessDone pc .clean s = hbmDone op (hbmTaken pc x rest s) := by
  obtain ⟨rest, taken⟩ := takeFirst_of_mem (hbmNext_mem next)
  refine ⟨rest, taken, ?_⟩
  unfold opHbmAccessDone
  rw [if_neg (by simp [awake]), next]
  simp only [taken]
  cases op with
  | write k l part cells c =>
    show doneReading cells (if part = true then hbmTaken pc x rest s else hbmTaken pc x rest s) = _
    rw [ite_self]
    rfl
  | read k l c outs d => rfl

theorem hbmAccessDone_spec {pc : Nat} {op : HbmOp} {x : Nat × Nat} (next : hbmNext s pc = some (op, x)) (awake : rdBit s aPmDorm (16 + pc % 4) = false) :
    ∃ t u rest, opHbmAccessDone pc .clean s = t ∧ takeFirst (fun y => y = op) (mgetD [] s.hc.hbm pc) = some (op, rest) ∧
      mgetD [] u.hc.hbm pc = rest ∧ u.dir = s.dir ∧ (∀ k l part cells c, op = .write k l part cells c → t = doneReading cells u) ∧
      (∀ k l c outs d, op = .read k l c outs d → t = outs.foldl (fun s o => enqueue o.1 o.2 s) u) := by
  obtain ⟨rest, taken, done⟩ := hbmAccessDone_clean next awake
  exact ⟨_, hbmTaken pc x rest s, rest, done, taken, mgetD_mput_self .., rfl, fun k l part cells c write => write ▸ rfl, fun k l c outs d read => read ▸ rfl⟩

theorem frameTagFetchDone_clean (k : Fin 32) (set : Nat) (h1 : isH1 s = true) (fetched : 65536 * k.val + set % 65536 ∈ s.hc.fetch) :
    opFrameTagFetchDone k set .clean s = tagLoaded (65536 * k.val + set % 65536)
      { s with hc := { s.hc with fetch := s.hc.fetch.filter (· ≠ 65536 * k.val + set % 65536) } } := by
  unfold opFrameTagFetchDone
  extract_lets c find _ z
  rw [if_neg (by simp [h1, c, fetched])]

/-! ### Records of an expander -/

theorem ecEntry_cnt (x : Find) (res : Nat) (s : State) : (ecEntry x res s).cnt = s.cnt := by
  unfold ecEntry
  extract_lets
  split
  · rw [rsq_cnt, wrFld_cnt, wrFld_cnt, wr_cnt, wr_cnt]
  · rw [wrFld_cnt, wrFld_cnt, wr_cnt, wr_cnt]

theorem cnt_foldl {α : Type} {f : State → α → State} (keeps : ∀ s x, (f s x).cnt = s.cnt) (l : List α) (s : State) : (l.foldl f s).cnt = s.cnt :=
  foldl_frame State.cnt keeps l s

theorem watchHit_cnt (page : Nat) (s : State) : (watchHit page s).cnt = s.cnt := by
  refine cnt_foldl (fun s r => ?_) _ _
  extract_lets
  split
  · exact wrFld_cnt ..
  · rw [fireSeq_cnt, rsq_cnt, wrFld_cnt]

theorem gmerPoll_one {d : DPort} {r : GmerRec} (unhalted : s.halted = none) (standard : inStandard s d = true)
    (room : cntLive s (aEcCcnt (8 + d)) + 1 < 2 ^ 48) : cntLive (opGmerPoll d [r] s) (aEcCcnt (8 + d)) = cntLive s (aEcCcnt (8 + d)) + 1 := by
  have logged : ∀ x res, cntLive (ecEntry x res (count (aEcCcnt (8 + d)) 1 s)) (aEcCcnt (8 + d)) = cntLive s (aEcCcnt (8 + d)) + 1 := fun x res => by
    rw [cntLive, ecEntry_cnt]
    exact (cntLive_count_self unhalted ..).trans (Nat.mod_eq_of_lt room)
  rw [opGmerPoll, if_pos standard, List.foldl_cons, List.foldl_nil]
  unfold gmerOne
  extract_lets z
  split
  · rw [cntLive, watchHit_cnt]
    exact logged ..
  · exact logged ..

/-! ### Scrubs -/

theorem scrubStep_full {f : ScrubFind} (unit : f.unit.val ≠ 7) (scrubbing : scrubs f s = true) (full : shareLimit s 1 ≤ larUsed s 1) :
    opScrubStep f s = fire 244 0 oNone s := by
  unfold opScrubStep
  extract_lets
  rw [if_neg unit, if_neg (by simp [scrubbing]), if_pos full]

theorem scrubStep_clean {f : ScrubFind} (unit : f.unit.val < 7) (clean : f.ecc = .clean) (scrubbing : scrubs f s = true) (room : larUsed s 1 < shareLimit s 1) :
    opScrubStep f s = scrubPass (scrubRegion s f.unit) s := by
  unfold opScrubStep
  extract_lets u page x z
  rw [if_neg (show ¬ u = 7 by simp only [u]; omega), if_neg (by simp [scrubbing]), if_neg (Nat.not_le.2 room), if_neg (show ¬ u ≥ 8 by simp only [u]; omega), clean]

theorem scrubPass_hc (g : Nat) (s : State) : (scrubPass g s).hc = s.hc := by
  unfold scrubPass
  extract_lets x v old new z
  have kept : z.hc = s.hc := (wrFld_hc ..).trans (wrFld_hc ..)
  split
  · exact kept
  · exact (foldl_frame State.hc (fun _ _ => fire_hc ..) _ _).trans kept

/-! ### Corrected words, spare rows and spare banks -/

theorem correctAndWrite_only {unit : Fin 16} {addr : BitVec 48} {k : Nat} (stored : unit.val < 8) (only : s.prot.fixes = [(unit.val, k, addr.toNat)]) :
    opCorrectAndWrite unit addr s = { s with prot := { s.prot with fixes := [] } } := by
  unfold opCorrectAndWrite
  rw [only]
  simp [takeFirst, stored]

/-- A list with room takes the entry that it is given. -/
theorem addLumber_taken (kind cause loc aux : Nat) (room : s.flash.lumber.length < 4095) : (addLumber kind cause loc aux s).1 = true := by
  unfold addLumber
  rw [if_neg (by omega)]

/-- The end of a spare, after its entry (R402). -/
def spareEnd (opc loc src : Nat) (s : State) : State :=
  bgEnd opc loc 0 (tallyAuto 35 0 src 0 (BitVec.ofNat 64 loc) (oVal loc) (fire src 0 (oVal loc) s))

theorem quiet_spareEnd (none_open : s.ctl.bg = []) (opc loc src : Nat) : quiet (spareEnd opc loc src s) = quiet s := by
  have same : quiet (tallyAuto 35 0 src 0 (BitVec.ofNat 64 loc) (oVal loc) (fire src 0 (oVal loc) s)) = quiet s := (quiet_tallyAuto ..).trans (quiet_fire ..)
  rw [spareEnd, bgEnd_none (by rw [ctl_of_quiet same]; exact none_open)]
  exact same

theorem spareEnd_addLumber (none_open : s.ctl.bg = []) (room : s.flash.lumber.length < 4095) (opc loc src kind cause aux : Nat) :
    (spareEnd opc loc src (addLumber kind cause loc aux s).2).prot = s.prot ∧
      (spareEnd opc loc src (addLumber kind cause loc aux s).2).flash.lumber.length = s.flash.lumber.length + 1 := by
  obtain ⟨e, noted⟩ := addLumber_room (s := s) kind cause loc aux room
  have same := quiet_spareEnd (s := (addLumber kind cause loc aux s).2) (by rw [noted]; exact none_open) opc loc src
  rw [prot_of_quiet same, flash_of_quiet same, noted]
  exact ⟨rfl, List.length_append⟩

theorem rowSpareDone_only {unit : Fin 16} {addr : BitVec 48} {c : Nat} (only : s.prot.rows = [(unit.val, addr.toNat % 65536, c)])
    (room : s.flash.lumber.length < 4095) : opRowSpareDone unit addr s = spareEnd 0xC302 (addr.toNat % 65536) (178 + 4 * (addr.toNat % 65536 % 4))
      (addLumber 2 c (addr.toNat % 65536) (spareRow s (addr.toNat % 65536)) { s with prot := { s.prot with rows := [] } }).2 := by
  unfold opRowSpareDone
  extract_lets loc _ src
  rw [only, takeFirst, if_pos (by simp [loc])]
  simp -zeta only
  extract_lets y
  exact if_neg (by rw [show y.1 = true from addLumber_taken _ _ _ _ room]; simp)

theorem rowSpareDone_spec {unit : Fin 16} {addr : BitVec 48} {c : Nat} (only : s.prot.rows = [(unit.val, addr.toNat % 65536, c)])
    (room : s.flash.lumber.length < 4095) (none_open : s.ctl.bg = []) :
    (opRowSpareDone unit addr s).prot.rows = [] ∧ (opRowSpareDone unit addr s).flash.lumber.length = s.flash.lumber.length + 1 := by
  rw [rowSpareDone_only only room]
  obtain ⟨prot, length⟩ := spareEnd_addLumber (s := { s with prot := { s.prot with rows := [] } }) none_open room 0xC302 (addr.toNat % 65536)
    (178 + 4 * (addr.toNat % 65536 % 4)) 2 c (spareRow s (addr.toNat % 65536))
  exact ⟨congrArg Prot.rows prot, length⟩

theorem bankSpareDone_only {bank : Nat} (only : s.prot.banks = [bank]) (room : s.flash.lumber.length < 4095) : opBankSpareDone bank s =
    spareEnd 0xC303 bank (179 + 4 * (bank % 4)) (addLumber 3 0 bank (bank / 32 % 4) { s with prot := { s.prot with banks := [] } }).2 := by
  unfold opBankSpareDone
  rw [if_neg (by simp [only])]
  extract_lets _ y src
  have none_left : s.prot.banks.filter (· ≠ bank) = [] := by simp [only]
  rw [if_neg (by rw [show y.1 = true from addLumber_taken _ _ _ _ room]; simp)]
  simp only [y, none_left]
  rfl

theorem bankSpareDone_spec {bank : Nat} (only : s.prot.banks = [bank]) (room : s.flash.lumber.length < 4095) (none_open : s.ctl.bg = []) :
    (opBankSpareDone bank s).prot.banks = [] ∧ (opBankSpareDone bank s).flash.lumber.length = s.flash.lumber.length + 1 := by
  rw [bankSpareDone_only only room]
  obtain ⟨prot, length⟩ := spareEnd_addLumber (s := { s with prot := { s.prot with banks := [] } }) none_open room 0xC303 bank (179 + 4 * (bank % 4)) 3 0 (bank / 32 % 4)
  exact ⟨congrArg Prot.banks prot, length⟩

/-! ### Leaks and expiries -/

theorem bucketLeak_spec {b : Fin 69} (small : b.val < 5) : rdFld (opBucketLeak b s) (aEcBkt b) 28 8 = rdFld s (aEcBkt b) 28 8 - 1 ∧ (opBucketLeak b s).out = s.out := by
  unfold opBucketLeak
  rw [if_pos small]
  refine ⟨?_, wrFld_out ..⟩
  show rdFld (wrFld (aEcBkt b) 28 8 (rdFld s (aEcBkt b) 28 8 - 1) s) _ _ _ = _
  rw [rdFld, rd_wrFld_self, fld_setFld_self _ _ _ _ (by decide)]
  have : rdFld s (aEcBkt b) 28 8 < 2 ^ 8 := fld_lt ..
  exact Nat.mod_eq_of_lt (by omega)

theorem watchEntryExpiry_spec (unit : Fin 16) (addr : BitVec 48) : (∀ e, e ∈ mgetD [] (opWatchEntryExpiry unit addr s).prot.reps unit → e.addr = addr.toNat → e.watch = none) ∧
    (opWatchEntryExpiry unit addr s).regs = s.regs := by
  refine ⟨fun e here same => ?_, rfl⟩
  unfold opWatchEntryExpiry at here
  rw [mgetD_mput_self] at here
  simpa [same] using (List.mem_filter.1 here).2

end Sys2Proof.Machine

namespace Sys2Proof

open Machine

/-- Settles O28: what each access, record, scrub, spare and leak writes. -/
theorem protectionEvents : Obligations.ProtectionEvents := by
  intro s run
  refine ⟨fun pc op x next awake => ?_, fun k set h1 fetched => ⟨_, live_follow run (opFrameTagFetchDone k set .clean), frameTagFetchDone_clean k set h1 fetched⟩,
    fun d other l => ⟨_, live_running run _, if_neg (by simp [other])⟩,
    fun d r standard _ room => ⟨_, live_running run _, gmerPoll_one (unhalted_of_running run) standard room⟩,
    fun f unit scrubbing full => ⟨_, live_follow run (opScrubStep f), scrubStep_full unit scrubbing full⟩,
    fun f unit clean scrubbing room => ⟨_, live_follow run (opScrubStep f), scrubStep_clean unit clean scrubbing room, ?_⟩,
    fun unit addr k stored only => ⟨_, live_follow run (opCorrectAndWrite unit addr), ?_⟩,
    fun unit addr c only room none_open => ⟨_, live_follow run (opRowSpareDone unit addr), rowSpareDone_spec only room none_open⟩,
    fun bank only room none_open => ⟨_, live_follow run (opBankSpareDone bank), bankSpareDone_spec only room none_open⟩,
    fun b small => ⟨_, live_running run _, bucketLeak_spec small⟩, fun unit addr => ⟨_, live_running run _, watchEntryExpiry_spec unit addr⟩⟩
  · obtain ⟨t, u, rest, rfl, spec⟩ := hbmAccessDone_spec next awake
    exact ⟨_, u, rest, live_running run fun s => followAfter s (opHbmAccessDone pc .clean s), spec⟩
  · rw [scrubStep_clean unit clean scrubbing room]
    exact scrubPass_hc ..
  · rw [correctAndWrite_only stored only]
    exact ⟨rfl, rfl⟩

end Sys2Proof
end

section
/-! PROOFS. Taken writes of IP_CTL (R308): the write-only bit RETRAIN, which the word read before still holds, acts with the enable. -/

namespace Sys2Proof.Machine

/-- An active Idior port whose IP_CTL word holds its write-only bit RETRAIN. -/
def retrainStands : State := wrFld (aIpStat 0) 0 3 3 (wrFld (aIpCtl 0) 2 1 1 State.reset)

/-- The word read has the bit, so the word that enables the port has it too. -/
theorem verdict_retrainStands : verdict 34 (aIpCtl 0) (setBit (now retrainStands 34 (aIpCtl 0)) 0 true) none retrainStands =
    .taken 0x8105 0x8105 4 0 0 false false false := by decide

/-- Port 0's link state after its enable. -/
theorem linkState_retrainStands : ∀ t, exec (.idiorPortEnable 34 0) retrainStands = .next t → linkState t 0 = 4 := by
  intro t done
  have retrains : linkState (opIdiorPortEnable 34 0 retrainStands) 0 = 4 := by decide
  have result : exec (.idiorPortEnable 34 0) retrainStands = .next (opIdiorPortEnable 34 0 retrainStands) := rfl
  rw [result] at done
  cases done
  exact retrains

end Sys2Proof.Machine

namespace Sys2Proof

open Machine

/-- Refutes O1: an active port whose IP_CTL word holds the write-only bit RETRAIN retrains when it is enabled again, as the write repeats the word read. -/
theorem not_portControlWrites : ¬ Obligations.PortControlWrites := by
  intro all
  obtain ⟨enables, -⟩ := all 34 retrainStands 0x8105 0x8105 4 0 0 false false (by decide)
  obtain ⟨t, done, -, state⟩ := enables 0 verdict_retrainStands
  have active : linkState retrainStands 0 = 3 := by decide
  rw [show linkState retrainStands ((0 : IPort) : Nat) = 3 from active, show linkState t ((0 : IPort) : Nat) = 4 from linkState_retrainStands t done] at state
  exact absurd state (by decide)

end Sys2Proof
end

section
/-! PROOFS. Taken writes of EV_TEST (R509) and PC_WRAPCLR (R531): the write-only bits that the word read before still holds act with the write. -/

namespace Sys2Proof.Machine

/-- EV_TEST's word holds the write-only bit 0 of its source field. -/
def sourceStands : State := wr aEvTest 1 State.reset

theorem verdict_sourceStands : verdict 34 aEvTest (mkWord [(0, 9, 256), (9, 1, 1)]) none sourceStands = .taken 1 1 0x300 0 0 false false false := by decide

/-- The test of source 256 fires 257. -/
theorem evStat_sourceStands : bit (mgetD 0 (opTestFiring 34 256 sourceStands).ev.evStat 5) 16 = false := by decide

theorem exec_sourceStands : exec (.testFiring 34 256) sourceStands = .next (opTestFiring 34 256 sourceStands) := rfl

/-- PC_WRAPCLR's word holds the write-only bit 0 of its index, and counter 2 has wrapped. -/
def indexStands : State := wr aPcWrapclr 1 { State.reset with cnt := { State.reset.cnt with wrap := [2] } }

theorem verdict_indexStands : verdict 34 aPcWrapclr (mkWord [(0, 12, 2), (12, 1, 1)]) none indexStands = .taken 1 1 0x1002 0 0 false false false := by decide

/-- The clear of WRAP 2 clears WRAP 3. -/
theorem wrap_indexStands : (opWrapClearOne 34 2 indexStands).cnt.wrap = [2] := by decide

theorem exec_indexStands : exec (.wrapClearOne 34 2) indexStands = .next (opWrapClearOne 34 2 indexStands) := rfl

end Sys2Proof.Machine

namespace Sys2Proof

open Machine

/-- Refutes O2: where EV_TEST's word holds bit 0 of its write-only source, the test of source 256 fires source 257. -/
theorem not_unitControlWrites : ¬ Obligations.UnitControlWrites := by
  intro all
  obtain ⟨-, -, -, -, -, -, -, -, fires, -⟩ := all 34 0 sourceStands 1 1 0x300 0 0 false false false (by decide)
  obtain ⟨t, done, raised⟩ := fires 256 verdict_sourceStands (by decide)
  cases exec_sourceStands.symm.trans done
  exact Bool.false_ne_true (evStat_sourceStands.symm.trans raised)

/-- Refutes O4: where PC_WRAPCLR's word holds bit 0 of its write-only index, the clear of WRAP 2 leaves it. -/
theorem not_queueAndWrapWrites : ¬ Obligations.QueueAndWrapWrites := by
  intro all
  obtain ⟨-, -, -, clears, -⟩ := all 34 0 indexStands 1 1 0x1002 0 0 false false false (by decide)
  obtain ⟨t, done, cleared, -⟩ := clears 2 verdict_indexStands
  cases exec_indexStands.symm.trans done
  exact cleared (by rw [wrap_indexStands]; exact List.mem_singleton_self 2)

end Sys2Proof
end

section
/-! PROOFS. A write that is taken (R470 to R480): the word it writes, bit by bit; what it stores and starts; and that its record and its last result change
neither a register nor what it started. -/

namespace Sys2Proof.Machine

variable {s : State} {o a : Nat} {r : Reg} {v cur new act c1 v1 : Word} {pair : Option Word} {g rsv st : Bool}

/-! ### From the verdict to the register's judgement -/

theorem verdict_taken_here (here : locate a = some r) (taken : verdict o a v pair s = .taken cur new act c1 v1 g rsv st) :
    absent s r = false ∧ verdictHere o a r v pair s = .taken cur new act c1 v1 g rsv st := by
  unfold verdict at taken
  rw [here] at taken
  split at taken
  · exact nomatch taken
  split at taken
  · exact nomatch taken
  split at taken
  · exact nomatch taken
  split at taken
  · exact nomatch taken
  simp only at taken
  split at taken
  · exact nomatch taken
  next present =>
    split at taken
    · exact nomatch taken
    · exact ⟨by simpa using present, taken⟩

/-- The bits that a write of `v` puts: in SB_SDOM and FB_CACHE this hub's own bit stands (R61). -/
def bitsPut (s : State) (r : Reg) (v : Word) : Word :=
  let put := v &&& BitVec.ofNat 64 ((accOf s r).rw ||| (accOf s r).rwg)
  if (r.base = aDrSdom 0 ∨ r.base = aFbCache 0) ∧ r.i = (hubId s).toNat / 64 then setBit put ((hubId s).toNat % 64) true else put

/-- The word that a write leaves: its writable bits, and, where its SEQ is fresh, the status bits cleared (R472). -/
def wordLeft (c : Acc) (put cur v : Word) : Word :=
  let x := (cur &&& ~~~BitVec.ofNat 64 (c.rw ||| c.rwg)) ||| put
  if c.rsq ≠ 0 ∧ fld v 48 16 = fld cur 48 16 then x &&& ~~~BitVec.ofNat 64 (c.rsq % 2 ^ 48) else x

theorem verdictHere_taken (taken : verdictHere o a r v pair s = .taken cur new act c1 v1 g rsv st) : cur = regNow s o a r ∧
    act = v &&& BitVec.ofNat 64 (accOf s r).wo ∧ new = wordLeft (accOf s r) (bitsPut s r v) cur v ∧ ((accOf s r).rsq = 0 → st = false) := by
  unfold verdictHere at taken
  extract_lets c m seen1 rs cur' two c1' v1' put own new' act' gd blk fresh final u at taken
  split at taken
  · exact nomatch taken
  split at taken
  · exact nomatch taken
  split at taken
  · exact nomatch taken
  split at taken
  · exact nomatch taken
  injection taken with h1 h2 h3 h4 h5 h6 h7 h8
  refine ⟨h1.symm, h3.symm, ?_, fun plain => ?_⟩
  · rw [← h1, ← h2]
    rfl
  · rw [← h8, show c.rsq = 0 from plain]
    rfl

/-! ### The word, bit by bit -/

theorem bit_and (w x : Word) (i : Nat) : bit (w &&& x) i = (bit w i && bit x i) := by
  rw [bit, BitVec.toNat_and, Nat.testBit_and, bit, bit]

theorem bit_or (w x : Word) (i : Nat) : bit (w ||| x) i = (bit w i || bit x i) := by
  rw [bit, BitVec.toNat_or, Nat.testBit_or, bit, bit]

theorem bit_not (w : Word) {i : Nat} (small : i < 64) : bit (~~~w) i = !bit w i := by
  rw [bit, BitVec.testBit_toNat, BitVec.getLsbD_not, bit, BitVec.testBit_toNat, decide_eq_true small, Bool.true_and]

theorem bit_ofNat (n : Nat) {i : Nat} (small : i < 64) : bit (BitVec.ofNat 64 n) i = n.testBit i := by
  rw [bit, BitVec.toNat_ofNat, Nat.testBit_mod_two_pow, decide_eq_true small, Bool.true_and]

theorem bit_wordLeft (c : Acc) (put cur v : Word) {i : Nat} (small : i < 64) (plain : c.rsq.testBit i = false) :
    bit (wordLeft c put cur v) i = (bit cur i && !(c.rw ||| c.rwg).testBit i || bit put i) := by
  have masked : ∀ x : Word, bit (x &&& ~~~BitVec.ofNat 64 (c.rsq % 2 ^ 48)) i = bit x i := fun x => by
    rw [bit_and, bit_not _ small, bit_ofNat _ small, Nat.testBit_mod_two_pow, plain, Bool.and_false, Bool.not_false, Bool.and_true]
  unfold wordLeft
  extract_lets x
  have word : bit x i = (bit cur i && !(c.rw ||| c.rwg).testBit i || bit put i) := by
    rw [show x = _ from rfl, bit_or, bit_and, bit_not _ small, bit_ofNat _ small]
  split
  · rw [masked, word]
  · exact word

theorem bit_and_ofNat (v : Word) (n : Nat) {i : Nat} (small : i < 64) : bit (v &&& BitVec.ofNat 64 n) i = (bit v i && n.testBit i) := by
  rw [bit_and, bit_ofNat _ small]

/-- Bits outside a map of the domain or of shared hubs. -/
theorem bitsPut_plain (other : r.base ≠ aDrSdom 0) (other' : r.base ≠ aFbCache 0) : bitsPut s r v = v &&& BitVec.ofNat 64 ((accOf s r).rw ||| (accOf s r).rwg) :=
  if_neg fun h => h.1.elim other other'

/-- A bit that software writes. -/
theorem bit_wordLeft_writable {c : Acc} {cur v : Word} {i : Nat} (small : i < 64) (plain : c.rsq.testBit i = false) (writable : (c.rw ||| c.rwg).testBit i = true) :
    bit (wordLeft c (v &&& BitVec.ofNat 64 (c.rw ||| c.rwg)) cur v) i = bit v i := by
  rw [bit_wordLeft _ _ _ _ small plain, bit_and_ofNat _ _ small, writable]
  simp

/-- A field that software writes. -/
theorem fld_wordLeft_writable {c : Acc} {cur v : Word} {lo n : Nat} (fits : lo + n ≤ 64)
    (writable : ∀ i, lo ≤ i → i < lo + n → c.rsq.testBit i = false ∧ (c.rw ||| c.rwg).testBit i = true) :
    fld (wordLeft c (v &&& BitVec.ofNat 64 (c.rw ||| c.rwg)) cur v) lo n = fld v lo n := by
  apply Nat.eq_of_testBit_eq
  intro i
  rw [fld_testBit, fld_testBit]
  by_cases inside : i < n
  · obtain ⟨plain, on⟩ := writable (lo + i) (by omega) (by omega)
    have same := bit_wordLeft_writable (c := c) (cur := cur) (v := v) (i := lo + i) (by omega) plain on
    simp only [bit] at same
    rw [same]
  · simp [inside]

/-! ### What a taken write stores and starts -/

/-- The state in which a taken write has spent its unlock (R476). -/
def unlockSpent (g : Bool) (o : Nat) (s : State) : State := if g then { s with ctl := { s.ctl with unlocks := mdel s.ctl.unlocks o } } else s

/-- The words of a taken write, stored (R51). -/
def wordsStored (a : Nat) (r : Reg) (new v1 : Word) (s : State) : State :=
  if stagedReg r then wr (a + 8) v1 { store a r new s with staged := mdel (store a r new s).staged ((a + 8) / 8) } else store a r new s

/-- A taken write's words and what they start, before its record. -/
def writeStarted (o a : Nat) (r : Reg) (cur new act c1 v1 : Word) (g : Bool) (s : State) : State :=
  effect r cur (new ||| act) c1 v1 (wordsStored a r new v1 (unlockSpent g o s))

/-- The record of a taken write and its last result (R471, R500). -/
def writeEnded (o a : Nat) (r : Reg) (pair : Option Word) (cur v act c1 v1 : Word) (rsv st : Bool) (t : State) : State :=
  if !rsv && st then finish o a r.word 7 cur v t
  else if stagedReg r && pair.isSome then finish o (a + 8) 1 (if rsv then 3 else 0) c1 v1 (finish o a r.word (if rsv then 3 else 0) cur (regNow t o a r ||| act) t)
  else finish o a r.word (if rsv then 3 else 0) cur (regNow t o a r ||| act) t

theorem writeReg_taken (here : locate a = some r) (taken : verdict o a v pair s = .taken cur new act c1 v1 g rsv st) :
    writeReg o a v pair s = writeEnded o a r pair cur v act c1 v1 rsv st (writeStarted o a r cur new act c1 v1 g s) := by
  unfold writeReg
  rw [taken, here, Option.getD_some]
  rfl

theorem finish_part (o a word res : Nat) (old new : Word) (s : State) : (finish o a word res old new s).part = s.part := by
  unfold finish
  split
  · rfl
  · exact tally_part ..

/-- A record and a last result leave the part, every register and the fields of `Spared`. -/
structure Recorded (s t : State) : Prop where
  part : t.part = s.part
  spared : Spared s t

theorem recorded_finish (o a word res : Nat) (old new : Word) (s : State) : Recorded s (finish o a word res old new s) := ⟨finish_part .., spared_finish ..⟩

theorem Recorded.trans {s t u : State} (h : Recorded s t) (k : Recorded t u) : Recorded s u := ⟨k.part.trans h.part, h.spared.trans k.spared⟩

theorem recorded_writeEnded (t : State) : Recorded t (writeEnded o a r pair cur v act c1 v1 rsv st t) := by
  unfold writeEnded
  split
  · exact recorded_finish ..
  · split
    · exact (recorded_finish ..).trans (recorded_finish ..)
    · exact recorded_finish ..

namespace Recorded

variable {t : State}

theorem regs (h : Recorded s t) : t.regs = s.regs := h.spared.1

theorem ports (h : Recorded s t) : t.ports = s.ports := by
  obtain ⟨-, -, ports, -⟩ := h.spared
  exact ports

theorem rd (h : Recorded s t) (a : Nat) : rd t a = rd s a := rd_congr h.part h.regs a

theorem rdBit (h : Recorded s t) (a i : Nat) : rdBit t a i = rdBit s a i := rd_congr_bits (h.rd a) i

theorem rdFld (h : Recorded s t) (a lo n : Nat) : rdFld t a lo n = rdFld s a lo n := rd_congr_fld (h.rd a) lo n

theorem untouched (h : Recorded s t) : Untouched s t := by
  obtain ⟨-, -, -, untouched⟩ := h.spared
  exact untouched

theorem bg (h : Recorded s t) : t.bg = s.bg := by
  obtain ⟨-, -, -, -, -, -, -, -, -, -, -, bg, -⟩ := h.untouched
  exact bg

theorem sweep (h : Recorded s t) : t.sweep = s.sweep := by
  obtain ⟨-, -, -, -, -, -, -, -, -, -, sweep, -⟩ := h.untouched
  exact sweep

theorem hc (h : Recorded s t) : t.hc = s.hc := by
  obtain ⟨-, -, -, -, hc, -⟩ := h.untouched
  exact hc

theorem req (h : Recorded s t) : t.req = s.req := by
  obtain ⟨-, -, -, req, -⟩ := h.untouched
  exact req

theorem cel (h : Recorded s t) : t.cel = s.cel := by
  obtain ⟨-, -, -, -, -, cel, -⟩ := h.untouched
  exact cel

theorem mir (h : Recorded s t) : t.mir = s.mir := by
  obtain ⟨-, -, -, -, -, -, mir, -⟩ := h.untouched
  exact mir

end Recorded

/-- The result of a taken write that no stale status bit turns away. -/
theorem writeEnded_last (fresh : st = false) (single : stagedReg r = false) (t : State) :
    mget (writeEnded o a r pair cur v act c1 v1 rsv st t).ctl.last o = some (if rsv then 3 else 0, a) := by
  rw [writeEnded, if_neg (by simp [fresh]), if_neg (by simp [single])]
  exact finish_last ..

/-! ### Words stored -/

/-- The registers whose words are state of their own. -/
def storesElsewhere (r : Reg) : Bool := decide (r.base ∈ [aEvStat 0, aEqStat 0, aGlTlystat, aSbSq 0 0])

theorem store_plain (plain : storesElsewhere r = false) (a : Nat) (v : Word) (s : State) : store a r v s = wr a v s := by
  simp only [storesElsewhere, decide_eq_false_iff_not, List.mem_cons, List.not_mem_nil, or_false, not_or] at plain
  obtain ⟨h1, h2, h3, h4⟩ := plain
  rw [store, if_neg h1, if_neg h2, if_neg h3, if_neg h4]

theorem unlockSpent_with (g : Bool) (o : Nat) (s : State) : ∃ c, unlockSpent g o s = { s with ctl := c } := by
  unfold unlockSpent
  split
  · exact ⟨_, rfl⟩
  · exact ⟨s.ctl, rfl⟩

/-- A plain one-word register: its word is written. -/
theorem wordsStored_single (single : stagedReg r = false) (plain : storesElsewhere r = false) (g : Bool) (o a : Nat) (new v1 : Word) (s : State) :
    ∃ c, wordsStored a r new v1 (unlockSpent g o s) = wr a new { s with ctl := c } := by
  obtain ⟨c, spent⟩ := unlockSpent_with g o s
  exact ⟨c, by rw [wordsStored, if_neg (by simp [single]), store_plain plain, spent]⟩

/-- A two-word entry: both words are written and its staged word is gone. -/
theorem wordsStored_two (two : stagedReg r = true) (plain : storesElsewhere r = false) (g : Bool) (o a : Nat) (new v1 : Word) (s : State) :
    ∃ c m, wordsStored a r new v1 (unlockSpent g o s) = wr (a + 8) v1 (wr a new { s with ctl := c, staged := m }) := by
  obtain ⟨c, spent⟩ := unlockSpent_with g o s
  refine ⟨c, mdel s.staged ((a + 8) / 8), ?_⟩
  rw [wordsStored, if_pos two, store_plain plain, spent]
  rfl

end Sys2Proof.Machine
end

section
/-! PROOFS. A maintenance operation that starts (R211 to R214). -/

namespace Sys2Proof.Machine

variable {s : State}

/-- The operation that HC_MOPC, HC_MOPA and HC_MOPL ask for. -/
def maintAsked (s : State) : Maint :=
  { flush := rdFld s aHcMopc 0 2 = 1, byAddr := !rdBit s aHcMopc 2 || (isH1 s && decide (rdFld s aHcMopl 0 48 ≤ 2 ^ 21)), base := rdFld s aHcMopa 6 54,
    count := if rdBit s aHcMopc 2 then 64 * rdFld s aHcMopl 0 48 else 1 }

/-- A miss register that the operation covers and whose fill is still to come is marked. -/
def maintMark (s : State) (m : Maint) (range : Bool) (e : Nat × MissReg) : Nat × MissReg :=
  if range && maintCovers s m e.2.line && !carries e.2 then (e.1, { e.2 with flush := true }) else e

theorem startMaint_spec (s : State) : rdBit (startMaint s) aHcMopc 4 = true ∧ (startMaint s).hc.maint = some (maintAsked s) ∧
    (startMaint s).bg = s.bg ++ [⟨.maint, 0, 0, 0, false⟩] ∧ (startMaint s).req.mrs = s.req.mrs.map (maintMark s (maintAsked s) (rdBit s aHcMopc 2)) := by
  unfold startMaint
  extract_lets range n m mark drain z
  refine ⟨rdBit_wrFld_self _ _ _ (by decide), ?_, ?_, ?_⟩
  · rw [wrFld_hc]
    rfl
  · rw [wrFld_bg]
  · rw [wrFld_req]
    rfl

/-- HC_MOPC as the register map gives it. -/
def mopcReg : Reg := ⟨aHcMopc, 0, 0, 0, { ro := 0x10, rw := 7, wo := 8, rsq := 0xffff000000000020 }, 1⟩

theorem locate_aHcMopc : locate aHcMopc = some mopcReg := by decide

theorem accOf_mopcReg (present : absent s mopcReg = false) : accOf s mopcReg = mopcReg.acc := by
  rw [accOf, if_neg (by simp [present]), if_neg (by decide)]

theorem effect_mopcReg (cur w c1 v1 : Word) (s : State) : effect mopcReg cur w c1 v1 s = if bit w 3 then startMaint s else s := rfl

/-- The word that starts an operation. -/
def mopWord (op : Nat) (range : Bool) (seq : Nat) : Word := mkWord [(0, 2, op), (2, 1, range.toNat), (3, 1, 1), (48, 16, seq)]

theorem mopWord_fields (op : Nat) (range : Bool) (seq : Nat) : fld (mopWord op range seq) 0 2 = op % 4 ∧ bit (mopWord op range seq) 2 = range ∧
    bit (mopWord op range seq) 3 = true := by
  have word : mopWord op range seq = setFld (setFld (setFld (setFld 0 0 2 op) 2 1 range.toNat) 3 1 1) 48 16 seq := rfl
  rw [word]
  refine ⟨?_, ?_, ?_⟩
  · rw [fld_setFld_ne _ _ _ _ _ _ (by decide) (.inl (by decide)), fld_setFld_ne _ _ _ _ _ _ (by decide) (.inl (by decide)),
      fld_setFld_ne _ _ _ _ _ _ (by decide) (.inl (by decide)), fld_setFld_self _ _ _ _ (by decide)]
    rfl
  · rw [bit_setFld_ne _ _ _ _ _ (by decide) (.inl (by decide)), bit_setFld_ne _ _ _ _ _ (by decide) (.inl (by decide)),
      bit_setFld_in _ _ _ _ _ (by decide) (by decide) (by decide)]
    cases range <;> rfl
  · rw [bit_setFld_ne _ _ _ _ _ (by decide) (.inl (by decide)), bit_setFld_in _ _ _ _ _ (by decide) (by decide) (by decide)]
    rfl

variable {o op seq : Nat} {range : Bool} {cur new act c1 v1 : Word} {g rsv st : Bool}

/-- A taken write of HC_MOPC with GO: the word it leaves asks for the operation, and GO acts. -/
theorem mop_taken_word (taken : verdict o aHcMopc (mopWord op range seq) none s = .taken cur new act c1 v1 g rsv st) :
    fld new 0 2 = op % 4 ∧ bit new 2 = range ∧ bit (new ||| act) 3 = true := by
  obtain ⟨present, judged⟩ := verdict_taken_here locate_aHcMopc taken
  obtain ⟨-, acts, left, -⟩ := verdictHere_taken judged
  rw [bitsPut_plain (by decide) (by decide), accOf_mopcReg present] at left
  rw [accOf_mopcReg present] at acts
  obtain ⟨flush, ranged, go⟩ := mopWord_fields op range seq
  refine ⟨?_, ?_, ?_⟩
  · rw [left, fld_wordLeft_writable (by decide) (fun i low high => by interval_cases i <;> decide), flush]
  · rw [left, bit_wordLeft_writable (by decide) (by decide) (by decide), ranged]
  · rw [bit_or, acts, bit_and_ofNat _ _ (by decide), go]
    exact Bool.or_true _

/-- The state at which the operation starts asks for the same as the state before, but for HC_MOPC itself. -/
theorem maintAsked_stored (c : Ctl) {flush : Bool} (op : fld new 0 2 = flush.toNat % 4) (ranged : bit new 2 = range) :
    maintAsked (wr aHcMopc new { s with ctl := c }) =
      { flush := flush, byAddr := !range || (isH1 s && decide (rdFld s aHcMopl 0 48 ≤ 2 ^ 21)), base := rdFld s aHcMopa 6 54,
        count := if range then 64 * rdFld s aHcMopl 0 48 else 1 } := by
  have other : ∀ {a}, a / 8 ≠ aHcMopc / 8 → ∀ lo n, rdFld (wr aHcMopc new { s with ctl := c }) a lo n = rdFld s a lo n := fun off lo n =>
    (rdFld_wr_ne _ _ _ _ off).trans (rdFld_congr rfl rfl ..)
  have own : rd (wr aHcMopc new { s with ctl := c }) aHcMopc = new := rd_wr_self ..
  have flushes : decide (rdFld (wr aHcMopc new { s with ctl := c }) aHcMopc 0 2 = 1) = flush := by
    rw [rdFld, own, op]
    cases flush <;> rfl
  have ranges : rdBit (wr aHcMopc new { s with ctl := c }) aHcMopc 2 = range := by rw [rdBit, own, ranged]
  unfold maintAsked
  rw [flushes, ranges, other (by decide), other (by decide)]
  rfl

/-- The lines that mirror entries move are those that the fabric's registers say. -/
theorem outLine_congr {t : State} (fabric : ∀ a, 0x160000 ≤ a → rd t a = rd s a) (l : LineAddr) : outLine t l = outLine s l := by
  have own : hubId t = hubId s := by rw [hubId, rd_congr_fld (fabric _ (by decide)), hubId]
  have pair : buddy t = buddy s := by rw [buddy, rd_congr_fld (fabric _ (by decide)), buddy]
  have entry : ∀ n, rd t (aFbMir n) = rd s (aFbMir n) ∧ rd t (aFbMir n + 8) = rd s (aFbMir n + 8) := fun n =>
    ⟨fabric _ (by unfold aFbMir; omega), fabric _ (by unfold aFbMir; omega)⟩
  have served : mirOwn t (laOf l) = mirOwn s (laOf l) := by
    unfold mirOwn
    congr 1
    funext n
    rw [(entry n).1, rd_congr_fld (entry n).2]
  unfold outLine
  rw [own, served, pair]
  split
  · rfl
  · split
    · rfl
    · next n _ => rw [rd_congr_bits (entry n).1, rd_congr_fld (entry n).1, rd_congr_fld (entry n).2]

theorem maintCovers_stored (c : Ctl) (m : Maint) (l : LineAddr) : maintCovers (wr aHcMopc new { s with ctl := c }) m l = maintCovers s m l := by
  have same : outLine (wr aHcMopc new { s with ctl := c }) l = outLine s l :=
    outLine_congr (fun a high => (rd_wr_ne _ _ (by unfold aHcMopc; omega)).trans (rd_congr rfl rfl a)) l
  rw [maintCovers, same, maintCovers]

/-- A taken write of HC_MOPC with GO starts what it asks for. -/
theorem mop_spec {o : Origin} {m : Maint} (asked : m =
      { flush := m.flush, byAddr := !range || (isH1 s && decide (rdFld s aHcMopl 0 48 ≤ 2 ^ 21)), base := rdFld s aHcMopa 6 54,
        count := if range then 64 * rdFld s aHcMopl 0 48 else 1 })
    (taken : verdict o aHcMopc (mopWord m.flush.toNat range (seqOf s aHcMopc)) none s = .taken cur new act c1 v1 g rsv st) :
    rdBit (mop o m.flush.toNat range s) aHcMopc 4 = true ∧ (mop o m.flush.toNat range s).hc.maint = some m ∧
      (mop o m.flush.toNat range s).bg = s.bg ++ [⟨.maint, 0, 0, 0, false⟩] ∧
      (mop o m.flush.toNat range s).req.mrs = s.req.mrs.map (maintMark s m range) := by
  obtain ⟨op, ranged, go⟩ := mop_taken_word taken
  obtain ⟨c, stored⟩ := wordsStored_single (r := mopcReg) (by decide) (by decide) g o aHcMopc new v1 s
  have starts : writeStarted o aHcMopc mopcReg cur new act c1 v1 g s = startMaint (wr aHcMopc new { s with ctl := c }) := by
    rw [writeStarted, effect_mopcReg, if_pos go, stored]
  have asks : maintAsked (wr aHcMopc new { s with ctl := c }) = m := (maintAsked_stored c op ranged).trans asked.symm
  have marks : maintMark (wr aHcMopc new { s with ctl := c }) m range = maintMark s m range := by
    funext e
    rw [maintMark, maintCovers_stored, maintMark]
  obtain ⟨busy, maint, bg, mrs⟩ := startMaint_spec (wr aHcMopc new { s with ctl := c })
  have ranges : rdBit (wr aHcMopc new { s with ctl := c }) aHcMopc 2 = range := by rw [rdBit, rd_wr_self, ranged]
  rw [asks] at maint
  rw [asks, ranges, marks, wr_req] at mrs
  rw [wr_bg] at bg
  have done := writeReg_taken locate_aHcMopc taken
  rw [starts] at done
  have kept := recorded_writeEnded (o := o) (a := aHcMopc) (r := mopcReg) (v := mopWord m.flush.toNat range (seqOf s aHcMopc)) (cur := cur) (act := act) (c1 := c1)
    (v1 := v1) (pair := none) (rsv := rsv) (st := st) (startMaint (wr aHcMopc new { s with ctl := c }))
  rw [← done] at kept
  rw [show mop o m.flush.toNat range s = writeReg o aHcMopc (mopWord m.flush.toNat range (seqOf s aHcMopc)) none s from rfl, kept.rdBit, kept.hc, kept.bg, kept.req]
  exact ⟨busy, maint, bg, mrs⟩

end Sys2Proof.Machine

namespace Sys2Proof

open Machine

/-- Settles O3: the word that a taken write leaves asks for the operation, and GO starts it. -/
theorem maintenanceStarts : Obligations.MaintenanceStarts := by
  intro o range s cur new act c1 v1 g rsv st m run asked taken
  refine ⟨mop o m.flush.toNat range s, fun clean => ?_, fun flush => ?_, mop_spec asked taken⟩
  · rw [clean]
    exact live_follow run (mop o 0 range)
  · rw [flush]
    exact live_follow run (mop o 1 range)

end Sys2Proof
end

section
/-! PROOFS. How the write commands end by what they are judged (R51, R470 to R480). -/

namespace Sys2Proof.Machine

variable {s : State} {r : Reg} {v cur new act c1 v1 : Word} {pair : Option Word} {g rsv st : Bool}

/-! ### A command of one word -/

theorem famAt_mem {fams : List Fam} {a : Nat} {f : Fam} {w : Nat} (found : famAt fams a = some (f, w)) : f ∈ fams := by
  induction fams with
  | nil => exact absurd found (by simp [famAt])
  | cons x fams ih =>
    rw [famAt] at found
    split at found
    · cases found
      exact List.mem_cons_self ..
    · exact List.mem_cons_of_mem _ (ih found)

/-- A register that an address names stands in one of the blocks, and its access word is one of its row. -/
theorem locate_mem {a : Nat} (here : locate a = some r) : a < 0x400000 ∧ ∃ b f w, f ∈ famsOf b ∧ r.base = f.base ∧ r.acc = f.acc.getD w {} := by
  obtain ⟨⟨f, w⟩, found, rfl⟩ := Option.map_eq_some_iff.1 here
  obtain ⟨b, block, row⟩ := Option.bind_eq_some_iff.1 found
  refine ⟨?_, b, f, w, famAt_mem row, rfl, rfl⟩
  by_contra high
  have none_here : blockOf a = none := by
    unfold blockOf
    repeat rw [if_neg (by omega)]
  rw [none_here] at block
  exact nomatch block

/-- A write that is judged by its register went past its window. -/
theorem windowOpen_of_judged {o a : Nat} (closed : verdict o a v pair s ≠ .closed) (held : verdict o a v pair s ≠ .held) (port : o < 16) :
    windowPort s o = true ∧ popWaits s o = false := by
  unfold verdict at closed held
  constructor
  · by_contra off
    exact closed (if_pos (by simp [port, off]))
  · by_contra waits
    by_cases off : windowPort s o = true
    · exact held (by rw [if_neg (by simp [off]), if_pos (by simp [port, waits])])
    · exact closed (if_pos (by simp [port, off]))

theorem writeBytes_judged {o a : Nat} (here : locate a = some r) (whole : a % 8 = 0) (closed : verdict o a v none s ≠ .closed)
    (held : verdict o a v none s ≠ .held) : writeBytes o a 8 v.toNat s = writeReg o a v none s :=
  writeBytes_word v (locate_mem here).1 whole fun port => windowOpen_of_judged closed held port

theorem followAfter_spared {t : State} (spared : Spared s t) : followAfter s t = t := by
  obtain ⟨-, -, ports, -, -, -, -, -, cel, mir, -⟩ := spared
  exact followAfter_idle (by rw [cel]) (by rw [cel]) (by rw [mir]) (by rw [ports])

/-- REGISTER_WRITE of a word below the pop pages, where nothing is held behind a pop and nothing that goes on by itself is owed. -/
theorem exec_registerWrite_spared (run : running s = true) (free : s.ev.behind = []) (o : Origin) (a : BitVec 24) (size : Nat) (v : BitVec 512) {t : State}
    (done : opRegisterWrite o a size v s = t) (spared : followAfter s t = t) : exec (.registerWrite o a size v) s = .next t := by
  rw [exec_registerWrite, live_running run, done, spared, windowAfter, if_pos free]

/-! ### Registers whose write starts nothing -/

/-- Registers whose write starts nothing. -/
def inertBases : List Nat := [aGlTlyidx, aHcPfctl, aHcMrq, aLdWdog, aEcRepctl, aPmTherm, aPmLpctl]

theorem inert_cases (inert : r.base ∈ inertBases) : stagedReg r = false ∧ storesElsewhere r = false ∧ ∀ w v w1 v1 s, effect r w v w1 v1 s = s := by
  obtain ⟨base, i, j, word, acc, words⟩ := r
  simp only [inertBases, List.mem_cons, List.not_mem_nil, or_false] at inert
  rcases inert with rfl | rfl | rfl | rfl | rfl | rfl | rfl
  all_goals exact ⟨rfl, rfl, fun _ _ _ _ _ => rfl⟩

theorem inert_rsq : ∀ b < 18, ∀ f ∈ famsOf b, f.base ∈ inertBases → ∀ c ∈ f.acc, c.rsq = 0 := by decide

theorem rsq_of_inert {a : Nat} (here : locate a = some r) (inert : r.base ∈ inertBases) (s : State) : (accOf s r).rsq = 0 := by
  obtain ⟨-, b, f, w, row, base, acc⟩ := locate_mem here
  have small : b < 18 := by
    by_contra high
    obtain ⟨k, rfl⟩ := Nat.exists_eq_add_of_le' (Nat.not_lt.1 high)
    have none_here : famsOf (k + 18) = [] := rfl
    rw [none_here] at row
    exact nomatch row
  have plain : r.acc.rsq = 0 := by
    rw [acc, List.getD_eq_getElem?_getD]
    cases word : f.acc[w]? with
    | none => rfl
    | some c => exact inert_rsq b small f row (base ▸ inert) c (List.mem_of_getElem? word)
  unfold accOf
  split
  · rfl
  · split
    · rfl
    · exact plain

theorem registerWrite_inert {o : Origin} {a : BitVec 24} (run : running s = true) (whole : a.toNat % 8 = 0) (free : s.ev.behind = []) (here : locate a.toNat = some r)
    (inert : r.base ∈ inertBases) (taken : verdict o a.toNat v none s = .taken cur new act c1 v1 g rsv st) :
    ∃ t, exec (.registerWrite o a 8 (v.zeroExtend 512)) s = .next t ∧ rd t a.toNat = new ∧ (mgetD (0, 0) t.ctl.last o).1 ∈ [0, 3] := by
  obtain ⟨single, plain, still_⟩ := inert_cases inert
  obtain ⟨-, judged⟩ := verdict_taken_here here taken
  obtain ⟨-, -, -, fresh⟩ := verdictHere_taken judged
  obtain ⟨c, stored⟩ := wordsStored_single single plain g o a.toNat new v1 s
  have starts : writeStarted o a.toNat r cur new act c1 v1 g s = wr a.toNat new { s with ctl := c } := by rw [writeStarted, still_, stored]
  have done := writeReg_taken here taken
  rw [starts] at done
  have kept := recorded_writeEnded (o := o) (a := a.toNat) (r := r) (v := v) (cur := cur) (act := act) (c1 := c1) (v1 := v1) (pair := none) (rsv := rsv) (st := st)
    (wr a.toNat new { s with ctl := c })
  have idle : followAfter s (writeReg o a.toNat v none s) = writeReg o a.toNat v none s := by
    rw [done]
    exact followAfter_idle (by rw [kept.cel, wr_cel]) (by rw [kept.cel, wr_cel]) (by rw [kept.mir, wr_mir]) (by rw [kept.ports, wr_ports])
  have op : opRegisterWrite o a 8 (v.zeroExtend 512) s = writeReg o a.toNat v none s := by
    have wide : (v.zeroExtend 512).toNat = v.toNat := by
      rw [BitVec.toNat_setWidth]
      exact Nat.mod_eq_of_lt (by omega)
    rw [opRegisterWrite, wide, writeBytes_judged here whole (by rw [taken]; simp) (by rw [taken]; simp)]
  refine ⟨_, exec_registerWrite_spared run free o a 8 _ op idle, ?_, ?_⟩
  · rw [done, kept.rd, rd_wr_self]
  · rw [done, mgetD, writeEnded_last (fresh (rsq_of_inert here inert s)) single]
    cases rsv <;> simp

/-! ### A narrow write -/

theorem registerWrite_narrow {o : Origin} {a : BitVec 24} (run : running s = true) (whole : a.toNat % 8 = 0) (free : s.ev.behind = []) (mailbox : o.val ≥ 16) (v : BitVec 512) :
    ∃ t, exec (.registerWrite o a 4 v) s = .next t ∧ lastRes t o = (if blockedByTally s o then 10 else 6) ∧ t.regs = s.regs := by
  have op : opRegisterWrite o a 4 v s = if blockedByTally s o then tooFull o (a.toNat / 8 * 8) s
      else finish o (a.toNat / 8 * 8) (wordAt (a.toNat / 8 * 8)) 6 (valueAt s o (a.toNat / 8 * 8)) (BitVec.ofNat 64 v.toNat) s := by
    have aligned : (decide (4 = 0) || decide (a.toNat % 4 ≠ 0) || decide (8 < a.toNat % 8 + 4)) = false := by
      simp
      omega
    unfold opRegisterWrite writeBytes
    rw [dif_neg (by omega), if_neg (by simp [Nat.not_lt.2 mailbox]), if_neg (by simp [Nat.not_lt.2 mailbox]), if_neg (by omega)]
    extract_lets misaligned z b
    rw [show z = s from if_neg (by simp [Nat.not_lt.2 mailbox])]
  by_cases full : blockedByTally s o = true
  · rw [if_pos full] at op ⊢
    have spared := spared_tooFull o (a.toNat / 8 * 8) s
    refine ⟨_, exec_registerWrite_spared run free o a 4 v op (followAfter_spared spared), ?_, spared.1⟩
    rw [lastRes, tooFull, mgetD, count_ctl]
    simp
  · rw [if_neg full] at op ⊢
    have spared := spared_finish o (a.toNat / 8 * 8) (wordAt (a.toNat / 8 * 8)) 6 (valueAt s o (a.toNat / 8 * 8)) (BitVec.ofNat 64 v.toNat) s
    refine ⟨_, exec_registerWrite_spared run free o a 4 v op (followAfter_spared spared), ?_, spared.1⟩
    rw [lastRes, mgetD, finish_last]
    rfl

/-! ### A staged word -/

theorem finish_staged (o a word res : Nat) (old new : Word) (s : State) : (finish o a word res old new s).staged = s.staged := by
  unfold finish
  split
  · rfl
  · exact tally_staged ..

theorem finish_unlocks (o a word res : Nat) (old new : Word) (s : State) : (finish o a word res old new s).ctl.unlocks = s.ctl.unlocks := by
  unfold finish
  split
  · rfl
  · show (tally ..).ctl.unlocks = _
    rw [tally_ctl]

theorem stagedWordWrite_spec {o : Origin} {a : BitVec 24} {x : Word} (whole : a.toNat % 8 = 0) (here : locate a.toNat = some r)
    (kept : verdict o a.toNat v none s = .staged x rsv) : ∃ t, followAfter s (opStagedWordWrite o a v s) = t ∧ mget t.staged (a.toNat / 8) = some x ∧ t.regs = s.regs := by
  have spared : Spared s (writeReg o a.toNat v none s) := spared_writeReg (by rw [kept]; rfl)
  have op : opStagedWordWrite o a v s = writeReg o a.toNat v none s := writeBytes_judged here whole (by rw [kept]; simp) (by rw [kept]; simp)
  refine ⟨_, by rw [op, followAfter_spared spared], ?_, spared.1⟩
  unfold writeReg
  extract_lets r' cur
  rw [kept]
  simp only
  rw [finish_staged]
  exact mget_mset_self ..

/-! ### A status bit cleared -/

theorem regNow_mopcReg (o : Nat) : regNow s o aHcMopc mopcReg = rd s aHcMopc := rfl

theorem startMaint_word (s : State) : rdBit (startMaint s) aHcMopc 5 = rdBit s aHcMopc 5 ∧ seqOf (startMaint s) aHcMopc = seqOf s aHcMopc ∧
    (startMaint s).cel = s.cel ∧ (startMaint s).mir = s.mir ∧ (startMaint s).ports = s.ports := by
  unfold startMaint
  extract_lets range n m mark drain z _ y
  refine ⟨?_, ?_, wrFld_cel .., wrFld_mir .., wrFld_ports ..⟩
  · rw [rdBit_wrFld_off _ _ _ _ _ (by decide) (.inr (by decide))]
    exact rdBit_congr rfl rfl ..
  · rw [seqOf, rdFld_wrFld_off _ _ _ _ _ _ (by decide) (.inr (by decide))]
    exact rdFld_congr rfl rfl ..

/-- The word that a fresh status write of HC_MOPC leaves: DONE clear, SEQ as it was. -/
theorem statusWord {o : Nat} (fresh : fld v 48 16 = seqOf s aHcMopc) (taken : verdict o aHcMopc v none s = .taken cur new act c1 v1 g rsv st) :
    bit new 5 = false ∧ fld new 48 16 = seqOf s aHcMopc := by
  obtain ⟨present, judged⟩ := verdict_taken_here locate_aHcMopc taken
  obtain ⟨read, -, left, -⟩ := verdictHere_taken judged
  rw [bitsPut_plain (by decide) (by decide), accOf_mopcReg present] at left
  rw [regNow_mopcReg] at read
  have word : new = ((cur &&& ~~~BitVec.ofNat 64 7) ||| (v &&& BitVec.ofNat 64 7)) &&& ~~~BitVec.ofNat 64 0x20 := by
    rw [left, wordLeft]
    exact if_pos ⟨by decide, by rw [fresh, read]; rfl⟩
  refine ⟨?_, ?_⟩
  · rw [word, bit_and, bit_not _ (by decide), bit_ofNat _ (by decide)]
    exact Bool.and_false _
  · rw [seqOf, rdFld, ← read]
    apply Nat.eq_of_testBit_eq
    intro i
    rw [fld_testBit, fld_testBit]
    by_cases inside : i < 16
    · have same : bit new (48 + i) = bit cur (48 + i) := by
        have : (7 : Nat).testBit (48 + i) = false := Nat.testBit_lt_two_pow (Nat.lt_of_lt_of_le (by decide : 7 < 2 ^ 48) (Nat.pow_le_pow_right (by decide) (by omega)))
        have : (0x20 : Nat).testBit (48 + i) = false :=
          Nat.testBit_lt_two_pow (Nat.lt_of_lt_of_le (by decide : 0x20 < 2 ^ 48) (Nat.pow_le_pow_right (by decide) (by omega)))
        rw [word, bit_and, bit_or, bit_and, bit_and, bit_not _ (by omega), bit_not _ (by omega), bit_ofNat _ (by omega), bit_ofNat _ (by omega)]
        simp [*]
      simp only [bit] at same
      rw [same]
    · simp [inside]

theorem statusClear_spec {o : Origin} {a : BitVec 24} (whole : a.toNat % 8 = 0) (mopc : a.toNat = aHcMopc) (fresh : fld v 48 16 = seqOf s aHcMopc)
    (taken : verdict o a.toNat v none s = .taken cur new act c1 v1 g rsv st) :
    ∃ t, followAfter s (opStatusClear o a v s) = t ∧ rdBit t aHcMopc 5 = false ∧ seqOf t aHcMopc = seqOf s aHcMopc := by
  have op : opStatusClear o a v s = writeReg o a.toNat v none s :=
    writeBytes_judged (by rw [mopc]; exact locate_aHcMopc) whole (by rw [taken]; simp) (by rw [taken]; simp)
  rw [mopc] at op taken
  obtain ⟨done_clear, seq⟩ := statusWord fresh taken
  obtain ⟨c, stored⟩ := wordsStored_single (r := mopcReg) (by decide) (by decide) g o aHcMopc new v1 s
  have word : rd (wr aHcMopc new { s with ctl := c }) aHcMopc = new := rd_wr_self ..
  have started : ∃ x, writeStarted o aHcMopc mopcReg cur new act c1 v1 g s = x ∧ rdBit x aHcMopc 5 = false ∧ seqOf x aHcMopc = seqOf s aHcMopc ∧
      x.cel = s.cel ∧ x.mir = s.mir ∧ x.ports = s.ports := by
    refine ⟨_, rfl, ?_⟩
    rw [writeStarted, effect_mopcReg, stored]
    split
    · obtain ⟨bit5, seq5, cel, mir, ports⟩ := startMaint_word (wr aHcMopc new { s with ctl := c })
      rw [bit5, seq5, cel, mir, ports, rdBit, seqOf, rdFld, word]
      exact ⟨done_clear, seq, wr_cel .., wr_mir .., wr_ports ..⟩
    · rw [rdBit, seqOf, rdFld, word]
      exact ⟨done_clear, seq, wr_cel .., wr_mir .., wr_ports ..⟩
  obtain ⟨x, starts, bit5, seq5, cel, mir, ports⟩ := started
  have done := writeReg_taken locate_aHcMopc taken
  rw [starts] at done
  have kept := recorded_writeEnded (o := o) (a := aHcMopc) (r := mopcReg) (v := v) (cur := cur) (act := act) (c1 := c1) (v1 := v1) (pair := none) (rsv := rsv) (st := st) x
  rw [← done] at kept
  refine ⟨_, rfl, ?_⟩
  rw [op, followAfter_idle (by rw [kept.cel, cel]) (by rw [kept.cel, cel]) (by rw [kept.mir, mir]) (by rw [kept.ports, ports]), kept.rdBit, seqOf, kept.rdFld]
  exact ⟨bit5, seq5⟩

/-! ### Unlocks -/

theorem glUnlock_spec {o : Origin} {block : BitVec 5} {key : BitVec 16} (known : unlockKeys[block.toNat]? = some key.toNat)
    (judged : verdict o aGlUnlock (mkWord [(0, 16, key.toNat), (16, 5, block.toNat)]) none s = .unlock) :
    mget (opGlUnlock o block key s).ctl.unlocks o = some block.toNat := by
  have word : mkWord [(0, 16, key.toNat), (16, 5, block.toNat)] = setFld (setFld 0 0 16 key.toNat) 16 5 block.toNat := rfl
  have blk : fld (mkWord [(0, 16, key.toNat), (16, 5, block.toNat)]) 16 5 = block.toNat := by
    rw [word, fld_setFld_self _ _ _ _ (by decide)]
    exact Nat.mod_eq_of_lt block.isLt
  have k : fld (mkWord [(0, 16, key.toNat), (16, 5, block.toNat)]) 0 16 = key.toNat := by
    rw [word, fld_setFld_ne _ _ _ _ _ _ (by decide) (.inl (by decide)), fld_setFld_self _ _ _ _ (by decide)]
    exact Nat.mod_eq_of_lt key.isLt
  unfold opGlUnlock writeReg
  extract_lets r cur
  rw [judged]
  simp only
  unfold unlock
  extract_lets b ok res
  have right : ok = true := by simp only [ok, b, blk, known, k, decide_true]
  rw [if_pos right, finish_unlocks]
  show mget (mset _ _ b) _ = _
  rw [mget_mset_self, show b = _ from blk]

end Sys2Proof.Machine

namespace Sys2Proof

open Machine

/-- Settles O6: each verdict by how its command ends. -/
theorem registerWriteForms : Obligations.RegisterWriteForms := by
  intro o a v s cur new act c1 v1 g rsv st run whole
  refine ⟨fun r here inert taken free => registerWrite_inert run whole free here inert taken, fun mailbox free => registerWrite_narrow run whole free mailbox _,
    fun x r here _ kept => ?_, fun mopc fresh _ taken => ?_, fun block key known judged => ⟨_, live_running run _, glUnlock_spec known judged⟩,
    ⟨_, live_running run _, mget_mdel_self .., rfl, rfl⟩⟩
  · obtain ⟨t, rfl, spec⟩ := stagedWordWrite_spec whole here kept
    exact ⟨_, live_running run fun s => followAfter s (opStagedWordWrite o a v s), spec⟩
  · obtain ⟨t, rfl, spec⟩ := statusClear_spec whole mopc fresh taken
    exact ⟨_, live_running run fun s => followAfter s (opStatusClear o a v s), spec⟩

end Sys2Proof
end

section
/-! PROOFS. Taken writes of address maps, membership, squares and mirror entries (R47, R53, R60, R61, R77, R252, R339). -/

namespace Sys2Proof.Machine

variable {s : State} {v cur new act c1 v1 : Word} {g rsv st : Bool}

/-! ### The rows of these registers -/

/-- A row of words that only a guarded write changes. -/
def guardedReg (base i j mask : Nat) (words : Nat) (ro : Nat := 0) : Reg := ⟨base, i, j, 0, { ro := ro, rwg := mask }, words⟩

theorem accOf_guardedReg {base i j mask words ro : Nat} (other : base ≠ aHpPldef 0) (other' : base ≠ aHpPlt 0 0)
    (present : absent s (guardedReg base i j mask words ro) = false) : accOf s (guardedReg base i j mask words ro) = { ro := ro, rwg := mask } := by
  rw [accOf, if_neg (by simp [present]), if_neg (by rintro (h | h); exacts [other h, other' h])]
  rfl

def winReg (p n : Nat) : Reg := guardedReg (aHpWin 0 0) p n 0x3fffff3f1f 2

def krtReg (n : Nat) : Reg := guardedReg (aSlKrt 0) n 0 0x7fffffffffffff 2

def sdomReg (i : Nat) : Reg := guardedReg (aDrSdom 0) i 0 0xffffffffffffffff 1

def sbSqReg (b w : Nat) : Reg := guardedReg (aSbSq 0 0) b w 0xffffffffffffffff 1

def mirReg (n : Nat) : Reg := guardedReg (aFbMir 0) n 0 0x1fff0fff0001 2 0xe

theorem famAt_skip {f : Fam} {fams : List Fam} {a : Nat} (off : ¬(f.base ≤ a ∧ (a - f.base) / f.s1 < f.n1 ∧ (a - f.base) % f.s1 / f.s2 < f.n2)) :
    famAt (f :: fams) a = famAt fams a := by
  rw [famAt]
  exact if_neg fun h => off ⟨h.1, h.2.1, h.2.2.1⟩

theorem famAt_take {f : Fam} {fams : List Fam} {a w : Nat} (base : f.base ≤ a) (row : (a - f.base) / f.s1 < f.n1) (column : (a - f.base) % f.s1 / f.s2 < f.n2)
    (word : (a - f.base) % f.s1 % f.s2 / 8 = w) (one : w < f.acc.length) : famAt (f :: fams) a = some (f, w) := by
  rw [famAt]
  subst word
  exact if_pos ⟨base, row, column, one⟩

theorem locate_aHpWin {p n : Nat} (hp : p < 16) (hn : n < 256) : locate (aHpWin p n) = some (winReg p n) := by
  have block : blockOf (aHpWin p n) = some 9 := by
    unfold blockOf aHpWin
    iterate 9 rw [if_neg (by omega)]
    rw [if_pos (by omega)]
  rw [locate, regAt, block, Option.bind_some, famsOf, famsHp]
  iterate 11 rw [famAt_skip (by simp only [aHpWin, aHpCtl, aHpStat, aHpWinstat, aHpMgacc, aHpPldef, aHpAgirq, aHpMbar, aHpCfga, aHpCfgd, aHpCnt, aHpPlt]; omega)]
  rw [famAt_take (w := 0) (by simp only [aHpWin]; omega) (by simp only [aHpWin]; omega) (by simp only [aHpWin]; omega) (by simp only [aHpWin]; omega) (by decide)]
  have row : (aHpWin p n - aHpWin 0 0) / 0x1000 = p := by unfold aHpWin; omega
  have column : (aHpWin p n - aHpWin 0 0) % 0x1000 / 0x10 = n := by unfold aHpWin; omega
  simp only [Option.map_some, row, column]
  rfl

theorem locate_aSlKrt {n : Nat} (hn : n < 4096) : locate (aSlKrt n) = some (krtReg n) := by
  have block : blockOf (aSlKrt n) = some 8 := by
    unfold blockOf aSlKrt
    iterate 8 rw [if_neg (by omega)]
    rw [if_pos (by omega)]
  rw [locate, regAt, block, Option.bind_some, famsOf, famsSl]
  iterate 12 rw [famAt_skip (by simp only [aSlKrt, aSlCtl, aSlStat, aSlHalt, aSlHaltft, aSlMajsrc, aSlRoot, aSlRkctl, aSlRkptr, aSlLta, aSlLpsk, aSlCnt, aSlKs]; omega)]
  rw [famAt_take (w := 0) (by simp only [aSlKrt]; omega) (by simp only [aSlKrt]; omega) (by simp only [aSlKrt]; omega) (by simp only [aSlKrt]; omega) (by decide)]
  have row : (aSlKrt n - aSlKrt 0) / 0x10 = n := by unfold aSlKrt; omega
  have column : (aSlKrt n - aSlKrt 0) % 0x10 / 0x10 = 0 := by unfold aSlKrt; omega
  simp only [Option.map_some, row, column]
  rfl

theorem locate_aDrSdom : ∀ i < 64, locate (aDrSdom i) = some (sdomReg i) := by decide

theorem locate_aSbSq {b w : Nat} (hb : b < 92) (hw : w < 64) : locate (aSbSq b w) = some (sbSqReg b w) := by
  rw [locate, regAt_aSbSq hb hw]
  have board : (aSbSq b w - aSbSq 0 0) / 0x400 = b := by unfold aSbSq; omega
  have word : (aSbSq b w - aSbSq 0 0) % 0x400 / 8 = w := by unfold aSbSq; omega
  simp only [Option.map_some, sbSqFam, board, word]
  rfl

theorem locate_aFbMir : ∀ n < 8, locate (aFbMir n) = some (mirReg n) := by decide

/-! ### What a taken write of such a row leaves -/

variable {base i j mask words ro : Nat} {o a : Nat} {pair : Option Word}

/-- The word of a guarded row: nothing of it acts, and its writable bits are those put. -/
theorem guarded_taken (other : base ≠ aHpPldef 0) (other' : base ≠ aHpPlt 0 0) (here : locate a = some (guardedReg base i j mask words ro))
    (taken : verdict o a v pair s = .taken cur new act c1 v1 g rsv st) : cur = regNow s o a (guardedReg base i j mask words ro) ∧ new ||| act = new ∧
      new = wordLeft { ro := ro, rwg := mask } (bitsPut s (guardedReg base i j mask words ro) v) cur v ∧
      accOf s (guardedReg base i j mask words ro) = { ro := ro, rwg := mask } := by
  obtain ⟨present, judged⟩ := verdict_taken_here here taken
  obtain ⟨read, acts, left, -⟩ := verdictHere_taken judged
  have acc := accOf_guardedReg other other' present
  rw [acc] at acts left
  refine ⟨read, ?_, left, acc⟩
  have none_acts : act = 0 := acts.trans BitVec.and_zero
  rw [none_acts]
  exact BitVec.or_zero

/-- A bit of a guarded row, where no other bit is put in its place. -/
theorem guarded_bit (other : base ≠ aHpPldef 0) (other' : base ≠ aHpPlt 0 0) (plain : base ≠ aDrSdom 0) (plain' : base ≠ aFbCache 0)
    (here : locate a = some (guardedReg base i j mask words ro)) (taken : verdict o a v pair s = .taken cur new act c1 v1 g rsv st) {k : Nat} (small : k < 64)
    (writable : mask.testBit k = true) : bit new k = bit v k := by
  obtain ⟨-, -, left, acc⟩ := guarded_taken other other' here taken
  rw [bitsPut_plain plain plain', acc] at left
  rw [left]
  exact bit_wordLeft_writable small (Nat.zero_testBit k) (by rw [Nat.zero_or]; exact writable)

/-- A taken write of a guarded row, with what it starts. -/
theorem writeReg_guarded (other : base ≠ aHpPldef 0) (other' : base ≠ aHpPlt 0 0) (here : locate a = some (guardedReg base i j mask words ro))
    (taken : verdict o a v pair s = .taken cur new act c1 v1 g rsv st) :
    Recorded (effect (guardedReg base i j mask words ro) cur new c1 v1 (wordsStored a (guardedReg base i j mask words ro) new v1 (unlockSpent g o s)))
      (writeReg o a v pair s) := by
  obtain ⟨-, none_acts, -⟩ := guarded_taken other other' here taken
  have done := writeReg_taken here taken
  rw [writeStarted, none_acts] at done
  rw [done]
  exact recorded_writeEnded _

/-! ### Windows -/

theorem effect_winReg (p : HPort) (n : Nat) (w v w1 v1 : Word) (s : State) : effect (winReg p n) w v w1 v1 s =
    if bit w 0 && !bit v 0 then startWindowSweep p n w w1 s else s := by
  obtain ⟨p, small⟩ := p
  exact dif_pos small

theorem windowEnable_spec (p : HPort) (n : BitVec 8) (taken : verdict o (aHpWin p n.toNat) (setBit v 0 true) none s = .taken cur new act c1 v1 g rsv st)
    (off : bit cur 0 = false) : rdBit (writeReg o (aHpWin p n.toNat) (setBit v 0 true) none s) (aHpWin p n.toNat) 0 = true ∧
      rd (writeReg o (aHpWin p n.toNat) (setBit v 0 true) none s) (aHpWin p n.toNat + 8) = v1 := by
  have here := locate_aHpWin p.isLt n.isLt
  have valid := guarded_bit (k := 0) (by decide) (by decide) (by decide) (by decide) here taken (by decide) (by decide)
  rw [bit_setBit_self _ (by decide)] at valid
  have kept : Recorded (effect (winReg p n.toNat) cur new c1 v1 (wordsStored (aHpWin p n.toNat) (winReg p n.toNat) new v1 (unlockSpent g o s))) _ :=
    writeReg_guarded (by decide) (by decide) here taken
  obtain ⟨c, m, stored⟩ := wordsStored_two (r := winReg p n.toNat) rfl rfl g o (aHpWin p n.toNat) new v1 s
  rw [effect_winReg, if_neg (by simp [off]), stored] at kept
  rw [kept.rdBit, kept.rd, rdBit, rd_wr_ne _ _ (by omega), rd_wr_self, rd_wr_self]
  exact ⟨valid, rfl⟩

theorem rd_startWindowSweep (p : HPort) (n : Nat) (w0 w1 : Word) (s : State) (a : Nat) :
    rd (startWindowSweep p n w0 w1 s) a = rd (wrFld (aHpWinstat p (n / 64)) (n % 64) 1 1 s) a := rd_congr rfl rfl a

theorem startWindowSweep_spec (p : HPort) (n : BitVec 8) (w0 w1 : Word) (s : State) :
    rdBit (startWindowSweep p n.toNat w0 w1 s) (aHpWinstat p (n.toNat / 64)) (n.toNat % 64) = true ∧
      (∀ a, a / 8 ≠ aHpWinstat p (n.toNat / 64) / 8 → rd (startWindowSweep p n.toNat w0 w1 s) a = rd s a) ∧
      ∃ b, b ∈ (startWindowSweep p n.toNat w0 w1 s).bg ∧ b.kind = .windowSweep p n := by
  refine ⟨?_, fun a off => ?_, _, List.mem_append_right _ (List.mem_singleton_self _), ?_⟩
  · rw [rd_congr_bits (rd_startWindowSweep ..), rdBit_wrFld_self _ _ _ (by omega)]
    rfl
  · rw [rd_startWindowSweep, rd_wrFld_ne _ _ _ _ off]
  · show BgKind.windowSweep p (BitVec.ofNat 8 n.toNat) = _
    rw [BitVec.ofNat_toNat, BitVec.setWidth_eq]

theorem windowDisable_spec (p : HPort) (n : BitVec 8) (taken : verdict o (aHpWin p n.toNat) (setBit v 0 false) none s = .taken cur new act c1 v1 g rsv st)
    (on : bit cur 0 = true) : ∃ t, writeReg o (aHpWin p n.toNat) (setBit v 0 false) none s = t ∧ rdBit t (aHpWin p n.toNat) 0 = false ∧
      rdBit t (aHpWinstat p (n.toNat / 64)) (n.toNat % 64) = true ∧ ∃ b, b ∈ t.bg ∧ b.kind = .windowSweep p n := by
  have here := locate_aHpWin p.isLt n.isLt
  have valid := guarded_bit (k := 0) (by decide) (by decide) (by decide) (by decide) here taken (by decide) (by decide)
  rw [bit_setBit_self _ (by decide)] at valid
  have kept : Recorded (effect (winReg p n.toNat) cur new c1 v1 (wordsStored (aHpWin p n.toNat) (winReg p n.toNat) new v1 (unlockSpent g o s))) _ :=
    writeReg_guarded (by decide) (by decide) here taken
  obtain ⟨c, m, stored⟩ := wordsStored_two (r := winReg p n.toNat) rfl rfl g o (aHpWin p n.toNat) new v1 s
  rw [effect_winReg, if_pos (by simp [on, valid]), stored] at kept
  obtain ⟨retiring, others, sweep⟩ := startWindowSweep_spec p n cur c1 (wr (aHpWin p n.toNat + 8) v1 (wr (aHpWin p n.toNat) new { s with ctl := c, staged := m }))
  refine ⟨_, rfl, ?_, ?_, ?_⟩
  · have := p.isLt
    have := n.isLt
    rw [kept.rdBit, rdBit, others _ (by unfold aHpWin aHpWinstat; omega), rd_wr_ne _ _ (by omega), rd_wr_self]
    exact valid
  · rw [kept.rdBit]
    exact retiring
  · rw [kept.bg]
    exact sweep

/-! ### The snoop domain -/

theorem effect_sdomReg (i : Nat) (w v w1 v1 : Word) (s : State) : effect (sdomReg i) w v w1 v1 s = memberChange i w v s := by
  simp only [effect, sdomReg, guardedReg]
  iterate 4 rw [if_neg (by decide)]
  exact if_pos trivial

theorem rd_memberChange (i : Nat) (w v : Word) (s : State) {a : Nat} (off : a / 8 ≠ aDrSweep / 8) : rd (memberChange i w v s) a = rd s a := by
  unfold memberChange
  extract_lets gone set z
  split
  · rfl
  · rw [rd_wrFld_ne _ _ _ _ off, rd_wrFld_ne _ _ _ _ off, rd_wrFld_ne _ _ _ _ off]
    exact rd_congr rfl rfl a

theorem bit_bitsPut_sdom (hub k : Nat) (small : k < 64) (s : State) (v : Word) (present : accOf s (sdomReg hub) = { rwg := 0xffffffffffffffff }) :
    bit (bitsPut s (sdomReg hub) v) k = (bit v k || decide (hub = (hubId s).toNat / 64 ∧ k = (hubId s).toNat % 64)) := by
  have all : ∀ k < 64, (0xffffffffffffffff : Nat).testBit k = true := by decide
  have plain : bit (v &&& BitVec.ofNat 64 ((accOf s (sdomReg hub)).rw ||| (accOf s (sdomReg hub)).rwg)) k = bit v k := by
    rw [bit_and_ofNat _ _ small, present, Nat.zero_or, all k small, Bool.and_true]
  unfold bitsPut
  extract_lets put
  by_cases own : hub = (hubId s).toNat / 64
  · rw [if_pos ⟨.inl rfl, own⟩]
    by_cases same : k = (hubId s).toNat % 64
    · rw [same, bit_setBit_self _ (by omega)]
      simp [own]
    · rw [bit_setBit_ne _ (by omega) same, show bit put k = _ from plain]
      simp [same]
  · rw [if_neg fun h => own h.2, show bit put k = _ from plain]
    simp [own]

/-- A membership word as a taken write leaves it: this hub's bit stands. -/
theorem sdom_taken (hub : HubId) {b : Bool} (taken : verdict o (aDrSdom (hub.toNat / 64)) (setBit v (hub.toNat % 64) b) none s = .taken cur new act c1 v1 g rsv st) :
    bit new (hub.toNat % 64) = (b || decide (hub = hubId s)) ∧ cur = regNow s o (aDrSdom (hub.toNat / 64)) (sdomReg (hub.toNat / 64)) := by
  have here := locate_aDrSdom (hub.toNat / 64) (by omega)
  obtain ⟨read, -, left, acc⟩ := guarded_taken (by decide) (by decide) here taken
  have all : ∀ k < 64, (0xffffffffffffffff : Nat).testBit k = true := by decide
  refine ⟨?_, read⟩
  rw [left, bit_wordLeft _ _ _ _ (by omega) (Nat.zero_testBit _), Nat.zero_or, all _ (by omega),
    show bit (bitsPut s (guardedReg _ _ _ _ _ _) _) _ = _ from bit_bitsPut_sdom _ _ (by omega) s _ acc, bit_setBit_self _ (by omega)]
  have same : (hub.toNat / 64 = (hubId s).toNat / 64 ∧ hub.toNat % 64 = (hubId s).toNat % 64) ↔ hub = hubId s :=
    ⟨fun h => BitVec.eq_of_toNat_eq (by omega), fun h => by rw [h]; exact ⟨rfl, rfl⟩⟩
  simp [same]

theorem wordsStored_sdom (g : Bool) (o i : Nat) (new v1 : Word) (s : State) :
    ∃ c, wordsStored (aDrSdom i) (sdomReg i) new v1 (unlockSpent g o s) = wr (aDrSdom i) new { s with ctl := c } := wordsStored_single rfl rfl ..

theorem membershipWord (hub : HubId) {b : Bool} (taken : verdict o (aDrSdom (hub.toNat / 64)) (setBit v (hub.toNat % 64) b) none s = .taken cur new act c1 v1 g rsv st) :
    rdBit (writeReg o (aDrSdom (hub.toNat / 64)) (setBit v (hub.toNat % 64) b) none s) (aDrSdom (hub.toNat / 64)) (hub.toNat % 64) =
      (b || decide (hub = hubId s)) := by
  have here := locate_aDrSdom (hub.toNat / 64) (by omega)
  have kept : Recorded (effect (sdomReg (hub.toNat / 64)) cur new c1 v1
      (wordsStored (aDrSdom (hub.toNat / 64)) (sdomReg (hub.toNat / 64)) new v1 (unlockSpent g o s))) _ := writeReg_guarded (by decide) (by decide) here taken
  obtain ⟨c, stored⟩ := wordsStored_sdom g o (hub.toNat / 64) new v1 s
  rw [effect_sdomReg, stored] at kept
  rw [kept.rdBit, rdBit, rd_memberChange _ _ _ _ (by unfold aDrSdom aDrSweep; omega), rd_wr_self]
  exact (sdom_taken hub taken).1

/-- A hub that leaves the domain joins its sweep. -/
theorem memberChange_leaves {hub : HubId} (other : hub ≠ hubId s) {w v : Word} (was : bit w (hub.toNat % 64) = true) (gone : bit v (hub.toNat % 64) = false) :
    hub ∈ (memberChange (hub.toNat / 64) w v s).sweep ∧ ∃ b, b ∈ (memberChange (hub.toNat / 64) w v s).bg ∧ b.kind = .domainSweep := by
  unfold memberChange
  extract_lets leaving set z
  have here : hub ∈ leaving := by
    refine List.mem_map.2 ⟨hub.toNat % 64, List.mem_filter.2 ⟨List.mem_range.2 (by omega), ?_⟩, ?_⟩
    · have : 64 * (hub.toNat / 64) + hub.toNat % 64 ≠ (hubId s).toNat := fun h => other (BitVec.eq_of_toNat_eq (by omega))
      simp [was, gone, this]
    · rw [show 64 * (hub.toNat / 64) + hub.toNat % 64 = hub.toNat by omega, BitVec.ofNat_toNat, BitVec.setWidth_eq]
  rw [if_neg (by simp; exact List.ne_nil_of_mem here), wrFld_sweep, wrFld_sweep, wrFld_sweep, wrFld_bg, wrFld_bg, wrFld_bg]
  refine ⟨?_, _, List.mem_append_right _ (List.mem_singleton_self _), rfl⟩
  show hub ∈ (s.sweep ++ leaving).eraseDups
  exact List.mem_eraseDups.2 (List.mem_append_right _ here)

theorem membershipClear_spec (hub : HubId) (taken : verdict o (aDrSdom (hub.toNat / 64)) (setBit v (hub.toNat % 64) false) none s = .taken cur new act c1 v1 g rsv st)
    (other : hub ≠ hubId s) (member : rdBit s (aDrSdom (hub.toNat / 64)) (hub.toNat % 64) = true) :
    ∃ t, writeReg o (aDrSdom (hub.toNat / 64)) (setBit v (hub.toNat % 64) false) none s = t ∧ hub ∈ t.sweep ∧ ∃ b, b ∈ t.bg ∧ b.kind = .domainSweep := by
  have here := locate_aDrSdom (hub.toNat / 64) (by omega)
  have kept : Recorded (effect (sdomReg (hub.toNat / 64)) cur new c1 v1
      (wordsStored (aDrSdom (hub.toNat / 64)) (sdomReg (hub.toNat / 64)) new v1 (unlockSpent g o s))) _ := writeReg_guarded (by decide) (by decide) here taken
  obtain ⟨c, stored⟩ := wordsStored_sdom g o (hub.toNat / 64) new v1 s
  rw [effect_sdomReg, stored] at kept
  obtain ⟨word, read⟩ := sdom_taken hub taken
  have was : bit cur (hub.toNat % 64) = true := by
    have reg : regNow s o (aDrSdom (hub.toNat / 64)) (sdomReg (hub.toNat / 64)) =
      if hub.toNat / 64 = (hubId s).toNat / 64 then setBit (rd s (aDrSdom (hub.toNat / 64))) ((hubId s).toNat % 64) true else rd s (aDrSdom (hub.toNat / 64)) := rfl
    rw [read, reg]
    split
    · next same =>
      rw [bit_setBit_ne _ (by omega) fun h => other (BitVec.eq_of_toNat_eq (by omega))]
      exact member
    · exact member
  have own : hubId (wr (aDrSdom (hub.toNat / 64)) new { s with ctl := c }) = hubId s := by
    rw [hubId, rdFld_wr_ne _ _ _ _ (by unfold aFbHubid aDrSdom; omega)]
    rfl
  obtain ⟨sweeping, task⟩ := memberChange_leaves (s := wr (aDrSdom (hub.toNat / 64)) new { s with ctl := c }) (hub := hub) (by rw [own]; exact other) was
    (by rw [word]; simp [other])
  refine ⟨_, rfl, ?_, ?_⟩
  · rw [kept.sweep]
    exact sweeping
  · rw [kept.bg]
    exact task

/-! ### Key ranges -/

theorem effect_krtReg (n : Nat) (w v w1 v1 : Word) (s : State) : effect (krtReg n) w v w1 v1 s =
    krtChanged w v v1 { s with sl := { s.sl with idle := s.sl.idle.filter (· ≠ n) } } := by
  simp only [effect, krtReg, guardedReg]
  iterate 13 rw [if_neg (by decide)]
  exact if_pos trivial

/-- A range whose new TYPE is not Guarded: nothing starts but the flush of one that becomes Unkept. -/
theorem krtChanged_spec {w v v1 : Word} (other : fld v 1 2 ≠ 1) (s : State) : (∃ bg, krtChanged w v v1 s = { s with bg := bg }) ∧
    (bit w 0 = true → bit v 0 = true → fld v 1 2 = 2 → fld w 1 2 ≠ 2 → ∃ b, b ∈ (krtChanged w v v1 s).bg ∧ b.kind = .rangeFlush) := by
  unfold krtChanged
  extract_lets b l same
  refine ⟨?_, fun was valid two before => ?_⟩
  · split
    · exact ⟨_, rfl⟩
    · split
      · exact ⟨_, rfl⟩
      · split
        · exact ⟨_, rfl⟩
        · exact ⟨_, rfl⟩
  · rw [if_neg (by simp [valid]), if_neg (by simp [same, was, two, before]), if_neg other, if_pos (by simp [two, was])]
    exact ⟨_, List.mem_append_right _ (List.mem_singleton_self _), rfl⟩

theorem keyRange_spec (n : BitVec 12) (type : BitVec 2) (taken : verdict o (aSlKrt n.toNat) (setFld v 1 2 type.toNat) none s = .taken cur new act c1 v1 g rsv st)
    (other : type.toNat ≠ 1) : ∃ t, writeReg o (aSlKrt n.toNat) (setFld v 1 2 type.toNat) none s = t ∧ rdFld t (aSlKrt n.toNat) 1 2 = type.toNat ∧
      (bit cur 0 = true → bit new 0 = true → type.toNat = 2 → fld cur 1 2 ≠ 2 → ∃ b, b ∈ t.bg ∧ b.kind = .rangeFlush) := by
  have here := locate_aSlKrt n.isLt
  obtain ⟨-, -, left, acc⟩ := guarded_taken (by decide) (by decide) here taken
  have kind : fld new 1 2 = type.toNat := by
    rw [bitsPut_plain (by show aSlKrt 0 ≠ _; decide) (by show aSlKrt 0 ≠ _; decide), acc] at left
    rw [left, fld_wordLeft_writable (by decide) (fun i low high => by interval_cases i <;> decide), fld_setFld_self _ _ _ _ (by decide)]
    exact Nat.mod_eq_of_lt type.isLt
  have kept : Recorded (effect (krtReg n.toNat) cur new c1 v1 (wordsStored (aSlKrt n.toNat) (krtReg n.toNat) new v1 (unlockSpent g o s))) _ :=
    writeReg_guarded (by decide) (by decide) here taken
  obtain ⟨c, m, stored⟩ := wordsStored_two (r := krtReg n.toNat) rfl rfl g o (aSlKrt n.toNat) new v1 s
  rw [effect_krtReg, stored] at kept
  generalize begun : ({ wr (aSlKrt n.toNat + 8) v1 (wr (aSlKrt n.toNat) new { s with ctl := c, staged := m }) with
    sl := { (wr (aSlKrt n.toNat + 8) v1 (wr (aSlKrt n.toNat) new { s with ctl := c, staged := m })).sl with
      idle := (wr (aSlKrt n.toNat + 8) v1 (wr (aSlKrt n.toNat) new { s with ctl := c, staged := m })).sl.idle.filter (· ≠ n.toNat) } } : State) = x at kept
  have word : rd x (aSlKrt n.toNat) = new := by
    rw [← begun]
    exact (rd_congr rfl rfl _).trans ((rd_wr_ne _ _ (by omega)).trans (rd_wr_self ..))
  obtain ⟨⟨bg, same⟩, flushes⟩ := krtChanged_spec (w := cur) (v := new) (v1 := v1) (by rw [kind]; exact other) x
  refine ⟨_, rfl, ?_, fun was valid two before => ?_⟩
  · have regs : rd (krtChanged cur new v1 x) (aSlKrt n.toNat) = rd x (aSlKrt n.toNat) := by
      rw [same]
      exact rd_congr rfl rfl _
    rw [kept.rdFld, rd_congr_fld regs, rdFld, word, kind]
  · rw [kept.bg]
    exact flushes was valid (kind.trans two) before

/-! ### Squares -/

theorem effect_sbSqReg (b w : Nat) (c v w1 v1 : Word) (s : State) : effect (sbSqReg b w) c v w1 v1 s = writeSquares b w v s := by
  simp only [effect, sbSqReg, guardedReg]
  iterate 3 rw [if_neg (by decide)]
  exact if_pos trivial

theorem squareWrite_spec (b : Fin 92) (q : Nat) (hq : q < 512) (taken : verdict o (aSbSq b (q / 8)) v none s = .taken cur new act c1 v1 g rsv st) :
    ∃ res old nv, writeReg o (aSbSq b (q / 8)) v none s = finish o (aSbSq b (q / 8)) 0 res old nv (writeSquares b (q / 8) new (unlockSpent g o s)) := by
  have here := locate_aSbSq (w := q / 8) b.isLt (by omega)
  obtain ⟨-, none_acts, -⟩ := guarded_taken (by decide) (by decide) here taken
  have starts : writeStarted o (aSbSq b (q / 8)) (sbSqReg b (q / 8)) cur new act c1 v1 g s = writeSquares b (q / 8) new (unlockSpent g o s) := by
    rw [writeStarted, none_acts, effect_sbSqReg]
    rfl
  rw [writeReg_taken here taken, starts, writeEnded]
  split
  · exact ⟨_, _, _, rfl⟩
  · exact ⟨_, _, _, if_neg (by simp [sbSqReg, guardedReg, stagedReg])⟩

/-! ### Mirror entries -/

theorem effect_mirReg (n : Nat) (w v w1 v1 : Word) (s : State) : effect (mirReg n) w v w1 v1 s =
    sendMirEntry n (if bit v 0 then s else { s with mir := { s.mir with gave := s.mir.gave.filter (· ≠ n) } }) := by
  simp only [effect, mirReg, guardedReg]
  iterate 20 rw [if_neg (by decide)]
  exact if_pos trivial

theorem effect_mirReg_unpaired {n : Nat} {w v w1 v1 : Word} (unpaired : rdFld s aFbBuddy 0 2 < 2) : ∃ m, effect (mirReg n) w v w1 v1 s = { s with mir := m } := by
  rw [effect_mirReg]
  split
  · exact ⟨s.mir, if_pos unpaired⟩
  · exact ⟨_, if_pos unpaired⟩

theorem mirrorEntry_spec (n : Fin 8) (unpaired : rdFld s aFbBuddy 0 2 < 2) (taken : verdict o (aFbMir n) v pair s = .taken cur new act c1 v1 g rsv st) :
    rd (writeReg o (aFbMir n) v pair s) (aFbMir n) = new ∧ rd (writeReg o (aFbMir n) v pair s) (aFbMir n + 8) = v1 := by
  have here := locate_aFbMir n n.isLt
  have kept : Recorded (effect (mirReg n) cur new c1 v1 (wordsStored (aFbMir n) (mirReg n) new v1 (unlockSpent g o s))) _ :=
    writeReg_guarded (by decide) (by decide) here taken
  obtain ⟨c, m, stored⟩ := wordsStored_two (r := mirReg n) rfl rfl g o (aFbMir n) new v1 s
  have alone : rdFld (wr (aFbMir n + 8) v1 (wr (aFbMir n) new { s with ctl := c, staged := m })) aFbBuddy 0 2 < 2 := by
    rw [rdFld_wr_ne _ _ _ _ (by unfold aFbBuddy aFbMir; omega), rdFld_wr_ne _ _ _ _ (by unfold aFbBuddy aFbMir; omega)]
    exact unpaired
  obtain ⟨mir, same⟩ := effect_mirReg_unpaired (n := n) (w := cur) (v := new) (w1 := c1) (v1 := v1) alone
  rw [stored, same] at kept
  have regs : ∀ b, rd (writeReg o (aFbMir n) v pair s) b = rd (wr (aFbMir n + 8) v1 (wr (aFbMir n) new { s with ctl := c, staged := m })) b := fun b =>
    (kept.rd b).trans (rd_congr rfl rfl b)
  rw [regs, regs, rd_wr_ne _ _ (by omega), rd_wr_self, rd_wr_self]
  exact ⟨rfl, rfl⟩

theorem privateMirrorEntry_spec {o : Origin} (n : Fin 8) (v : BitVec 128) (own : o.val = 35) : rd (opMirrorEntryWrite o n v s) (aFbPmir n) = BitVec.ofNat 64 v.toNat ∧
    rd (opMirrorEntryWrite o n v s) (aFbPmir n + 8) = BitVec.ofNat 64 (v.toNat / 2 ^ 64) := by
  have op : opMirrorEntryWrite o n v s = wr (aFbPmir n) (BitVec.ofNat 64 v.toNat) (wr (aFbPmir n + 8) (BitVec.ofNat 64 (v.toNat / 2 ^ 64)) s) := if_pos own
  rw [op, rd_wr_self, rd_wr_ne _ _ (by omega), rd_wr_self]
  exact ⟨rfl, rfl⟩

end Sys2Proof.Machine

namespace Sys2Proof

open Machine

/-- Settles O5: each write by the word it leaves and what it starts. -/
theorem mapWrites : Obligations.MapWrites := by
  intro o s cur new act c1 v1 g rsv st run
  refine ⟨fun p n v taken off => ⟨_, live_running run _, windowEnable_spec p n taken off⟩, fun p n v taken on => ?_,
    fun hub taken => ⟨_, live_running run _, membershipWord hub taken⟩, fun hub taken other member => ?_, fun n type taken other => ?_, fun b q v hq taken => ?_,
    fun n v own => ⟨_, live_running run _, privateMirrorEntry_spec n v own⟩, fun n v other unpaired taken => ⟨_, live_running run _, ?_⟩⟩
  · obtain ⟨t, rfl, spec⟩ := windowDisable_spec p n taken on
    exact ⟨_, live_running run (opWindowDisable o p n v), spec⟩
  · obtain ⟨t, rfl, spec⟩ := membershipClear_spec hub taken other member
    exact ⟨_, live_running run (opMembershipClear o hub), (membershipWord hub taken).trans (by simp [other]), spec⟩
  · obtain ⟨t, rfl, spec⟩ := keyRange_spec n type taken other
    exact ⟨_, live_running run (opKeyRangeTypeChange o n type), spec⟩
  · obtain ⟨res, old, nv, done⟩ := squareWrite_spec b q hq taken
    have op : opSquareWrite o b q v s = writeReg o (aSbSq b (q / 8)) v none s := by rw [opSquareWrite, Nat.mod_eq_of_lt hq]
    exact ⟨res, old, nv, (live_running run (opSquareWrite o b q v)).trans (congrArg Host.Outcome.next (op.trans done))⟩
  · rw [opMirrorEntryWrite, if_neg other]
    exact mirrorEntry_spec n unpaired taken

end Sys2Proof
end

section
/-! PROOFS. Squares, rounds, the lone waiter and the watchdog of a Board (R238 to R240, R243, R244, R253 to R255, R257). -/

namespace Sys2Proof.Machine

variable {s : State} {w : Waiter} {b q : Nat}

/-! ### A transfer in progress -/

theorem setHostLink_brd (p ls : Nat) (s : State) : (setHostLink p ls s).brd = s.brd := by
  simp only [setHostLink]
  exact apply_ite_same State.brd rfl (by simp)

theorem widen_brd (p : Nat) (s : State) : (widen p s).brd = s.brd := by
  unfold widen setNarrow
  extract_lets v
  split
  · rfl
  · rw [setHostLink_brd]
    exact apply_ite_same State.brd (wrFld_brd ..) rfl

/-- A requester that alone waits goes in progress and leaves the Board's row empty. -/
theorem occupy_alone (alone : mgetD [] s.brd.wait b = [w]) : mget (occupy b w s).brd.run b = some w ∧ mgetD [] (occupy b w s).brd.wait b = [] ∧
    (occupy b w s).brd.burst = s.brd.burst := by
  unfold occupy
  rw [alone, takeFirst, if_pos (decide_eq_true rfl)]
  extract_lets rest _ z
  have brd : (if 76 ≤ b then widen (b - 76) z else z).brd = z.brd := apply_ite_same State.brd (widen_brd ..) rfl
  rw [brd]
  exact ⟨mget_mset_self .., (mgetD_mput_self [] s.brd.wait b rest).trans rfl, rfl⟩

theorem complete_idle (idle : mget s.brd.run b = none) : complete b s = s := by rw [complete, idle]

/-! ### What a Board picks -/

theorem rankOf_lt (s : State) (b i : Nat) : rankOf s b i < 8 := fld_lt ..

/-- One requester alone is picked. -/
theorem pick_one (s : State) (b : Nat) {i : Nat} (small : i < 512) : pick s b [i] = some (i, rankOf s b i) := by
  have rank : min 8 (rankOf s b i) = rankOf s b i := Nat.min_eq_right (Nat.le_of_lt (rankOf_lt ..))
  have low : min 512 i = i := Nat.min_eq_right (Nat.le_of_lt small)
  unfold pick
  simp only [List.foldl_cons, List.foldl_nil, rank, decide_true, List.filter_cons_of_pos, List.filter_nil]
  by_cases up : mgetD 0 s.brd.rr (8 * b + rankOf s b i) ≤ i <;> simp [up, low]

theorem arbitrateAmong_one (s : State) (b q : Nat) {x : Nat × Nat × Nat} (small : x.1 < 512) : arbitrateAmong s b q [x] = some (x.1, rankOf s b x.1) := by
  unfold arbitrateAmong
  extract_lets e tier tm
  have one : ∀ p : Nat × Nat × Nat → Bool, [x].filter p = [x] ∨ [x].filter p = [] := fun p => by
    cases h : p x
    · exact .inr (List.filter_cons_of_neg (by simp [h]))
    · exact .inl (List.filter_cons_of_pos h)
  have all : (if !tier.isEmpty then tier else if !tm.isEmpty then tm else [x]) = [x] := by
    rcases one (fun x => inTier s b q x.2.1 x.2.2) with in_tier | off_tier
    · rw [show tier = [x] from in_tier]
      rfl
    · rw [show tier = [] from off_tier, List.isEmpty_nil, if_neg (by decide)]
      rcases one (fun x => x.2.1 < 4 && e.testBit x.2.1) with in_tm | off_tm
      · rw [show tm = [x] from in_tm]
        rfl
      · rw [show tm = [] from off_tm]
        rfl
  rw [all]
  exact pick_one s b small

theorem arbitrate_alone (alone : mgetD [] s.brd.wait b = [w]) (goes : mayGo s b w = true) (plain : tasked s b w = false) (small : reqIndex w < 512) :
    arbitrate s b q = some (w, rankOf s b (reqIndex w)) := by
  unfold arbitrate
  extract_lets l
  have one : l = [w] := by simp [l, alone, plain, headsOf, goes]
  rw [one, List.map_cons, List.map_nil, arbitrateAmong_one s b q small]
  simp

theorem arbitrate_tasked (alone : mgetD [] s.brd.wait b = [w]) (tied : tasked s b w = true) : arbitrate s b q = none := by
  unfold arbitrate
  extract_lets l
  have none_here : l = [] := by simp [l, alone, tied, headsOf]
  rw [none_here]
  rfl

theorem taskWork_other (alone : mgetD [] s.brd.wait b = [w]) {e : Nat} (other : e / 16 % 8 ≠ w.task ∨ burstLeft s b w.task = false) : taskWork s b e = none := by
  unfold taskWork
  extract_lets t
  by_cases out : (decide (t = 0) || !burstLeft s b t) = true
  · exact if_pos out
  · rw [if_neg out, alone]
    have differs : w.task ≠ t := by
      rintro same
      rcases other with type | spent
      · exact type same.symm
      · exact out (by simp [← same, spent])
    simp [differs]

theorem taskWork_own (alone : mgetD [] s.brd.wait b = [w]) (goes : mayGo s b w = true) {e : Nat} (own : e / 16 % 8 = w.task) (left : burstLeft s b w.task = true)
    (task : w.task ≠ 0) : taskWork s b e = some w := by
  unfold taskWork
  extract_lets t
  have same : t = w.task := own
  rw [if_neg (by simp [same, left, task]), alone]
  simp [same, goes]

/-! ### A square's grant -/

theorem grant_alone (idle : mget s.brd.run b = none) (alone : mgetD [] s.brd.wait b = [w]) (goes : mayGo s b w = true) (trained : square s b q / 16 % 8 ≠ 2)
    (small : reqIndex w < 512) (plain : w.task = 0) : mget (grant b q s).brd.run b = some w ∧ mgetD [] (grant b q s).brd.wait b = [] := by
  have work : taskWork s b (square s b q) = none := by
    by_cases type : square s b q / 16 % 8 = 0
    · unfold taskWork
      extract_lets t
      exact if_pos (by simp [show t = 0 from type])
    · exact taskWork_other alone (.inl (by rw [plain]; exact type))
  unfold grant
  rw [complete_idle idle]
  extract_lets z e
  rw [if_neg trained, show taskWork z b e = none from work, show arbitrate z b q = _ from arbitrate_alone alone goes (by simp [tasked, plain]) small]
  obtain ⟨run, wait, -⟩ := occupy_alone (s := granted b (reqIndex w, rankOf s b (reqIndex w)) s) (b := b) (w := w) alone
  exact ⟨run, wait⟩

theorem grant_task (idle : mget s.brd.run b = none) (alone : mgetD [] s.brd.wait b = [w]) (goes : mayGo s b w = true) (task : w.task ≠ 0) (other : w.task ≠ 2)
    (own : square s b q / 16 % 8 = w.task) (left : burstLeft s b w.task = true) : mget (grant b q s).brd.run b = some w ∧
      mgetD [] (grant b q s).brd.wait b = [] ∧ mgetD 0 (grant b q s).brd.burst b = mgetD 0 s.brd.burst b + 1 := by
  unfold grant
  rw [complete_idle idle]
  extract_lets z e
  rw [if_neg (by rw [show e / 16 % 8 = w.task from own]; exact other), show taskWork z b e = some w from taskWork_own alone goes own left task]
  obtain ⟨run, wait, burst⟩ := occupy_alone (s := { s with brd := { s.brd with burst := mput 0 s.brd.burst b (mgetD 0 s.brd.burst b + 1) } }) (b := b) (w := w) alone
  exact ⟨run, wait, (congrArg (mgetD 0 · b) burst).trans (mgetD_mput_self 0 s.brd.burst b (mgetD 0 s.brd.burst b + 1))⟩

theorem grant_tied (idle : mget s.brd.run b = none) (alone : mgetD [] s.brd.wait b = [w]) (task : w.task ≠ 0) (squares : hasSquare s b w.task = true)
    (other : square s b q / 16 % 8 ≠ w.task ∨ burstLeft s b w.task = false) : grant b q s = s := by
  unfold grant
  rw [complete_idle idle]
  extract_lets z e
  rw [show taskWork z b e = none from taskWork_other alone other, show arbitrate z b q = none from arbitrate_tasked (s := s) alone (by simp [tasked, task, squares])]
  exact ite_self _

/-! ### The start of a round -/

/-- The entries put off and the requesters that a Board has held once (R253). -/
def putOff (s : State) : List Deferred × List Nat := (s.brd.deferred, s.brd.heldOnce)

theorem setAdm_olds (b : Nat) (v : Word) (s : State) : (setAdm b v s).brd.olds = s.brd.olds ∧ putOff (setAdm b v s) = putOff s := by
  unfold setAdm
  extract_lets es kept
  split
  · exact ⟨rfl, rfl⟩
  · rw [putOff, wr_brd]
    exact ⟨rfl, rfl⟩

theorem recompute_olds (b : Nat) (s : State) : (recompute b s).brd.olds = s.brd.olds ∧ putOff (recompute b s) = putOff s := by
  unfold recompute
  extract_lets entry
  split
  · exact ⟨rfl, rfl⟩
  · exact setAdm_olds ..

theorem putOff_applySquare (b q v : Nat) (s : State) : putOff (applySquare b q v s) = putOff s := by
  unfold applySquare
  extract_lets old passed key olds
  split
  · rfl
  · rw [(recompute_olds ..).2, putOff, wrFld_brd]
    rfl

theorem guardGo_olds (s : State) : (guardGo s).brd.olds = s.brd.olds ∧ putOff (guardGo s) = putOff s := by
  unfold guardGo
  extract_lets g old x y
  have same : (tallyAuto 35 aPmStat 266 old (rd y aPmStat) oNone y).brd = s.brd := by
    rw [tallyAuto_brd, show y.brd = _ from fireSeq_brd .., show x.brd = _ from wrFld_brd ..]
  split
  · exact ⟨rfl, rfl⟩
  · rw [foldl_frame (fun s => s.brd.olds) (fun s b => (recompute_olds b s).1), foldl_frame putOff (fun s b => (recompute_olds b s).2), putOff, putOff, same]
    exact ⟨rfl, rfl⟩

theorem putOff_applyDeferred (s : State) (d : Deferred) : putOff (applyDeferred s d) = putOff s := putOff_applySquare ..

/-- A round's end leaves no old entry once a Board is computed anew, or where there was none. -/
theorem olds_recomputed (l : List Nat) (s : State) (none_left : l ≠ [] ∨ s.brd.olds = []) :
    (l.foldl (fun s b => recompute b { s with brd := { s.brd with olds := [] } }) s).brd.olds = [] := by
  induction l generalizing s with
  | nil => exact none_left.resolve_left (fun h => h rfl)
  | cons b l ih => exact ih _ (.inr (recompute_olds ..).1)

theorem roundStart_spec (s : State) : (opRoundStart s).brd.olds = [] ∧ (opRoundStart s).brd.heldOnce = [] ∧
    ∀ d, d ∈ (opRoundStart s).brd.deferred → ∃ e, e ∈ s.brd.deferred ∧ 1 < e.left ∧ d.left = e.left - 1 := by
  unfold opRoundStart
  extract_lets bs now due _ z
  have kept : putOff (guardGo (due.foldl applyDeferred z)) = putOff z :=
    ((guardGo_olds _).2).trans (foldl_frame putOff putOff_applyDeferred due z)
  have put : putOff ((bs ++ due.map fun d => d.board).foldl (fun s b => recompute b { s with brd := { s.brd with olds := [] } }) (guardGo (due.foldl applyDeferred z))) = putOff z :=
    (foldl_frame putOff (fun s b => (recompute_olds b { s with brd := { s.brd with olds := [] } }).2) _ _).trans kept
  refine ⟨olds_recomputed _ _ ?_, congrArg Prod.snd put, fun d here => ?_⟩
  · cases due_ : due with
    | nil =>
      right
      exact (guardGo_olds _).1
    | cons d l => simp
  · obtain ⟨e, among, rfl⟩ := List.mem_map.1 ((congrArg (d ∈ ·) (congrArg Prod.fst put)).mp here)
    obtain ⟨there, late⟩ := List.mem_filter.1 among
    exact ⟨e, there, by simpa using late, rfl⟩

/-! ### The watchdog -/

theorem watchdogBite_spec {b : Fin 92} (busy : mget s.brd.run b = some w) : mget (opWatchdogBite b s).brd.run b = none ∧
    mget (opWatchdogBite b s).brd.biting b = some w ∧ rdBit (opWatchdogBite b s) aLdWdstat 7 = true ∧ rdFld (opWatchdogBite b s) aLdWdstat 0 7 = b.val := by
  unfold opWatchdogBite
  extract_lets n
  rw [busy]
  simp -zeta only
  extract_lets z x y
  have word : rd (wr aLdWdstat x z) aLdWdstat = x := rd_wr_self ..
  have board : fld x 0 7 = b.val := by
    rw [show x = setFld (setFld (setFld _ 0 7 n) 8 6 w.input) 16 3 w.tc from rfl, fld_setFld_ne _ _ _ _ _ _ (by decide) (.inl (by decide)),
      fld_setFld_ne _ _ _ _ _ _ (by decide) (.inl (by decide)), fld_setFld_self _ _ _ _ (by decide)]
    exact Nat.mod_eq_of_lt (by omega)
  rw [fireSeq_brd, show y.brd = _ from rsq_brd .., wr_brd, rd_congr_bits (rd_fireSeq ..), rd_congr_fld (rd_fireSeq ..),
    show rdBit y aLdWdstat 7 = _ from rdBit_rsq_self _ (by decide) (by decide),
    show rdFld y aLdWdstat 0 7 = _ from rdFld_rsq_off _ (by decide) (by decide) (.inl (by decide)), rdFld, word, board]
  exact ⟨mget_mdel_self .., mget_mset_self .., rfl, rfl⟩

theorem lostWrite_brd (id : Nat) (s : State) : (lostWrite id s).brd = s.brd := rfl

theorem poisonedWrite_brd (g : Nat) (s : State) : (poisonedWrite g s).brd = s.brd := foldl_frame State.brd (fun s (o : CelOp) => lostWrite_brd o.id s) _ _

theorem watchdogResetEnd_spec {b : Fin 92} (biting : mget s.brd.biting b = some w) (first : w.bites = 0) :
    mget (opWatchdogResetEnd b s).brd.biting b = none ∧
      mget (opWatchdogResetEnd b s).brd.wait b = some ({ w with item := poisonItem w.item, bites := 1 } :: mgetD [] s.brd.wait b) := by
  unfold opWatchdogResetEnd
  extract_lets n _ z
  rw [biting]
  simp -zeta only
  extract_lets y x
  have brd : y.brd = z.brd := by
    simp only [y]
    split
    · exact poisonedWrite_brd ..
    · rfl
  rw [if_neg (by omega)]
  refine ⟨?_, ?_⟩
  · show mget y.brd.biting b = none
    rw [brd]
    exact mget_mdel_self ..
  · show mget (mset y.brd.wait n _) b = _
    rw [mget_mset_self, brd]

theorem squareStart_spec {b : Fin 92} (on : boardOff s b = false) (calm : mget s.brd.biting b = none) : opSquareStart b s =
    if h : b.val < 32 then inputGrants ⟨b.val, h⟩ (boardK s b) s else grants (boardK s b) b (fld s.time.ft 3 9) { s with brd := { s.brd with burst := mdel s.brd.burst b } } := by
  unfold opSquareStart
  extract_lets n
  exact if_neg (by simp [n, on, calm])

end Sys2Proof.Machine

namespace Sys2Proof

open Machine

/-- Settles O8: what a square grants, what a round's start leaves, and what the watchdog does with the transfer in progress. -/
theorem boardEvents : Obligations.BoardEvents := by
  intro s b run
  refine ⟨fun q w idle alone goes trained small plain => grant_alone idle alone goes trained small plain,
    fun q w idle alone goes task other => ⟨fun own left => grant_task idle alone goes task other own left, fun squares miss => grant_tied idle alone task squares miss⟩,
    fun q retrains => if_pos retrains, ⟨_, live_running run _, roundStart_spec s⟩,
    fun on calm => ⟨_, live_follow run (opSquareStart b), squareStart_spec on calm⟩,
    fun w busy => ⟨_, live_running run _, watchdogBite_spec busy⟩, fun w biting first => ⟨_, live_running run _, watchdogResetEnd_spec biting first⟩⟩

end Sys2Proof
end

section
/-! PROOFS. Timers, edges and beacons of fabric time (R221 to R227). -/

namespace Sys2Proof.Machine

variable {s t : State}

/-! ### What the Boards' work leaves -/

/-- Time, what waits and runs at the Boards, the homes, and TB_STAT. -/
def paced (s : State) : Time × SMap (List Waiter) × SMap Waiter × Home × Word := (s.time, s.brd.wait, s.brd.run, s.home, rd s aTbStat)

theorem paced_of (time : t.time = s.time) (brd : t.brd = s.brd) (home : t.home = s.home) (stat : rd t aTbStat = rd s aTbStat) : paced t = paced s := by
  rw [paced, time, brd, home, stat, paced]

theorem paced_iff : paced t = paced s ↔
    t.time = s.time ∧ t.brd.wait = s.brd.wait ∧ t.brd.run = s.brd.run ∧ t.home = s.home ∧ rd t aTbStat = rd s aTbStat := by
  simp only [paced, Prod.mk.injEq]

theorem paced_cnt (c : Cnt) (s : State) : paced { s with cnt := c } = paced s := rfl

theorem paced_wr {a : Nat} (off : aTbStat / 8 ≠ a / 8) (v : Word) (s : State) : paced (wr a v s) = paced s := paced_of rfl rfl rfl (rd_wr_ne _ _ off)

theorem paced_wrFld {a : Nat} (off : aTbStat / 8 ≠ a / 8) (lo n v : Nat) (s : State) : paced (wrFld a lo n v s) = paced s := paced_wr off _ s

theorem paced_fireSeq (n c : Nat) (o1 o2 : Obj) (q : Nat) (s : State) : paced (fireSeq n c o1 o2 q s) = paced s :=
  paced_of (fireSeq_time ..) (fireSeq_brd ..) (fireSeq_home ..) (rd_congr (fireSeq_part ..) (fireSeq_regs ..) _)

theorem paced_fire (n c : Nat) (o : Obj) (s : State) : paced (fire n c o s) = paced s := paced_fireSeq ..

theorem paced_tally (orig kind res : Nat) (target old new aux : Word) (s : State) : paced (tally orig kind res target old new aux s) = paced s :=
  paced_of (tally_time ..) (tally_brd ..) (tally_home ..) (rd_congr (tally_part ..) (tally_regs ..) _)

theorem paced_setAdm (b : Nat) (v : Word) (s : State) : paced (setAdm b v s) = paced s := by
  unfold setAdm
  extract_lets es kept
  refine apply_ite_same paced rfl (paced_wr ?_ ..)
  unfold aTbStat aSbAdm
  omega

theorem paced_recompute (b : Nat) (s : State) : paced (recompute b s) = paced s := apply_ite_same paced rfl (paced_setAdm ..)

theorem paced_applySquare (b q v : Nat) (s : State) : paced (applySquare b q v s) = paced s := by
  unfold applySquare
  extract_lets old passed key olds
  refine apply_ite_same paced rfl ((paced_recompute ..).trans ((paced_wrFld ?_ ..).trans rfl))
  unfold aTbStat aSbSq
  omega

theorem paced_applyDeferred (s : State) (d : Deferred) : paced (applyDeferred s d) = paced s := paced_applySquare ..

theorem paced_addTier (b q : Nat) (s : State) : paced (addTier b q s) = paced s := apply_ite_same paced rfl rfl

theorem paced_guardGo (s : State) : paced (guardGo s) = paced s := by
  unfold guardGo
  extract_lets g old x y
  have told : paced (tallyAuto 35 aPmStat 266 old (rd y aPmStat) oNone y) = paced s :=
    (paced_tally ..).trans ((paced_fireSeq ..).trans (paced_wrFld (by decide) ..))
  exact apply_ite_same paced rfl ((foldl_frame paced (fun s b => paced_recompute b s) _ _).trans told)

theorem paced_roundStart (s : State) : paced (opRoundStart s) = paced s := by
  unfold opRoundStart
  extract_lets bs now due _ z
  exact (foldl_frame paced (fun s b => paced_recompute b { s with brd := { s.brd with olds := [] } }) _ _).trans
    ((paced_guardGo _).trans (foldl_frame paced paced_applyDeferred due z))

theorem paced_jumpRounds (n a : Nat) (s : State) : paced (jumpRounds n a s) = paced s := by
  induction n generalizing a s with
  | zero => rfl
  | succ n ih => exact (ih ..).trans ((paced_roundStart _).trans (apply_ite_same paced (paced_fire ..) rfl))

theorem paced_writeSquare (b q v : Nat) (s : State) : paced (writeSquare b q v s) = paced s := by
  unfold writeSquare
  extract_lets v old _ z x
  have tier : paced x = paced s := (paced_addTier ..).trans rfl
  exact apply_ite_same paced rfl ((paced_fire ..).trans (apply_ite_same paced tier ((paced_applySquare ..).trans tier)))

theorem paced_boardWrite (orig : Nat) (l : List (Nat × Nat × Word)) (s : State) : paced (boardWrite orig l s) = paced s :=
  foldl_frame paced (fun s x => by
    extract_lets a no old z
    exact apply_ite_same paced (paced_tally ..) ((paced_tally ..).trans (paced_writeSquare ..))) l s

theorem paced_snapshot (src : Nat) (s : State) : paced (snapshot src s) = paced s := by
  unfold snapshot
  dsimp only
  rw [paced_wr (by decide), paced_wr (by decide)]
  exact paced_cnt _ _

theorem paced_runAct (a : SchedAct) (s : State) : paced (runAct a s) = paced s := by
  cases a with
  | snapshot => exact (paced_wrFld (by decide) ..).trans (paced_snapshot ..)
  | board l orig => exact paced_boardWrite ..

theorem paced_runDue (n : Nat) (s : State) (e : Word × SchedAct) :
    paced (runAct e.2 (if e.1.toNat < n then ranLate e.1.toNat s else s)) = paced s :=
  (paced_runAct ..).trans (apply_ite_same paced (paced_fire ..) rfl)

/-- What is due runs, and what is not stays scheduled (R227). -/
theorem runSched_time (n : Nat) (s : State) :
    (runSched n s).time = { s.time with sched := s.time.sched.filter fun e => decide (s.time.ft.toNat < e.1.toNat) } := by
  unfold runSched
  extract_lets due _ z
  exact congrArg Prod.fst (foldl_frame paced (paced_runDue n) due z)

theorem paced_runSched_none (none : s.time.sched = []) (n : Nat) : paced (runSched n s) = paced s := by
  have clear : s.time.sched.filter (fun e => decide (s.time.ft.toNat < e.1.toNat)) = s.time.sched := by rw [none, List.filter_nil]
  unfold runSched
  extract_lets due _ z
  exact (foldl_frame paced (paced_runDue n) due z).trans (paced_of (congrArg (fun l => { s.time with sched := l }) clear) rfl rfl rfl)

/-! ### A step of time with the Boards empty -/

/-- No Board has anything waiting, in progress or at its input. -/
theorem busyBoards_none (wait : s.brd.wait = []) (run : s.brd.run = []) (input : s.home.input = []) : busyBoards s = [] := by
  simp [busyBoards, wait, run, input, mgetD, mget]

theorem paced_lateSquares (a n : Nat) (wait : s.brd.wait = []) (run : s.brd.run = []) (input : s.home.input = []) : paced (lateSquares a n s) = paced s := by
  unfold lateSquares
  extract_lets k m z
  have same : paced z = paced s := paced_fire ..
  have idle : busyBoards z = [] := by
    obtain ⟨-, wait', run', home', -⟩ := paced_iff.1 same
    exact busyBoards_none (wait'.trans wait) (run'.trans run) (by rw [home', input])
  exact apply_ite_same paced rfl (by rw [idle]; exact same)

/-- TB_STAT in its lower bits: the time state, and whether an origin is armed. -/
theorem stepTo_spec (w : Word) (sched : s.time.sched = []) (wait : s.brd.wait = []) (run : s.brd.run = []) (input : s.home.input = []) :
    (stepTo w s).time.ft = w ∧ rdFld (stepTo w s) aTbStat 0 2 = rdFld s aTbStat 0 2 ∧ rdBit (stepTo w s) aTbStat 2 = rdBit s aTbStat 2 := by
  unfold stepTo
  extract_lets a _ x z
  have noted : paced z = paced x := paced_fireSeq ..
  have jumped := (paced_jumpRounds (min 257 ((w.toNat - 1) / 4096 - a / 4096)) a z).trans noted
  generalize jumpRounds (min 257 ((w.toNat - 1) / 4096 - a / 4096)) a z = u at jumped
  obtain ⟨time, -⟩ := paced_iff.1 jumped
  have ran := (paced_runSched_none (by rw [time]; exact sched) w.toNat).trans jumped
  generalize runSched w.toNat u = v at ran
  obtain ⟨-, wait', run', home', -⟩ := paced_iff.1 ran
  have late := (paced_lateSquares a w.toNat (wait'.trans wait) (run'.trans run) ((congrArg Home.input home').trans input)).trans ran
  obtain ⟨time', -, -, -, stat⟩ := paced_iff.1 late
  refine ⟨congrArg Time.ft time', ?_, ?_⟩
  · rw [rdFld, stat]
    exact rdFld_rsq_off _ (by decide) (by decide) (by decide)
  · rw [rdBit, stat]
    exact (rdBit_rsq_self _ (by decide) (by decide)).trans (Bool.false_or _)

/-! ### The time state -/

/-- The new time state noted. -/
def stateNoted (n : Nat) (s : State) : State := wrFld aTbStat 0 2 n { s with time := { s.time with good := 0 } }

theorem rd_rsq_stateNoted (n i : Nat) {a : Nat} (off : a / 8 ≠ aTbStat / 8) (s : State) : rd (rsq aTbStat i (stateNoted n s)) a = rd s a :=
  (rd_rsq_ne _ _ off).trans ((rd_wrFld_ne _ _ _ _ off).trans (rd_congr rfl rfl _))

/-- What a change of the time state comes to: nothing, or the state noted with or without TB_STAT.16 (R224). -/
theorem setTimeState_cases (n : Nat) (s : State) : (setTimeState n s = s ∧ timeState s = n) ∨
    (∃ c e, setTimeState n s = fireSeq c e oNone oNone (seqOf (stateNoted n s) aTbStat) (stateNoted n s) ∧ timeState s ≠ n ∧ n = 2) ∨
    (∃ c e, setTimeState n s = fireSeq c e oNone oNone (seqOf (rsq aTbStat 16 (stateNoted n s)) aTbStat) (rsq aTbStat 16 (stateNoted n s)) ∧
      timeState s ≠ n ∧ timeState s = 2) ∨
    (setTimeState n s = stateNoted n s ∧ timeState s ≠ 2) := by
  unfold setTimeState
  extract_lets old _ x y
  by_cases same : old = n
  · exact .inl ⟨if_pos same, same⟩
  rw [if_neg same]
  by_cases two : n = 2
  · exact .inr (.inl ⟨272, 0, if_pos two, same, two⟩)
  rw [if_neg two]
  by_cases lost : old = 2
  · exact .inr (.inr (.inl ⟨273, if n = 3 then 0 else 1, if_pos lost, same, lost⟩))
  · exact .inr (.inr (.inr ⟨if_neg lost, lost⟩))

/-- What a change of the time state leaves: time but for the count of good beacons, the Boards and homes, and other registers (R224). -/
theorem setTimeState_kept (n : Nat) (s : State) : (setTimeState n s).time = { s.time with good := (setTimeState n s).time.good } ∧
    (setTimeState n s).brd = s.brd ∧ (setTimeState n s).home = s.home ∧ ∀ a, a / 8 ≠ aTbStat / 8 → rd (setTimeState n s) a = rd s a := by
  rcases setTimeState_cases n s with ⟨eq, -⟩ | ⟨c, e, eq, -⟩ | ⟨c, e, eq, -⟩ | ⟨eq, -⟩ <;> rw [eq]
  · exact ⟨rfl, rfl, rfl, fun _ _ => rfl⟩
  · rw [fireSeq_time, fireSeq_brd, fireSeq_home]
    exact ⟨rfl, rfl, rfl, fun a off => (rd_fireSeq ..).trans ((rd_wrFld_ne _ _ _ _ off).trans (rd_congr rfl rfl _))⟩
  · rw [fireSeq_time, fireSeq_brd, fireSeq_home]
    exact ⟨rfl, rfl, rfl, fun a off => (rd_fireSeq ..).trans (rd_rsq_stateNoted _ _ off _)⟩
  · exact ⟨rfl, rfl, rfl, fun a off => (rd_wrFld_ne _ _ _ _ off).trans (rd_congr rfl rfl _)⟩

theorem timeState_stateNoted {n : Nat} (small : n < 4) (s : State) : timeState (stateNoted n s) = n := by
  rw [timeState, rdFld, stateNoted, rd_wrFld_self, fld_setFld_self _ _ _ _ (by decide)]
  exact Nat.mod_eq_of_lt small

theorem timeState_setTimeState {n : Nat} (small : n < 4) (s : State) : timeState (setTimeState n s) = n := by
  rcases setTimeState_cases n s with ⟨eq, same⟩ | ⟨c, e, eq, -⟩ | ⟨c, e, eq, -⟩ | ⟨eq, -⟩ <;> rw [eq]
  · exact same
  · exact (congrArg (fld · 0 2) (rd_fireSeq ..)).trans (timeState_stateNoted small s)
  · exact (congrArg (fld · 0 2) (rd_fireSeq ..)).trans ((rdFld_rsq_off _ (by decide) (by decide) (by decide)).trans (timeState_stateNoted small s))
  · exact timeState_stateNoted small s

/-- Whether an origin is armed stands through a change of the time state. -/
theorem armed_setTimeState (n : Nat) (s : State) : rdBit (setTimeState n s) aTbStat 2 = rdBit s aTbStat 2 := by
  have noted : rdBit (stateNoted n s) aTbStat 2 = rdBit s aTbStat 2 :=
    (rdBit_wrFld_off _ _ _ _ _ (by decide) (by decide)).trans (rdBit_congr rfl rfl ..)
  rcases setTimeState_cases n s with ⟨eq, -⟩ | ⟨c, e, eq, -⟩ | ⟨c, e, eq, -⟩ | ⟨eq, -⟩ <;> rw [eq]
  · exact (congrArg (bit · 2) (rd_fireSeq ..)).trans noted
  · exact (congrArg (bit · 2) (rd_fireSeq ..)).trans ((rdBit_rsq_self _ (by decide) (by decide)).trans ((Bool.false_or _).trans noted))
  · exact noted

theorem setTimeState_ft (n : Nat) (s : State) : (setTimeState n s).time.ft = s.time.ft :=
  (congrArg Time.ft (setTimeState_kept n s).1).trans rfl

theorem beaconLossTimeout_spec (locked : timeState s = 2) : timeState (opBeaconLossTimeout s) = 3 ∧ rdBit (opBeaconLossTimeout s) aTbStat 16 = true ∧
    (opBeaconLossTimeout s).time.ft = s.time.ft := by
  rw [opBeaconLossTimeout, if_pos locked]
  refine ⟨timeState_setTimeState (by decide) s, ?_, setTimeState_ft 3 s⟩
  rcases setTimeState_cases 3 s with ⟨-, same⟩ | ⟨c, e, -, -, two⟩ | ⟨c, e, eq, -⟩ | ⟨-, other⟩
  · exact absurd (locked.symm.trans same) (by decide)
  · exact absurd two (by decide)
  · rw [eq]
    exact (congrArg (bit · 16) (rd_fireSeq ..)).trans ((rdBit_rsq_self _ (by decide) (by decide)).trans rfl)
  · exact absurd locked other

/-! ### Edges and origins -/

/-- An origin armed is set: fabric time is the origin, and the time state is 0 (R222). -/
theorem applyOrigin_spec (sched : s.time.sched = []) (wait : s.brd.wait = []) (run : s.brd.run = []) (input : s.home.input = []) :
    (applyOrigin s).time.ft = rd s aTbOrigin ∧ rdBit (applyOrigin s) aTbStat 2 = false ∧ timeState (applyOrigin s) = 0 := by
  unfold applyOrigin
  extract_lets x y
  obtain ⟨time, brd, home, other⟩ := setTimeState_kept 0 (wrFld aTbStat 2 1 0 s)
  obtain ⟨ft, state, armed⟩ := stepTo_spec (s := x) (rd x aTbOrigin) ((congrArg Time.sched time).trans sched) ((congrArg Brd.wait brd).trans wait)
    ((congrArg Brd.run brd).trans run) ((congrArg Home.input home).trans input)
  refine ⟨?_, ?_, ?_⟩
  · rw [fireSeq_time]
    exact ft.trans ((other _ (by decide)).trans (rd_wrFld_ne _ _ _ _ (by decide)))
  · exact (congrArg (bit · 2) (rd_fireSeq ..)).trans ((rdBit_congr rfl rfl ..).trans (armed.trans ((armed_setTimeState ..).trans (rdBit_wrFld_self _ _ _ (by decide)))))
  · exact (congrArg (fld · 0 2) (rd_fireSeq ..)).trans ((rdFld_congr rfl rfl ..).trans (state.trans (timeState_setTimeState (by decide) _)))

theorem withdrawOrigin_spec (s : State) : rdBit (withdrawOrigin s) aTbStat 2 = false ∧ (withdrawOrigin s).time = s.time := by
  unfold withdrawOrigin
  split
  · exact ⟨(congrArg (bit · 2) (rd_fireSeq ..)).trans (rdBit_wrFld_self _ _ _ (by decide)), fireSeq_time ..⟩
  · rename_i h
    exact ⟨by simpa using h, rfl⟩

/-- The time of an edge that is not too early noted. -/
def edgeNoted (s : State) : State := { s with time := { s.time with lastPps := some s.time.ft } }

/-- An edge at the grandmaster at least 0.9 s after the last (R222). -/
theorem timePpsEdge_due (master : grandmaster s = true)
    (due : ∀ l, s.time.lastPps = some l → s.time.ft.toNat < l.toNat ∨ l.toNat + 900000000 ≤ s.time.ft.toNat) :
    opTimePpsEdge s = if rdBit s aTbStat 2 then applyOrigin (edgeNoted s) else if rdBit s aTbCtl 1 then
      onOffset (secondOffset s.time.ft.toNat) none (edgeNoted s) else edgeNoted s := by
  unfold opTimePpsEdge
  extract_lets now early _ x
  have late : early = false := by
    cases last : s.time.lastPps with
    | none => simp [early, last]
    | some l =>
      have bound := due l last
      simp only [early, last, now, Bool.and_eq_false_iff, decide_eq_false_iff_not]
      omega
  rw [if_neg (by simp [master]), if_neg (by simp [late])]
  rfl

/-- An edge too early is only told (R222). -/
theorem timePpsEdge_early {l : Word} (master : grandmaster s = true) (last : s.time.lastPps = some l) (past : l.toNat ≤ s.time.ft.toNat)
    (soon : s.time.ft.toNat < l.toNat + 900000000) : opTimePpsEdge s = fire 279 1 oNone s := by
  unfold opTimePpsEdge
  extract_lets now early _ x
  have early_ : early = true := by simp [early, last, now, past, soon]
  rw [if_neg (by simp [master]), if_pos early_]

/-! ### Beacons sent -/

/-- One beacon of this hub at a port (R223). -/
def sendBeacon (s : State) (p : Nat) : State :=
  let b := myBeacon s p
  wireUnit p (emit (.beacon p (lastGood (link s p)) b) { s with time := { s.time with lastTx := mset s.time.lastTx p b.txt } })

/-- What sending beacons leaves of the links and of time, with messages only added. -/
def Sending (s t : State) : Prop := (∀ p, (link t p).expect = (link s p).expect) ∧ t.time.ft = s.time.ft ∧ s.out <+: t.out

theorem Sending.refl (s : State) : Sending s s := ⟨fun _ => rfl, rfl, List.prefix_refl _⟩

theorem Sending.trans {u : State} (h : Sending s t) (k : Sending t u) : Sending s u :=
  ⟨fun p => (k.1 p).trans (h.1 p), k.2.1.trans h.2.1, h.2.2.trans k.2.2⟩

theorem out_foldl_emit {β : Type} (x : State → β → Sent) (l : List β) (s : State) : s.out <+: (l.foldl (fun s b => emit (x s b) s) s).out := by
  induction l generalizing s with
  | nil => exact List.prefix_refl _
  | cons b l ih => exact (List.prefix_append ..).trans (ih (emit (x s b) s))

theorem mget_map_snd {α β : Type} (f : α → β) (m : SMap α) (k : Nat) : mget (m.map fun e => (e.1, f e.2)) k = (mget m k).map f := by
  induction m with
  | nil => rfl
  | cons e m ih =>
    simp only [List.map_cons, mget]
    split
    · rfl
    · exact ih

/-- A link without its key. -/
def unkeyed (k : Link) : Link := { k with key := none }

theorem link_eraseKeys (s : State) (p : Nat) : link (eraseKeys s) p = unkeyed (link s p) := by
  have erased : (eraseKeys s).links = s.links.map fun e => (e.1, unkeyed e.2) := rfl
  rw [link, mgetD, erased, mget_map_snd, link, mgetD]
  cases mget s.links p <;> rfl

theorem sending_same (links : t.links = s.links) (time : t.time = s.time) (out : s.out <+: t.out) : Sending s t :=
  ⟨fun p => by rw [link, links, link], congrArg Time.ft time, out⟩

theorem sending_sealHalt (cause port la : Nat) (s : State) : Sending s (sealHalt cause port la s) := by
  unfold sealHalt
  split
  · exact .refl s
  · extract_lets o x y z w
    have out : x.out = s.out := (wr_out ..).trans ((wr_out ..).trans (wrFld_out ..))
    have noted : Sending s x := sending_same ((wr_links ..).trans ((wr_links ..).trans (wrFld_links ..)))
      ((wr_time ..).trans ((wr_time ..).trans (wrFld_time ..))) ⟨[], by rw [List.append_nil, out]⟩
    have told : Sending s y := noted.trans (sending_same ((tallyAuto_links ..).trans (fire_links ..)) ((tallyAuto_time ..).trans (fire_time ..))
      ((out_fire (s := x) ..).trans (out_tallyAuto ..)))
    obtain ⟨flit, sent⟩ := foldl_emit_eq_withOut (fun s p => .halt p (lastGood (link s p)) (hubId s) 1) ((List.range 12).filter (portActive y)) y
    have flits : Sending y z := sending_same ((congrArg State.links sent).trans rfl) ((congrArg State.time sent).trans rfl) (out_foldl_emit ..)
    have erased : Sending z w := ⟨fun p => (congrArg Link.expect (link_eraseKeys z p)).trans rfl, rfl, List.prefix_refl _⟩
    exact (told.trans flits).trans (erased.trans (sending_same rfl rfl (List.prefix_refl _)))

theorem sending_wireUnit (p : Nat) (s : State) : Sending s (wireUnit p s) := by
  unfold wireUnit
  extract_lets k
  split
  · exact sending_sealHalt ..
  · refine ⟨fun q => ?_, rfl, List.prefix_refl _⟩
    by_cases same : q = p
    · rw [same, link_setLink_self]
    · rw [link_setLink_ne _ _ same]

theorem sendBeacon_spec (s : State) (p : Nat) : Sending s (sendBeacon s p) ∧ ∃ b : Beacon, b.txt = BitVec.ofNat 64 (s.time.ft.toNat * 8) ∧
    Sent.beacon p (lastGood (link s p)) b ∈ (sendBeacon s p).out := by
  unfold sendBeacon
  extract_lets b _
  generalize told : emit (.beacon p (lastGood (link s p)) b) _ = x
  have first : Sending s x := by
    rw [← told]
    exact ⟨fun _ => rfl, rfl, List.prefix_append ..⟩
  have sent : Sent.beacon p (lastGood (link s p)) b ∈ x.out := by
    rw [← told]
    exact sent_emit ..
  exact ⟨first.trans (sending_wireUnit p x), b, rfl, (sending_wireUnit p x).2.2.subset sent⟩

theorem sendBeacons_out (l : List Nat) (s : State) : s.out <+: (l.foldl sendBeacon s).out := by
  induction l generalizing s with
  | nil => exact List.prefix_refl _
  | cons p l ih => exact (sendBeacon_spec s p).1.2.2.trans (ih _)

/-- Each port of a list sends its beacon, with fabric time and the last sequence number taken. -/
theorem sendBeacons_spec (l : List Nat) (s : State) : ∀ p ∈ l, ∃ b : Beacon, b.txt = BitVec.ofNat 64 (s.time.ft.toNat * 8) ∧
    Sent.beacon p (lastGood (link s p)) b ∈ (l.foldl sendBeacon s).out := by
  induction l generalizing s with
  | nil => exact fun _ among => absurd among (List.not_mem_nil)
  | cons q l ih =>
    obtain ⟨⟨expect, ft, -⟩, first⟩ := sendBeacon_spec s q
    refine List.forall_mem_cons.2 ⟨?_, fun p among => ?_⟩
    · obtain ⟨b, txt, sent⟩ := first
      exact ⟨b, txt, (sendBeacons_out l (sendBeacon s q)).subset sent⟩
    · have later := ih (sendBeacon s q) p among
      rw [ft, lastGood, expect] at later
      exact later

/-- The beacon timer counted by the root's election. -/
def calmCounted (s : State) : State := { s with fab := { s.fab with calm := s.fab.calm + 1 } }

theorem calmCounted_kept (s : State) : (calmCounted s).part = s.part ∧ (calmCounted s).regs = s.regs ∧ (calmCounted s).links = s.links ∧
    (calmCounted s).time = s.time := ⟨rfl, rfl, rfl, rfl⟩

theorem opBeaconTimer_on (beacons : rdBit s aTbCtl 2 = true) :
    opBeaconTimer s = ((List.range 12).filter (portActive (calmCounted s))).foldl sendBeacon (calmCounted s) := by
  obtain ⟨part, regs, -⟩ := calmCounted_kept s
  have on : rdBit (calmCounted s) aTbCtl 2 = true := (rdBit_congr part regs ..).trans beacons
  exact if_neg (c := (!rdBit (calmCounted s) aTbCtl 2) = true) (by rw [on]; decide)

theorem beaconTimer_spec (beacons : rdBit s aTbCtl 2 = true) : ∀ p, p < 12 → portActive s p = true →
    ∃ b : Beacon, b.txt = BitVec.ofNat 64 (s.time.ft.toNat * 8) ∧ Sent.beacon p (lastGood (link s p)) b ∈ (opBeaconTimer s).out := by
  intro p small active
  obtain ⟨part, regs, links, time⟩ := calmCounted_kept s
  have active' : portActive (calmCounted s) p = true := by rw [portActive, rdFld_congr part regs]; exact active
  have sent := sendBeacons_spec _ (calmCounted s) p (List.mem_filter.2 ⟨List.mem_range.2 small, active'⟩)
  rw [opBeaconTimer_on beacons]
  rw [time, link, links] at sent
  exact sent

/-! ### Beacons received at the grandmaster and root -/

/-- A peer's beacon noted: its distance to the grandmaster and its times. -/
def beaconNoted (p : Nat) (b : Beacon) (rxt : Word) (s : State) : State :=
  { s with time := { s.time with links := mset s.time.links p ⟨b.gm, if b.gm then 0 else b.hops.toNat, b.txt, rxt⟩ } }

/-- What measuring and noting a beacon's port leave: all but TB_STAT and TB_LINK (R223). -/
def Measured (s t : State) : Prop := t.links = s.links ∧ t.fab = s.fab ∧ t.time = s.time ∧
  ∀ a, a / 8 ≠ aTbStat / 8 → (∀ p, p < 12 → a / 8 ≠ aTbLink p / 8) → rd t a = rd s a

theorem measure_measured (p : IPort) (b : Beacon) (rxt : Word) (s : State) : Measured s (measure p b rxt s) := by
  unfold measure
  split
  · exact ⟨rfl, rfl, rfl, fun _ _ _ => rfl⟩
  · exact ⟨wrFld_links .., wrFld_fab .., wrFld_time .., fun a _ off => rd_wrFld_ne _ _ _ _ (off p p.isLt)⟩

theorem noteUpstream_measured (s : State) : Measured s (noteUpstream s) :=
  ⟨wrFld_links .., wrFld_fab .., wrFld_time .., fun _ off _ => rd_wrFld_ne _ _ _ _ off⟩

theorem beaconTime_master (master : grandmaster s = true) (p : IPort) (b : Beacon) (rxt : Word) :
    ∃ x y, Measured s x ∧ Measured (beaconNoted p b rxt x) y ∧ beaconTime p b rxt s = y := by
  have first := measure_measured p b rxt s
  have second := noteUpstream_measured (beaconNoted p b rxt (measure p b rxt s))
  refine ⟨_, _, first, second, ?_⟩
  have still_master : grandmaster (noteUpstream (beaconNoted p b rxt (measure p b rxt s))) = true := by
    rw [grandmaster, rdBit, second.2.2.2 _ (by decide) (by decide)]
    exact (congrArg (bit · 0) (first.2.2.2 _ (by decide) (by decide))).trans master
  exact if_pos still_master

theorem beaconRoot_root (root : isRoot s = true) (p : Nat) (b : Beacon) : ∃ best calm, beaconRoot p b s =
    { s with fab := { s.fab with roots := if b.rknown then mset s.fab.roots p (b.rid, b.rseq.toNat, b.rhop.toNat) else mdel s.fab.roots p,
                                 best := best, calm := calm } } := by
  unfold beaconRoot
  extract_lets f roots key better x fresh old y
  have still_root : isRoot x = true := (isRoot_congr (rd_congr rfl rfl _)).trans root
  exact ⟨_, _, if_pos (by simp [still_root])⟩

theorem opBeacon_spec {p : IPort} {f : FlitHead} (active : portActive s p = true) (fec : f.fecOk = true) (crc : f.crcOk = true) (tag : f.tagOk = true)
    (master : grandmaster s = true) (root : isRoot s = true) (b : Beacon) (rxt : Word) :
    (link (opBeacon ⟨p, f⟩ b rxt s) p).retry = ((link s p).retry.filter fun e => seqAfter e.1 f.ack.toNat) ∧
      mget (opBeacon ⟨p, f⟩ b rxt s).time.links p = some ⟨b.gm, if b.gm then 0 else b.hops.toNat, b.txt, rxt⟩ ∧
      mget (opBeacon ⟨p, f⟩ b rxt s).fab.roots p = (if b.rknown then some (b.rid, b.rseq.toNat, b.rhop.toNat) else none) ∧
      (opBeacon ⟨p, f⟩ b rxt s).time.ft = s.time.ft := by
  have taken : opBeacon ⟨p, f⟩ b rxt s = beaconRoot p b (beaconTime p b rxt (headIn p f s)) := by
    unfold opBeacon
    rw [if_neg (by simp [active]), checkFlit, fec, crc, tag]
    rfl
  obtain ⟨regs, part, -⟩ := headIn_kept p f s
  have time : (headIn p f s).time = s.time := count_time ..
  have master' : grandmaster (headIn p f s) = true := (rdBit_congr part regs ..).trans master
  obtain ⟨x, y, ⟨links1, fab1, time1, regs1⟩, ⟨links2, fab2, time2, regs2⟩, eq⟩ := beaconTime_master master' p b rxt
  have root' : isRoot y = true :=
    (isRoot_congr ((regs2 _ (by decide) (by decide)).trans ((rd_congr rfl rfl _).trans ((regs1 _ (by decide) (by decide)).trans (rd_congr part regs _))))).trans root
  obtain ⟨best, calm, eq'⟩ := beaconRoot_root root' p b
  rw [taken, eq, eq']
  refine ⟨?_, ?_, ?_, ?_⟩
  · have head : link y p = linkHeaded f (link s p) := by
      rw [link, links2, ← link_headIn p f s, link, ← links1]
      rfl
    exact congrArg Link.retry head
  · exact (congrArg (fun t => mget t.links p) time2).trans (mget_mset_self ..)
  · cases b.rknown
    · exact mget_mdel_self ..
    · exact mget_mset_self ..
  · exact (congrArg Time.ft time2).trans ((congrArg Time.ft time1).trans (congrArg Time.ft time))

end Sys2Proof.Machine

namespace Sys2Proof
open Machine

/-- Settles O7: a withdrawn origin and the time states leave fabric time; an edge at the grandmaster sets an armed origin, corrects or is told; each
beacon carries fabric time; and what is due is run without changing it. -/
theorem fabricTimeEvents : Obligations.FabricTimeEvents := by
  unfold Obligations.FabricTimeEvents
  intro s run
  refine ⟨⟨_, live_running run _, withdrawOrigin_spec s⟩, fun locked => ⟨_, live_running run _, beaconLossTimeout_spec locked⟩,
    ⟨_, live_running run _, timeState_setTimeState (by decide) s, setTimeState_ft 0 s⟩, fun master due => ?_, fun l master last past soon => ?_,
    fun beacons => ⟨_, live_running run _, beaconTimer_spec beacons⟩, ⟨_, live_running run _, rfl, ?_, ?_⟩, ?_⟩
  · have edge : exec .timePpsEdge s = .next (opTimePpsEdge s) := live_running run _
    rw [edge, timePpsEdge_due master due]
    refine ⟨fun armed => ?_, fun unarmed on => ?_, fun unarmed off => ?_⟩
    · rw [if_pos armed]
      refine ⟨rfl, fun sched wait busy input => ⟨_, rfl, ?_⟩⟩
      exact applyOrigin_spec (s := edgeNoted s) sched wait busy input
    · rw [if_neg (by simp [unarmed]), if_pos on]
      rfl
    · rw [if_neg (by simp [unarmed]), if_neg (by simp [off])]
      rfl
  · refine ⟨_, live_running run _, ?_⟩
    rw [timePpsEdge_early master last past soon]
    exact ⟨fire_time .., fire_regs ..⟩
  · exact (congrArg Time.ft (runSched_time 0 s)).trans rfl
  · exact (congrArg Time.sched (runSched_time 0 s)).trans rfl
  · exact fun p f b rxt active fec crc tag master root => ⟨_, live_running run _, opBeacon_spec active fec crc tag master root b rxt⟩

end Sys2Proof
end

section
/-! PROOFS. What a host port does besides accepting a request, and the rows of cells, trackers and detectors (R13, R20, R34, R113, R139, R152, R175). -/

namespace Sys2Proof.Machine

variable {s t : State} {p : HPort} {r : HostReq}

/-! ### Requests that a port holds or refuses -/

theorem hostBoard_congr (hst : t.hst = s.hst) (p : Nat) : hostBoard t p = hostBoard s p := by
  have setting : ∀ q, aggOf t q = aggOf s q := fun q => by rw [aggOf, portSetting, hst, aggOf, portSetting]
  simp only [hostBoard, leadOf, setting]

/-- A request that admission does not take is held with its class, and nothing else is done for it. -/
theorem admission_closed (closed : admitting s = false) (i : Instr) (input tc : Nat) (line : LineAddr) (n : Nat) (flit : Option Nat)
    (k : Nat → List Nat → State → State) : admission i input tc line n flit k s = hold i input tc s := by
  unfold admission
  extract_lets slice port now x e
  rw [if_pos (by simp [closed])]

theorem hold_spec (i : Instr) (input tc : Nat) (s : State) : (hold i input tc s).lar.held = s.lar.held ++ [(i, input, tc)] ∧
    (hold i input tc s).req = s.req ∧ (hold i input tc s).dir = s.dir := by
  unfold hold
  extract_lets z
  have kept : z.lar = s.lar ∧ z.req = s.req ∧ z.dir = s.dir := by
    simp only [z]
    split
    · exact ⟨count_lar .., count_req .., count_dir ..⟩
    · exact ⟨rfl, rfl, rfl⟩
  obtain ⟨lar, req, dir⟩ := kept
  exact ⟨congrArg (fun l => l.held ++ [(i, input, tc)]) lar, req, dir⟩

theorem hostRead_closed {w0 w1 : Word} (serves : portServes s r.port = true) (host : hostMode s r.port = true) (taken : hostRefusal s r.port r.hpa = none)
    (window : winOf s r.port r.hpa = some (w0, w1)) (closed : admitting s = false) (i : Instr) (kind : DKind) :
    hostRead i r kind s = hold i r.port (fld w0 2 3) s := by
  unfold hostRead
  rw [if_neg (by simp [serves, host]), taken, window]
  exact admission_closed closed ..

theorem hostRead_refused {c : Nat} (serves : portServes s r.port = true) (host : hostMode s r.port = true) (refused : hostRefusal s r.port r.hpa = some c)
    (i : Instr) : hostRead i r .spec s = refuseAt r.port c (oPort 0 r.port) s := by
  unfold hostRead
  rw [if_neg (by simp [serves, host]), refused]
  rfl

theorem refuseAt_kept (p cause : Nat) (o : Obj) (s : State) : (refuseAt p cause o s).req = s.req ∧ (refuseAt p cause o s).dir = s.dir ∧
    (refuseAt p cause o s).brd = s.brd ∧ (refuseAt p cause o s).hst = s.hst ∧ (refuseAt p cause o s).cel = s.cel :=
  ⟨(fire_req ..).trans (count_req ..), (fire_dir ..).trans (count_dir ..), (fire_brd ..).trans (count_brd ..), (fire_hst ..).trans (count_hst ..),
    (fire_cel ..).trans (count_cel ..)⟩

theorem refuseAt_counts (unhalted : s.halted = none) (p cause : Nat) (o : Obj) :
    cntLive (refuseAt p cause o s) (aHpCnt p 4) = (cntLive s (aHpCnt p 4) + 1) % 2 ^ 48 :=
  (congrArg (fun c : Cnt => mgetD 0 c.live (aHpCnt p 4 / 8)) (fire_cnt ..)).trans (cntLive_count_self unhalted ..)

/-! ### Write-backs of a snooped line -/

/-- The detector of a port changes the Set-Streams register and the hub cache's row of detectors, and nothing else. -/
theorem passDetector_kept (p : Nat) (full : Bool) (l : LineAddr) (s : State) : (passDetector p full l s).2.dir = s.dir ∧
    (passDetector p full l s).2.hst = s.hst ∧ (passDetector p full l s).2.cel = s.cel ∧ (passDetector p full l s).2.brd = s.brd := by
  unfold passDetector
  split
  · exact ⟨rfl, rfl, rfl, rfl⟩
  · exact ⟨wrFld_dir .., wrFld_hst .., wrFld_cel .., wrFld_brd ..⟩

theorem wait_enqueue (b : Nat) (w : Waiter) (s : State) : mgetD [] (enqueue b w s).brd.wait b = mgetD [] s.brd.wait b ++ [w] := by
  simp [enqueue, mgetD]

/-- What is put on a port's Board waits there behind what waits already. -/
theorem toHost_wait (hst : t.hst = s.hst) (brd : t.brd = s.brd) (p k tc epoch : Nat) (cells : List Nat) (l : LineAddr) (a : HostAns) :
    (mgetD [] (toHost p k tc epoch cells l a t).brd.wait (hostBoard s p)).length = (mgetD [] s.brd.wait (hostBoard s p)).length + 1 := by
  rw [← hostBoard_congr hst p, toHost, wait_enqueue, List.length_append, brd, hostBoard_congr hst]
  rfl

/-- The write of a snooped line as a host gives it: one with poison poisons the whole line. -/
def wholePoison (w : HostWr) : HostWr := if w.data.pz = 0 then w else { w with data := { w.data with pz := 0xFF } }

/-- A write-back through a window that only reads, refused (R34). -/
def writeBackRefused (x : HostStep) (p : Nat) (tag : BitVec 16) (w : HostWr) (s : State) : State :=
  toHost p (sliceOf x.line) x.tc x.epoch [] x.line (.cmp tag) (refuseAt p 2 (oLine (outLine s x.line)) (passDetector p w.full (outLine s x.line) s).2)

theorem hostWriteBack_refused {x : HostStep} (step : stepFor s r.port r.hpa = some x) (shut : readOnlyAt s r.port r.hpa = true) (i : Instr) (w : HostWr) :
    hostWriteBack i r w s = writeBackRefused x r.port r.tag (wholePoison w) s := by
  unfold hostWriteBack
  extract_lets q
  rw [show stepFor s q r.hpa = some x from step]
  exact if_pos shut

theorem writeBackRefused_spec (x : HostStep) (p : Nat) (tag : BitVec 16) (w : HostWr) (s : State) : (writeBackRefused x p tag w s).dir = s.dir ∧
    (writeBackRefused x p tag w s).hst = s.hst ∧ (writeBackRefused x p tag w s).cel = s.cel ∧
    (mgetD [] (writeBackRefused x p tag w s).brd.wait (hostBoard s p)).length = (mgetD [] s.brd.wait (hostBoard s p)).length + 1 := by
  obtain ⟨dir1, hst1, cel1, brd1⟩ := passDetector_kept p w.full (outLine s x.line) s
  obtain ⟨-, dir2, brd2, hst2, cel2⟩ := refuseAt_kept p 2 (oLine (outLine s x.line)) (passDetector p w.full (outLine s x.line) s).2
  exact ⟨dir2.trans dir1, hst2.trans hst1, cel2.trans cel1, toHost_wait (hst2.trans hst1) (brd2.trans brd1) ..⟩

theorem hostWriteBack_kept {x : HostStep} {c : Nat} {v : State} (step : stepFor s r.port r.hpa = some x) (shut : readOnlyAt s r.port r.hpa = false)
    (found : takeProto x.tc 1 s = some (c, v)) (i : Instr) (w : HostWr) : hostWriteBack i r w s =
      doneReading [c] (writeBack x r.port r.tag (wholePoison w) (passDetector r.port (wholePoison w).full (outLine v x.line) v).2) := by
  unfold hostWriteBack
  extract_lets q
  rw [show stepFor s q r.hpa = some x from step]
  dsimp only
  rw [if_neg (by simp [q, shut]), found]
  rfl

theorem hostWriteBack_held {x : HostStep} (step : stepFor s r.port r.hpa = some x) (shut : readOnlyAt s r.port r.hpa = false)
    (full : takeProto x.tc 1 s = none) (i : Instr) (w : HostWr) : hostWriteBack i r w s = hold i r.port 7 (fire 243 0 oNone s) := by
  unfold hostWriteBack
  extract_lets q
  rw [show stepFor s q r.hpa = some x from step]
  dsimp only
  rw [if_neg (by simp [q, shut]), full]

/-! ### Answers, conflicts and timeouts of snoops -/

theorem opBirsp_none {hpa : Hpa} (none : stepFor s p hpa = none) (rsp : BiRsp) : opBirsp p hpa rsp s = s := by rw [opBirsp, none]

theorem opBirsp_some {hpa : Hpa} {x : HostStep} (step : stepFor s p hpa = some x) (rsp : BiRsp) : opBirsp p hpa rsp s = hostAnswered p x.line rsp s := by
  rw [opBirsp, step]

/-- An answer behind the issued reads waits in their order or on the Board. -/
theorem behindIssued_spec (p tc epoch : Nat) (l : LineAddr) (a : HostAns) (s : State) : (behindIssued p tc epoch l a s).hst = s.hst ∧
    (behindIssued p tc epoch l a s).hf = s.hf ∧ (s.hc.hbm = [] →
      (mgetD [] (behindIssued p tc epoch l a s).brd.wait (hostBoard s p)).length = (mgetD [] s.brd.wait (hostBoard s p)).length + 1) := by
  unfold behindIssued
  extract_lets w
  split
  · next g q among =>
    refine ⟨rfl, rfl, fun none => ?_⟩
    rw [none] at among
    cases among
  · exact ⟨rfl, rfl, fun _ => by rw [wait_enqueue, List.length_append]; rfl⟩

theorem biConflict_spec (p : HPort) (hpa : Hpa) (tag : BitVec 16) (s : State) : (opBiconflict p hpa tag s).hst = s.hst ∧ (opBiconflict p hpa tag s).hf = s.hf ∧
    (s.hc.hbm = [] → (mgetD [] (opBiconflict p hpa tag s).brd.wait (hostBoard s p)).length = (mgetD [] s.brd.wait (hostBoard s p)).length + 1) := by
  unfold opBiconflict
  extract_lets x z
  have same : quiet z = quiet s := (quiet_count ..).trans (quiet_count ..)
  have brd : z.brd = s.brd := (count_brd ..).trans (count_brd ..)
  have hc : z.hc = s.hc := hc_of_quiet same
  obtain ⟨hst, hf, wait⟩ := behindIssued_spec p x.2.1 x.2.2 x.1 (.biConflictAck tag) z
  refine ⟨hst.trans (hst_of_quiet same), hf.trans (hf_of_quiet same), fun none => ?_⟩
  rw [← hostBoard_congr (hst_of_quiet same), ← brd]
  exact wait (by rw [hc, none])

theorem sendBi_kept (l : LineAddr) (kind p tc epoch : Nat) (hpa : Hpa) (s : State) : (sendBi l kind p tc epoch hpa s).hst = s.hst ∧
    (sendBi l kind p tc epoch hpa s).hf = s.hf :=
  ⟨(count_hst ..).trans (count_hst ..), (count_hf ..).trans (count_hf ..)⟩

/-- A snoop of a host asked again. -/
theorem biSnoopTimeout_again {l : LineAddr} {x : HostStep} {b : BiSnp} {hpa : Hpa} (steps : s.hst.steps = [x]) (line : x.line = l) (snps : x.snps = [b])
    (port : b.port = p.val) (asked : 0 < b.tries) (few : b.tries < 3) (at_ : hpaOf s p l = some hpa) :
    (opBiSnoopTimeout p l s).hst.steps = [{ x with snps := [{ b with tries := b.tries + 1 }] }] ∧ (opBiSnoopTimeout p l s).hf = s.hf := by
  have hit : (s.hst.steps.find? fun x => x.line = l && x.snps.any (fun b => b.port = p.val && b.tries ≠ 0)) = some x := by
    simp [steps, line, snps, port, Nat.pos_iff_ne_zero.1 asked]
  have hit' : (x.snps.find? fun b => b.port = p.val && b.tries ≠ 0) = some b := by simp [snps, port, Nat.pos_iff_ne_zero.1 asked]
  unfold opBiSnoopTimeout
  rw [hit]
  dsimp only
  rw [hit', at_]
  dsimp only
  rw [if_neg (by omega)]
  rw [(sendBi_kept ..).1, (sendBi_kept ..).2]
  exact ⟨by simp [steps, line, snps, port, Nat.pos_iff_ne_zero.1 asked], rfl⟩

theorem biSnoopTimeout_spent {l : LineAddr} {x : HostStep} {b : BiSnp} {hpa : Hpa} (steps : s.hst.steps = [x]) (line : x.line = l) (snps : x.snps = [b])
    (port : b.port = p.val) (asked : 0 < b.tries) (spent : 3 ≤ b.tries) (at_ : hpaOf s p l = some hpa) : opBiSnoopTimeout p l s = hostDies p s := by
  have hit : (s.hst.steps.find? fun x => x.line = l && x.snps.any (fun b => b.port = p.val && b.tries ≠ 0)) = some x := by
    simp [steps, line, snps, port, Nat.pos_iff_ne_zero.1 asked]
  have hit' : (x.snps.find? fun b => b.port = p.val && b.tries ≠ 0) = some b := by simp [snps, port, Nat.pos_iff_ne_zero.1 asked]
  unfold opBiSnoopTimeout
  rw [hit]
  dsimp only
  rw [hit', at_]
  exact if_pos spent

/-! ### Cells, trackers and detectors -/

theorem opCellFree_unread {cell : Nat} {x : Cell} (there : mget s.lar.cells cell = some x) (unread : x.readers = 0) :
    mget (opCellFree cell s).lar.cells cell = none := by
  rw [opCellFree, there]
  dsimp only
  rw [if_pos unread, freeCell, there]
  exact mget_mdel_self ..

theorem takeFirst_absent {α : Type} [DecidableEq α] {x : α} {l : List α} (absent : x ∉ l) : takeFirst (fun y => decide (y = x)) l = none := by
  induction l with
  | nil => rfl
  | cons y l ih =>
    obtain ⟨other, rest⟩ := not_or.1 (mt List.mem_cons.2 absent)
    rw [takeFirst, if_neg (by simpa using Ne.symm other), ih rest]
    rfl

theorem opHandOver_none {region : Nat} {d : Int} (absent : (p.val, region, d) ∉ s.hc.handOvers) : opHandOver p region d s = s := by
  rw [opHandOver, takeFirst_absent absent]

/-- A stride handed over is the first tracker of its slice. -/
theorem handOver_first {region : Nat} {d : Int} (stride : d ≠ 0) (short : d.natAbs ≤ 8) (s : State) :
    (mgetD [] (handOver p region d s).hc.trackers (sliceOf (BitVec.ofNat 54 (64 * region)))).head? =
      some ⟨p, region, if d > 0 then 0 else 63, d, rdFld s aHcPfctl 16 2, none⟩ := by
  unfold handOver
  rw [if_neg (by omega)]
  simp [putTracker, mgetD]

theorem opHandOver_first {region : Nat} {d : Int} (there : (p.val, region, d) ∈ s.hc.handOvers) (stride : d ≠ 0) (short : d.natAbs ≤ 8) :
    (mgetD [] (opHandOver p region d s).hc.trackers (sliceOf (BitVec.ofNat 54 (64 * region)))).head? =
      some ⟨p, region, if d > 0 then 0 else 63, d, rdFld s aHcPfctl 16 2, none⟩ := by
  obtain ⟨rest, found⟩ := takeFirst_of_mem there
  rw [opHandOver, found]
  exact handOver_first stride short _

theorem setDetector_spec {p : Nat} (small : p < 16) (x : Detector) (s : State) : mgetD {} (setDetector p x s).hc.ssd p = x ∧
    rdBit (setDetector p x s) aHcSsd (16 + p) = x.na := by
  refine ⟨mgetD_mput_self .., ?_⟩
  rw [setDetector, rdBit_wrFld_self _ _ _ (by omega)]
  cases x.na <;> rfl

theorem ssdIdleTimeout_spec (h1 : isH1 s = true) (allocating : (mgetD {} s.hc.ssd p).na = true) : (mgetD {} (opSsdIdleTimeout p s).hc.ssd p).na = false ∧
    (mgetD {} (opSsdIdleTimeout p s).hc.ssd p).n = 0 ∧ rdBit (opSsdIdleTimeout p s) aHcSsd (16 + p) = false := by
  unfold opSsdIdleTimeout
  extract_lets x
  rw [if_pos ⟨h1, allocating⟩]
  obtain ⟨row, bit_⟩ := setDetector_spec p.isLt { x with n := 0, na := false } s
  rw [row, bit_]
  exact ⟨rfl, rfl, rfl⟩

/-! ### What admission held -/

theorem retryHeld_none (held : s.lar.held = []) (f : Instr → State → State) : retryHeld f s = s := by
  rw [retryHeld, held]
  show { s with lar := { s.lar with held := [] } } = s
  rw [← held]

theorem cleanRetry_none (left : s.hc.wtLeft = []) : cleanRetry s = s := by rw [cleanRetry, left]; rfl

theorem cleanRetry_one {x : Nat × LineAddr × Nat} (left : s.hc.wtLeft = [x]) (now : x.2.2 = 0) :
    cleanRetry s = cleanNow x.1 x.2.1 { s with hc := { s.hc with wtLeft := [] } } := by
  simp [cleanRetry, left, now]

theorem retryHeld_one {i : Instr} {n tc : Nat} (held : s.lar.held = [(i, n, tc)]) (f : Instr → State → State) :
    retryHeld f s = f i { s with lar := { s.lar with held := [] } } := by rw [retryHeld, held]; rfl

end Sys2Proof.Machine

namespace Sys2Proof
open Machine

/-- Settles O48: what a port does not take in waits, what it refuses is counted, the answers to its snoops go to their step, and the rows of cells,
trackers and detectors do what their timers and messages ask. -/
theorem hostPortEvents : Obligations.HostPortEvents := by
  unfold Obligations.HostPortEvents
  intro s run
  have unhalted := unhalted_of_running run
  refine ⟨fun r w0 w1 serves host taken window closed => ?_, fun r c serves host refused => ?_, fun r w x step shut => ?_,
    fun r w w' x step shut eq => ⟨fun c v found => ?_, fun full => ?_⟩, fun p hpa rsp none => ⟨_, live_follow run (opBirsp p hpa rsp), opBirsp_none none rsp⟩,
    fun p hpa rsp x step => ⟨_, live_follow run (opBirsp p hpa rsp), opBirsp_some step rsp⟩,
    fun p hpa tag => ⟨_, live_running run _, biConflict_spec p hpa tag s⟩,
    fun p l x b hpa steps line snps port asked at_ =>
      ⟨fun few => ⟨_, live_follow run (opBiSnoopTimeout p l), biSnoopTimeout_again steps line snps port asked few at_⟩,
        fun spent => ⟨_, live_follow run (opBiSnoopTimeout p l), biSnoopTimeout_spent steps line snps port asked spent at_⟩⟩,
    fun cell x there unread => ⟨_, live_running run _, opCellFree_unread there unread⟩,
    fun p region d absent => ?_, fun p region d there stride short => ⟨_, live_running run _, opHandOver_first there stride short⟩,
    fun p h1 allocating => ⟨_, live_running run _, ssdIdleTimeout_spec h1 allocating⟩,
    fun held left => ⟨_, live_follow run opAdmissionRetry, ?_⟩, fun x held left now => ⟨_, live_follow run opAdmissionRetry, ?_⟩,
    fun i n tc held left => ⟨_, live_follow run opAdmissionRetry, ?_⟩⟩
  · refine ⟨_, live_follow run (opMemrdSnpcur r), ?_⟩
    rw [opMemrdSnpcur, hostRead_closed serves host taken window closed]
    exact hold_spec ..
  · refine ⟨_, live_follow run (opMemspecrd r), ?_⟩
    rw [opMemspecrd, hostRead_refused serves host refused]
    obtain ⟨req, dir, brd, -⟩ := refuseAt_kept r.port c (oPort 0 r.port) s
    exact ⟨req, dir, brd, refuseAt_counts unhalted ..⟩
  · have same : ∀ i, hostWriteBack i r w s = _ := fun i => hostWriteBack_refused step shut i w
    obtain ⟨dir, hst, cel, wait⟩ := writeBackRefused_spec x r.port r.tag (wholePoison w) s
    refine ⟨_, ?_, ?_, ?_, dir, hst, cel, wait⟩
    · exact (live_follow run (opSnoopWriteBack r w)).trans (by rw [opSnoopWriteBack, same])
    · exact (live_follow run (opMemwrExclusive r w)).trans (by rw [opMemwrExclusive, same])
    · exact (live_follow run (opMemwrOtherHost r w)).trans (by rw [opMemwrOtherHost, same])
  · have same : ∀ i, hostWriteBack i r w s = _ := fun i => hostWriteBack_kept step shut found i w
    rw [eq]
    refine ⟨_, rfl, ?_, ?_, ?_⟩
    · exact (live_follow run (opSnoopWriteBack r w)).trans (by rw [opSnoopWriteBack, same]; rfl)
    · exact (live_follow run (opMemwrExclusive r w)).trans (by rw [opMemwrExclusive, same]; rfl)
    · exact (live_follow run (opMemwrOtherHost r w)).trans (by rw [opMemwrOtherHost, same]; rfl)
  · exact (live_follow run (opSnoopWriteBack r w)).trans (by rw [opSnoopWriteBack, hostWriteBack_held step shut full])
  · exact (live_running run _).trans (by rw [opHandOver_none absent])
  · rw [opAdmissionRetry, cleanRetry_none left, retryHeld_none held]
  · rw [opAdmissionRetry, cleanRetry_one left now]
  · rw [opAdmissionRetry, cleanRetry_none left, retryHeld_one held]

end Sys2Proof
end

section
/-! PROOFS. A request that admission takes at once (R20, R113, R246, R250): the cells, the charges of its epoch, and what they leave. -/

namespace Sys2Proof.Machine

variable {s t v : State} {input tc e n : Nat} {line : LineAddr} {flit : Option Nat} {cs : List Nat}

theorem xor5_lt (k n : Nat) : xor5 k n < 32 := by
  induction k generalizing n with
  | zero => exact Nat.zero_lt_succ _
  | succ k ih => exact Nat.xor_lt_two_pow (n := 5) (Nat.mod_lt n (by decide)) (ih (n / 32))

theorem sliceOf_lt (l : LineAddr) : sliceOf l < 32 := xor5_lt ..

/-- A slice is no host port's Board. -/
theorem sliceOf_ne_hostBoard (l : LineAddr) (s : State) (p : Nat) : sliceOf l ≠ hostBoard s p := by
  have low := sliceOf_lt l
  unfold hostBoard
  omega

/-! ### Charges -/

theorem used_charge_self (b c e : Nat) (s : State) : used (charge b c e s) b c e = used s b c e + 1 :=
  mgetD_mput_self 0 s.brd.used (usedKey b c e) (used s b c e + 1)

theorem used_charge_ne {b b' : Nat} (other : b ≠ b') (c e : Nat) (s : State) : used (charge b' c e s) b c e = used s b c e := by
  have key : usedKey b c e ≠ usedKey b' c e := by
    unfold usedKey
    omega
  exact mgetD_mput_ne 0 0 s.brd.used (used s b' c e + 1) key

/-- The charges of a request: at its slice and, from a port, at the port's Board. -/
def charged (input tc e : Nat) (line : LineAddr) (s : State) : State :=
  if input < 16 then charge (hostBoard s input) tc e (charge (sliceOf line) tc e s) else charge (sliceOf line) tc e s

/-- A request's passage, counted and, of a timed class, charged. -/
def admitted (input tc e : Nat) (line : LineAddr) (s : State) : State :=
  if tc < 4 then count (aPcSlc (sliceOf line) (21 + tc)) 1 (charged input tc e line s) else count (aPcSlc (sliceOf line) 25) 1 s

theorem quiet_charged (input tc e : Nat) (line : LineAddr) (s : State) : quiet (charged input tc e line s) = quiet s := apply_ite_same quiet rfl rfl

theorem quiet_admitted (input tc e : Nat) (line : LineAddr) (s : State) : quiet (admitted input tc e line s) = quiet s :=
  apply_ite_same quiet ((quiet_count ..).trans (quiet_charged ..)) (quiet_count ..)

theorem used_charged (input tc e : Nat) (line : LineAddr) (s : State) : used (charged input tc e line s) (sliceOf line) tc e = used s (sliceOf line) tc e + 1 := by
  unfold charged
  split
  · rw [used_charge_ne (sliceOf_ne_hostBoard _ _ _), used_charge_self]
  · exact used_charge_self ..

theorem used_of_brd (brd : t.brd = s.brd) (b c e : Nat) : used t b c e = used s b c e := by rw [used, brd, used]

/-- What a passage leaves, and its one charge (R246). -/
theorem passed_admitted (cells : takeCells tc 1 n s = some (cs, v)) : Passed s (admitted input tc e line v) line tc e := by
  obtain ⟨lar, eq⟩ := takeCells_larder cells
  have same : quiet (admitted input tc e line v) = quiet v := quiet_admitted ..
  have stand : quiet v = quiet s := by rw [show v = _ from eq]; rfl
  have all := same.trans stand
  refine ⟨dir_of_quiet all, home_of_quiet all, req_of_quiet all, cel_of_quiet all, fun timed => ?_⟩
  rw [admitted, if_pos timed, used_of_brd (count_brd ..), used_charged, show v = _ from eq]
  rfl

theorem quiet_admitted_taken (cells : takeCells tc 1 n s = some (cs, v)) : quiet (admitted input tc e line v) = quiet s := by
  obtain ⟨lar, eq⟩ := takeCells_larder cells
  exact (quiet_admitted ..).trans (by rw [show v = _ from eq]; rfl)

/-! ### Admission -/

/-- The epoch that a request is charged to: the present one, or the one that its flit names and that is not late (R246, R249). -/
def ChargedTo (flit : Option Nat) (e : Nat) (s : State) : Prop :=
  (flit = none ∧ e = epochNow s) ∨ ∃ f, flit = some f ∧ accountEpoch (epochNow s) f = (e, false)

theorem chargedTo_now (s : State) : ChargedTo none (epochNow s) s := .inl ⟨rfl, rfl⟩

/-- A request that admission takes goes on with its cells, counted and charged. -/
theorem admission_open (adm : Admits s input tc line e) (epoch : ChargedTo flit e s) (cells : takeCells tc 1 n s = some (cs, v)) (i : Instr)
    (k : Nat → List Nat → State → State) : admission i input tc line n flit k s = k e cs (admitted input tc e line v) := by
  obtain ⟨opened, free, stays, uneased, room⟩ := adm
  unfold admission
  extract_lets slice port now x e'
  have named : x = (e, false) := by
    rcases epoch with ⟨rfl, rfl⟩ | ⟨f, rfl, eq⟩
    · rfl
    · exact eq
  have epoch_ : e' = e := congrArg Prod.fst named
  have early : x.2 = false := congrArg Prod.snd named
  have unheld : s.lar.held.any (fun h => h.2 = (input, tc)) = false := by simpa using free
  rw [if_neg (by simp [opened, unheld, stays])]
  by_cases timed : tc < 4
  · rw [if_pos timed, epoch_, show refusingBoard s slice tc e port = none from room timed, cells]
    dsimp only
    rw [early, admitted, if_pos timed, charged]
    by_cases host : input < 16
    · rw [show port = some input from if_pos host, if_pos host]
      rfl
    · rw [show port = none from if_neg host, if_neg host]
      rfl
  · rw [if_neg timed, if_neg (by simp [uneased (by omega)]), cells, admitted, if_neg timed, epoch_]

end Sys2Proof.Machine
end

section
/-! PROOFS. Requests of an I/O agent, configuration answers and the atomic aperture (R163 to R166, R366 to R372). -/

namespace Sys2Proof.Machine

variable {s t v : State} {p : HPort} {r : HostReq} {w0 w1 : Word} {cs : List Nat}

/-! ### A request that a port has decoded -/

/-- The ports' row replaced. -/
def withPorts (q : Ports) (s : State) : State := { s with ports := q }

theorem takeCells_withPorts (q : Ports) (tc n k : Nat) (s : State) :
    takeCells tc n k (withPorts q s) = (takeCells tc n k s).map fun y => (y.1, withPorts q y.2) := by
  induction k generalizing s with
  | zero => rfl
  | succ k ih =>
    have share : pickShare (withPorts q s) tc = pickShare s tc := rfl
    rw [takeCells, takeCells, share]
    cases pickShare s tc with
    | none => rfl
    | some sh =>
      have from_ : takeCellFrom sh tc n (withPorts q s) = (takeCellFrom sh tc n s).map fun y => (y.1, withPorts q y.2) := by
        unfold takeCellFrom
        rw [Option.map_map]
        rfl
      rw [Option.bind_some, Option.bind_some, from_]
      cases takeCellFrom sh tc n s with
      | none => rfl
      | some x =>
        rw [Option.map_some, Option.bind_some, Option.bind_some, ih, Option.map_map, Option.map_map]
        rfl

theorem admits_withPorts {q : Ports} {input tc e : Nat} {line : LineAddr} (open_ : q.closed = s.ports.closed) (adm : Admits s input tc line e) :
    Admits (withPorts q s) input tc line e := by
  obtain ⟨admitting_, free, stays, uneased, room⟩ := adm
  refine ⟨?_, free, stays, uneased, room⟩
  rw [admitting, ← admitting_, admitting]
  exact congrArg (fun c => decide (s.part.phase = .ready) && !c) open_

/-- The ports' row with a request decoded: it takes a number, and a write is outstanding under it (R274). -/
def decodedPorts (i : Instr) (p : Nat) (write : Bool) (q : Ports) : Ports :=
  { q with nextId := q.nextId + 1, outst := if write then mset q.outst q.nextId p else q.outst, decoded := q.decoded ++ [(i, q.nextId, false)] }

theorem passage_unseen {i : Instr} (unseen : ∀ x, x ∈ s.ports.decoded → x.1 ≠ i) : passage i s = none := by
  have none_ : s.ports.decoded.filter (fun x => x.1 = i) = [] := List.filter_eq_nil_iff.2 fun x among => by simpa using unseen x among
  rw [passage, none_]
  rfl

theorem agentArrive_unseen {i : Instr} (unseen : ∀ x, x ∈ s.ports.decoded → x.1 ≠ i) (p : Nat) (write : Bool) :
    agentArrive i p write s = (s.ports.nextId, withPorts (decodedPorts i p write s.ports) s) := by
  rw [agentArrive, arrive, passage_unseen unseen]
  rfl

theorem agentArrive_cases (i : Instr) (p : Nat) (write : Bool) (s : State) :
    ∃ id q, agentArrive i p write s = (id, withPorts q s) ∧ q.closed = s.ports.closed := by
  cases seen : passage i s with
  | none => exact ⟨_, decodedPorts i p write s.ports, by rw [agentArrive, arrive, seen]; rfl, rfl⟩
  | some x => exact ⟨x.2.1, s.ports, by rw [agentArrive, arrive, seen]; rfl, rfl⟩

theorem accepted_decoded (i : Instr) (s : State) : ∃ d, accepted i s = withPorts { s.ports with decoded := d } s := by
  unfold accepted
  split
  · next rest _ => exact ⟨rest, rfl⟩
  · exact ⟨s.ports.decoded, rfl⟩

/-- A port's request past admission: no longer decoded only, and counted. -/
def portTaken (i : Instr) (p : Nat) (s : State) : State := count (aHpCnt p 0) 1 (accepted i s)

theorem portTaken_kept (i : Instr) (p : Nat) (s : State) : (portTaken i p s).dir = s.dir ∧ (portTaken i p s).home = s.home ∧
    (portTaken i p s).req = s.req ∧ (portTaken i p s).cel = s.cel ∧ (portTaken i p s).brd = s.brd ∧ (portTaken i p s).ports.nextId = s.ports.nextId ∧
    (portTaken i p s).ports.outst = s.ports.outst := by
  obtain ⟨d, eq⟩ := accepted_decoded i s
  rw [portTaken, eq]
  exact ⟨count_dir .., count_home .., count_req .., count_cel .., count_brd .., (congrArg Ports.nextId (count_ports ..)).trans rfl,
    (congrArg Ports.outst (count_ports ..)).trans rfl⟩

theorem passed_portTaken {z : State} {line : LineAddr} {tc e : Nat} (pass : Passed s z line tc e) (i : Instr) (p : Nat) :
    Passed s (portTaken i p z) line tc e := by
  obtain ⟨dir, home, req, cel, one⟩ := pass
  obtain ⟨dir', home', req', cel', brd', -⟩ := portTaken_kept i p z
  exact ⟨dir'.trans dir, home'.trans home, req'.trans req, cel'.trans cel, fun timed => (used_of_brd brd' ..).trans (one timed)⟩

/-! ### Requests of an agent -/

/-- The block that an agent's request acts on once admission has taken it. -/
def agentIn (i : Instr) (p tc e : Nat) (line : LineAddr) (q : Ports) (v : State) : State := portTaken i p (admitted p tc e line (withPorts q v))

theorem admission_agent {q : Ports} {tc n : Nat} {line : LineAddr} (open_ : q.closed = s.ports.closed) (adm : Admits s p tc line (epochNow s))
    (cells : takeCells tc 1 n s = some (cs, v)) (i : Instr) (k : Nat → List Nat → State → State) :
    admission i p tc line n none k (withPorts q s) = k (epochNow s) cs (admitted p tc (epochNow s) line (withPorts q v)) :=
  admission_open (admits_withPorts open_ adm) (chargedTo_now _) (by rw [takeCells_withPorts, cells]; rfl) i k

theorem agentIn_spec {q : Ports} {tc n : Nat} {line : LineAddr} (cells : takeCells tc 1 n s = some (cs, v)) (i : Instr) :
    Passed s (agentIn i p tc (epochNow s) line q v) line tc (epochNow s) ∧ (agentIn i p tc (epochNow s) line q v).ports.nextId = q.nextId ∧
      (agentIn i p tc (epochNow s) line q v).ports.outst = q.outst ∧ (admitted p tc (epochNow s) line (withPorts q v)).time = s.time := by
  have cells' : takeCells tc 1 n (withPorts q s) = some (cs, withPorts q v) := by rw [takeCells_withPorts, cells]; rfl
  have same : quiet (admitted p tc (epochNow s) line (withPorts q v)) = quiet (withPorts q s) := quiet_admitted_taken cells'
  obtain ⟨-, -, -, -, -, next, outst⟩ := portTaken_kept i p (admitted p tc (epochNow s) line (withPorts q v))
  have ports := ports_of_quiet same
  exact ⟨passed_portTaken (passed_admitted cells') i p, next.trans (congrArg Ports.nextId ports), outst.trans (congrArg Ports.outst ports), (time_of_quiet same).trans rfl⟩

section
variable {line : LineAddr} {tc n : Nat} {tph : Option (BitVec 8)}

/-- An agent's read goes to the slices line by line (R368). -/
theorem agentMemoryRead_spec (serves : agentServes s r.port = true) (on : r.port.val ∉ s.ports.agentOff) (win : winOf s r.port r.hpa = some (w0, w1))
    (at_ : lineOf (winFpa w0 w1 r.hpa.toNat) = line) (class_ : fld w0 2 3 = tc) (adm : Admits s r.port tc line (epochNow s))
    (region : agentRegion s r.port r.hpa = none) (unseen : ∀ x, x ∈ s.ports.decoded → x.1 ≠ .agentMemoryRead r n tph)
    (cells : takeCells tc 1 (max 1 (min n 64)) s = some (cs, v)) :
    ∃ z, Passed s z line tc (epochNow s) ∧ opAgentMemoryRead r n tph s = (agentReadLines r line tc (placement s r.port tph) (epochNow s) s.ports.nextId
      s.time.ft cs).foldl (fun s d => agentSend d false s) z ∧ z.ports.nextId = s.ports.nextId + 1 := by
  subst at_ class_
  obtain ⟨pass, next, -, time⟩ := agentIn_spec (p := r.port) (line := lineOf (winFpa w0 w1 r.hpa.toNat))
    (q := decodedPorts (.agentMemoryRead r n tph) r.port false s.ports) cells (.agentMemoryRead r n tph)
  refine ⟨_, pass, ?_, next⟩
  rw [opAgentMemoryRead, region]
  unfold agentRead
  extract_lets q lines pl i x
  have arrived : x = (s.ports.nextId, withPorts (decodedPorts i q false s.ports) s) := agentArrive_unseen unseen q false
  rw [if_neg (by simp [q, serves]), show winOf s q r.hpa = _ from win]
  dsimp only
  rw [if_neg on, arrived]
  refine (admission_agent (q := decodedPorts i q false s.ports) rfl adm cells i _).trans ?_
  dsimp only
  rw [time]
  rfl

/-- An agent's write takes a number and waits for its turn, or goes to its slice (R274, R369). -/
theorem agentPostedWrite_spec {w : HostWr} {ro : Bool} (serves : agentServes s r.port = true) (on : r.port.val ∉ s.ports.agentOff)
    (win : winOf s r.port r.hpa = some (w0, w1)) (at_ : lineOf (winFpa w0 w1 r.hpa.toNat) = line) (class_ : fld w0 2 3 = tc)
    (adm : Admits s r.port tc line (epochNow s)) (region : agentRegion s r.port r.hpa = none) (writes : bit w0 1 = false)
    (plain : rdBit s (aHpAgirq r.port) 0 = false) (unseen : ∀ x, x ∈ s.ports.decoded → x.1 ≠ .agentPostedWrite r w ro tph)
    (cells : takeCells tc 1 1 s = some (cs, v)) :
    ∃ y z, opAgentPostedWrite r w ro tph s = agentSend y ro z ∧ y.line = line ∧ y.cells = cs ∧ mget z.ports.outst y.id = some r.port.val := by
  subst at_ class_
  obtain ⟨-, -, outst, -⟩ := agentIn_spec (p := r.port) (line := lineOf (winFpa w0 w1 r.hpa.toNat))
    (q := decodedPorts (.agentPostedWrite r w ro tph) r.port true s.ports) cells (.agentPostedWrite r w ro tph)
  rw [opAgentPostedWrite, region]
  unfold agentWrite
  extract_lets q i _ w' x
  have arrived : x = (s.ports.nextId, withPorts (decodedPorts i q true s.ports) s) := agentArrive_unseen unseen q true
  rw [if_neg (by simp [q, serves]), if_neg (by simp [q, plain]), if_neg on, show winOf s q r.hpa = _ from win]
  dsimp only [agentDemand]
  rw [if_neg (by simp [writes]), arrived]
  exact ⟨_, agentIn i q (fld w0 2 3) (epochNow s) (lineOf (winFpa w0 w1 r.hpa.toNat)) (decodedPorts i q true s.ports) v,
    admission_agent (q := decodedPorts i q true s.ports) rfl adm cells i _, rfl, rfl,
    (congrArg (mget · s.ports.nextId) outst).trans (mget_mset_self ..)⟩

/-- An agent's atomic goes to its slice as one (R370). -/
theorem agentAtomic_spec {op : AtomicOp} {size : Nat} {a b : BitVec 128} {x : Atom} (serves : agentServes s r.port = true)
    (on : r.port.val ∉ s.ports.agentOff) (win : winOf s r.port r.hpa = some (w0, w1)) (at_ : lineOf (winFpa w0 w1 r.hpa.toNat) = line)
    (class_ : fld w0 2 3 = tc) (adm : Admits s r.port tc line (epochNow s)) (writes : bit w0 1 = false)
    (valid : pcieAtom op size a b (r.hpa.toNat % 64) = some x) (cells : takeCells tc 1 2 s = some (cs, v)) :
    ∃ y z, opAgentAtomicop r op size a b s = agentSend y false z ∧ y.kind = .atom x ∧ y.cells = cs := by
  subst at_ class_
  unfold opAgentAtomicop
  extract_lets q i cpl x
  obtain ⟨id, ps, arrived, open_⟩ := agentArrive_cases i q false s
  rw [if_neg (by simp [q, serves]), valid]
  dsimp only
  rw [if_neg on, show winOf s q r.hpa = _ from win]
  dsimp only [agentDemand]
  rw [if_neg (by simp [writes]), show x = _ from arrived]
  exact ⟨_, agentIn i q (fld w0 2 3) (epochNow s) (lineOf (winFpa w0 w1 r.hpa.toNat)) ps v, admission_agent open_ adm cells i _, rfl, rfl⟩

end

theorem agentWriteRelease_goes {d : Demand} {ro : Bool} {rest : List (Demand × Bool)} (first : mgetD [] s.ports.agentQ p = (d, ro) :: rest)
    (due : earlierWrite s p d.id = false) :
    opAgentWriteRelease p s = issue d { s with ports := { s.ports with agentQ := mput [] s.ports.agentQ p rest } } := by
  rw [opAgentWriteRelease, first]
  exact if_neg (by simp [due])

theorem agentWriteRelease_none (none : mgetD [] s.ports.agentQ p = []) : opAgentWriteRelease p s = s := by rw [opAgentWriteRelease, none]

/-! ### Interrupts and messages -/

/-- At most 64 bytes are one record (R371). -/
theorem irqRecords_one {data : List (BitVec 8)} (some_ : 0 < data.length) (few : data.length ≤ 64) (p q off : Nat) (s : State) :
    irqRecords p q (data.length / 64 + 1) off data s = post q 6 p (irqWords off data) s := by
  have full : data.isEmpty = false := by
    cases data with
    | nil => cases some_
    | cons => rfl
  have rest : data.drop 64 = [] := List.drop_eq_nil_of_le few
  rw [irqRecords, full, if_neg (by decide), rest, List.take_of_length_le few]
  cases data.length / 64 <;> rfl

theorem agentInterrupt_spec {hpa : Hpa} {data : List (BitVec 8)} (serves : agentServes s p = true) (on : rdBit s (aHpAgirq p) 0 = true)
    (page : rdFld s (aHpAgirq p) 16 40 = hpa.toNat / 4096) (master : p.val ∉ s.ports.agentOff) (some_ : 0 < data.length) (few : data.length ≤ 64) :
    opAgentInterruptWrite p hpa data s = fire (2 + 4 * p) 0 (oPort 0 p) (post (rdFld s (aHpAgirq p) 1 13) 6 p (irqWords (hpa.toNat % 4096) data) s) := by
  unfold opAgentInterruptWrite
  extract_lets q
  rw [if_neg (by simp [serves]), if_neg (by simp [on, page, master]), irqRecords_one some_ few]

theorem portAnswer_wait (hst : t.hst = s.hst) (brd : t.brd = s.brd) (p : Nat) (a : HostAns) :
    (mgetD [] (portAnswer p a t).brd.wait (hostBoard s p)).length = (mgetD [] s.brd.wait (hostBoard s p)).length + 1 := by
  rw [← hostBoard_congr hst p, portAnswer, wait_enqueue, List.length_append, brd, hostBoard_congr hst]
  rfl

theorem agentPasid_spec (serves : agentServes s p = true) (tag : BitVec 16) : (opAgentPasidAtsRequest p tag s).req = s.req ∧
    (mgetD [] (opAgentPasidAtsRequest p tag s).brd.wait (hostBoard s p)).length = (mgetD [] s.brd.wait (hostBoard s p)).length + 1 := by
  rw [opAgentPasidAtsRequest, if_neg (by simp [serves])]
  exact ⟨fire_req .., portAnswer_wait (fire_hst ..) (fire_brd ..) ..⟩

/-! ### Answers to configuration requests -/

theorem ite_fire_regs (c : Prop) [Decidable c] (n e : Nat) (o : Obj) (s : State) (a : Nat) : rd (if c then s else fire n e o s) a = rd s a :=
  apply_ite_same (rd · a) rfl (rd_fire ..)

theorem aHpCfgd_ne_aHpCfga (p : Nat) : aHpCfgd p / 8 ≠ aHpCfga p / 8 := by
  unfold aHpCfgd aHpCfga
  omega

/-- HP_CFGA with BUSY cleared and the status set. -/
def cfgaEnded (w : Word) (st : Nat) : Word := setFld (setBit w 26 false) 27 3 st

theorem cfgaEnded_spec (w : Word) {st : Nat} (small : st < 8) : bit (cfgaEnded w st) 26 = false ∧ fld (cfgaEnded w st) 27 3 = st := by
  refine ⟨?_, ?_⟩
  · rw [cfgaEnded, bit_setFld_ne _ _ _ _ _ (by decide) (by decide), bit_setBit_self _ (by decide)]
  · rw [cfgaEnded, fld_setFld_self _ _ _ _ (by decide)]
    exact Nat.mod_eq_of_lt small

theorem configCompletion_spec (busy : rdBit s (aHpCfga p) 26 = true) (cs : BitVec 3) (data : BitVec 32) :
    rdBit (opConfigCompletion p cs data s) (aHpCfga p) 26 = false ∧ rdFld (opConfigCompletion p cs data s) (aHpCfga p) 27 3 = cs.toNat ∧
      (cs = 0 → rdBit s (aHpCfga p) 24 = false → rd (opConfigCompletion p cs data s) (aHpCfgd p) = BitVec.ofNat 64 data.toNat) := by
  unfold opConfigCompletion
  extract_lets w x y
  have busy' : bit w 26 = true := busy
  rw [if_neg (by simp [busy'])]
  have status : rd y (aHpCfga p) = cfgaEnded w cs.toNat :=
    apply_ite_same (rd · (aHpCfga p)) ((rd_wr_ne _ _ (aHpCfgd_ne_aHpCfga p).symm).trans (rd_wr_self ..)) (rd_wr_self ..)
  obtain ⟨clear, code⟩ := cfgaEnded_spec w (st := cs.toNat) cs.isLt
  rw [rdBit, rdFld, ite_fire_regs, ite_fire_regs, status]
  refine ⟨clear, code, fun good read => ?_⟩
  have read' : bit w 24 = false := read
  simp only [y]
  rw [if_pos ⟨good, read'⟩]
  exact rd_wr_self ..

theorem configTimeout_spec (busy : rdBit s (aHpCfga p) 26 = true) : rdBit (opConfigTimeout p s) (aHpCfga p) 26 = false ∧
    rdFld (opConfigTimeout p s) (aHpCfga p) 27 3 = 7 ∧ rd (opConfigTimeout p s) (aHpCfgd p) = rd s (aHpCfgd p) := by
  unfold opConfigTimeout
  extract_lets w
  have busy' : bit w 26 = true := busy
  rw [if_neg (by simp [busy']), rdBit, rdFld, rd_fire, rd_fire, rd_wr_self]
  obtain ⟨clear, code⟩ := cfgaEnded_spec w (st := 7) (by decide)
  exact ⟨clear, code, rd_wr_ne _ _ (aHpCfgd_ne_aHpCfga p)⟩

/-! ### The regions of an agent and the atomic aperture -/

theorem portAnswer_req (p : Nat) (a : HostAns) (s : State) : (portAnswer p a s).req = s.req := rfl

theorem slotRead_req (r : HostReq) (a n : Nat) (s : State) : (slotRead r a n s).req = s.req := by
  unfold slotRead
  exact foldl_frame State.req (fun s k => portAnswer_req ..) _ s

variable {slot : BitVec 12} {d : BitVec 512}

theorem apertureDescriptor_shut (serves : portServes s p = true) (pops : popWaits s p = false) (shut : slotsReached s p = false) (d : BitVec 512) :
    opApertureDescriptor p slot d s = refuseAt p 0 (oPort 0 p) s := by
  unfold opApertureDescriptor
  extract_lets n key busy
  rw [if_neg (by simp [serves]), if_neg (by simp [pops]), if_pos (by simp [shut])]

/-- A port that serves is the lead of its group. -/
theorem nonLead_of_serves (serves : portServes s p = true) : nonLead s p = false := by
  have lead : leadOf s p = p := by
    unfold portServes at serves
    simp only [Bool.and_eq_true, decide_eq_true_eq] at serves
    exact serves.1.1
  unfold leadOf at lead
  unfold nonLead
  rw [decide_eq_false_iff_not]
  rintro (⟨odd, pair⟩ | ⟨inner, quad⟩)
  · rw [if_pos ⟨odd, pair⟩] at lead
    omega
  · split at lead
    · omega
    · omega

theorem portEvent_unreserved (run : running s = true) (serves : portServes s p = true) {k : Nat} (small : k < 4) : evReserved s (k + 4 * p) = false := by
  have low := p.isLt
  have group : (k + 4 * p.val) / 4 = p := by omega
  have source : reservedSource s (k + 4 * p) = false := by
    unfold reservedSource
    simp only [Bool.or_eq_false_iff, Bool.and_eq_false_iff, decide_eq_false_iff_not]
    omega
  rw [evReserved, unhalted_of_running run, source, group, nonLead_of_serves serves, Bool.and_false]
  rfl

/-! ### Descriptors -/

/-- A slot that is done (R165). -/
def slotEnded (code : Nat) (old : BitVec 128) (x : Slot) : Slot :=
  { x with busy := false, done := true, code := code,
           cmpeq := decide (code = 0 ∧ x.atom.op = 2 ∧ old.toNat = x.atom.a.toNat % 2 ^ (32 * 2 ^ x.atom.size.toNat)), old := old, waiting := false }

/-- A slot written. -/
def withSlot (key : Nat) (x : Slot) (s : State) : State := { s with slots := mset s.slots key x }

theorem slotDone_eq {x : Slot} {p n : Nat} (there : mget s.slots (4096 * p + n) = some x) (code : Nat) (old : BitVec 128) :
    ∃ ws, slotDone p n code old s = if x.qe then post x.qn 3 (n + 4096 * p) ws (withSlot (4096 * p + n) (slotEnded code old x) s)
      else withSlot (4096 * p + n) (slotEnded code old x) s := by
  unfold slotDone
  extract_lets key
  rw [show mget s.slots key = some x from there]
  exact ⟨_, rfl⟩

theorem slotDone_spec {x : Slot} {p n : Nat} (there : mget s.slots (4096 * p + n) = some x) (code : Nat) (old : BitVec 128) :
    mget (slotDone p n code old s).slots (4096 * p + n) = some (slotEnded code old x) ∧ (slotDone p n code old s).dir = s.dir ∧
      StatKept s (slotDone p n code old s) := by
  obtain ⟨ws, eq⟩ := slotDone_eq there code old
  have noted : StatKept s (withSlot (4096 * p + n) (slotEnded code old x) s) := statKept_of_evStat rfl
  rw [eq]
  split
  · exact ⟨(congrArg (mget · (4096 * p + n)) (post_slots ..)).trans (mget_mset_self ..), post_dir .., noted.trans (.post ..)⟩
  · exact ⟨mget_mset_self .., rfl, noted⟩

/-- The fields of a descriptor (R165). -/
def descAtom (d : BitVec 512) : Atom :=
  ⟨BitVec.ofNat 4 (d.toNat / 2 ^ 64), BitVec.ofNat 2 (d.toNat / 2 ^ 64 / 16), (d.toNat / 2 ^ 64).testBit 6,
    BitVec.ofNat 6 ((BitVec.ofNat 52 d.toNat).toNat % 64), BitVec.ofNat 128 (d.toNat / 2 ^ 128), BitVec.ofNat 128 (d.toNat / 2 ^ 256)⟩

/-- The code of a descriptor that reaches no window. -/
def stopCode (d : BitVec 512) : Nat :=
  if 5 < d.toNat / 2 ^ 64 % 16 ∨ d.toNat / 2 ^ 68 % 4 = 3 then 4
  else if d.toNat % 2 ^ 52 % (4 * 2 ^ (d.toNat / 2 ^ 68 % 4)) ≠ 0 then 3 else 2

theorem descAtom_op (d : BitVec 512) : (descAtom d).op.toNat = d.toNat / 2 ^ 64 % 16 := rfl

theorem descAtom_size (d : BitVec 512) : (descAtom d).size.toNat = d.toNat / 2 ^ 68 % 4 := by
  show d.toNat / 2 ^ 64 / 16 % 4 = _
  rw [Nat.div_div_eq_div_mul, show 2 ^ 64 * 16 = 2 ^ 68 by decide]

theorem size_eq_three (d : BitVec 512) : (descAtom d).size = 3 ↔ d.toNat / 2 ^ 68 % 4 = 3 := by
  rw [← descAtom_size, BitVec.toNat_eq]
  rfl

theorem apertureStop_windowless (none_ : winOf s p (BitVec.ofNat 52 d.toNat) = none) :
    ∃ f, apertureStop s p (descAtom d) (BitVec.ofNat 52 d.toNat) = some (stopCode d, f) ∧ (f = id ∨ f = refuseAt p 0 (oPort 0 p)) ∧
      (stopCode d = 2 → f = refuseAt p 0 (oPort 0 p)) := by
  unfold apertureStop stopCode
  rw [none_, descAtom_op, descAtom_size, BitVec.toNat_ofNat]
  simp only [size_eq_three]
  by_cases form : 5 < d.toNat / 2 ^ 64 % 16 ∨ d.toNat / 2 ^ 68 % 4 = 3
  · rw [if_pos form, if_pos form]
    exact ⟨id, rfl, .inl rfl, fun two => absurd two (by decide)⟩
  rw [if_neg form, if_neg form]
  by_cases aligned : d.toNat % 2 ^ 52 % (4 * 2 ^ (d.toNat / 2 ^ 68 % 4)) ≠ 0
  · rw [if_pos aligned, if_pos aligned]
    exact ⟨id, rfl, .inl rfl, fun two => absurd two (by decide)⟩
  · rw [if_neg aligned, if_neg aligned]
    exact ⟨_, rfl, .inr rfl, fun _ => rfl⟩

/-- A descriptor of a naturally aligned access to a line of this hub's own is not stopped. -/
theorem apertureStop_own (win : winOf s p (BitVec.ofNat 52 d.toNat) = some (w0, w1)) (writes : bit w0 1 = false) (op : d.toNat / 2 ^ 64 % 16 ≤ 5)
    (size : d.toNat / 2 ^ 68 % 4 = 0) (aligned : d.toNat % 4 = 0) (own : homeOf (lineOf (winFpa w0 w1 (d.toNat % 2 ^ 52))) = hubId s) :
    apertureStop s p (descAtom d) (BitVec.ofNat 52 d.toNat) = none := by
  unfold apertureStop
  have form : ¬(d.toNat / 2 ^ 64 % 16 > 5 ∨ (descAtom d).size = 3) := by
    rw [size_eq_three]
    omega
  have even : d.toNat % 2 ^ 52 % (4 * 2 ^ 0) = 0 := by omega
  rw [win, descAtom_op, descAtom_size, BitVec.toNat_ofNat, if_neg form, size, even, if_neg (by decide)]
  dsimp only
  rw [if_neg (by simp [writes]), if_neg fun away => away.1 own]

/-- The slot of a descriptor that is taken (R165). -/
def slotTaken (s : State) (p : Nat) (d : BitVec 512) : Slot :=
  { busy := true, done := false, code := 0, cmpeq := false, old := 0, waiting := true, hpa := BitVec.ofNat 52 d.toNat,
    line := match winOf s p (BitVec.ofNat 52 d.toNat) with
      | some (w0, w1) => lineOf (winFpa w0 w1 (BitVec.ofNat 52 d.toNat : Hpa).toNat)
      | none => 0
    tc := match winOf s p (BitVec.ofNat 52 d.toNat) with
      | some (w0, _) => fld w0 2 3
      | none => 7
    id := s.ports.nextId, atom := descAtom d, qe := (d.toNat / 2 ^ 64).testBit 7, qn := nfld (d.toNat / 2 ^ 64) 8 13, tag := nfld (d.toNat / 2 ^ 64) 21 43 }

/-- The block with a descriptor taken. -/
def descTaken (p key : Nat) (d : BitVec 512) (s : State) : State :=
  withSlot key (slotTaken s p d) { s with ports := { s.ports with nextId := s.ports.nextId + 1 } }

theorem apertureStop_descTaken (q key : Nat) (a : Atom) (hpa : Hpa) : apertureStop (descTaken p key d s) q a hpa = apertureStop s q a hpa := rfl

/-- A descriptor that is stopped ends its slot at once with its code (R165, R166). -/
theorem opApertureDescriptor_stopped {c : Nat} {f : State → State} (serves : portServes s p = true) (pops : popWaits s p = false)
    (reached : slotsReached s p = true) (empty : mget s.slots (4096 * p.val + slot.toNat) = none)
    (stop : apertureStop s p (descAtom d) (BitVec.ofNat 52 d.toNat) = some (c, f)) :
    opApertureDescriptor p slot d s = slotDone p slot.toNat c 0 (f (descTaken p (4096 * p.val + slot.toNat) d s)) := by
  unfold opApertureDescriptor
  extract_lets n key busy hpa w1 a win line tc id x _ z
  have free : busy = false := by
    simp only [busy]
    rw [show mget s.slots key = none from empty]
  rw [if_neg (by simp [serves]), if_neg (by simp [pops]), if_neg (by simp [reached]), if_neg (by simp [free]),
    show apertureStop z p a hpa = _ from (apertureStop_descTaken ..).trans stop]
  rfl

/-- A descriptor behind an earlier write of its port waits in its slot (R166). -/
theorem opApertureDescriptor_waits (serves : portServes s p = true) (pops : popWaits s p = false) (reached : slotsReached s p = true)
    (empty : mget s.slots (4096 * p.val + slot.toNat) = none) (stop : apertureStop s p (descAtom d) (BitVec.ofNat 52 d.toNat) = none)
    (behind : earlierWrite s p s.ports.nextId = true) : opApertureDescriptor p slot d s = descTaken p (4096 * p.val + slot.toNat) d s := by
  unfold opApertureDescriptor
  extract_lets n key busy hpa w1 a win line tc id x _ z
  have free : busy = false := by
    simp only [busy]
    rw [show mget s.slots key = none from empty]
  rw [if_neg (by simp [serves]), if_neg (by simp [pops]), if_neg (by simp [reached]), if_neg (by simp [free]),
    show apertureStop z p a hpa = _ from (apertureStop_descTaken ..).trans stop]
  exact if_pos behind

theorem mget_mem {α : Type} {m : SMap α} {k : Nat} {x : α} (there : mget m k = some x) : (k, x) ∈ m := by
  induction m with
  | nil => cases there
  | cons e m ih =>
    rw [mget] at there
    split at there
    · next same =>
      obtain rfl := Option.some.inj there
      rw [← same]
      exact List.mem_cons_self ..
    · exact List.mem_cons_of_mem _ (ih there)

theorem earlierWrite_of_mget {n id : Nat} (there : mget s.ports.outst n = some p.val) (earlier : n < id) : earlierWrite s p id = true :=
  List.any_eq_true.2 ⟨(n, p.val), mget_mem there, by simp [earlier]⟩

theorem evReserved_congr (halted : t.halted = s.halted) (part : t.part = s.part) (hst : t.hst = s.hst) (n : Nat) : evReserved t n = evReserved s n := by
  have setting : ∀ q, aggOf t q = aggOf s q := fun q => by rw [aggOf, portSetting, hst, aggOf, portSetting]
  simp only [evReserved, reservedSource, isH1, nonLead, setting, halted, part]

/-- A refusal at a port raises its event (R156). -/
theorem raised_refuseAt (free : evReserved s (1 + 4 * p) = false) (c : Nat) (o : Obj) : raised (refuseAt p c o s) (1 + 4 * p) = true :=
  raised_fire ((evReserved_congr (count_halted ..) (count_part ..) (count_hst ..) _).trans free) ..

theorem descriptor_windowless (run : running s = true) (serves : portServes s p = true) (pops : popWaits s p = false) (reached : slotsReached s p = true)
    (empty : mget s.slots (4096 * p.val + slot.toNat) = none) (none_ : winOf s p (BitVec.ofNat 52 d.toNat) = none) :
    ∃ x, mget (opApertureDescriptor p slot d s).slots (4096 * p.val + slot.toNat) = some x ∧ x.busy = false ∧ x.done = true ∧
      (opApertureDescriptor p slot d s).dir = s.dir ∧ x.code = stopCode d ∧ (x.code = 2 → raised (opApertureDescriptor p slot d s) (1 + 4 * p.val) = true) := by
  obtain ⟨f, stop, form, refused⟩ := apertureStop_windowless (d := d) none_
  have kept : (f (descTaken p (4096 * p.val + slot.toNat) d s)).slots = (descTaken p (4096 * p.val + slot.toNat) d s).slots ∧
      (f (descTaken p (4096 * p.val + slot.toNat) d s)).dir = s.dir := by
    rcases form with rfl | rfl
    · exact ⟨rfl, rfl⟩
    · exact ⟨(fire_slots ..).trans (count_slots ..), (fire_dir ..).trans (count_dir ..)⟩
  obtain ⟨ended, dir, stat⟩ := slotDone_spec (x := slotTaken s p d) (n := slot.toNat) (by rw [kept.1]; exact mget_mset_self ..) (stopCode d) 0
  rw [opApertureDescriptor_stopped serves pops reached empty stop]
  refine ⟨_, ended, rfl, rfl, dir.trans kept.2, rfl, fun two => stat.bits _ ?_⟩
  rw [refused two]
  have same : evReserved (descTaken p (4096 * p.val + slot.toNat) d s) (1 + 4 * p.val) = evReserved s (1 + 4 * p.val) := evReserved_congr rfl rfl rfl _
  exact raised_refuseAt (same.trans (portEvent_unreserved run serves (by decide))) 0 (oPort 0 p)

theorem descriptor_waits (serves : portServes s p = true) (pops : popWaits s p = false) (reached : slotsReached s p = true)
    (empty : mget s.slots (4096 * p.val + slot.toNat) = none) (stop : apertureStop s p (descAtom d) (BitVec.ofNat 52 d.toNat) = none)
    (behind : earlierWrite s p s.ports.nextId = true) : ∃ x, mget (opApertureDescriptor p slot d s).slots (4096 * p.val + slot.toNat) = some x ∧
      x.busy = true ∧ x.waiting = true ∧ x.done = false ∧ x.id = s.ports.nextId := by
  rw [opApertureDescriptor_waits serves pops reached empty stop behind]
  exact ⟨slotTaken s p d, mget_mset_self .., rfl, rfl, rfl, rfl⟩

theorem apertureIssue_goes {x : Slot} (there : mget s.slots (4096 * p.val + slot.toNat) = some x) (waiting : x.waiting = true)
    (due : earlierWrite s p x.id = false) : opApertureIssue p slot s = apertureSend p slot.toNat s := by
  rw [opApertureIssue, there]
  exact if_pos (by simp [waiting, due])

theorem apertureIssue_none (none : mget s.slots (4096 * p.val + slot.toNat) = none) : opApertureIssue p slot s = s := by rw [opApertureIssue, none]

end Sys2Proof.Machine

namespace Sys2Proof
open Machine

/-- Settles O49: an agent's requests that admission takes go to their slices with their cells and numbers, its interrupts and configuration answers have
their records, and a descriptor is stopped with its code or waits for its port's earlier writes. -/
theorem agentRequests : Obligations.AgentRequests := by
  unfold Obligations.AgentRequests
  intro s run
  refine ⟨fun r w0 w1 serves on win adm => ⟨fun n tph cs v region unseen cells => ?_, fun w ro tph cs v region writes plain unseen cells => ?_,
      fun op size a b x cs v writes valid cells => ?_⟩,
    fun p d ro rest first due => ⟨_, live_follow run (opAgentWriteRelease p), agentWriteRelease_goes first due⟩,
    fun p none => ⟨_, live_follow run (opAgentWriteRelease p), agentWriteRelease_none none⟩,
    fun p hpa data serves irq page on some few => ⟨_, live_running run _, agentInterrupt_spec serves irq page on some few⟩,
    fun p tag serves => ⟨_, live_running run _, agentPasid_spec serves tag⟩, fun p serves => ⟨_, live_running run _, if_pos serves, ?_⟩,
    fun p cs data busy => ⟨⟨_, live_running run _, configCompletion_spec busy cs data⟩, ⟨_, live_running run _, configTimeout_spec busy⟩⟩,
    fun p slot d serves pops shut => ⟨_, live_follow run (opApertureDescriptor p slot d), apertureDescriptor_shut serves pops shut d⟩,
    fun r a n tph serves region => ?_, fun r a w ro tph serves region => ⟨_, live_follow run (opAgentPostedWrite r w ro tph), ?_⟩,
    fun p slot d serves pops reached empty => ⟨fun none => ?_, fun w0 w1 win writes op size aligned own earlier => ?_⟩,
    fun p slot x there waiting due => ⟨_, live_follow run (opApertureIssue p slot), apertureIssue_goes there waiting due⟩,
    fun p slot none => ⟨_, live_follow run (opApertureIssue p slot), apertureIssue_none none⟩⟩
  · obtain ⟨z, pass, eq, next⟩ := agentMemoryRead_spec serves on win rfl rfl adm region unseen cells
    exact ⟨_, z, live_follow run (opAgentMemoryRead r n tph), pass, eq, next⟩
  · obtain ⟨y, z, eq, line, own, outst⟩ := agentPostedWrite_spec serves on win rfl rfl adm region writes plain unseen cells
    exact ⟨_, y, z, live_follow run (opAgentPostedWrite r w ro tph), eq, line, own, outst⟩
  · obtain ⟨y, z, eq, kind, own⟩ := agentAtomic_spec serves on win rfl rfl adm writes valid cells
    exact ⟨_, y, z, live_follow run (opAgentAtomicop r op size a b), eq, kind, own⟩
  · exact (congrArg State.req (if_pos serves)).trans (fire_req ..)
  · have read : opAgentMemoryRead r n tph s = slotRead r a (max 1 (min n 64)) s := by
      rw [opAgentMemoryRead, region]
      exact if_pos serves
    exact ⟨_, live_follow run (opAgentMemoryRead r n tph), read, (congrArg State.req read).trans (slotRead_req ..)⟩
  · rw [opAgentPostedWrite, region]
    exact if_pos serves
  · obtain ⟨x, there, busy, done, dir, code, told⟩ := descriptor_windowless (d := d) run serves pops reached empty none
    exact ⟨_, x, live_follow run (opApertureDescriptor p slot d), there, busy, done, dir, code, told⟩
  · obtain ⟨n, outst, before⟩ := earlier
    obtain ⟨x, there, fields⟩ := descriptor_waits serves pops reached empty (apertureStop_own win writes op size aligned own) (earlierWrite_of_mget outst before)
    exact ⟨_, x, live_follow run (opApertureDescriptor p slot d), there, fields⟩

end Sys2Proof
end

section
/-! PROOFS. Doorbells and fences, this hub's own and those of other hubs (R276 to R284). -/

namespace Sys2Proof.Machine

variable {s t : State} {p : HPort} {slot : BitVec 12} {v : Word} {n : Nat} {f : Fence} {h : Hdr}

/-! ### A message with nothing in transit -/

theorem message_arrived (good : accepts s h = true) (empty : s.rx = []) (opc : Opc) (g : State → State) : message opc h g s = g s := by
  rw [message, if_pos good, takeRx_empty empty]

theorem message_discarded (bad : accepts s h = false) (empty : s.rx = []) (opc : Opc) (g : State → State) : message opc h g s = discardAt 0 0 h s := by
  have port : rxPort s opc h = 0 := by rw [rxPort, empty]; rfl
  have rx : (discardAt 0 0 h s).rx = [] := ((fire_rx ..).trans (count_rx ..)).trans empty
  rw [message_turned bad, turnAway, port, takeRx_empty rx]

/-! ### The end of a fence -/

/-- Keeping a fence's homes as written changes the ports' written homes only. -/
theorem keepWritten_ports (f : Fence) (s : State) : ∃ w, keepWritten f s = withPorts { s.ports with written := w } s := by
  unfold keepWritten
  generalize f.vectors = l
  induction l generalizing s with
  | nil => exact ⟨s.ports.written, rfl⟩
  | cons e l ih =>
    obtain ⟨w, eq⟩ := ih { s with ports := { s.ports with written := mupd [] s.ports.written e.1 fun l => (l ++ e.2).eraseDups } }
    exact ⟨w, eq⟩

theorem fenceEnds_spec {q k : Nat} (own : f.slot = some (q, k)) (n code : Nat) (s : State) :
    (fenceEnds n f code s).ports.fences = mdel s.ports.fences n ∧
      mget (fenceEnds n f code s).ports.bells (4096 * q + k) = some (false, true, code, s.time.ft) := by
  unfold fenceEnds
  split
  · next none => cases own.symm.trans none
  next q' k' eq =>
    obtain ⟨rfl, rfl⟩ := Prod.mk.inj (Option.some.inj (own.symm.trans eq))
    extract_lets bells owed _ x y
    have kept : y.ports.fences = mdel s.ports.fences n ∧ y.ports.bells = bells := by
      simp only [y]
      split
      · exact ⟨rfl, rfl⟩
      · obtain ⟨w, eq'⟩ := keepWritten_ports f x
        rw [eq']
        exact ⟨rfl, rfl⟩
    have done : (if f.qe then post f.qn 4 (k + 4096 * q) [mkWord [(0, 32, f.tag), (32, 3, code)], y.time.ft] y else y).ports = y.ports :=
      apply_ite_same State.ports (post_ports ..) rfl
    rw [done, kept.1, kept.2]
    exact ⟨rfl, mget_mset_self ..⟩

/-! ### Doorbells -/

/-- The ports that a doorbell's scope takes in (R276). -/
def ringPorts (p : HPort) (v : Word) : List Nat := if fld v 0 2 = 0 then [p.val] else List.range 16

/-- The vectors of written homes that a doorbell with P takes. -/
def ringVectors (p : HPort) (v : Word) (s : State) : SMap (List HubId) := if bit v 2 then vectorsOf s (ringPorts p v) else []

/-- The fence that a doorbell makes over the writes that are outstanding (R276 to R278). -/
def ringFence (p : HPort) (slot : BitVec 12) (v : Word) (n : Nat) (s : State) : Fence :=
  { slot := some (p.val, slot.toNat), src := hubId s, rtag := n, scope := fld v 0 2, persist := bit v 2, qe := bit v 3, qn := fld v 4 13,
    tc := fld v 17 3, lim := fld v 20 12, tag := fld v 32 32, covered := (s.ports.outst.filter fun e => e.2 ∈ ringPorts p v).map (·.1),
    members := if fld v 0 2 = 2 then ((members s ++ s.sweep).filter fun h => h ≠ hubId s && hubLive s h).eraseDups else [],
    homes := ((ringVectors p v s).flatMap (·.2)).eraseDups, vectors := ringVectors p v s, cel := if bit v 2 then queuedWrites s else [],
    lost := bit v 2 && poisonStored s }

/-- The block with a doorbell busy and its vectors taken. -/
def rung (p : HPort) (slot : BitVec 12) (v : Word) (s : State) : State :=
  { s with ports := { s.ports with bells := mset s.ports.bells (4096 * p.val + slot.toNat) (true, false, 0, 0),
                                   written := if bit v 2 then s.ports.written.filter fun e => e.1 ∉ ringPorts p v else s.ports.written } }

section
variable (serves : portServes s p = true) (pops : popWaits s p = false)
include serves pops

theorem doorbell_shut (shut : slotsReached s p = false) (v : Word) : opDoorbellRing p slot v s = refuseAt p 0 (oPort 0 p) s := by
  unfold opDoorbellRing
  extract_lets key busy scope
  rw [if_neg (by simp [serves]), if_neg (by simp [pops]), if_pos (by simp [shut])]

variable (reached : slotsReached s p = true)
include reached

theorem doorbell_busy (busy : (mgetD (false, false, 0, 0) s.ports.bells (4096 * p.val + slot.toNat)).1 = true) (v : Word) :
    opDoorbellRing p slot v s = fire (1 + 4 * p) 4 (oPort 0 p) s := by
  unfold opDoorbellRing
  extract_lets key busy' scope
  rw [if_neg (by simp [serves]), if_neg (by simp [pops]), if_neg (by simp [reached]), show busy' = true from busy]
  rfl

variable (idle : (mgetD (false, false, 0, 0) s.ports.bells (4096 * p.val + slot.toNat)).1 = false) (free : fenceNo s = some n)
include idle free

theorem opDoorbellRing_rung (v : Word) : opDoorbellRing p slot v s = if fld v 0 2 = 3 then fenceEnds n (ringFence p slot v n s) 3 s else
    (ringFence p slot v n s).members.foldl (fun s h => sendFnc n 1 (bit v 2) (fld v 17 3) h s) (setFence n (ringFence p slot v n s) (rung p slot v s)) := by
  unfold opDoorbellRing
  extract_lets key busy' scope
  rw [if_neg (by simp [serves]), if_neg (by simp [pops]), if_neg (by simp [reached]), show busy' = false from idle, free]
  rfl

/-- A doorbell of the reserved scope ends at once with CODE 3 (R277). -/
theorem doorbell_reserved (scope : fld v 0 2 = 3) :
    mget (opDoorbellRing p slot v s).ports.bells (4096 * p.val + slot.toNat) = some (false, true, 3, s.time.ft) := by
  rw [opDoorbellRing_rung serves pops reached idle free, if_pos scope]
  exact (fenceEnds_spec rfl n 3 s).2

/-- A doorbell of its port's or its hub's scope makes a fence over the writes that are outstanding there (R276). -/
theorem doorbell_fence (scope : fld v 0 2 < 2) : ∃ f, mget (opDoorbellRing p slot v s).ports.bells (4096 * p.val + slot.toNat) = some (true, false, 0, 0) ∧
    mget (opDoorbellRing p slot v s).ports.fences n = some f ∧ f.slot = some (p.val, slot.toNat) ∧ f.persist = bit v 2 ∧ f.tag = fld v 32 32 ∧
    f.members = [] ∧ f.rtag = n ∧ ∀ m q, (m, q) ∈ s.ports.outst → (fld v 0 2 = 1 ∧ q < 16 ∨ q = p.val) → m ∈ f.covered := by
  have alone : (ringFence p slot v n s).members = [] := if_neg (by omega)
  rw [opDoorbellRing_rung serves pops reached idle free, if_neg (by omega), alone]
  refine ⟨_, mget_mset_self .., mget_mset_self .., rfl, rfl, rfl, alone, rfl, fun m q out among => ?_⟩
  have covers : q ∈ ringPorts p v := by
    unfold ringPorts
    split
    · rcases among with ⟨one, -⟩ | rfl
      · omega
      · exact List.mem_singleton_self _
    · rcases among with ⟨-, low⟩ | rfl
      · exact List.mem_range.2 low
      · exact List.mem_range.2 p.isLt
  exact List.mem_map.2 ⟨(m, q), List.mem_filter.2 ⟨out, decide_eq_true covers⟩, rfl⟩

end

/-! ### A fence that waits for nothing -/

theorem fenceStep_plain (covered : f.covered = []) (plain : f.persist = false) (first : f.step = 0) (n : Nat) (s : State) : fenceStep n f s = s := by
  rw [fenceStep, if_pos first, if_pos (by simp [covered, plain])]

/-- The fences of this hub stand when the answers of others' go out. -/
theorem answerFences_own {q : Nat × Nat} (one : s.ports.fences = [(n, f)]) (own : f.slot = some q) : answerFences s = s := by
  have keep : s.ports.fences.filter (fun e => !(e.2.slot.isNone && fenceReady e.2)) = s.ports.fences := by simp [one, own]
  have none : s.ports.fences.filter (fun e => e.2.slot.isNone && fenceReady e.2) = [] := by simp [one, own]
  unfold answerFences
  rw [none, keep]
  rfl

theorem advanceFences_ready {q : Nat × Nat} (one : s.ports.fences = [(n, f)]) (own : f.slot = some q) (covered : f.covered = []) (plain : f.persist = false)
    (first : f.step = 0) : advanceFences s = s := by
  unfold advanceFences
  extract_lets go round
  have still : round s = s := by
    simp only [round, one, List.foldl_cons, List.foldl_nil, go, mget, if_true]
    exact fenceStep_plain covered plain first n s
  rw [still, still, still, still, still, answerFences_own one own]

theorem advanceFences_none (none : s.ports.fences = []) : advanceFences s = s := by
  unfold advanceFences
  extract_lets go round
  have still : round s = s := by simp only [round, none, List.foldl_nil]
  rw [still, still, still, still, still]
  unfold answerFences
  rw [none]
  show { s with ports := { s.ports with fences := [] } } = s
  rw [← none]

theorem fenceReady_plain (covered : f.covered = []) (members : f.members = []) (plain : f.persist = false) : fenceReady f = true := by
  simp [fenceReady, covered, members, plain]

theorem find_own (one : s.ports.fences = [(n, f)]) (own : f.slot = some (p.val, slot.toNat)) :
    (s.ports.fences.find? fun e => e.2.slot = some (p.val, slot.toNat)) = some (n, f) := by simp [one, own]

theorem mdel_one {α : Type} (n : Nat) (x : α) : mdel [(n, x)] n = [] := if_pos rfl

theorem fenceComplete_spec (one : s.ports.fences = [(n, f)]) (own : f.slot = some (p.val, slot.toNat)) (plain : f.persist = false) (covered : f.covered = [])
    (members : f.members = []) (first : f.step = 0) : (opFenceComplete p slot s).ports.fences = [] ∧
      mget (opFenceComplete p slot s).ports.bells (4096 * p.val + slot.toNat) = some (false, true, if f.dead then 1 else if f.lost then 2 else 0, s.time.ft) := by
  have still := advanceFences_ready one own covered plain first
  unfold opFenceComplete
  rw [still]
  dsimp only
  rw [find_own one own]
  dsimp only
  rw [if_pos (fenceReady_plain covered members plain)]
  obtain ⟨fences, bells⟩ := fenceEnds_spec own n (fenceCode f) s
  exact ⟨fences.trans (by rw [one, mdel_one]), bells⟩

theorem fenceComplete_none (none : s.ports.fences = []) (p : HPort) (slot : BitVec 12) : opFenceComplete p slot s = s := by
  unfold opFenceComplete
  rw [advanceFences_none none]
  dsimp only
  rw [none]
  rfl

theorem fenceLimit_spec (one : s.ports.fences = [(n, f)]) (own : f.slot = some (p.val, slot.toNat)) (limit : f.lim ≠ 0) :
    (opFenceLimitExpiry p slot s).ports.fences = [] ∧
      mget (opFenceLimitExpiry p slot s).ports.bells (4096 * p.val + slot.toNat) = some (false, true, 4, s.time.ft) := by
  unfold opFenceLimitExpiry
  rw [find_own one own]
  dsimp only
  rw [if_neg limit]
  obtain ⟨fences, bells⟩ := fenceEnds_spec own n 4 s
  exact ⟨fences.trans (by rw [one, mdel_one]), bells⟩

theorem fenceLimit_none (one : s.ports.fences = [(n, f)]) (own : f.slot = some (p.val, slot.toNat)) (endless : f.lim = 0) :
    opFenceLimitExpiry p slot s = s := by
  unfold opFenceLimitExpiry
  rw [find_own one own]
  exact if_pos endless

/-! ### Fences of other hubs -/

section
variable (good : accepts s h = true) (empty : s.rx = [])
include good empty

/-- A fence of another hub is opened over what is outstanding here (R280). -/
theorem fncHub_spec : ∃ f z, opFncHub h s = addForeign f z ∧ f.src = h.src ∧ f.rtag = h.rtag.toNat ∧ f.persist = h.xtra.toNat.testBit 2 ∧
    f.covered = s.ports.outst.map (fun e => e.1) ∧ (f.persist = true → z.ports.written = []) := by
  rw [opFncHub, message_arrived good empty]
  extract_lets pflag vs _ z
  have outst : z.ports.outst = s.ports.outst := apply_ite_same (fun z : State => z.ports.outst) rfl rfl
  refine ⟨_, z, rfl, rfl, rfl, rfl, by rw [outst], fun persist => ?_⟩
  have set : pflag = true := persist
  simp only [z, if_pos set]

/-- The last step of a fence of another hub at this home (R281). -/
theorem fncHomeStep_spec : ∃ f z, opFncHomeStep h s = advanceFences (homeStep (4096 + s.ports.nextFence) f z) ∧ f.persist = true ∧ f.src = h.src ∧
    z.hc = s.hc := by
  rw [opFncHomeStep, message_arrived good empty]
  exact ⟨_, _, rfl, rfl, rfl, rfl⟩

theorem cmpFence_ended (ended : mget s.ports.fences h.rtag.toNat = none) :
    opCmpFence h s = { s with ports := { s.ports with stale := (opCmpFence h s).ports.stale } } ∧
      mgetD [] (opCmpFence h s).ports.stale h.rtag.toNat = (mgetD [] s.ports.stale h.rtag.toNat).erase h.src := by
  have told : opCmpFence h s = { s with ports := { s.ports with stale := mupd [] s.ports.stale h.rtag.toNat fun l => l.erase h.src } } := by
    rw [opCmpFence, message_arrived good empty]
    dsimp only
    rw [ended]
  rw [told]
  exact ⟨rfl, mgetD_mput_self ..⟩

theorem cmpFence_member (open_ : mget s.ports.fences h.rtag.toNat = some f) (early : f.step < 2) :
    opCmpFence h s = advanceFences (setFence h.rtag.toNat { f with members := f.members.filter (· ≠ h.src) } s) := by
  rw [opCmpFence, message_arrived good empty]
  dsimp only
  rw [open_]
  dsimp only
  rw [if_neg (by omega)]

end

end Sys2Proof.Machine

namespace Sys2Proof
open Machine

/-- Settles O50: a doorbell makes a fence over what is outstanding or ends with its code, a fence with nothing left or at its limit ends, and the fences
of other hubs are opened, continued and answered. -/
theorem fences : Obligations.Fences := by
  unfold Obligations.Fences
  intro s run
  refine ⟨fun p slot v serves pops shut => ⟨_, live_follow run (opDoorbellRing p slot v), doorbell_shut serves pops shut v⟩,
    fun p slot v serves pops reached busy => ⟨_, live_follow run (opDoorbellRing p slot v), doorbell_busy serves pops reached busy v⟩,
    fun p slot v n serves pops reached free idle scope => ⟨_, live_follow run (opDoorbellRing p slot v), doorbell_reserved serves pops reached idle free scope⟩,
    fun p slot v n serves pops reached free idle scope => ?_,
    fun p slot n f one own plain covered members first =>
      ⟨_, live_follow run (opFenceComplete p slot), fenceComplete_spec one own plain covered members first⟩,
    fun p slot none => ⟨_, live_follow run (opFenceComplete p slot), fenceComplete_none none p slot⟩,
    fun p slot n f one own => ⟨fun limit => ⟨_, live_running run _, fenceLimit_spec one own limit⟩,
      fun endless => ⟨_, live_running run _, fenceLimit_none one own endless⟩⟩,
    fun h empty bad => ⟨discardAt 0 0 h s, rfl, ?_, ?_, ?_⟩, fun h empty good => ⟨?_, ?_, fun ended => ?_, fun f open_ early => ?_⟩⟩
  · obtain ⟨f, bells, there, fields⟩ := doorbell_fence serves pops reached idle free scope
    exact ⟨_, f, live_follow run (opDoorbellRing p slot v), bells, there, fields⟩
  · exact (live_follow run (opFncHub h)).trans (by rw [opFncHub, message_discarded bad empty])
  · exact (live_follow run (opFncHomeStep h)).trans (by rw [opFncHomeStep, message_discarded bad empty])
  · exact (live_follow run (opCmpFence h)).trans (by rw [opCmpFence, message_discarded bad empty])
  · obtain ⟨f, z, fields⟩ := fncHub_spec good empty
    exact ⟨_, f, z, live_follow run (opFncHub h), fields⟩
  · obtain ⟨f, z, fields⟩ := fncHomeStep_spec good empty
    exact ⟨_, f, z, live_follow run (opFncHomeStep h), fields⟩
  · exact ⟨_, live_follow run (opCmpFence h), cmpFence_ended good empty ended⟩
  · exact ⟨_, live_follow run (opCmpFence h), cmpFence_member good empty open_ early⟩

end Sys2Proof
end

section
/-! PROOFS. Messages that reach a line's home: requests, write-backs, answers and `Fin` (R98 to R137). -/

namespace Sys2Proof.Machine

variable {s t v : State} {h : Hdr} {l : LineAddr} {x : Txn}

/-! ### The directory and the home beside each other -/

/-- The home and what its rules read of the registers. -/
def homeSide (s : State) : Home × SMap Word × Part := (s.home, s.regs, s.part)

theorem homeSide_iff : homeSide t = homeSide s ↔ t.home = s.home ∧ t.regs = s.regs ∧ t.part = s.part := by
  simp only [homeSide, Prod.mk.injEq]

theorem homeSide_of_quiet (same : quiet t = quiet s) : homeSide t = homeSide s :=
  homeSide_iff.2 ⟨home_of_quiet same, regs_of_quiet same, part_of_quiet same⟩

theorem homeSide_dirPut (l : LineAddr) (e : DirEnt) (s : State) : homeSide (dirPut l e s) = homeSide s := by
  unfold dirPut
  split
  · exact apply_ite_same homeSide rfl rfl
  · refine apply_ite_same homeSide rfl ?_
    split
    · exact (homeSide_of_quiet (quiet_count ..)).trans rfl
    · rfl

theorem dirPut_hc (l : LineAddr) (e : DirEnt) (s : State) : (dirPut l e s).hc = s.hc ∧ (dirPut l e s).cel = s.cel := by
  unfold dirPut
  split
  · exact ⟨apply_ite_same State.hc rfl rfl, apply_ite_same State.cel rfl rfl⟩
  · split
    · exact ⟨rfl, rfl⟩
    · split
      · exact ⟨count_hc .., count_cel ..⟩
      · exact ⟨rfl, rfl⟩

theorem dirFindIn_congr (dir : t.dir = s.dir) (l : LineAddr) (k w : Nat) : dirFindIn t l k w = dirFindIn s l k w := by
  induction k generalizing w with
  | zero => rfl
  | succ k ih => rw [dirFindIn, dirFindIn, dir, ih]

theorem dirFree_congr (dir : t.dir = s.dir) (home : t.home = s.home) (l : LineAddr) (k w : Nat) : dirFree t l k w = dirFree s l k w := by
  induction k generalizing w with
  | zero => rfl
  | succ k ih => rw [dirFree, dirFree, dir, ih, dirKept, dirKept, home]

/-- What an entry put changes of the directory does not depend on the rest of the block. -/
theorem dirPut_congr (dir : t.dir = s.dir) (home : t.home = s.home) (l : LineAddr) (e : DirEnt) : (dirPut l e t).dir = (dirPut l e s).dir := by
  unfold dirPut
  rw [dirFindIn_congr dir, dirFree_congr dir home]
  cases dirFindIn s l 16 0 with
  | some k =>
    by_cases gone : e.st = .u ∧ e.busy = false
    · simp only [if_pos gone, dir]
    · simp only [if_neg gone, dir]
  | none =>
    by_cases empty : e.st = .u
    · simp only [if_pos empty, dir]
    · simp only [if_neg empty]
      cases dirFree s l 16 0 with
      | none => exact dir
      | some k => simp only [count_dir, dir]

/-! ### Writes to the cellar path -/

/-- What a write to the cellar path leaves of the directory and the home, with its number taken. -/
def CellarStepped (s t : State) : Prop := homeSide t = homeSide s ∧ t.dir = s.dir ∧ t.cel.next = s.cel.next + 1

theorem cellarStepped_fire (k c : Nat) (o : Obj) (h : CellarStepped s t) : CellarStepped s (fire k c o t) := by
  obtain ⟨side, dir, next⟩ := h
  exact ⟨(homeSide_of_quiet (quiet_fire ..)).trans side, (fire_dir ..).trans dir, (congrArg Cel.next (fire_cel ..)).trans next⟩

theorem cellarStepped_ite {u : State} {c : Prop} [Decidable c] (h : CellarStepped s t) (k : CellarStepped s u) : CellarStepped s (if c then t else u) := by
  split
  · exact h
  · exact k

theorem cellarPut_stepped (l : LineAddr) (d : Data) (mask : BitVec 64) (s : State) (cells : List Nat) (ent : Option Word) (drain : Bool)
    (cls : Option (Nat × Nat)) : CellarStepped s (cellarPut l d mask s cells ent drain cls) := by
  unfold cellarPut
  extract_lets n _ x y
  have done : CellarStepped s (doneReading cells x) := ⟨rfl, rfl, rfl⟩
  have told : CellarStepped s y := cellarStepped_fire 192 0 (oLine l) done
  obtain ⟨side, dir, next⟩ := told
  split
  · exact cellarStepped_ite ⟨(rfl : _ = homeSide y).trans side, (rfl : _ = y.dir).trans dir, (rfl : _ = y.cel.next + 0).trans next⟩ ⟨side, dir, next⟩
  · split
    · exact cellarStepped_fire 192 3 (oLine l) done
    · exact cellarStepped_ite (cellarStepped_fire 228 0 (oLine l) done) ⟨rfl, rfl, rfl⟩

theorem cellarWrite_stepped (l : LineAddr) (d : Data) (mask : BitVec 64) (s : State) : CellarStepped s (cellarWrite l d mask s) := by
  unfold cellarWrite
  obtain ⟨side, dir, next⟩ := cellarPut_stepped l d mask { s with hc := { s.hc with mbuf := s.hc.mbuf.map (mbWithout l mask) } } [] none false none
  exact ⟨side.trans rfl, dir.trans rfl, next.trans rfl⟩

/-! ### Requests -/

/-- A request's transaction as it passes the slice input. -/
def arrivedTxn (s : State) (h : Hdr) (o : Opc) (cs : List Nat) : Txn :=
  { newTxn (inLine s h.line) (.remote h) o h.tc.toNat (accountEpoch (epochNow s) h.epoch.toNat).1 with cells := cs, input := 24 }

theorem homeRequest_open {n : Nat} {cs : List Nat} (good : accepts s h = true) (empty : s.rx = []) (held : s.lar.held = [])
    (stays : handedBack s h.line = false) (early : (accountEpoch (epochNow s) h.epoch.toNat).2 = false)
    (adm : Admits s 24 h.tc.toNat (inLine s h.line) (accountEpoch (epochNow s) h.epoch.toNat).1) (cells : takeCells h.tc.toNat 1 n s = some (cs, v))
    (i : Instr) (o : Opc) (f : Txn → Txn) : homeRequest i o h n f s =
      homeReq (f (arrivedTxn s h o cs)) h (admitted 24 h.tc.toNat (accountEpoch (epochNow s) h.epoch.toNat).1 (inLine s h.line) v) := by
  have port : rxPort s o h = 0 := by rw [rxPort, empty]; rfl
  have epoch : ChargedTo (some h.epoch.toNat) (accountEpoch (epochNow s) h.epoch.toNat).1 s := .inr ⟨_, rfl, Prod.ext rfl early⟩
  have rx : ∀ k, (admitted k h.tc.toNat (accountEpoch (epochNow s) h.epoch.toNat).1 (inLine s h.line) v).rx = [] := fun k =>
    (rx_of_quiet (quiet_admitted_taken cells)).trans empty
  have port' : ∀ k, rxPort (admitted k h.tc.toNat (accountEpoch (epochNow s) h.epoch.toNat).1 (inLine s h.line) v) o h = 0 := fun k => by
    rw [rxPort, rx]
    rfl
  unfold homeRequest
  extract_lets l
  rw [if_neg (by simp [good]), if_neg (by simp [held]), if_neg (by simp [stays]), port]
  refine (admission_open (input := 24 + 0) adm epoch cells i _).trans ?_
  dsimp only
  rw [takeRx_empty (rx _), port']
  rfl

/-! ### Write-backs -/

/-- A line's entry without the copy of a hub that gives it up, its transaction standing (R102, R103). -/
def evicted (s : State) (g : HubId) (e : DirEnt) : DirEnt := { dirEvc s g e with busy := e.busy }

/-- An eviction of a copy that the entry names is taken from it (R102). -/
theorem onWriteBack_evict (none_ : txnOf s (inLine s h.line) = none) (named : h.src ∈ ptrs s (dirGet s (inLine s h.line))) :
    ∃ hd, onWriteBack h none s = send0 .wbAck h.src hd
      (dirPut (inLine s h.line) (evicted s h.src (dirGet s (inLine s h.line))) s) := by
  unfold onWriteBack
  extract_lets l ack apply
  rw [show txnOf s l = none from none_]
  have taken : apply s = ack (dirPut l (evicted s h.src (dirGet s l)) s) := by
    simp only [apply]
    rw [if_neg (by simp [show h.src ∈ ptrs s (dirGet s l) from named])]
    rfl
  exact ⟨_, taken⟩

theorem onWriteBack_unnamed (none_ : txnOf s (inLine s h.line) = none) (unnamed : h.src ∉ ptrs s (dirGet s (inLine s h.line)))
    (exact_ : (dirGet s (inLine s h.line)).st ≠ .a) :
    ∃ hd, onWriteBack h none s = send0 .wbAck h.src hd (fire 194 3 (oLine (inLine s h.line)) s) := by
  unfold onWriteBack
  extract_lets l ack apply
  rw [show txnOf s l = none from none_]
  have turned : apply s = ack (fire 194 3 (oLine l) s) := by
    simp only [apply]
    rw [if_pos (by simp [show h.src ∉ ptrs s (dirGet s l) from unnamed, show (dirGet s l).st ≠ .a from exact_])]
  exact ⟨_, turned⟩

theorem onWriteBack_data (none_ : txnOf s (inLine s h.line) = none) (d : Data) (excl : (dirGet s (inLine s h.line)).st = .x)
    (holder : (dirGet s (inLine s h.line)).p0 = h.src) : ∃ hd, onWriteBack h (some d) s = send0 .wbAck h.src hd
      (dirPut (inLine s h.line) (evicted (cellarWrite (inLine s h.line) d fullMask s) h.src (dirGet s (inLine s h.line))) (cellarWrite (inLine s h.line) d fullMask s)) := by
  unfold onWriteBack
  extract_lets l ack apply
  rw [show txnOf s l = none from none_]
  have taken : apply s = ack (dirPut l (evicted (cellarWrite l d fullMask s) h.src (dirGet s l))
      (cellarWrite l d fullMask s)) := by
    simp only [apply]
    rw [if_neg (by simp [show (dirGet s l).st = .x from excl, show (dirGet s l).p0 = h.src from holder])]
    rfl
  exact ⟨_, taken⟩

theorem evicted_congr (side : homeSide t = homeSide s) (g : HubId) (e : DirEnt) : evicted t g e = evicted s g e := by
  obtain ⟨-, regs, part⟩ := homeSide_iff.1 side
  have me : hubId t = hubId s := by rw [hubId, rdFld_congr part regs, hubId]
  simp only [evicted, dirEvc, me]

/-- The Larder replaced. -/
def withLar (lar : Lar) (s : State) : State := { s with lar := lar }

theorem inLine_withLar (lar : Lar) (s : State) (l : LineAddr) : inLine (withLar lar s) l = inLine s l := rfl

theorem dirGet_withLar (lar : Lar) (s : State) (l : LineAddr) : dirGet (withLar lar s) l = dirGet s l := rfl

theorem withCell_arrived {c : Nat} (good : accepts s h = true) (empty : s.rx = []) (found : takeProto h.tc.toNat 1 s = some (c, v)) (i : Instr) (opc : Opc)
    (f : List Nat → State → State) : withCell i opc h f s = f [c] v := by
  obtain ⟨lar, eq⟩ := takeProto_larder found
  rw [withCell, if_neg (by simp [good]), found]
  dsimp only
  rw [takeRx_empty (by rw [show v = _ from eq]; exact empty)]

section
variable (good : accepts s h = true) (empty : s.rx = [])
include good empty

theorem opEvc_named (none_ : txnOf s (inLine s h.line) = none) (named : h.src ∈ ptrs s (dirGet s (inLine s h.line))) :
    (opEvc h s).home = s.home ∧ (opEvc h s).hc = s.hc ∧ (opEvc h s).dir =
      (dirPut (inLine s h.line) (evicted s h.src (dirGet s (inLine s h.line))) s).dir := by
  obtain ⟨hd, eq⟩ := onWriteBack_evict none_ named
  rw [opEvc, message_arrived good empty, eq]
  exact ⟨(home_of_quiet (quiet_send0 ..)).trans (homeSide_iff.1 (homeSide_dirPut ..)).1, (hc_of_quiet (quiet_send0 ..)).trans (dirPut_hc ..).1,
    dir_of_quiet (quiet_send0 ..)⟩

theorem opEvc_unnamed (none_ : txnOf s (inLine s h.line) = none) (unnamed : h.src ∉ ptrs s (dirGet s (inLine s h.line)))
    (exact_ : (dirGet s (inLine s h.line)).st ≠ .a) : (opEvc h s).dir = s.dir ∧ (opEvc h s).hc = s.hc := by
  obtain ⟨hd, eq⟩ := onWriteBack_unnamed none_ unnamed exact_
  have same : quiet (send0 .wbAck h.src hd (fire 194 3 (oLine (inLine s h.line)) s)) = quiet s := (quiet_send0 ..).trans (quiet_fire ..)
  rw [opEvc, message_arrived good empty, eq]
  exact ⟨dir_of_quiet same, hc_of_quiet same⟩

/-- Write-back data of the exclusive holder goes to the cellar path, and the entry is freed (R103). -/
theorem opWbd_spec {c : Nat} (none_ : txnOf s (inLine s h.line) = none) (excl : (dirGet s (inLine s h.line)).st = .x)
    (holder : (dirGet s (inLine s h.line)).p0 = h.src) (found : takeProto h.tc.toNat 1 s = some (c, v)) (d : Data) :
    (opWbd h d s).cel.next = s.cel.next + 1 ∧ (opWbd h d s).dir =
      (dirPut (inLine s h.line) (evicted s h.src (dirGet s (inLine s h.line))) s).dir := by
  obtain ⟨lar, eq⟩ := takeProto_larder found
  obtain ⟨lar', done⟩ : ∃ lar', doneReading [c] v = withLar lar' s := ⟨_, by rw [show v = _ from eq]; rfl⟩
  obtain ⟨hd, eq'⟩ := onWriteBack_data (s := withLar lar' s) none_ d excl holder
  rw [inLine_withLar, dirGet_withLar] at eq'
  obtain ⟨side, dir, next⟩ := cellarWrite_stepped (inLine s h.line) d fullMask (withLar lar' s)
  have side' : homeSide (cellarWrite (inLine s h.line) d fullMask (withLar lar' s)) = homeSide s := side.trans rfl
  rw [opWbd, withCell_arrived good empty found, done, eq']
  refine ⟨(congrArg Cel.next ((cel_of_quiet (quiet_send0 ..)).trans (dirPut_hc ..).2)).trans next, (dir_of_quiet (quiet_send0 ..)).trans ?_⟩
  refine (dirPut_congr (s := s) (dir.trans rfl) (homeSide_iff.1 side').1 _ _).trans ?_
  exact congrArg (fun e => (dirPut (inLine s h.line) e s).dir) (evicted_congr side' h.src (dirGet s (inLine s h.line)))

end

/-! ### Answers to snoops -/

theorem onAnswer_none (none_ : txnOf s (inLine s h.line) = none) (e : Bool) (data : Option Data) : onAnswer h e data s = s := by
  unfold onAnswer
  extract_lets l
  rw [show txnOf s l = none from none_]

section
variable {y : SnpOut} (found : txnOf s (inLine s h.line) = some x) (snps : x.snps = [y]) (hub : y.hub = h.src) (ans : y.ans = none)
  (serial : h.xtra.toNat % 2 ^ 32 = x.tsn) (probing : x.probing = false)
include found snps hub ans serial probing

/-- The answer to the one snoop of a transaction is noted, and the transaction goes on (R121). -/
theorem onAnswer_one (e : Bool) (data : Option Data) : onAnswer h e data s = progress (inLine s h.line) (setTxn { x with
    snps := [{ y with ans := some ⟨e, h.fw, h.d, h.g, false⟩ }], dirty := data.orElse fun _ => x.dirty } s) := by
  unfold onAnswer
  extract_lets l a
  rw [show txnOf s l = some x from found]
  have serial' : h.xtra.toNat % 4294967296 = x.tsn := serial
  cases data with
  | none => simp [snps, hub, ans, serial', probing, updFirst, l, a]
  | some d => simp [snps, hub, ans, serial', probing, updFirst, l, a]

end

/-! ### The end of a transaction -/

theorem homeSide_fire (k c : Nat) (o : Obj) (s : State) : homeSide (fire k c o s) = homeSide s := homeSide_of_quiet (quiet_fire ..)

theorem homeSide_setCacheSt (l : LineAddr) (st : St) (s : State) : homeSide (setCacheSt l st s) = homeSide s := by
  unfold setCacheSt
  split
  · rfl
  · exact apply_ite_same homeSide rfl rfl

theorem homeSide_makeL (l : LineAddr) (s : State) : homeSide (makeL l s) = homeSide s :=
  (homeSide_dirPut ..).trans ((homeSide_fire ..).trans ((cellarWrite_stepped ..).1.trans (homeSide_setCacheSt ..)))

theorem homeSide_reclaimEntry (g : HubId) (l : LineAddr) (s : State) : homeSide (reclaimEntry g l s) = homeSide s :=
  apply_ite_same homeSide (homeSide_makeL ..) (apply_ite_same homeSide (homeSide_dirPut ..) rfl)

theorem homeSide_setBusy (l : LineAddr) (b : Bool) (s : State) : homeSide (setBusy l b s) = homeSide s := apply_ite_same homeSide rfl (homeSide_dirPut ..)

theorem txnOf_congr (home : t.home = s.home) (l : LineAddr) : txnOf t l = txnOf s l := by rw [txnOf, home, txnOf]

/-- A line's transaction that ends leaves the line without one. -/
theorem txnOf_endTxn (x : Txn) (s : State) : txnOf (endTxn x s) x.line = none := by
  unfold endTxn
  extract_lets _ z
  have side : homeSide (setBusy x.line false (match x.rq with
      | .remote h => if hubLive z h.rqh then z else reclaimEntry h.rqh x.line z
      | _ => z)) = homeSide z := by
    refine (homeSide_setBusy ..).trans ?_
    split
    · exact apply_ite_same homeSide rfl (homeSide_reclaimEntry ..)
    · rfl
  have none_ : txnOf z x.line = none := List.find?_eq_none.2 fun y among => by
    have other := (List.mem_filter.1 among).2
    simpa using other
  exact (txnOf_congr (homeSide_iff.1 side).1 _).trans none_

theorem find?_updFirst_line {y : Txn} (l : LineAddr) (line : y.line = l) {xs : List Txn} (found : (xs.find? fun t => t.line = l) = some x) :
    ((updFirst (fun t => t.line = y.line) (fun _ => y) xs).find? fun t => t.line = l) = some y := by
  induction xs with
  | nil => cases found
  | cons z xs ih =>
    by_cases here : z.line = l
    · simp [updFirst, line, here]
    · rw [List.find?_cons_of_neg (by simp [here])] at found
      rw [updFirst, if_neg (by simp [line, here]), List.find?_cons_of_neg (by simp [here])]
      exact ih found

theorem txnOf_setTxn {y : Txn} (found : txnOf s l = some x) (line : y.line = l) : txnOf (setTxn y s) l = some y := find?_updFirst_line l line found

theorem line_of_txnOf (found : txnOf s l = some x) : x.line = l := by simpa using List.find?_some found

theorem checkEnd_ends (found : txnOf s l = some x) (answered : x.answered = true) (fin : x.fin = true) (whole : x.step = false) (all : allAnswered x = true) :
    txnOf (checkEnd l s) l = none := by
  rw [checkEnd, found]
  dsimp only
  rw [if_pos (by simp [answered, fin, whole, all]), ← line_of_txnOf found]
  exact txnOf_endTxn x s

/-- A transaction whose requester has sent `Fin`. -/
def finNoted (x : Txn) : Txn := { x with fin := true, last := none }

/-- `Fin` of an answered transaction with nothing left ends it (R123). -/
theorem onFin_spec {q : Hdr} (found : txnOf s (inLine s h.line) = some x) (remote : x.rq = .remote q) (same : q.rqh = h.rqh) (answered : x.answered = true)
    (whole : x.step = false) (all : allAnswered x = true) : txnOf (onFin h s) (inLine s h.line) = none := by
  unfold onFin
  extract_lets l
  rw [show txnOf s l = some x from found]
  dsimp only
  split
  · next q' eq =>
    obtain rfl := Rq.remote.inj (remote.symm.trans eq)
    rw [if_pos same]
    have line : x.line = l := line_of_txnOf found
    exact checkEnd_ends (txnOf_setTxn (y := finNoted x) found line) answered rfl whole all
  · next other => exact absurd remote (other q)

theorem onFin_none (none_ : txnOf s (inLine s h.line) = none) : onFin h s = s := by
  unfold onFin
  extract_lets l
  rw [show txnOf s l = none from none_]

section
variable (good : accepts s h = true) (empty : s.rx = [])
include good empty

theorem opAck_none (none_ : txnOf s (inLine s h.line) = none) : opAck h s = s ∧ opAcke h s = s ∧ opFin h s = s := by
  rw [opAck, opAcke, opFin, message_arrived good empty, message_arrived good empty, message_arrived good empty]
  exact ⟨onAnswer_none none_ .., onAnswer_none none_ .., onFin_none none_⟩

end

end Sys2Proof.Machine

namespace Sys2Proof
open Machine

/-- Settles O51: a request that its home takes passes the slice input with its epoch and cells, and write-backs, answers and `Fin` act on the entry and the
transaction of their line. -/
theorem homeMessages : Obligations.HomeMessages := by
  unfold Obligations.HomeMessages
  intro s h run empty good l e t
  refine ⟨fun held stays early adm => ⟨fun cs v cells => ?_, fun cs v d cells => ?_⟩, fun none_ named => ⟨_, live_follow run (opEvc h), opEvc_named good empty none_ named⟩,
    fun none_ unnamed exact_ => ⟨_, live_follow run (opEvc h), opEvc_unnamed good empty none_ unnamed exact_⟩,
    fun d c v none_ excl holder found => ⟨_, live_follow run (opWbd h d), opWbd_spec good empty none_ excl holder found d⟩,
    fun x y found snps hub ans serial probing => ⟨⟨_, live_follow run (opAck h), ?_⟩, ⟨_, live_follow run (opAcke h), ?_⟩, fun d c v taken => ⟨_, live_follow run (opAckd h d), ?_⟩⟩,
    fun none_ => ?_, fun x q found remote same answered whole all => ⟨_, live_follow run (opFin h), ?_⟩⟩
  · have open_ : ∀ i o f, homeRequest i o h 1 f s = _ := fun i o f => homeRequest_open good empty held stays early adm cells i o f
    refine ⟨admitted 24 h.tc.toNat e l v, passed_admitted cells, hc_of_quiet (quiet_admitted_taken cells), ?_, ?_, ?_, ?_, fun d => ?_, fun d => ?_⟩
    · exact (live_follow run (opRds h)).trans (by rw [opRds, open_]; rfl)
    · exact (live_follow run (opRdx h)).trans (by rw [opRdx, open_]; rfl)
    · exact (live_follow run (opRdo h)).trans (by rw [opRdo, open_]; rfl)
    · exact (live_follow run (opUpg h)).trans (by rw [opUpg, open_]; rfl)
    · exact (live_follow run (opWrl h d)).trans (by rw [opWrl, open_]; rfl)
    · exact (live_follow run (opWrp h d)).trans (by rw [opWrp, open_]; rfl)
  · refine ⟨admitted 24 h.tc.toNat e l v, passed_admitted cells, hc_of_quiet (quiet_admitted_taken cells), ?_⟩
    exact (live_follow run (opAtm h d)).trans (by rw [opAtm, homeRequest_open good empty held stays early adm cells]; rfl)
  · rw [opAck, message_arrived good empty, onAnswer_one found snps hub ans serial probing]
    rfl
  · rw [opAcke, message_arrived good empty, onAnswer_one found snps hub ans serial probing]
    rfl
  · obtain ⟨lar, eq⟩ := takeProto_larder taken
    obtain ⟨lar', done⟩ : ∃ lar', doneReading [c] v = withLar lar' s := ⟨_, by rw [show v = _ from eq]; rfl⟩
    rw [opAckd, withCell_arrived good empty taken, done]
    exact onAnswer_one (s := withLar lar' s) found snps hub ans serial probing false (some d)
  · obtain ⟨ack, acke, fin⟩ := opAck_none good empty none_
    exact ⟨⟨_, live_follow run (opAck h), ack⟩, ⟨_, live_follow run (opAcke h), acke⟩, ⟨_, live_follow run (opFin h), fin⟩⟩
  · rw [opFin, message_arrived good empty]
    exact onFin_spec found remote same answered whole all

end Sys2Proof
end

section
/-! PROOFS. What waits goes on once it can (R117 to R126, R153, R170 to R182): one waiter of each row, and the rows with none. -/

namespace Sys2Proof.Machine

variable {s : State} {line l : LineAddr} {t : Txn} {k : Fin 32} {d : Demand}

theorem takeFirst_one {α : Type} {p : α → Bool} {x : α} (due : p x = true) : takeFirst p [x] = some (x, []) := if_pos due

/-! ### Demands that wait -/

/-- The one demand that waits, taken up again. -/
def goneOn (d : Demand) (s : State) : State := waitsFirst d (asNow (inLine s d.line) (demand d) { s with req := { s.req with waits := [] } })

theorem retry_one {w : Why} (one : s.req.waits = [(w, d)]) {p : Why → Demand → Bool} (due : p w d = true) : retry p s = goneOn d s := by
  have taken : takeFirst (fun x : Why × Demand => p x.1 x.2) [(w, d)] = some ((w, d), []) := takeFirst_one due
  rw [retry, one, taken]
  rfl

theorem retry_none (none_ : s.req.waits = []) (p : Why → Demand → Bool) : retry p s = s := by
  rw [retry, none_]
  rfl

theorem missRegisterFree_one (one : s.req.waits = [(.reg, d)]) (free : (mrPick s (sliceOf d.line) d.tc (decide (d.kind = .prefetch))).isSome = true)
    (slice : k.val = sliceOf d.line) : opMissRegisterFree k s = goneOn d s := by
  unfold opMissRegisterFree
  extract_lets can firstDev due
  have goes : due .reg d = true := by
    simp only [due, can]
    rw [slice, free]
    simp
  rw [if_pos (by simp [one, goes]), retry_one one goes]

theorem missRegisterFree_none (none_ : s.req.waits = []) (k : Fin 32) : opMissRegisterFree k s = cleanAgain k s := by
  unfold opMissRegisterFree
  extract_lets can firstDev due
  exact if_neg (by simp [none_])

theorem hostFilterWayFree_none (none_ : s.req.waits = []) (regs : s.req.mrs = []) (k : Fin 32) (set : Nat) : opHostFilterWayFree k set s = s := by
  unfold opHostFilterWayFree
  rw [none_, regs]
  rfl

theorem nextHf_one {mine : LineAddr → Bool} (one : s.req.waits = [(.hf, d)]) (regs : s.req.mrs = []) (own : mine d.line = true) : nextHf mine s = goneOn d s := by
  unfold nextHf
  rw [regs]
  exact retry_one one (by simp [own])

theorem hostFilterWayFree_one (one : s.req.waits = [(.hf, d)]) (regs : s.req.mrs = []) (slice : sliceOf d.line = k.val)
    (room : hfRoom s d.line = true ∨ hfLeaving s d.line = 0) : opHostFilterWayFree k (tabSet d.line.toNat) s = goneOn d s := by
  unfold opHostFilterWayFree
  extract_lets mine ls
  have own : mine d.line = true := by simp [mine, slice]
  have one_ : ls.filter mine = [d.line] := by simp [ls, one, regs, own]
  rw [one_]
  have goes : (hfRoom s d.line || decide (hfLeaving s d.line < [d.line].length)) = true := by
    rcases room with room | room <;> simp [room]
  exact (if_pos goes).trans (nextHf_one one regs own)

theorem cacheWayFree_none (none_ : s.req.waits = []) (line : LineAddr) : opCacheWayFree line s = s := by
  unfold opCacheWayFree
  extract_lets set
  rw [retry_none none_]
  exact ite_self _

theorem cacheWayFree_one (one : s.req.waits = [(.way, d)]) (set : cacheSet s d.line = cacheSet s (inLine s line)) (room : candidates s (cacheSet s d.line) ≠ []) :
    opCacheWayFree line s = goneOn d s := by
  unfold opCacheWayFree
  extract_lets set'
  rw [if_neg (by simpa [set', ← set] using room)]
  exact retry_one one (by simp [set', set])

/-! ### The slice inputs -/

theorem inputHeads_one (one : s.home.input = [t]) (slice : sliceOf t.line = k.val) : inputHeads s k = [t] := by
  simp [inputHeads, one, slice]

/-- The block with the one request at an input granted. -/
def inputTaken (k : Nat) (t : Txn) (s : State) : State :=
  granted k (inputIndex t, rankOf s k (inputIndex t)) { s with home := { s.home with input := [] } }

section
variable {h : Hdr} (one : s.home.input = [t]) (slice : sliceOf t.line = k.val) (entry : (httPick s k t).isSome = true) (room : waitsMbuf s t = false)
include one slice entry room

theorem inputReady_one : inputReady s k = [t] := by simp [inputReady, inputHeads_one one slice, entry, room]

theorem inputGrant_one (remote : t.rq = .remote h) (trained : square s k (squareNow s) / 16 % 8 ≠ 2) (small : inputIndex t < 512) :
    inputGrant k s = asEntering (homeEnter t h) (inputTaken k t s) := by
  have taken : takeFirst (fun x => decide (x = t)) (granted k (inputIndex t, rankOf s k (inputIndex t)) s).home.input = some (t, []) := by
    rw [show (granted k (inputIndex t, rankOf s k (inputIndex t)) s).home.input = [t] from one]
    exact takeFirst_one (decide_eq_true rfl)
  unfold inputGrant
  rw [inputReady_one one slice entry room]
  extract_lets ts
  rw [if_neg trained, show ts.map (fun t => (inputIndex t, t.tc, t.epoch)) = [(inputIndex t, t.tc, t.epoch)] from rfl, arbitrateAmong_one s k (squareNow s) small]
  dsimp only
  have hit : (ts.find? fun x => inputIndex x = inputIndex t) = some t := by simp [ts]
  rw [hit]
  dsimp only
  rw [enterInput, taken]
  dsimp only
  rw [remote]
  rfl

end

theorem httEntryFree_retraining (trained : square s k (squareNow s) / 16 % 8 = 2) : opHttEntryFree k s = s := by
  unfold opHttEntryFree inputGrant
  extract_lets ts
  exact if_pos trained

/-! ### The merging buffer -/

section
variable (opened : s.home.opened = []) (waiting : s.home.waiting = []) (regs : s.req.mrs = [])
include opened waiting regs

theorem mergingEntryFree_row (k : Fin 32) : opMergingEntryFree k s = if (inputReady s k).isEmpty then
    retry (fun w d => w = .mbuf && decide (sliceOf d.line = k.val) && !mbufHolds s d) s else inputGrant k s := by
  unfold opMergingEntryFree
  extract_lets due
  rw [opened, regs, waiting]
  rfl

omit opened waiting regs in
theorem inputReady_none (input : s.home.input = []) (k : Nat) : inputReady s k = [] := by
  rw [inputReady, inputHeads, input]
  rfl

theorem mergingEntryFree_none (input : s.home.input = []) (none_ : s.req.waits = []) (k : Fin 32) : opMergingEntryFree k s = s := by
  rw [mergingEntryFree_row opened waiting regs, inputReady_none input, retry_none none_]
  exact if_pos rfl

theorem mergingEntryFree_one (one : s.req.waits = [(.mbuf, d)]) (input : s.home.input = []) (slice : sliceOf d.line = k.val) (room : mbufHolds s d = false) :
    opMergingEntryFree k s = goneOn d s := by
  rw [mergingEntryFree_row opened waiting regs, inputReady_none input]
  exact (if_pos rfl).trans (retry_one one (by simp [slice, room]))

end

/-! ### Waiting transactions -/

section
variable (one : s.home.waiting = [t]) (at_ : t.line = l) (free : blocked s l = false)
include one at_ free

theorem decideOldest_full (full : waitsMbuf s t = true) (tried : t.tries ≠ 0) : decideOldest l s = s := by
  unfold decideOldest
  rw [if_neg (by simp [free]), one, takeFirst_one (p := fun t : Txn => decide (t.line = l)) (decide_eq_true at_)]
  dsimp only
  rw [if_pos full, if_pos tried]

theorem decideOldest_fetch (room : waitsMbuf s t = false) (hub : (rqHub t).isSome = true) (miss : tagMiss s (cacheSet s l) = true)
    (unasked : cacheSet s l ∉ s.hc.fetch) : decideOldest l s = tagFetch (cacheSet s l) s := by
  unfold decideOldest
  rw [if_neg (by simp [free]), one, takeFirst_one (p := fun t : Txn => decide (t.line = l)) (decide_eq_true at_)]
  dsimp only
  rw [if_neg (by simp [room]), if_pos (by simp [hub, miss]), if_neg unasked]

theorem decideOldest_decides (room : waitsMbuf s t = false) (hit : (rqHub t).isSome = true → tagMiss s (cacheSet s l) = false) :
    decideOldest l s = asNow l (decideTxn t) (if (rqHub t).isSome then tagUse (cacheSet s l) { s with home := { s.home with waiting := [] } }
      else { s with home := { s.home with waiting := [] } }) := by
  unfold decideOldest
  rw [if_neg (by simp [free]), one, takeFirst_one (p := fun t : Txn => decide (t.line = l)) (decide_eq_true at_)]
  dsimp only
  rw [if_neg (by simp [room]), if_neg (by simpa using hit)]

end

theorem decideOldest_blocked (shut : blocked s l = true) : decideOldest l s = s := if_pos shut

theorem releaseAfterMiss_ready {x : DueRel} (one : s.req.due = [x]) (at_ : x.line = inLine s line) (ready : releaseReady s x.line x.data.isSome = true) :
    opReleaseAfterMiss line s = releaseHosts x.line x.tc x.epoch { s with req := { s.req with due := [] } } x.data := by
  have free : (mrOf s x.line).isSome = false := by
    unfold releaseReady at ready
    simp only [Bool.and_eq_true] at ready
    obtain ⟨⟨none_, -⟩, -⟩ := ready
    simpa using none_
  unfold opReleaseAfterMiss
  extract_lets l
  rw [show l = x.line from at_.symm, if_neg (by simp [free]), one, takeFirst_one (p := fun y : DueRel => decide (y.line = x.line)) (decide_eq_true rfl)]
  dsimp only
  rw [if_neg (by simp [ready])]

theorem releaseAfterMiss_unready {x : DueRel} (one : s.req.due = [x]) (at_ : x.line = inLine s line) (unready : releaseReady s x.line x.data.isSome = false) :
    opReleaseAfterMiss line s = s := by
  unfold opReleaseAfterMiss
  extract_lets l
  rw [show l = x.line from at_.symm]
  by_cases missing : (mrOf s x.line).isSome
  · exact if_pos missing
  · rw [if_neg missing, one, takeFirst_one (p := fun y : DueRel => decide (y.line = x.line)) (decide_eq_true rfl)]
    exact if_pos (by simp [unready])

/-! ### Ways and frames -/

theorem directoryWayFree_next {set : Nat} (one : s.home.wayWait = [(k.val, set, t)]) (next : nextAlloc s k set = some (k.val, set, t)) :
    opDirectoryWayFree k set s = asNow t.line (fun s => if blocked s t.line then waitPut { t with step := false, turn := true } s
      else decideTxn { t with step := false, turn := true, way := none } s) { s with home := { s.home with wayWait := [] } } := by
  unfold opDirectoryWayFree
  rw [next]
  dsimp only
  rw [one, takeFirst_one (p := fun y => decide (y = (k.val, set, t))) (decide_eq_true rfl)]

theorem evictionEntryFree_one {e : FrameEv} (one : s.hc.evs = [e]) (idle : e.started = false)
    (slice : e.way / 16 / (if isH1 s then 65536 else 7168) = k.val) (room : evictRoom s e.way = true) :
    opEvictionEntryFree k s = startEvict e { s with hc := { s.hc with evs := [] } } := by
  unfold opEvictionEntryFree
  extract_lets sets
  have taken : takeFirst (fun e => !e.started && decide (e.way / 16 / sets = k.val) && evictRoom s e.way) s.hc.evs = some (e, []) := by
    rw [one]
    exact takeFirst_one (by simp [idle, room, sets, slice])
  rw [taken]

theorem evictionEntryFree_none (none_ : s.hc.evs = []) (k : Fin 32) : opEvictionEntryFree k s = s := by
  unfold opEvictionEntryFree
  extract_lets sets
  rw [none_]
  rfl

theorem frameDone_none (none_ : s.hc.evs = []) (n : Nat) : frameDone n s = s := by
  rw [frameDone, none_]
  rfl

theorem frameDone_one {e : FrameEv} (one : s.hc.evs = [e]) (started : e.started = true) (empty : (getWay s e.way).st = []) (steps : s.hst.steps = []) :
    (frameDone e.way s).hc.evs = [] := by
  have hit : (s.hc.evs.find? fun x => x.way = e.way) = some e := by simp [one]
  rw [frameDone, hit]
  dsimp only
  rw [if_pos (by simp [started, empty, steps])]
  dsimp only
  rw [one]
  simp

/-! ### Pending flushes and Keep windows -/

section
variable {m : Maint} (one : s.hc.released = [inLine s line]) (op : s.hc.maint = some m)
include one op

theorem flushPending_flush (flush : m.flush = true) : opFlushPendingApply line s = releaseHosts (inLine s line) 7 (epochNow s)
    (drainOf (fun x => x.toNat / 4 = (inLine s line).toNat / 4) { s with hc := { s.hc with released := [] } }) := by
  unfold opFlushPendingApply
  extract_lets l
  rw [one, takeFirst_one (p := fun y : LineAddr => decide (y = l)) (decide_eq_true rfl)]
  dsimp only
  rw [op]
  dsimp only
  rw [if_pos flush]
  rfl

theorem flushPending_clean (clean : m.flush = false) : opFlushPendingApply line s = withHosts (inLine s line) 1
    (exclHost { s with hc := { s.hc with released := [] } } (inLine s line)) 7 (epochNow s) (.clean 0) (cleanNow 0 (inLine s line))
    { s with hc := { s.hc with released := [] } } := by
  unfold opFlushPendingApply
  extract_lets l
  rw [one, takeFirst_one (p := fun y : LineAddr => decide (y = l)) (decide_eq_true rfl)]
  dsimp only
  rw [op]
  dsimp only
  rw [if_neg (by simp [clean])]
  rfl

end

theorem keepWindowClose_one (one : s.home.keep = [inLine s line]) (snoops : s.home.heldSnp = []) (steps : s.home.heldStep = []) :
    opKeepWindowClose line s = { s with home := { s.home with keep := [] } } := by
  unfold opKeepWindowClose
  extract_lets l now held src z y
  rw [if_neg (by simp [one, l])]
  have unheld : ¬held := by simp [held, steps]
  have none_ : now = [] := by simp [now, snoops]
  have closed : z = { s with home := { s.home with keep := [] } } := by simp [z, src, one, snoops, steps, l]
  have whole : y = z := if_neg unheld
  rw [none_, whole, closed]
  rfl

theorem keepWindowClose_none (absent : inLine s line ∉ s.home.keep) : opKeepWindowClose line s = s := if_pos absent

/-! ### Responses kept -/

theorem resendTimeout_none (none_ : txnOf s (inLine s line) = none) : opResponseResendTimeout line s = s := by
  unfold opResponseResendTimeout
  extract_lets l
  rw [show txnOf s l = none from none_]

section
variable {m : Msg} (found : txnOf s (inLine s line) = some t) (last : t.last = some m)
include found last

theorem resendTimeout_over (past : t.answered = false ∨ t.fin = true) : opResponseResendTimeout line s = s := by
  unfold opResponseResendTimeout
  extract_lets l
  rw [show txnOf s l = some t from found]
  dsimp only
  rw [last]
  exact if_pos (by simpa using past)

variable (answered : t.answered = true) (open_ : t.fin = false)
include answered open_

theorem resendTimeout_spent (spent : 3 ≤ t.tries) : opResponseResendTimeout line s = declareDead m.dst 0 s := by
  unfold opResponseResendTimeout
  extract_lets l
  rw [show txnOf s l = some t from found]
  dsimp only
  rw [last]
  dsimp only
  rw [if_neg (by simp [answered, open_]), if_pos spent]

theorem resendTimeout_other {p : Nat} (few : t.tries < 3)
    (port : otherPort (setTxn { t with tries := t.tries + 1 } s) m.dst t.ports.head? t.tries = some p) : opResponseResendTimeout line s =
      egress p (sliceInput (sliceOf (inLine s line))) [] m (setTxn { t with tries := t.tries + 1 } s) := by
  unfold opResponseResendTimeout
  extract_lets l
  rw [show txnOf s l = some t from found]
  dsimp only
  rw [last]
  dsimp only
  rw [if_neg (by simp [answered, open_]), if_neg (by omega), ← last, port]

theorem resendTimeout_routed (few : t.tries < 3)
    (port : otherPort (setTxn { t with tries := t.tries + 1 } s) m.dst t.ports.head? t.tries = none) : opResponseResendTimeout line s =
      dispatch (sliceInput (sliceOf (inLine s line))) [] m (setTxn { t with tries := t.tries + 1 } s) := by
  unfold opResponseResendTimeout
  extract_lets l
  rw [show txnOf s l = some t from found]
  dsimp only
  rw [last]
  dsimp only
  rw [if_neg (by simp [answered, open_]), if_neg (by omega), ← last, port]

end

/-- A response kept for sending again that has stood long enough is dropped (R129). -/
theorem retentionExpiry_one {x : LineAddr × Nat × Nat × Msg} (one : s.home.kept = [x]) (at_ : x.1 = inLine s line) :
    opResponseRetentionExpiry line s = { s with home := { s.home with kept := [] } } := by
  unfold opResponseRetentionExpiry
  extract_lets l
  have hit : (s.home.kept.find? fun x => x.1 = l) = some x := by simp [one, l, at_]
  rw [hit]
  dsimp only
  rw [one]
  simp [l, at_]

theorem exec_resendTimeout (run : running s = true) (line : LineAddr) :
    exec (.responseResendTimeout line) s = .next (followAfter s (opResponseResendTimeout line s)) :=
  live_running run (fun s => followAfter s (opResponseResendTimeout line s))

/-- A message sent leaves nothing that what goes on by itself would act on. -/
theorem followAfter_egress (p i : Nat) (cells : List Nat) (m : Msg) (x : Txn) :
    followAfter s (egress p i cells m (setTxn x s)) = egress p i cells m (setTxn x s) := if_pos ⟨rfl, rfl, rfl, rfl⟩

theorem followAfter_dispatch (i : Nat) (cells : List Nat) (m : Msg) (x : Txn) :
    followAfter s (dispatch i cells m (setTxn x s)) = dispatch i cells m (setTxn x s) := by
  have same := still_dispatch i cells m (setTxn x s)
  have cel : (dispatch i cells m (setTxn x s)).cel = s.cel := (cel_of_quiet (quiet_of_still same)).trans rfl
  have mir : (dispatch i cells m (setTxn x s)).mir = s.mir := (mir_of_quiet (quiet_of_still same)).trans rfl
  have ports : (dispatch i cells m (setTxn x s)).ports = s.ports := (ports_of_quiet (quiet_of_still same)).trans rfl
  exact if_pos ⟨by rw [cel], by rw [cel], by rw [mir], by rw [ports]⟩

end Sys2Proof.Machine

namespace Sys2Proof
open Machine

/-- Settles O53: the one that waits in a row goes on once it can, as the row's rule says, and where nothing waits, or it cannot go on, nothing changes. -/
theorem waitingRows : Obligations.WaitingRows := by
  unfold Obligations.WaitingRows
  intro s run
  refine ⟨?_, ?_, ?_, ?_, ?_, ?_, ?_, ?_, ?_, ?_, ?_, ?_, ?_, ?_, ?_, ?_, ?_, ?_, ?_, ?_⟩
  · intro line t v one at_ free eq
    rw [eq]
    have decision := live_follow run (opWaiterDecision line)
    rw [opWaiterDecision, ← at_] at decision
    refine ⟨fun full tried => ?_, fun own room => ?_, fun hub room hit => ?_, fun hub room miss unasked => ?_⟩
    · rw [decideOldest_full one rfl free full tried] at decision
      exact decision
    · rw [decideOldest_decides one rfl free room (fun hub => absurd hub (by simp [own])), if_neg (by simp [own])] at decision
      exact decision
    · rw [decideOldest_decides one rfl free room (fun _ => hit), if_pos hub] at decision
      exact decision
    · rw [decideOldest_fetch one rfl free room hub miss unasked] at decision
      exact decision
  · exact fun line shut => ⟨_, live_follow run (opWaiterDecision line), decideOldest_blocked shut⟩
  · exact fun line x one at_ => ⟨fun ready => (live_follow run (opReleaseAfterMiss line)).trans (by rw [releaseAfterMiss_ready one at_ ready]),
      fun unready => (live_follow run (opReleaseAfterMiss line)).trans (by rw [releaseAfterMiss_unready one at_ unready])⟩
  · exact fun d one free k slice => ⟨_, live_follow run (opMissRegisterFree k), missRegisterFree_one one free slice⟩
  · exact fun none_ k => ⟨⟨_, live_follow run (opMissRegisterFree k), missRegisterFree_none none_ k⟩,
      fun regs set => ⟨_, live_follow run (opHostFilterWayFree k set), hostFilterWayFree_none none_ regs k set⟩,
      fun opened waiting input regs => ⟨_, live_follow run (opMergingEntryFree k), mergingEntryFree_none opened waiting regs input none_ k⟩,
      fun line => ⟨_, live_follow run (opCacheWayFree line), cacheWayFree_none none_ line⟩⟩
  · intro k t h v one slice entry room remote trained small eq
    have granted_ := inputGrant_one one slice entry room remote trained small
    rw [eq]
    refine ⟨⟨_, live_follow run (opHttEntryFree k), granted_⟩, fun opened waiting regs => ⟨_, live_follow run (opMergingEntryFree k), ?_⟩⟩
    rw [mergingEntryFree_row opened waiting regs, inputReady_one one slice entry room]
    exact (if_neg (by simp)).trans granted_
  · exact fun k trained => (live_follow run (opHttEntryFree k)).trans (by rw [httEntryFree_retraining trained])
  · intro k set t t' one next eq
    rw [eq]
    exact ⟨_, live_follow run (opDirectoryWayFree k set), directoryWayFree_next one next⟩
  · exact fun k d one regs slice room => ⟨_, live_follow run (opHostFilterWayFree k (tabSet d.line.toNat)), hostFilterWayFree_one one regs slice room⟩
  · exact fun line d one set room => ⟨_, live_follow run (opCacheWayFree line), cacheWayFree_one one set room⟩
  · exact fun k d one opened waiting input regs slice room =>
      ⟨_, live_follow run (opMergingEntryFree k), mergingEntryFree_one opened waiting regs one input slice room⟩
  · exact fun k e one idle slice room => ⟨_, live_follow run (opEvictionEntryFree k), evictionEntryFree_one one idle slice room⟩
  · intro k set way e one at_ started empty steps
    refine ⟨_, live_follow run (opFrameEvictionDone k set way), ?_⟩
    unfold opFrameEvictionDone
    extract_lets sets
    rw [show 16 * (sets * k.val + set) + way = e.way from at_.symm]
    exact frameDone_one one started empty steps
  · exact fun none_ k set way => ⟨⟨_, live_follow run (opFrameEvictionDone k set way), frameDone_none none_ _⟩,
      ⟨_, live_follow run (opEvictionEntryFree k), evictionEntryFree_none none_ k⟩⟩
  · intro line l m v at_ one op eq
    subst at_ eq
    exact ⟨fun flush => (live_follow run (opFlushPendingApply line)).trans (by rw [flushPending_flush one op flush]),
      fun clean => (live_follow run (opFlushPendingApply line)).trans (by rw [flushPending_clean one op clean])⟩
  · exact fun line one snoops steps => ⟨_, live_follow run (opKeepWindowClose line), keepWindowClose_one one snoops steps⟩
  · exact fun line absent => ⟨_, live_follow run (opKeepWindowClose line), keepWindowClose_none absent⟩
  · intro line t m v found last eq
    subst eq
    refine ⟨fun answered open_ few => ⟨fun p port => ?_, fun port => ?_⟩, fun answered open_ spent => ?_, fun past => ?_⟩
    · exact (exec_resendTimeout run line).trans (by rw [resendTimeout_other found last answered open_ few port, followAfter_egress])
    · exact (exec_resendTimeout run line).trans (by rw [resendTimeout_routed found last answered open_ few port, followAfter_dispatch])
    · exact (exec_resendTimeout run line).trans (by rw [resendTimeout_spent found last answered open_ spent])
    · exact (exec_resendTimeout run line).trans (by rw [resendTimeout_over found last past, followAfter_self])
  · exact fun line none_ => (exec_resendTimeout run line).trans (by rw [resendTimeout_none none_, followAfter_self])
  · exact fun line x one at_ => ⟨_, live_follow run (opResponseRetentionExpiry line), retentionExpiry_one one at_⟩

end Sys2Proof
end

section
/-! PROOFS. The frame of the commands that move flits, time and records (R221 to R227, R301 to R311, R501 to R531). -/

namespace Sys2Proof.Machine

variable {s t : State}

/-! ### Commands of a link -/

/-- What a command of a link leaves beside the Larder and the ports that messages to the root came by. -/
def LinkFrame (s t : State) : Prop :=
  Untouched { s with lar := t.lar } t ∧ t.time = s.time ∧ t.part = s.part ∧ t.fab = { s.fab with via := t.fab.via } ∧ t.pwr = s.pwr

/-- The block without what a link, its messages, their cells and a seal halt change. -/
def offTransit (s : State) : State := { offLink s with lar := State.reset.lar, fab := { s.fab with via := [] } }

theorem offTransit_of_offLink (h : offLink t = offLink s) : offTransit t = offTransit s := by
  have off : ∀ u, offTransit u = { offLink u with lar := State.reset.lar, fab := { (offLink u).fab with via := [] } } := fun _ => rfl
  rw [off t, h, off s]

theorem offTransit_of_offRx (h : offRx t = offRx s) : offTransit t = offTransit s := by
  have off : ∀ u, offTransit u = offTransit (offRx u) := fun _ => rfl
  rw [off t, h, off s]

theorem linkFrame_of_offTransit (h : offTransit t = offTransit s) : LinkFrame s t := by
  have dir := congrArg State.dir h
  have hf := congrArg State.hf h
  have home := congrArg State.home h
  have req := congrArg State.req h
  have hc := congrArg State.hc h
  have cel := congrArg State.cel h
  have mir := congrArg State.mir h
  have slots := congrArg State.slots h
  have hst := congrArg State.hst h
  have sweep := congrArg State.sweep h
  have bg := congrArg State.bg h
  have prot := congrArg State.prot h
  have time := congrArg State.time h
  have part := congrArg State.part h
  have pwr := congrArg State.pwr h
  have fab : { t.fab with via := t.fab.via } = { s.fab with via := t.fab.via } := congrArg (fun u => { u.fab with via := t.fab.via }) h
  exact ⟨⟨dir, hf, home, req, hc, cel, mir, slots, hst, rfl, sweep, bg, prot⟩, time, part, fab, pwr⟩

theorem lar_of_offLink (h : offLink t = offLink s) : t.lar = s.lar := by
  have kept := congrArg State.lar h
  exact kept

theorem fab_of_offLink (h : offLink t = offLink s) : t.fab = s.fab := by
  have kept := congrArg State.fab h
  exact kept

theorem offLink_takeRx (opc : Opc) (h : Hdr) (s : State) : offLink (takeRx opc h s) = offLink s := by
  obtain ⟨rx, links, eq⟩ := takeRx_buffer opc h s
  rw [eq]
  rfl

theorem offLink_controlFlit (p : IPort) (f : FlitHead) (s : State) : offLink (opControlFlit p f s) = offLink s := by
  unfold opControlFlit
  extract_lets x
  have checked : offLink x.2 = offLink s := offLink_checkFlit ..
  have headed : offLink (linkHead p f x.2) = offLink s := (offLink_linkHead ..).trans checked
  exact apply_ite_same offLink rfl (apply_ite_same offLink checked (apply_ite_same offLink ((offLink_nakIn ..).trans headed) headed))

theorem offLink_nak (p : IPort) (f : FlitHead) (s : State) : offLink (opNak p f s) = offLink s := by
  unfold opNak
  extract_lets x
  have checked : offLink x.2 = offLink s := offLink_checkFlit ..
  exact apply_ite_same offLink rfl (apply_ite_same offLink ((offLink_nakIn ..).trans ((offLink_linkHead ..).trans checked)) checked)

theorem offLink_retrainDone (p : IPort) (s : State) : offLink (opRetrainDone p s) = offLink s :=
  apply_ite_same offLink ((offLink_sendAgain ..).trans ((offLink_setLinkState ..).trans (offLink_setLink ..))) rfl

theorem offLink_laneFault (p : IPort) (lane : Nat) (lost : Bool) (s : State) : offLink (opLaneFault p lane lost s) = offLink s := by
  unfold opLaneFault
  extract_lets x z
  have told : offLink z = offLink s := offLink_fire ..
  have spare : offLink x = offLink s := (offLink_wrFld ..).trans (offLink_wrFld ..)
  exact apply_ite_same offLink rfl (apply_ite_same offLink ((offLink_retrain ..).trans ((offLink_fire ..).trans spare))
    (apply_ite_same offLink ((offLink_failPort ..).trans told) told))

theorem offLink_lkseqq (h : Hdr) (b : BitVec 512) (s : State) : offLink (opLkseqq h b s) = offLink s := by
  unfold opLkseqq
  extract_lets z p x
  have taken : offLink z = offLink s := offLink_takeRx ..
  exact apply_ite_same offLink taken ((offLink_of_still (still_send0 rfl ..)).trans taken)

theorem offRx_lkseqr (h : Hdr) (b : BitVec 512) (s : State) : offRx (opLkseqr h b s) = offRx s := by
  unfold opLkseqr
  extract_lets z p n k ms x
  have taken : offRx z = offRx s := offRx_takeRx ..
  exact apply_ite_same offRx taken ((foldl_frame offRx (fun s _ => offRx_reroute ..) ms x).trans (Eq.trans rfl taken))

theorem offTransit_dropRx (s : State) : offTransit (dropRx s) = offTransit s := by
  unfold dropRx
  split
  · exact (offTransit_of_offRx (offRx_freeRx ..)).trans rfl
  · rfl

theorem offTransit_discardMsg (p cause : Nat) (m : Msg) (s : State) : offTransit (discardMsg p cause m s) = offTransit s :=
  offTransit_of_offLink ((offLink_fire ..).trans (offLink_count ..))

theorem offTransit_discarded (p cause : Nat) (m : Msg) (s : State) : offTransit (dropRx (discardMsg p cause m s)) = offTransit s :=
  (offTransit_dropRx ..).trans (offTransit_discardMsg ..)

theorem offTransit_learnVia (p : Nat) (m : Msg) (s : State) : offTransit (learnVia p m s) = offTransit s := apply_ite_same offTransit rfl rfl

theorem offTransit_ingress (p : Nat) (m : Msg) (s : State) : offTransit (ingress p s m) = offTransit s := by
  unfold ingress
  extract_lets z mgt reserved
  have buffered : offTransit z = offTransit s := (offTransit_learnVia ..).trans rfl
  have dropped (cause : Nat) : offTransit (dropRx (discardMsg p cause m z)) = offTransit s := (offTransit_discarded ..).trans buffered
  have passed : offTransit (match z.rx.getLast? with | some x => passOn z x | none => z) = offTransit s := by
    split
    · exact (offTransit_of_offRx (offRx_passOn ..)).trans buffered
    · exact buffered
  exact apply_ite_same offTransit (dropped 1) (apply_ite_same offTransit (dropped 3) (apply_ite_same offTransit (dropped 4)
    (apply_ite_same offTransit (apply_ite_same offTransit (dropped 0) (apply_ite_same offTransit (dropped 2) passed))
      (apply_ite_same offTransit (dropped 0) buffered))))

theorem offTransit_takeSlots (p : Nat) (s : State) (x : FlitPiece) : offTransit (takeSlots p s x) = offTransit s := by
  cases x with
  | pad => rfl
  | part m n => exact apply_ite_same offTransit rfl ((offTransit_ingress ..).trans rfl)

theorem offTransit_dataFlit (p : IPort) (f : FlitHead) (ps : List FlitPiece) (s : State) : offTransit (opDataFlit p f ps s) = offTransit s := by
  unfold opDataFlit
  extract_lets x y k z w
  have checked : offTransit x.2 = offTransit s := offTransit_of_offLink (offLink_checkFlit ..)
  have headed : offTransit y = offTransit s := (offTransit_of_offLink (offLink_linkHead ..)).trans checked
  have counted : offTransit (count (aIpCnt p 1) 1 z) = offTransit s := (offTransit_of_offLink (offLink_count ..)).trans (Eq.trans rfl headed)
  have taken : offTransit w = offTransit s := (foldl_frame offTransit (offTransit_takeSlots p) ps _).trans counted
  exact apply_ite_same offTransit rfl (apply_ite_same offTransit checked (apply_ite_same offTransit
    (apply_ite_same offTransit ((offTransit_of_offLink (offLink_sendNak ..)).trans headed) headed)
    (apply_ite_same offTransit ((offTransit_of_offLink (offLink_reportAck ..)).trans taken) taken)))

/-- What the obligation says of a command of a link. -/
def LinkClause (c : Instr) (s : State) : Prop :=
  ∃ t, exec c s = .next t ∧ Untouched { s with lar := t.lar } t ∧
    ((∀ p f ps, c ≠ .dataFlit p f ps) → t.fab = s.fab ∧ ((∀ h x, c ≠ .lkseqr h x) → t.lar = s.lar)) ∧
    t.time = s.time ∧ t.part = s.part ∧ t.fab = { s.fab with via := t.fab.via } ∧ t.pwr = s.pwr

theorem linkClause_of_offLink {c : Instr} {f : State → State} (runs : exec c s = .next (f s)) (kept : offLink (f s) = offLink s) : LinkClause c s := by
  obtain ⟨same, time, part, fab, pwr⟩ := linkFrame_of_offTransit (offTransit_of_offLink kept)
  exact ⟨f s, runs, same, fun _ => ⟨fab_of_offLink kept, fun _ => lar_of_offLink kept⟩, time, part, fab, pwr⟩

theorem linkClause (run : running s = true) {c : Instr} (of : linkCommand c = true) : LinkClause c s := by
  cases c
  case dataFlit p f ps =>
    obtain ⟨same, time, part, fab, pwr⟩ := linkFrame_of_offTransit (offTransit_dataFlit p f ps s)
    exact ⟨opDataFlit p f ps s, live_running run _, same, fun other => absurd rfl (other p f ps), time, part, fab, pwr⟩
  case lkseqr h b =>
    have kept := offRx_lkseqr h b s
    obtain ⟨same, time, part, fab, pwr⟩ := linkFrame_of_offTransit (offTransit_of_offRx kept)
    exact ⟨opLkseqr h b s, live_running run _, same, fun _ => ⟨fab_of_offRx kept, fun other => absurd rfl (other h b)⟩, time, part, fab, pwr⟩
  case controlFlit p f => exact linkClause_of_offLink (live_running run _) (offLink_controlFlit p f s)
  case nak p f => exact linkClause_of_offLink (live_running run _) (offLink_nak p f s)
  case ackTimeout p => exact linkClause_of_offLink (live_running run (opAckTimeout p)) (apply_ite_same offLink (offLink_sendAgain ..) rfl)
  case ackReportTimer p => exact linkClause_of_offLink (live_running run (opAckReportTimer p)) (apply_ite_same offLink (offLink_reportAck ..) rfl)
  case peerDetected p => exact linkClause_of_offLink (live_running run (opPeerDetected p)) (apply_ite_same offLink (offLink_setLinkState ..) rfl)
  case trainTimeout p => exact linkClause_of_offLink (live_running run (opTrainTimeout p)) (apply_ite_same offLink (offLink_failPort ..) rfl)
  case retrainDone p => exact linkClause_of_offLink (live_running run _) (offLink_retrainDone p s)
  case fastRetrainTimeout p => exact linkClause_of_offLink (live_running run (opFastRetrainTimeout p)) (apply_ite_same offLink (offLink_setLink ..) rfl)
  case retrainFailTimeout p => exact linkClause_of_offLink (live_running run (opRetrainFailTimeout p)) (apply_ite_same offLink (offLink_failPort ..) rfl)
  case fecLockLoss p => exact linkClause_of_offLink (live_running run (opFecLockLoss p)) (offLink_retrain ..)
  case laneFault p lane lost => exact linkClause_of_offLink (live_running run _) (offLink_laneFault p lane lost s)
  case lkseqq h b => exact linkClause_of_offLink (live_running run _) (offLink_lkseqq h b s)
  case lkseqTimeout p => exact linkClause_of_offLink (live_running run (opLkseqTimeout p)) (apply_ite_same offLink (offLink_setLink ..) rfl)
  all_goals cases of

/-! ### Commands of records -/

/-- The block without what fabric time, the records and the registers change. -/
def offTime (s : State) : State :=
  { still s with regs := [], time := State.reset.time, fab := State.reset.fab, flash := State.reset.flash, ctl := State.reset.ctl }

theorem offTime_of_still (h : still t = still s) : offTime t = offTime s := by rw [offTime, h, offTime]

theorem offTime_wr (a : Nat) (v : Word) (s : State) : offTime (wr a v s) = offTime s := rfl

theorem offTime_fireSeq (n c : Nat) (o1 o2 : Obj) (q : Nat) (s : State) : offTime (fireSeq n c o1 o2 q s) = offTime s := offTime_of_still (still_fireSeq ..)

theorem offTime_fire (n c : Nat) (o : Obj) (s : State) : offTime (fire n c o s) = offTime s := offTime_fireSeq ..

theorem offTime_tally (orig kind res : Nat) (target old new aux : Word) (s : State) : offTime (tally orig kind res target old new aux s) = offTime s :=
  offTime_of_still (still_tally ..)

theorem offTime_setAdm (b : Nat) (v : Word) (s : State) : offTime (setAdm b v s) = offTime s := apply_ite_same offTime rfl rfl

theorem offTime_recompute (b : Nat) (s : State) : offTime (recompute b s) = offTime s := apply_ite_same offTime rfl (offTime_setAdm ..)

theorem offTime_applySquare (b q v : Nat) (s : State) : offTime (applySquare b q v s) = offTime s :=
  apply_ite_same offTime rfl ((offTime_recompute ..).trans rfl)

theorem offTime_applyDeferred (s : State) (d : Deferred) : offTime (applyDeferred s d) = offTime s := offTime_applySquare ..

theorem offTime_addTier (b q : Nat) (s : State) : offTime (addTier b q s) = offTime s := apply_ite_same offTime rfl rfl

theorem offTime_guardGo (s : State) : offTime (guardGo s) = offTime s := by
  unfold guardGo
  extract_lets g old x y
  have told : offTime y = offTime s := (offTime_fireSeq ..).trans (offTime_wr ..)
  exact apply_ite_same offTime rfl ((foldl_frame offTime (fun s b => offTime_recompute b s) _ _).trans ((offTime_tally ..).trans told))

theorem offTime_roundStart (s : State) : offTime (opRoundStart s) = offTime s := by
  unfold opRoundStart
  extract_lets bs now due _ z
  exact (foldl_frame offTime (fun s b => offTime_recompute b { s with brd := { s.brd with olds := [] } }) _ _).trans
    ((offTime_guardGo _).trans (foldl_frame offTime offTime_applyDeferred due z))

theorem offTime_jumpRounds (n a : Nat) (s : State) : offTime (jumpRounds n a s) = offTime s := by
  induction n generalizing a s with
  | zero => rfl
  | succ n ih => exact (ih ..).trans ((offTime_roundStart _).trans (apply_ite_same offTime (offTime_fire ..) rfl))

theorem offTime_writeSquare (b q v : Nat) (s : State) : offTime (writeSquare b q v s) = offTime s := by
  unfold writeSquare
  extract_lets v old _ z x
  have tier : offTime x = offTime s := (offTime_addTier ..).trans rfl
  exact apply_ite_same offTime rfl ((offTime_fire ..).trans (apply_ite_same offTime tier ((offTime_applySquare ..).trans tier)))

theorem offTime_boardWrite (orig : Nat) (l : List (Nat × Nat × Word)) (s : State) : offTime (boardWrite orig l s) = offTime s :=
  foldl_frame offTime (fun s x => by
    extract_lets a no old z
    exact apply_ite_same offTime (offTime_tally ..) ((offTime_tally ..).trans (offTime_writeSquare ..))) l s

theorem offTime_cnt (c : Cnt) (s : State) : offTime { s with cnt := c } = offTime s := rfl

theorem offTime_snapshot (src : Nat) (s : State) : offTime (snapshot src s) = offTime s := by
  unfold snapshot
  dsimp only
  rw [offTime_wr, offTime_wr]
  exact offTime_cnt ..

theorem offTime_runAct (a : SchedAct) (s : State) : offTime (runAct a s) = offTime s := by
  cases a with
  | snapshot => exact (offTime_wr ..).trans (offTime_snapshot ..)
  | board l orig => exact offTime_boardWrite ..

theorem offTime_runSched (n : Nat) (s : State) : offTime (runSched n s) = offTime s := by
  unfold runSched
  extract_lets due _ z
  exact (foldl_frame offTime (fun s e => (offTime_runAct ..).trans (apply_ite_same offTime (offTime_fire ..) rfl)) due z).trans rfl

/-! ### Steps of time where no Board has anything waiting -/

/-- What waits at the Boards, is in progress there, and waits at their inputs. -/
def atBoards (s : State) : SMap (List Waiter) × SMap Waiter × List Txn := (s.brd.wait, s.brd.run, s.home.input)

theorem atBoards_of (brd : t.brd = s.brd) (home : t.home = s.home) : atBoards t = atBoards s := by rw [atBoards, brd, home, atBoards]

theorem atBoards_of_paced (h : paced t = paced s) : atBoards t = atBoards s := by
  obtain ⟨-, wait, run, home, -⟩ := paced_iff.1 h
  rw [atBoards, wait, run, home, atBoards]

theorem busyBoards_congr (h : atBoards t = atBoards s) : busyBoards t = busyBoards s := by
  simp only [atBoards, Prod.mk.injEq] at h
  obtain ⟨wait, run, input⟩ := h
  rw [busyBoards, wait, run, input, busyBoards]

theorem atBoards_runSched (n : Nat) (s : State) : atBoards (runSched n s) = atBoards s := by
  unfold runSched
  extract_lets due _ z
  exact (foldl_frame atBoards (fun s e => atBoards_of_paced (paced_runDue n s e)) due z).trans rfl

theorem atBoards_fireSeq (n c : Nat) (o1 o2 : Obj) (q : Nat) (s : State) : atBoards (fireSeq n c o1 o2 q s) = atBoards s :=
  atBoards_of (fireSeq_brd ..) (fireSeq_home ..)

theorem offTime_lateSquares (idle : busyBoards s = []) (a n : Nat) : offTime (lateSquares a n s) = offTime s := by
  unfold lateSquares
  extract_lets k m z
  have still_idle : busyBoards z = [] := (busyBoards_congr (atBoards_fireSeq ..)).trans idle
  have empty : (busyBoards z).isEmpty = true := by rw [still_idle]; rfl
  exact apply_ite_same offTime rfl ((congrArg offTime (if_pos empty)).trans (offTime_fire ..))

theorem offTime_stepTo (idle : busyBoards s = []) (w : Word) : offTime (stepTo w s) = offTime s := by
  unfold stepTo
  extract_lets a _ x z
  have told : offTime z = offTime s := (offTime_fireSeq ..).trans rfl
  have boards : atBoards z = atBoards s := (atBoards_fireSeq ..).trans rfl
  refine (offTime_lateSquares ?_ ..).trans ((offTime_runSched ..).trans ((offTime_jumpRounds ..).trans told))
  exact (busyBoards_congr ((atBoards_runSched ..).trans ((atBoards_of_paced (paced_jumpRounds ..)).trans boards))).trans idle

theorem offTime_slew (off : Int) (s : State) : offTime (slew off s) = offTime s := by
  unfold slew
  extract_lets t soon
  exact apply_ite_same offTime rfl rfl

theorem setTimeState_frame (n : Nat) (s : State) : offTime (setTimeState n s) = offTime s ∧ atBoards (setTimeState n s) = atBoards s := by
  unfold setTimeState
  extract_lets old z y
  split
  · exact ⟨rfl, rfl⟩
  · split
    · exact ⟨offTime_fireSeq .., atBoards_fireSeq ..⟩
    · split
      · exact ⟨offTime_fireSeq .., atBoards_fireSeq ..⟩
      · exact ⟨rfl, rfl⟩

theorem offTime_setTimeState (n : Nat) (s : State) : offTime (setTimeState n s) = offTime s := (setTimeState_frame n s).1

theorem offTime_onOffset (idle : busyBoards s = []) (off : Int) (dst : Option Word) : offTime (onOffset off dst s) = offTime s := by
  unfold onOffset
  extract_lets z st y n x
  refine apply_ite_same offTime ?_ (apply_ite_same offTime ((offTime_slew ..).trans (offTime_setTimeState ..))
    (apply_ite_same offTime ((offTime_slew ..).trans (offTime_setTimeState ..)) ((offTime_slew ..).trans ?_)))
  · cases dst with
    | none => exact (offTime_slew ..).trans (offTime_setTimeState ..)
    | some w => exact (offTime_stepTo ((busyBoards_congr (setTimeState_frame 0 z).2).trans idle) w).trans (offTime_setTimeState ..)
  · exact apply_ite_same offTime ((offTime_setTimeState ..).trans rfl) rfl

theorem offTime_applyOrigin (idle : busyBoards s = []) : offTime (applyOrigin s) = offTime s := by
  unfold applyOrigin
  extract_lets z y
  have timed : offTime z = offTime s := (offTime_setTimeState ..).trans rfl
  have boards : atBoards z = atBoards s := (setTimeState_frame 0 _).2.trans rfl
  exact (offTime_fireSeq ..).trans (Eq.trans rfl ((offTime_stepTo ((busyBoards_congr boards).trans idle) _).trans timed))

theorem offTime_timePpsEdge (idle : busyBoards s = []) : offTime (opTimePpsEdge s) = offTime s := by
  unfold opTimePpsEdge
  extract_lets now early _ x
  exact apply_ite_same offTime rfl (apply_ite_same offTime (offTime_fire ..) (apply_ite_same offTime ((offTime_applyOrigin (s := x) idle).trans rfl)
    (apply_ite_same offTime ((offTime_onOffset (s := x) idle ..).trans rfl) rfl)))

theorem wrFld_frame (a lo n v : Nat) (s : State) : offTime (wrFld a lo n v s) = offTime s ∧ atBoards (wrFld a lo n v s) = atBoards s := ⟨rfl, rfl⟩

theorem measure_frame (p : Nat) (b : Beacon) (w : Word) (s : State) : offTime (measure p b w s) = offTime s ∧ atBoards (measure p b w s) = atBoards s := by
  unfold measure
  split
  · exact ⟨rfl, rfl⟩
  · exact wrFld_frame ..

theorem noteUpstream_frame (s : State) : offTime (noteUpstream s) = offTime s ∧ atBoards (noteUpstream s) = atBoards s := wrFld_frame ..

theorem withTime_frame (x : Time) (s : State) : offTime { s with time := x } = offTime s ∧ atBoards { s with time := x } = atBoards s := ⟨rfl, rfl⟩

theorem offTime_beaconTime (idle : busyBoards s = []) (p : Nat) (b : Beacon) (w : Word) : offTime (beaconTime p b w s) = offTime s := by
  unfold beaconTime
  extract_lets z hops _ y up x there
  have timed : offTime y = offTime z ∧ atBoards y = atBoards z := withTime_frame _ z
  have noted : offTime x = offTime y ∧ atBoards x = atBoards y := noteUpstream_frame y
  have kept : offTime x = offTime s := noted.1.trans (timed.1.trans (measure_frame p b w s).1)
  have boards : busyBoards x = [] := (busyBoards_congr (noted.2.trans (timed.2.trans (measure_frame p b w s).2))).trans idle
  clear_value up x
  refine apply_ite_same offTime kept ?_
  cases up with
  | none => exact kept
  | some q => exact apply_ite_same offTime kept ((offTime_onOffset boards ..).trans kept)

theorem offTime_reportPort (p : Nat) (s : State) : offTime (reportPort p s) = offTime s := by
  unfold reportPort
  split
  · extract_lets x m n
    exact (offTime_of_still (still_egress ..)).trans rfl
  · rfl

theorem offTime_withFab (x : Fab) (s : State) : offTime { s with fab := x } = offTime s := rfl

theorem offTime_beaconRoot (p : Nat) (b : Beacon) (s : State) : offTime (beaconRoot p b s) = offTime s := by
  unfold beaconRoot
  extract_lets f roots key better z fresh old y
  have seen : offTime z = offTime s := offTime_withFab ..
  have known : offTime y = offTime z := (offTime_wr ..).trans (offTime_wr ..)
  clear_value y z
  have reported : offTime (reportPorts y) = offTime y := foldl_frame offTime (fun s p => offTime_reportPort p s) _ _
  exact (apply_ite_same offTime rfl (apply_ite_same offTime rfl (apply_ite_same offTime known (reported.trans known)))).trans seen

/-! ### Beacons, which are wire units -/

/-- The Boards, the homes and the receive buffers. -/
def atHub (s : State) : Brd × Home × List RxMsg := (s.brd, s.home, s.rx)

theorem atHub_of (brd : t.brd = s.brd) (home : t.home = s.home) (rx : t.rx = s.rx) : atHub t = atHub s := by rw [atHub, brd, home, rx, atHub]

theorem atHub_count (a n : Nat) (s : State) : atHub (count a n s) = atHub s := atHub_of (count_brd ..) (count_home ..) (count_rx ..)

theorem atHub_wr (a : Nat) (v : Word) (s : State) : atHub (wr a v s) = atHub s := rfl

theorem atHub_emit (x : Sent) (s : State) : atHub (emit x s) = atHub s := rfl

theorem atHub_halting (cause : Nat) (s : State) : atHub (markDirty { eraseKeys s with halted := some cause }) = atHub s := rfl

theorem atHub_sealHalt (cause port la : Nat) (s : State) : atHub (sealHalt cause port la s) = atHub s := by
  unfold sealHalt
  split
  · rfl
  · extract_lets o x y z w
    have noted : atHub x = atHub s := (atHub_wr ..).trans ((atHub_wr ..).trans (atHub_wr ..))
    have told : atHub y = atHub s := (atHub_of ((tallyAuto_brd ..).trans (fire_brd ..)) ((tallyAuto_home ..).trans (fire_home ..))
      ((tallyAuto_rx ..).trans (fire_rx ..))).trans noted
    exact (atHub_halting ..).trans ((foldl_frame atHub (fun _ _ => atHub_emit ..) _ y).trans told)

theorem atHub_wireUnit (p : Nat) (s : State) : atHub (wireUnit p s) = atHub s := by
  unfold wireUnit
  extract_lets k
  split
  · exact atHub_sealHalt ..
  · rfl

theorem atHub_sendNak (p : Nat) (s : State) : atHub (sendNak p s) = atHub s := by
  unfold sendNak
  extract_lets k
  exact apply_ite_same atHub rfl ((atHub_count ..).trans ((atHub_wireUnit ..).trans rfl))

theorem atHub_checkFlit (p : Nat) (f : FlitHead) (s : State) : atHub (checkFlit p f s).2 = atHub s := by
  unfold checkFlit
  extract_lets z
  have counted : atHub z = atHub s := atHub_count ..
  split
  · exact (atHub_sendNak ..).trans ((atHub_count ..).trans counted)
  · split
    · exact (atHub_sendNak ..).trans counted
    · split
      · exact (atHub_sealHalt ..).trans counted
      · exact counted

/-- The block without what a wire unit and fabric time change. -/
def offUnit (s : State) : State := { offLink s with time := State.reset.time, fab := State.reset.fab, ctl := State.reset.ctl, rx := s.rx }

theorem offUnit_of_offLink (h : offLink t = offLink s) (hub : atHub t = atHub s) : offUnit t = offUnit s := by
  have rx : t.rx = s.rx := congrArg (fun x => x.2.2) hub
  rw [offUnit, h, rx, offUnit]

theorem offUnit_of_offTime (h : offTime t = offTime s) : offUnit t = offUnit s := by
  have off : ∀ u, offUnit u = offUnit (offTime u) := fun _ => rfl
  rw [off t, h, off s]

theorem offUnit_wireUnit (p : Nat) (s : State) : offUnit (wireUnit p s) = offUnit s := offUnit_of_offLink (offLink_wireUnit ..) (atHub_wireUnit ..)

theorem offUnit_beacon (idle : busyBoards s = []) (p : FlitIn) (b : Beacon) (w : Word) : offUnit (opBeacon p b w s) = offUnit s := by
  unfold opBeacon
  extract_lets x
  have hub : atHub x.2 = atHub s := atHub_checkFlit ..
  have checked : offUnit x.2 = offUnit s := offUnit_of_offLink (offLink_checkFlit ..) hub
  have boards : atBoards (linkHead p.port p.head x.2) = atBoards s := atBoards_of (congrArg (fun x => x.1) hub) (congrArg (fun x => x.2.1) hub)
  have timed := offTime_beaconTime ((busyBoards_congr boards).trans idle) p.port b w
  exact apply_ite_same offUnit rfl (apply_ite_same offUnit
    ((offUnit_of_offTime ((offTime_beaconRoot ..).trans timed)).trans (Eq.trans rfl checked)) checked)

theorem offUnit_beaconTimer (s : State) : offUnit (opBeaconTimer s) = offUnit s := by
  unfold opBeaconTimer
  extract_lets _ z
  exact apply_ite_same offUnit rfl ((foldl_frame offUnit (fun s p => by
    extract_lets b
    exact (offUnit_wireUnit ..).trans rfl) _ z).trans rfl)

/-! ### Queues, images and the Tally -/

theorem offTime_deliverPop (p q : Nat) (ok : Bool) (r : Word × Bool × Queue) (s : State) : offTime (deliverPop p q ok r s) = offTime s := by
  unfold deliverPop
  extract_lets bad x z
  exact apply_ite_same offTime ((offTime_fireSeq ..).trans rfl) rfl

theorem offTime_servePops (q n : Nat) (s : State) : offTime (servePops q n s) = offTime s := by
  induction n generalizing s with
  | zero => rfl
  | succ n ih =>
    unfold servePops
    dsimp only
    split
    · rfl
    · split
      · rfl
      · exact (ih ..).trans (offTime_deliverPop ..)

theorem offTime_enter (q : Nat) (r : QRec) (s : State) : offTime (enter q r s) = offTime s := offTime_of_still (by simp [still])

theorem offTime_bankSwap (q : BitVec 13) (s : State) : offTime (opBankSwap q s) = offTime s := by
  unfold opBankSwap
  extract_lets x
  exact apply_ite_same offTime rfl ((offTime_servePops ..).trans rfl)

theorem offTime_pop (p : HPort) (q : BitVec 13) (ok : Bool) (s : State) : offTime (opPop p q ok s) = offTime s := by
  unfold opPop
  extract_lets n x first
  refine apply_ite_same offTime rfl (apply_ite_same offTime rfl (apply_ite_same offTime (Eq.trans rfl (offTime_fire (s := s) ..))
    (apply_ite_same offTime rfl ?_)))
  split
  · exact (offTime_servePops ..).trans (offTime_deliverPop ..)
  · exact apply_ite_same offTime rfl rfl

theorem offTime_post (p : HPort) (q : BitVec 13) (off : Nat) (bytes : List (BitVec 8)) (s : State) : offTime (opPost p q off bytes s) = offTime s := by
  unfold opPost
  extract_lets n
  exact apply_ite_same offTime rfl (apply_ite_same offTime rfl (apply_ite_same offTime (offTime_fire ..) (offTime_enter ..)))

theorem offTime_lapse (q : BitVec 13) (s : State) : offTime (opRecordOwnershipLapse q s) = offTime s := by
  unfold opRecordOwnershipLapse
  extract_lets x
  exact apply_ite_same offTime rfl ((offTime_servePops ..).trans ((offTime_fireSeq ..).trans rfl))

theorem offTime_stall (q : BitVec 13) (s : State) : offTime (opPopStallExpiry q s) = offTime s := by
  unfold opPopStallExpiry
  extract_lets n x
  split
  · rfl
  · rfl

theorem offTime_holdoffExpiry (src : BitVec 9) (s : State) : offTime (opMsixHoldoffExpiry src s) = offTime s := by
  unfold opMsixHoldoffExpiry
  extract_lets n rt vp vec e
  exact apply_ite_same offTime rfl (apply_ite_same offTime rfl rfl)

theorem offTime_tallyExport (s : State) : offTime (opTallyExport s) = offTime s := by
  unfold opTallyExport
  extract_lets t q c r lost store x z
  exact apply_ite_same offTime rfl rfl

theorem offTime_setTlyWords (n : Nat) (w : List Word) (s : State) : offTime (setTlyWords n w s) = offTime s := by
  unfold setTlyWords
  split
  · rfl
  · rfl

theorem offTime_checkpoint (s : State) : offTime (checkpoint s) = offTime s := by
  unfold checkpoint
  extract_lets first last w z
  have written : offTime z = offTime s := foldl_frame offTime (fun s i => by
    extract_lets n
    exact (offTime_setTlyWords ..).trans (offTime_tally ..)) _ s
  clear_value z
  exact Eq.trans rfl written

/-! ### The frame -/

/-- What the obligation says of a command of records. -/
def RecordClause (c : Instr) (s : State) : Prop :=
  ∃ t, exec c s = .next t ∧ Untouched s t ∧ t.part = s.part ∧ t.pwr = s.pwr ∧ t.rx = s.rx ∧
    (c ≠ .beaconTimer → (∀ p b x, c ≠ .beacon p b x) → t.links = s.links ∧ t.sl = s.sl ∧ t.halted = s.halted)

theorem untouched_of_offUnit (h : offUnit t = offUnit s) : Untouched s t ∧ t.part = s.part ∧ t.pwr = s.pwr ∧ t.rx = s.rx := by
  have dir := congrArg State.dir h
  have hf := congrArg State.hf h
  have home := congrArg State.home h
  have req := congrArg State.req h
  have hc := congrArg State.hc h
  have cel := congrArg State.cel h
  have mir := congrArg State.mir h
  have slots := congrArg State.slots h
  have hst := congrArg State.hst h
  have lar := congrArg State.lar h
  have sweep := congrArg State.sweep h
  have bg := congrArg State.bg h
  have prot := congrArg State.prot h
  have part := congrArg State.part h
  have pwr := congrArg State.pwr h
  have rx := congrArg State.rx h
  exact ⟨⟨dir, hf, home, req, hc, cel, mir, slots, hst, lar, sweep, bg, prot⟩, part, pwr, rx⟩

theorem recordClause_of_offTime {c : Instr} {f : State → State} (runs : exec c s = .next (f s)) (kept : offTime (f s) = offTime s) : RecordClause c s := by
  obtain ⟨same, part, pwr, rx⟩ := untouched_of_offUnit (offUnit_of_offTime kept)
  have links := congrArg State.links kept
  have sl := congrArg State.sl kept
  have halted := congrArg State.halted kept
  exact ⟨f s, runs, same, part, pwr, rx, fun _ _ => ⟨links, sl, halted⟩⟩

theorem recordClause (run : running s = true) {c : Instr} (of : recordCommand c = true) (free : s.ev.behind = [])
    (idle : ((∀ p b x, c ≠ .beacon p b x) ∧ c ≠ .timePpsEdge) ∨ busyBoards s = []) : RecordClause c s := by
  have after (t : State) : windowAfter s t = t := if_pos free
  cases c
  case beacon p b w =>
    have idle_ : busyBoards s = [] := idle.resolve_left fun other => other.1 p b w rfl
    obtain ⟨same, part, pwr, rx⟩ := untouched_of_offUnit (offUnit_beacon idle_ p b w)
    exact ⟨opBeacon p b w s, live_running run _, same, part, pwr, rx, fun _ other => absurd rfl (other p b w)⟩
  case beaconTimer =>
    obtain ⟨same, part, pwr, rx⟩ := untouched_of_offUnit (offUnit_beaconTimer s)
    exact ⟨opBeaconTimer s, live_running run _, same, part, pwr, rx, fun other => absurd rfl other⟩
  case timePpsEdge =>
    exact recordClause_of_offTime (live_running run _) (offTime_timePpsEdge (idle.resolve_left fun other => other.2 rfl))
  case originArmExpiry => exact recordClause_of_offTime (live_running run opOriginArmExpiry) (apply_ite_same offTime ((offTime_fireSeq ..).trans rfl) rfl)
  case beaconLossTimeout => exact recordClause_of_offTime (live_running run opBeaconLossTimeout) (apply_ite_same offTime (offTime_setTimeState ..) rfl)
  case holdoverTimeout => exact recordClause_of_offTime (live_running run opHoldoverTimeout) (offTime_setTimeState ..)
  case scheduledEventRun => exact recordClause_of_offTime (live_running run opScheduledEventRun) (offTime_runSched ..)
  case msixHoldoffExpiry src => exact recordClause_of_offTime (live_running run _) (offTime_holdoffExpiry src s)
  case bankSwap q =>
    exact recordClause_of_offTime (f := opBankSwap q) ((live_running run (fun s => windowAfter s (opBankSwap q s))).trans (congrArg _ (after _)))
      (offTime_bankSwap q s)
  case pop p q ok =>
    exact recordClause_of_offTime (f := opPop p q ok) ((live_running run (fun s => windowAfter s (opPop p q ok s))).trans (congrArg _ (after _)))
      (offTime_pop p q ok s)
  case post p q off bytes => exact recordClause_of_offTime (live_running run _) (offTime_post p q off bytes s)
  case recordOwnershipLapse q =>
    exact recordClause_of_offTime (f := opRecordOwnershipLapse q)
      ((live_running run (fun s => windowAfter s (opRecordOwnershipLapse q s))).trans (congrArg _ (after _))) (offTime_lapse q s)
  case popStallExpiry q =>
    exact recordClause_of_offTime (f := opPopStallExpiry q) ((live_running run (fun s => windowAfter s (opPopStallExpiry q s))).trans (congrArg _ (after _)))
      (offTime_stall q s)
  case counterGather => exact recordClause_of_offTime (live_running run opCounterGather) rfl
  case tallyExport => exact recordClause_of_offTime (live_running run _) (offTime_tallyExport s)
  case autoCheckpoint => exact recordClause_of_offTime (live_running run opAutoCheckpoint) (apply_ite_same offTime (offTime_checkpoint ..) rfl)
  case unlockExpiry o => exact recordClause_of_offTime (live_running run (opUnlockExpiry o)) rfl
  all_goals cases of

end Sys2Proof.Machine

namespace Sys2Proof
open Machine

/-- Settles O59: the commands of a link change the links, what they hold, and the seal; the commands of time and records change time, the records and
their registers. -/
theorem linkAndRecordFrames : Obligations.LinkAndRecordFrames := by
  unfold Obligations.LinkAndRecordFrames
  intro c s run
  exact ⟨fun of => linkClause run of, fun of free idle => recordClause run of free idle⟩

end Sys2Proof
end

section
/-! PROOFS. The cellar path (R153, R263 to R266, R374, R379, R434 to R445): responses, re-seals, the merging buffer, and ports that stop answering. -/

namespace Sys2Proof.Machine

variable {s : State} {d : DPort}

/-! ### Responses and persisted writes -/

theorem cellarResponse_expected {r : CellarResp} (none_ : s.sl.reseals = []) :
    opCellarResponse r s = if (todo s r.granule.toNat).any (fun o => o.issued) then granuleRead r (noteLate r (answered (CellCmd.reads r.granule.toNat) s))
      else s := by
  unfold opCellarResponse
  extract_lets g s1
  rw [none_]
  rfl

theorem todo_unissued (unissued : ∀ o, o ∈ s.cel.ops → o.issued = false) (g : Nat) : (todo s g).any (fun o => o.issued) = false := by
  rw [List.any_eq_false]
  intro o member
  simp [unissued o (List.mem_filter.1 member).1]

theorem granuleRead_stops {r : CellarResp} {c : Nat} {v : State} (stop : heldState r.blocks r.granule.toNat s = (.stop c, v)) :
    granuleRead r s = sealHalt c 0 (4 * r.granule.toNat) v := by
  unfold granuleRead
  extract_lets g x
  rw [show x = (.stop c, v) from stop]

theorem cellarWriteCompletion_unfenced (none_ : s.ports.fences = []) (g : Nat) :
    opCellarWriteCompletion g s = persisted g (answered (CellCmd.writes g) s) := advanceFences_none none_

/-! ### Re-seals -/

theorem reseals_putBlk (level idx : Nat) (b : SealBlk) (s : State) : (putBlk level idx b s).sl.reseals = s.sl.reseals := rfl

theorem reseals_setCtr (level idx v : Nat) (s : State) : (setCtr level idx v s).sl.reseals = s.sl.reseals := by
  unfold setCtr
  split
  · rfl
  · split
    · exact reseals_putBlk ..
    · rfl

theorem sl_haltNoted (cause port la : Nat) (s : State) : (haltNoted cause port la s).sl = s.sl := by
  rw [haltNoted, wr_sl, wr_sl, wrFld_sl]

theorem reseals_sealHalt (cause port la : Nat) (s : State) : (sealHalt cause port la s).sl.reseals = s.sl.reseals := by
  cases unhalted : s.halted with
  | some c =>
    unfold sealHalt
    rw [if_pos (by simp [unhalted])]
  | none =>
    obtain ⟨out, eq⟩ := sealHalt_eq unhalted cause port la
    have told : (haltTold cause port la s).sl = s.sl := (tallyAuto_sl ..).trans ((fire_sl ..).trans (sl_haltNoted ..))
    rw [eq]
    exact congrArg (fun x => x.reseals) told

theorem reseals_count (a n : Nat) (s : State) : (count a n s).sl.reseals = s.sl.reseals := by rw [count_sl]

theorem reseals_writeBlk (level idx : Nat) (s : State) : (writeBlk level idx s).sl.reseals = s.sl.reseals := by
  unfold writeBlk
  split
  · rfl
  · extract_lets c bits x k _ y z w v
    have set : x.sl.reseals = s.sl.reseals := (reseals_setCtr ..).trans (reseals_putBlk ..)
    have noted : y.sl.reseals = s.sl.reseals := Eq.trans rfl set
    have sent : w.sl.reseals = s.sl.reseals := apply_ite_same (fun s : State => s.sl.reseals) noted noted
    have counted : v.sl.reseals = s.sl.reseals := (reseals_count ..).trans sent
    exact apply_ite_same (fun s : State => s.sl.reseals) (reseals_sealHalt ..) (apply_ite_same (fun s : State => s.sl.reseals) counted counted)

theorem reseals_writeBack_ (level idx : Nat) (s : State) : (writeBack_ level idx s).sl.reseals = s.sl.reseals := by
  unfold writeBack_
  split
  · rfl
  · extract_lets k
    exact apply_ite_same (fun s : State => s.sl.reseals) rfl (apply_ite_same (fun s : State => s.sl.reseals) (apply_ite_same (fun s : State => s.sl.reseals) rfl rfl)
      (reseals_writeBlk ..))

theorem getBlk_putBlk (level idx : Nat) (b : SealBlk) (s : State) : getBlk (putBlk level idx b s) level idx = some b := mget_mset_self ..

theorem getBlk_count (a n : Nat) (s : State) (level idx : Nat) : getBlk (count a n s) level idx = getBlk s level idx := by rw [getBlk, count_sl, getBlk]

/-- The bits of a block before a re-seal, with none cached all clear. -/
def oldBits (s : State) (block : Nat) : LineBits := match getBlk s 0 block with
  | some c => c.bits
  | none => 0

/-- The block once a re-seal is taken off the list and the rekey pointer has passed its block (R439, R453). -/
def resealTaken (x : Reseal) (block : Nat) (s : State) : State :=
  let s := doneReading x.cells { s with sl := { s.sl with reseals := s.sl.reseals.filter fun y => y.block ≠ block } }
  if krtOf s block |>.any fun e => (fld e.2 3 10, fld e.2 13 8) ≠ (x.slot, x.gen) then rekeyPassed block s else s

theorem resealDone_some {block : Nat} {x : Reseal} (found : (s.sl.reseals.find? fun x => x.block = block && x.left.isEmpty) = some x) :
    opResealDone block s =
      writeBack_ 0 block (count (aSlCnt 4) 1 (putBlk 0 block ⟨resealBits x (oldBits s block), true⟩ (resealTaken x block s))) := by
  rw [opResealDone, found]
  rfl

theorem reseals_resealTaken (x : Reseal) (block : Nat) (s : State) :
    (resealTaken x block s).sl.reseals = s.sl.reseals.filter fun y => y.block ≠ block :=
  apply_ite_same (fun s : State => s.sl.reseals) (apply_ite_same (fun s : State => s.sl.reseals) rfl rfl) rfl

/-- A re-seal whose granules are all done puts its block in the metadata cache, to be written back (R439). -/
theorem resealDone_spec {block : Nat} {x : Reseal} (found : (s.sl.reseals.find? fun x => x.block = block && x.left.isEmpty) = some x) :
    ∃ v b, opResealDone block s = writeBack_ 0 block v ∧ getBlk v 0 block = some b ∧ b.dirty = true ∧ b.bits = resealBits x (oldBits s block) ∧
      v.sl.reseals = s.sl.reseals.filter fun y => y.block ≠ block :=
  ⟨_, _, resealDone_some found, (getBlk_count ..).trans (getBlk_putBlk ..), rfl, rfl,
    (reseals_count ..).trans ((reseals_putBlk ..).trans (reseals_resealTaken ..))⟩

theorem resealDone_none {block : Nat} (none_ : (s.sl.reseals.any fun x => x.block = block && x.left.isEmpty) = false) : opResealDone block s = s := by
  have missing : (s.sl.reseals.find? fun x => x.block = block && x.left.isEmpty) = none := by
    rw [List.find?_eq_none]
    simpa using none_
  rw [opResealDone, missing]

theorem sealWritebackDue_writes {level index : Nat} (due : blkKey level index ∈ s.sl.due) (rested : tooSoon s (blkKey level index) = false)
    (whole : orphan s level index = false) : opSealWritebackDue level index s =
      writeBlk level index { s with sl := { s.sl with due := s.sl.due.filter (· ≠ blkKey level index) } } := by
  unfold opSealWritebackDue
  extract_lets k
  exact if_pos (by simp [k, due, rested, whole])

theorem sealWritebackDue_waits {level index : Nat}
    (waits : blkKey level index ∉ s.sl.due ∨ tooSoon s (blkKey level index) = true ∨ orphan s level index = true) : opSealWritebackDue level index s = s := by
  unfold opSealWritebackDue
  extract_lets k
  refine if_neg ?_
  rcases waits with h | h | h <;> simp [k, h]

/-! ### The merging buffer -/

theorem mergingBufferAge_one {e : MbEnt} (one : s.hc.mbuf = [e]) (idle : e.draining = false) :
    (opMergingBufferAge e.granule s).hc.mbuf = [{ e with draining := true }] := by
  unfold opMergingBufferAge
  rw [one]
  exact if_pos (by simp [idle])

theorem hc_cellarPut (l : LineAddr) (d : Data) (mask : BitVec 64) (s : State) (cells : List Nat) (ent : Option Word) (drain : Bool)
    (cls : Option (Nat × Nat)) : (cellarPut l d mask s cells ent drain cls).hc = s.hc := by
  unfold cellarPut
  extract_lets n cel s1 s2
  have kept : s1.hc = s.hc := rfl
  split
  · have told : s2.hc = s.hc := (fire_hc ..).trans kept
    exact apply_ite_same State.hc told told
  · split
    · exact (fire_hc ..).trans kept
    · exact apply_ite_same State.hc ((fire_hc ..).trans kept) kept

theorem hc_drainLine (e : MbEnt) (s : State) (k : Nat) : (drainLine e s k).hc = s.hc := by
  unfold drainLine
  extract_lets m
  exact apply_ite_same State.hc rfl (hc_cellarPut ..)

theorem mbuf_setCacheSt (l : LineAddr) (st : St) (s : State) : (setCacheSt l st s).hc.mbuf = s.hc.mbuf := by
  unfold setCacheSt
  split
  · rfl
  · unfold setWaySt
    extract_lets w sec pf w' z
    exact apply_ite_same (fun s : State => s.hc.mbuf) rfl rfl

/-- The block with an entry of the merging buffer counted and off the buffer. -/
def mergeLeft (e : MbEnt) (s : State) : State :=
  let s := count (aHcCnt 6) 1 (if e.mask = BitVec.allOnes 256 then s else count (aHcCnt 7) 1 s)
  { s with hc := { s.hc with mbuf := [] } }

/-- The lines of a drained entry, written out and exclusive again where they were modified (R153). -/
def mergeDrained (e : MbEnt) (s : State) : State :=
  let s := e.owed.foldl (fun s w => owe w s) ((List.range 4).foldl (drainLine e) s)
  (List.range 4).foldl (fun s k =>
    if nfld e.mask.toNat (64 * k) 64 ≠ 0 && cacheSt s (BitVec.ofNat 54 (4 * e.granule + k)) = .m then
      setCacheSt (BitVec.ofNat 54 (4 * e.granule + k)) .e s
    else s) s

theorem mbuf_mergeDrained (e : MbEnt) (s : State) : (mergeDrained e s).hc.mbuf = s.hc.mbuf := by
  unfold mergeDrained
  extract_lets w
  have drained : ((List.range 4).foldl (drainLine e) s).hc = s.hc := foldl_frame State.hc (hc_drainLine e) (List.range 4) s
  have owed : w.hc.mbuf = s.hc.mbuf := (foldl_frame (fun s : State => s.hc.mbuf) (f := fun s w => owe w s) (fun _ _ => rfl) e.owed _).trans (by rw [drained])
  refine (foldl_frame (fun s : State => s.hc.mbuf) (fun s k => ?_) (List.range 4) w).trans owed
  exact apply_ite_same (fun s : State => s.hc.mbuf) (mbuf_setCacheSt ..) rfl

theorem mergingDrainQueued_one {e : MbEnt} (one : s.hc.mbuf = [e]) (draining : e.draining = true) :
    opMergingDrainQueued e.granule s = advanceFences (mergeDrained e (mergeLeft e s)) := by
  have taken : takeFirst (fun x : MbEnt => x.granule = e.granule && x.draining) s.hc.mbuf = some (e, []) := by
    rw [one]
    exact takeFirst_one (by simp [draining])
  unfold opMergingDrainQueued
  rw [taken]
  simp only [List.any_nil, Bool.not_false, Bool.and_true]
  rfl

theorem mergingDrainQueued_none (empty : s.hc.mbuf = []) (g : Nat) : opMergingDrainQueued g s = s := by
  rw [opMergingDrainQueued, empty]
  rfl

/-! ### A port that does not answer -/

theorem setCellarLink_spec {d ls : Nat} (small : ls < 8) (s : State) :
    rdFld (setCellarLink d ls s) (aDpStat d) 0 3 = ls ∧ (setCellarLink d ls s).cel = s.cel := by
  by_cases same : rdFld s (aDpStat d) 0 3 = ls
  · rw [setCellarLink, if_pos same]
    exact ⟨same, rfl⟩
  · rw [rdFld, rd_setCellarLink same, ← rdFld, setCellarLink_new same, fireSeq_cel]
    exact ⟨rdFld_cellarWritten small s, cel_cellarWritten ..⟩

theorem cellarCommandTimeout_spec (present : rdBit s (aDpStat d) 9 = false) :
    rdFld (opCellarCommandTimeout d s) (aDpStat d) 0 3 = 6 ∧ (opCellarCommandTimeout d s).cel = s.cel := by
  unfold opCellarCommandTimeout
  extract_lets a x
  rw [if_neg (by simp [a, present])]
  obtain ⟨state, cel⟩ := setCellarLink_spec (d := d) (ls := 6) (by decide) s
  rw [rdFld, rd_fireSeq, rd_count, rd_count, ← rdFld, fireSeq_cel, count_cel, count_cel]
  exact ⟨state, cel⟩

theorem reissue_kept (d : Nat) (s : State) : (reissue d s).cel.ops = s.cel.ops ∧ ∀ a, rd (reissue d s) a = rd s a := by
  unfold reissue
  extract_lets mine
  have same := foldl_frame (fun s : State => (s.cel.ops, s.part, s.regs)) (f := fun s (e : Nat × Waiter) => enqueue (68 + d) e.2 s) (fun _ _ => rfl) mine
    { s with cel := { s.cel with sent := s.cel.sent.filter fun e => e.1 ≠ d } }
  simp only [Prod.mk.injEq] at same
  obtain ⟨ops, part, regs⟩ := same
  exact ⟨ops, fun a => rd_congr part regs a⟩

theorem cellarRetrainDone_spec (recovering : rdFld s (aDpStat d) 0 3 = 6) :
    rdFld (opCellarRetrainDone d s) (aDpStat d) 0 3 = 3 ∧ (opCellarRetrainDone d s).cel.ops = s.cel.ops := by
  obtain ⟨state, cel⟩ := setCellarLink_spec (d := d) (ls := 3) (by decide) s
  obtain ⟨ops, same⟩ := reissue_kept d (setCellarLink d 3 s)
  unfold opCellarRetrainDone
  extract_lets a
  rw [if_neg (by simp [a, recovering]), rdFld, same, ← rdFld, ops, cel]
  exact ⟨state, rfl⟩

theorem cellarRetrainDone_idle (idle : rdFld s (aDpStat d) 0 3 ≠ 6) : opCellarRetrainDone d s = s := if_pos idle

theorem cellarRetrainTimeout_idle (idle : rdFld s (aDpStat d) 0 3 ≠ 6) : opCellarRetrainTimeout d s = s := if_pos idle

theorem cellarRetrainTimeout_spec (recovering : rdFld s (aDpStat d) 0 3 = 6) : ∃ v, opCellarRetrainTimeout d s = advanceFences (failedAccesses d v) ∧
    rdFld v (aDpStat d) 0 3 = 7 ∧ rdBit v (aDpStat d) 9 = true ∧ v.cel = s.cel := by
  obtain ⟨state, cel⟩ := setCellarLink_spec (d := d) (ls := 7) (by decide) s
  unfold opCellarRetrainTimeout
  extract_lets a x
  refine ⟨_, if_neg (by simp [a, recovering]), ?_, ?_, ?_⟩
  · rw [rdFld, rd_fireSeq, ← rdFld, rdFld_wrFld_off _ _ _ _ _ _ (by decide) (.inl (by decide))]
    exact state
  · rw [rdBit, rd_fireSeq, ← rdBit, rdBit_wrFld_self _ _ _ (by decide)]
    rfl
  · rw [fireSeq_cel, wrFld_cel]
    exact cel

end Sys2Proof.Machine

namespace Sys2Proof
open Machine

/-- Settles O46: each command of the cellar path, with and without the access, the block, the entry or the recovery that it is about. -/
theorem cellarEvents : Obligations.CellarEvents := by
  unfold Obligations.CellarEvents
  intro s run
  refine ⟨?_, ?_, ?_, ?_, ?_, ?_, ?_, ?_, ?_, ?_, ?_, ?_, ?_, ?_, ?_⟩
  · exact fun r none_ unissued => ⟨_, live_follow run (opCellarResponse r), (cellarResponse_expected none_).trans (if_neg (by simp [todo_unissued unissued]))⟩
  · exact fun r none_ issued => ⟨_, live_follow run (opCellarResponse r), (cellarResponse_expected none_).trans (if_pos issued)⟩
  · intro r c v none_ issued stop unhalted
    have halts : opCellarResponse r s = sealHalt c 0 (4 * r.granule.toNat) v :=
      (cellarResponse_expected none_).trans ((if_pos issued).trans (granuleRead_stops stop))
    refine ⟨_, live_follow run (opCellarResponse r), ?_⟩
    rw [halts]
    exact ⟨sealHalt_halted unhalted .., (sealHalt_erases unhalted ..).1⟩
  · intro granule none_
    refine ⟨_, live_follow run (opCellarWriteCompletion granule), ?_⟩
    rw [cellarWriteCompletion_unfenced none_]
    exact ⟨rfl, rfl⟩
  · intro block ready
    refine ⟨_, live_follow run (opResealDone block), ?_⟩
    obtain ⟨x, found⟩ := Option.isSome_iff_exists.1 (List.find?_isSome.2 (List.any_eq_true.1 ready))
    obtain ⟨v, b, eq, -, -, -, kept⟩ := resealDone_spec found
    rw [eq, reseals_writeBack_, kept]
    exact fun y member => by simpa using (List.mem_filter.1 member).2
  · intro block x found
    obtain ⟨v, b, eq, cached, dirty, bits, -⟩ := resealDone_spec found
    exact ⟨_, v, b, live_follow run (opResealDone block), eq, cached, dirty, bits⟩
  · exact fun block none_ => ⟨_, live_follow run (opResealDone block), resealDone_none none_⟩
  · exact fun level index due rested whole => ⟨_, { s with sl := { s.sl with due := s.sl.due.filter (· ≠ blkKey level index) } },
      live_follow run (opSealWritebackDue level index), sealWritebackDue_writes due rested whole, by simp, rfl⟩
  · exact fun level index waits => ⟨_, live_follow run (opSealWritebackDue level index), sealWritebackDue_waits waits⟩
  · intro granule e one at_ idle
    subst at_
    exact ⟨_, live_follow run (opMergingBufferAge e.granule), mergingBufferAge_one one idle⟩
  · intro granule e one at_ draining
    subst at_
    exact ⟨_, mergeDrained e (mergeLeft e s), live_follow run (opMergingDrainQueued e.granule), mergingDrainQueued_one one draining,
      (mbuf_mergeDrained ..).trans rfl⟩
  · exact fun granule empty => ⟨_, live_follow run (opMergingDrainQueued granule), mergingDrainQueued_none empty granule⟩
  · exact fun d present => ⟨_, live_follow run (opCellarCommandTimeout d), cellarCommandTimeout_spec present⟩
  · intro d recovering
    obtain ⟨state, ops⟩ := cellarRetrainDone_spec recovering
    obtain ⟨v, eq, failed, gone, cel⟩ := cellarRetrainTimeout_spec recovering
    exact ⟨⟨_, live_follow run (opCellarRetrainDone d), state, congrArg List.length ops⟩,
      _, v, live_follow run (opCellarRetrainTimeout d), eq, failed, gone, cel⟩
  · exact fun d idle => ⟨⟨_, live_follow run (opCellarRetrainDone d), cellarRetrainDone_idle idle⟩,
      _, live_follow run (opCellarRetrainTimeout d), cellarRetrainTimeout_idle idle⟩

end Sys2Proof
end

section
/-! PROOFS. Snoops at a hub without a copy, and the messages that complete a hub's requests (R101 to R134, R254). -/

namespace Sys2Proof.Machine

variable {s v : State} {h q : Hdr} {l : LineAddr} {m : MissReg} {d : Data} {c : Nat}

/-! ### Responses -/

/-- An acknowledgement of a snoop, as it is sent and kept. -/
def ackOf (q : Hdr) (fw dd g : Bool) (s : State) : Msg where
  opc := .ack
  dst := q.src
  dl := false
  sr := false
  hops := 0
  len := BitVec.ofNat 3 (lenOf .ack)
  h := { mkHdr s q.line q.tc.toNat q.epoch.toNat q.rqh q.rtag.toNat q.htag.toNat with fw := fw, d := dd, g := g, xtra := q.xtra }
  data := Data.zero

theorem respondAck_eq (q : Hdr) (fw dd g : Bool) (s : State) : respondAck q fw dd g s =
    dispatch (sliceInput (sliceOf q.line)) [] (ackOf q fw dd g s)
      { s with home := { s.home with kept := s.home.kept ++ [(q.line, q.htag.toNat, q.xtra.toNat, ackOf q fw dd g s)] } } := rfl

/-- An acknowledgement that is sent is kept for sending again (R129). -/
theorem home_respondAck (q : Hdr) (fw dd g : Bool) (s : State) :
    (respondAck q fw dd g s).home = { s.home with kept := s.home.kept ++ [(q.line, q.htag.toNat, q.xtra.toNat, ackOf q fw dd g s)] } := by
  rw [respondAck_eq]
  exact home_of_quiet (quiet_of_still (still_dispatch ..))

/-! ### A hub without a copy -/

theorem homeSide_hfPut (l : LineAddr) (e : HfEnt) (s : State) : homeSide (hfPut l e s) = homeSide s := by
  unfold hfPut
  extract_lets e'
  split
  · rfl
  · refine apply_ite_same homeSide rfl ?_
    split
    · exact (homeSide_of_quiet (quiet_count ..)).trans rfl
    · rfl

theorem homeSide_dropLine (l : LineAddr) (s : State) : homeSide (dropLine l s) = homeSide s := by
  have dropped : homeSide (hfSetSt l .i (setCacheSt l .i s)) = homeSide s := (homeSide_hfPut ..).trans (homeSide_setCacheSt ..)
  exact Eq.trans rfl dropped

theorem homeSide_clearWtp (l : LineAddr) (s : State) : homeSide (clearWtp l s) = homeSide s := by
  unfold clearWtp
  extract_lets z
  split
  · exact apply_ite_same homeSide rfl rfl
  · rfl

theorem homeSide_loseReg (l : LineAddr) (all : Bool) (s : State) : homeSide (loseReg l all s) = homeSide s := by
  unfold loseReg
  split
  · rfl
  · split
    · exact apply_ite_same homeSide rfl rfl
    · exact apply_ite_same homeSide (apply_ite_same homeSide rfl rfl) (apply_ite_same homeSide rfl rfl)
    · exact apply_ite_same homeSide rfl rfl
    · rfl

theorem homeSide_loseLine (l : LineAddr) (s : State) : homeSide (loseLine l s) = homeSide s :=
  (homeSide_loseReg ..).trans ((homeSide_dropLine ..).trans (homeSide_clearWtp ..))

/-- The hub has no copy of the line, no request for it and no host with it. -/
structure NoCopy (s : State) (l : LineAddr) : Prop where
  evicting : evOf s l = none
  asking : mrOf s l = none
  standing : standing s l = .i
  hosts : hostsOf s l = []

theorem snoopHostsFor_none (none_ : hostsOf s q.line = []) (o : Opc) : (snoopHostsFor s o q).1 = [] := by
  have excl : exclHost s q.line = [] := by
    rw [exclHost, none_]
    exact ite_self _
  unfold snoopHostsFor
  extract_lets line noCopy
  split
  · exact apply_ite_same Prod.fst none_ excl
  · exact none_

/-- Such a hub answers a snoop that it has no copy. -/
theorem answerSnoop_noCopy {o : Opc} (of : o = .snpS ∨ o = .snpX ∨ o = .snpI ∨ o = .snpBc) (cells : List Nat) (lost : standing s q.line = .i) :
    ∃ z, homeSide z = homeSide s ∧ answerSnoop o q cells none s = doneReading cells (respondAck q false false false z) := by
  have gone : homeSide (loseLine q.line s) = homeSide s := homeSide_loseLine ..
  rcases of with rfl | rfl | rfl | rfl
  · exact ⟨s, rfl, if_pos lost⟩
  · exact ⟨s, rfl, if_pos lost⟩
  · exact ⟨_, gone, rfl⟩
  · exact ⟨_, gone, rfl⟩

theorem handleSnoop_noCopy {o : Opc} (of : o = .snpS ∨ o = .snpX ∨ o = .snpI ∨ o = .snpBc) (cells : List Nat) (none_ : NoCopy s q.line) :
    ∃ z dd, homeSide z = homeSide s ∧ handleSnoop o q cells s = doneReading cells (respondAck q false dd false z) := by
  unfold handleSnoop
  extract_lets line free inIm x
  rw [if_neg (by simp [line, none_.evicting])]
  split
  · exact ⟨s, true, rfl, rfl⟩
  · have idle : ¬inIm := by simp [inIm, line, none_.asking]
    obtain ⟨z, same, eq⟩ := answerSnoop_noCopy of cells none_.standing
    refine ⟨z, false, same, ?_⟩
    rw [if_neg idle, withHosts, show x.1 = [] from snoopHostsFor_none none_.hosts o]
    exact eq

/-! ### A snoop that arrives -/

/-- A header with the line as this hub sees it. -/
def hereOf (s : State) (h : Hdr) : Hdr := { h with line := inLine s h.line }

/-- No snoop of the line waits or has been answered, and the line is in no Keep window. -/
structure Unsnooped (s : State) (l : LineAddr) : Prop where
  answered : ∀ x, x ∈ s.home.kept → x.1 ≠ l
  held : s.home.heldSnp = []
  tags : s.home.tagSnp = []
  steps : s.hst.steps = []
  keep : l ∉ s.home.keep

theorem onSnoop_new (new : Unsnooped s (inLine s h.line)) (o : Opc) (cells : List Nat) : onSnoop o h cells s =
    if tagMiss s (cacheSet s (inLine s h.line)) then
      tagFetch (cacheSet s (inLine s h.line)) { s with home := { s.home with tagSnp := [(o, hereOf s h, cells)] } }
    else handleSnoop o (hereOf s h) cells (tagUse (cacheSet s (inLine s h.line)) s) := by
  unfold onSnoop
  extract_lets q line same handling set again
  have idle : ¬handling := by simp [handling, new.held, new.tags, new.steps]
  have first : again = [] := by
    refine List.filter_eq_nil_iff.2 fun x member => ?_
    simp [line, q, new.answered x member]
  have open_ : line ∉ s.home.keep := new.keep
  rw [if_neg idle, first, if_neg (by simp), new.tags]
  exact ite_congr rfl (fun _ => rfl) fun _ => if_neg (by simp [open_])

/-- With the record block of the set at hand, the snoop is answered at once. -/
theorem onSnoop_answers {o : Opc} (of : o = .snpS ∨ o = .snpX ∨ o = .snpI ∨ o = .snpBc) (cells : List Nat) (new : Unsnooped s (inLine s h.line))
    (none_ : NoCopy s (inLine s h.line)) (hit : tagMiss s (cacheSet s (inLine s h.line)) = false) :
    ∃ a : Msg, a.opc = .ack ∧ a.dst = h.src ∧ a.h.xtra = h.xtra ∧
      (onSnoop o h cells s).home.kept = s.home.kept ++ [(inLine s h.line, h.htag.toNat, h.xtra.toNat, a)] := by
  have used : ∃ T, tagUse (cacheSet s (inLine s h.line)) s = { s with hc := { s.hc with tags := T } } := by
    unfold tagUse
    split
    · exact ⟨s.hc.tags, rfl⟩
    · exact ⟨_, rfl⟩
  obtain ⟨T, eq⟩ := used
  obtain ⟨z, dd, same, answers⟩ := handleSnoop_noCopy (s := { s with hc := { s.hc with tags := T } }) (q := hereOf s h) of cells
    ⟨none_.evicting, none_.asking, none_.standing, none_.hosts⟩
  rw [onSnoop_new new, if_neg (by simp [hit]), eq, answers]
  refine ⟨ackOf (hereOf s h) false dd false z, rfl, rfl, rfl, ?_⟩
  have home : z.home = s.home := (homeSide_iff.1 same).1
  show (respondAck (hereOf s h) false dd false z).home.kept = _
  rw [home_respondAck, home]
  rfl

theorem onSnoop_waits (new : Unsnooped s (inLine s h.line)) (o : Opc) (cells : List Nat) (miss : tagMiss s (cacheSet s (inLine s h.line)) = true) :
    (onSnoop o h cells s).home.tagSnp = [(o, hereOf s h, cells)] ∧ cacheSet s (inLine s h.line) ∈ (onSnoop o h cells s).hc.fetch ∧
      (onSnoop o h cells s).home.kept = s.home.kept := by
  rw [onSnoop_new new, if_pos miss, tagFetch, count_home, count_hc]
  refine ⟨rfl, ?_, rfl⟩
  dsimp only
  split
  next member => exact member
  next => exact List.mem_append_right _ (List.mem_singleton_self _)

/-! ### Completions -/

theorem onData_atm (found : mrFor s h = some m) (atomic : m.kind = .atm) : mget (onData h d none s).req.mrs h.rtag.toNat = none := by
  unfold onData
  rw [found]
  dsimp only
  rw [atomic]
  exact mget_mdel_self ..

theorem onData_once (found : mrFor s h = some m) (plain : m.kind ≠ .atm) : onData h d none s = readOnce h.rtag.toNat m d h.htag.toNat s := by
  unfold onData
  rw [found]
  dsimp only
  split
  next is => exact absurd is plain
  next => rfl
  next stands _ => cases stands
  next stands _ => cases stands

theorem onData_own (found : mrFor s h = some m) (own : m.kind = .rdO) (st : St) : onData h d (some st) s = readOnce h.rtag.toNat m d h.htag.toNat s := by
  unfold onData
  rw [found]
  dsimp only
  rw [own]

theorem onData_fills (found : mrFor s h = some m) (fills : m.kind ≠ .rdO) (st : St) :
    onData h d (some st) s = fill h.rtag.toNat m st d h.htag.toNat true s := by
  unfold onData
  rw [found]
  dsimp only
  split
  next none_ _ => cases none_
  next none_ _ => cases none_
  next is => exact absurd is fills
  next same _ => rw [← Option.some.inj same]

theorem onFwdX_found (found : mrFor s h = some m) : onFwdX h d s = tryGrant h.rtag.toNat { m with fwd := some (h.d, h.g, d) } h.htag.toNat s := by
  rw [onFwdX, found]

theorem onGntX_found (found : mrFor s h = some m) : onGntX h s = tryGrant h.rtag.toNat { m with gnt := some h.fw } h.htag.toNat s := by
  rw [onGntX, found]

theorem onGntX_stray (none_ : mrFor s h = none) : onGntX h s = strayFin h s := by rw [onGntX, none_]

theorem onCmp_stray (none_ : mrFor s h = none) : onCmp h s = strayFin h s := by rw [onCmp, none_]

theorem quiet_strayFin (h : Hdr) (s : State) : quiet (strayFin h s) = quiet s := (quiet_send0 ..).trans (quiet_count ..)

/-- The block once a write's register has been completed and is free. -/
def writeCompleted (n : Nat) (m : MissReg) (htag : Nat) (s : State) : State :=
  let s := sendFin n m htag (doneReading m.cells s)
  mrFree n (if carries m then wtCmp m.line s else s)

theorem onCmp_write (found : mrFor s h = some m) (write : m.kind = .wr) (given : m.owner = false) (lost : m.stand = none) :
    onCmp h s = flushDue m (m.demands.foldl (fun s d => finishWrite d s) (writeCompleted h.rtag.toNat m h.htag.toNat s)) := by
  unfold onCmp
  rw [found]
  simp -zeta only
  rw [if_neg (by simp [write])]
  extract_lets n l again x y z w m' held u v
  rw [if_neg (by simp [given]), if_neg (by simp [given])]
  have held_ : held = false := by simp [held, given]
  have freed : v = mrFree n z := by simp [v, held_, lost]
  rw [freed]
  rfl

theorem quiet_sendMr (n : Nat) (m : MissReg) (s : State) (cells : List Nat) : quiet (sendMr n m s cells) = quiet s := by
  unfold sendMr
  extract_lets h full data mask full' h'
  split
  · rfl
  · exact quiet_of_still (still_send ..)
  · split
    · split
      · exact quiet_of_still (still_send ..)
      · rfl
    · rfl
  · exact quiet_send0 ..

theorem req_noteAgain (m : MissReg) (s : State) : (noteAgain m s).req = s.req := by
  unfold noteAgain
  split
  · rfl
  · rfl

/-! ### Write-backs acknowledged -/

theorem retryAll_none (none_ : s.req.waits = []) (p : Why → Demand → Bool) : retryAll p s = { s with req := { s.req with waits := [] } } := by
  rw [retryAll, none_]
  rfl

/-! ### Messages as they arrive -/

section
variable (good : accepts s h = true) (empty : s.rx = [])
include good empty

theorem opDats_arrived (d : Data) : opDats h d s = onData h d none s := message_arrived good empty ..

theorem opFwds_arrived (d : Data) : opFwds h d s = onData h d (if h.g then none else some .s) s := message_arrived good empty ..

theorem opDatf_arrived (d : Data) : opDatf h d s = onData h d (some .f) s := message_arrived good empty ..

theorem opDate_arrived (d : Data) : opDate h d s = onData h d (some .e) s := message_arrived good empty ..

theorem opDatm_arrived (d : Data) : opDatm h d s = onData h d (some .m) s := message_arrived good empty ..

theorem opFwdx_arrived (d : Data) : opFwdx h d s = onFwdX h d s := message_arrived good empty ..

theorem opGntx_arrived : opGntx h s = onGntX h s := message_arrived good empty ..

theorem opCmp_arrived : opCmp h s = onCmp h s := message_arrived good empty ..

theorem opPlnote_arrived : opPlnote h s = prefetch (inLine s h.line) h.tc.toNat h.epoch.toNat 16 true s := by
  unfold opPlnote
  exact message_arrived good empty ..

/-- A redirected request goes to the line's own home (R134). -/
theorem opRdr_redirects (found : mrFor s h = some m) : mget (opRdr h s).req.mrs h.rtag.toNat = some { m with dst := homeOf m.line } := by
  unfold opRdr
  rw [message_arrived good empty, found]
  dsimp only
  rw [req_of_quiet (quiet_sendMr ..), req_noteAgain]
  exact mget_mset_self ..

/-- An acknowledged write-back frees its entry of the eviction buffer (R130). -/
theorem opWback_frees {x : EvEnt} (one : s.hc.evt = [x]) (at_ : x.line = inLine s h.line) (none_ : s.req.waits = []) :
    (opWback h s).hc.evt = [] ∧ (opWback h s).dir = s.dir := by
  unfold opWback
  rw [message_arrived good empty]
  extract_lets l
  rw [one, takeFirst_one (p := fun e : EvEnt => decide (e.line = l)) (decide_eq_true at_)]
  dsimp only
  rw [retryAll_none]
  · exact ⟨rfl, rfl⟩
  · exact none_

end

/-- The four snoops, and the command of each. -/
def IsSnoop (h : Hdr) (i : Instr) (o : Opc) : Prop :=
  i = .snps h ∧ o = .snpS ∨ i = .snpx h ∧ o = .snpX ∨ i = .snpi h ∧ o = .snpI ∨ i = .snpbc h ∧ o = .snpBc

theorem IsSnoop.opcode {i : Instr} {o : Opc} (is : IsSnoop h i o) : o = .snpS ∨ o = .snpX ∨ o = .snpI ∨ o = .snpBc := by
  rcases is with ⟨-, eq⟩ | ⟨-, eq⟩ | ⟨-, eq⟩ | ⟨-, eq⟩
  · exact .inl eq
  · exact .inr (.inl eq)
  · exact .inr (.inr (.inl eq))
  · exact .inr (.inr (.inr eq))

theorem IsSnoop.exec {i : Instr} {o : Opc} (is : IsSnoop h i o) (run : running s = true) :
    exec i s = .next (follow (withCell i o h (onSnoop o h) s)) := by
  rcases is with ⟨rfl, rfl⟩ | ⟨rfl, rfl⟩ | ⟨rfl, rfl⟩ | ⟨rfl, rfl⟩
  · exact live_follow run (opSnps h)
  · exact live_follow run (opSnpx h)
  · exact live_follow run (opSnpi h)
  · exact live_follow run (opSnpbc h)

end Sys2Proof.Machine

namespace Sys2Proof
open Machine

/-- Settles O52: a snoop at a hub without a copy is answered, waits for its record block or for a cell; and each message that completes a request acts on
the register that asked. -/
theorem holderMessages : Obligations.HolderMessages := by
  unfold Obligations.HolderMessages
  intro s h run empty good l n
  refine ⟨?_, ?_, ?_, ?_, ?_, ?_⟩
  · intro answered held tags steps keep evicting asking lost hosts i o is_
    have is : IsSnoop h i o := is_
    have new : Unsnooped s l := ⟨answered, held, tags, steps, keep⟩
    have none_ : NoCopy s l := ⟨evicting, asking, lost, hosts⟩
    refine ⟨fun c v found hit => ?_, fun c v found miss => ?_, fun full => ?_⟩
    · obtain ⟨lar, eq⟩ := takeProto_larder found
      have at_ : v = { s with lar := lar } := eq
      subst at_
      obtain ⟨a, opc, dst, xtra, kept⟩ := onSnoop_answers (s := { s with lar := lar }) is.opcode [c]
        ⟨answered, held, tags, steps, keep⟩ ⟨evicting, asking, lost, hosts⟩ hit
      refine ⟨_, a, is.exec run, opc, dst, xtra, ?_⟩
      rw [withCell_arrived good empty found]
      exact kept
    · obtain ⟨lar, eq⟩ := takeProto_larder found
      have at_ : v = { s with lar := lar } := eq
      subst at_
      have waits := onSnoop_waits (s := { s with lar := lar }) (h := h) ⟨answered, held, tags, steps, keep⟩ o [c] miss
      refine ⟨_, is.exec run, ?_⟩
      rw [withCell_arrived good empty found]
      exact waits
    · rw [is.exec run, withCell_full good full]
  · intro m d found
    refine ⟨fun atomic => ⟨_, live_follow run (opDats h d), ?_⟩, fun plain => ⟨?_, fun given => ?_⟩, fun own => ⟨?_, ?_, ?_⟩,
      fun fills => ⟨?_, ?_, ?_, fun shared => ?_⟩, ?_⟩
    · rw [opDats_arrived good empty]
      exact onData_atm found atomic
    · rw [← onData_once found plain, ← opDats_arrived good empty]
      exact live_follow run (opDats h d)
    · have arrived : opFwds h d s = onData h d none s := by rw [opFwds_arrived good empty, given, if_pos rfl]
      rw [← onData_once found plain, ← arrived]
      exact live_follow run (opFwds h d)
    · rw [← onData_own found own .f, ← opDatf_arrived good empty]
      exact live_follow run (opDatf h d)
    · rw [← onData_own found own .e, ← opDate_arrived good empty]
      exact live_follow run (opDate h d)
    · rw [← onData_own found own .m, ← opDatm_arrived good empty]
      exact live_follow run (opDatm h d)
    · rw [← onData_fills found fills .f, ← opDatf_arrived good empty]
      exact live_follow run (opDatf h d)
    · rw [← onData_fills found fills .e, ← opDate_arrived good empty]
      exact live_follow run (opDate h d)
    · rw [← onData_fills found fills .m, ← opDatm_arrived good empty]
      exact live_follow run (opDatm h d)
    · have arrived : opFwds h d s = onData h d (some .s) s := by rw [opFwds_arrived good empty, shared, if_neg (by decide)]
      rw [← onData_fills found fills .s, ← arrived]
      exact live_follow run (opFwds h d)
    · rw [← onFwdX_found found, ← opFwdx_arrived good empty]
      exact live_follow run (opFwdx h d)
  · intro m found
    refine ⟨⟨_, live_follow run (opGntx h), (opGntx_arrived good empty).trans (onGntX_found found)⟩, fun write given lost => ?_,
      _, live_follow run (opRdr h), opRdr_redirects good empty found⟩
    exact ⟨_, writeCompleted n m h.htag.toNat s, live_follow run (opCmp h), (opCmp_arrived good empty).trans (onCmp_write found write given lost),
      mget_mdel_self ..⟩
  · intro none_
    have stray := (opGntx_arrived good empty).trans (onGntX_stray none_)
    refine ⟨⟨_, live_follow run (opGntx h), stray, ?_, ?_⟩, _, live_follow run (opCmp h), (opCmp_arrived good empty).trans (onCmp_stray none_)⟩
    · rw [stray]
      exact req_of_quiet (quiet_strayFin h s)
    · rw [stray]
      exact hc_of_quiet (quiet_strayFin h s)
  · exact fun x one at_ none_ => ⟨_, live_follow run (opWback h), opWback_frees good empty one at_ none_⟩
  · exact ⟨_, live_follow run (opPlnote h), opPlnote_arrived good empty⟩

end Sys2Proof
end

section
/-! PROOFS. What the work on demands, transactions and hosts' answers leaves (R98 to R137, R152 to R175): the part, the power state, admission, time,
control, background work and the joins stand, as they do through the operations of a flush. -/

namespace Sys2Proof.Machine

variable {s : State}

/-! ### Ways and frames -/

@[simp] theorem core_setWay (k : Nat) (w : Way) (s : State) : core (setWay k w s) = core s := rfl

@[simp] theorem core_touchWay (l : LineAddr) (s : State) : core (touchWay l s) = core s := by
  unfold touchWay
  split
  · rfl
  · exact apply_ite_same core (core_count ..) rfl

@[simp] theorem core_renewWay (l : LineAddr) (s : State) : core (renewWay l s) = core s := by
  unfold renewWay
  split
  · rfl
  · rfl

@[simp] theorem core_dirKeep (l : LineAddr) (s : State) : core (dirKeep l s) = core s := by
  unfold dirKeep
  split
  · rfl
  · rfl

@[simp] theorem core_draw (k n : Nat) (s : State) : core (draw k n s).2 = core s := rfl

theorem core_victim {slice set : Nat} {x : Nat × State} (chosen : victim slice set s = some x) : core x.2 = core s := by
  unfold victim at chosen
  extract_lets c m aged t y at chosen
  have agedSame : core aged = core s := foldl_frame core (fun _ _ => core_setWay ..) c s
  split at chosen
  · cases chosen
  · split at chosen
    · cases chosen
      rfl
    · cases chosen
      exact (core_draw slice t.length aged).trans agedSame

@[simp] theorem core_evictLine (tc e : Nat) (s : State) (l : LineAddr) : core (evictLine tc e s l) = core s := by
  unfold evictLine
  extract_lets st
  split
  · exact core_release ..
  · split
    · exact (core_hfSetSt ..).trans (core_setCacheSt ..)
    · exact (core_hfSetSt ..).trans (core_setCacheSt ..)
    · exact apply_ite_same core rfl ((core_hfSetSt ..).trans ((core_setCacheSt ..).trans (core_cellarBack ..)))
    · rfl
    · exact core_releaseHosts ..

@[simp] theorem core_frameDone (k : Nat) (s : State) : core (frameDone k s) = core s := by
  unfold frameDone
  split
  · rfl
  · exact apply_ite_same core rfl rfl

@[simp] theorem core_startEvict (e : FrameEv) (s : State) : core (startEvict e s) = core s := by
  unfold startEvict
  extract_lets ls k x _ y
  have placed : core x = core s := apply_ite_same core rfl (core_setWay ..)
  exact apply_ite_same core ((core_count ..).trans placed)
    ((core_frameDone ..).trans ((foldl_frame core (core_evictLine e.tc e.epoch) ls y).trans placed))

@[simp] theorem core_allocWay (l : LineAddr) (tc e : Nat) (pf : Bool) (s : State) (write : Bool) : core (allocWay l tc e pf s write).2 = core s := by
  unfold allocWay
  split
  · rfl
  · split
    · rfl
    · split
      · rfl
      next k t chosen =>
        have same : core t = core s := core_victim chosen
        extract_lets ev
        split
        · exact same
        · split
          · exact same
          · exact (core_startEvict ..).trans ((core_count ..).trans same)

@[simp] theorem core_installWay (l : LineAddr) (st : St) (d : Data) (cells : List Nat) (cls : Nat × Nat) (s : State) (part : Bool) :
    core (installWay l st d cells cls s part) = core s := by
  unfold installWay
  split
  · rfl
  · extract_lets x
    have set : core x = core s := (core_setCacheData ..).trans ((core_setWaySt ..).trans (core_hfSetSt ..))
    exact apply_ite_same core ((core_hbmQueue ..).trans set) ((core_doneReading ..).trans set)

@[simp] theorem core_placeLine (l : LineAddr) (st : St) (d : Data) (cells : List Nat) (cls : Nat × Nat) (s : State) :
    core (placeLine l st d cells cls s) = core s := by
  unfold placeLine
  split
  · rfl
  · extract_lets x _ y
    have set : core y = core s := (core_setWaySt ..).trans (core_hfSetSt ..)
    exact apply_ite_same core ((core_hbmQueue ..).trans set) ((core_doneReading ..).trans set)

@[simp] theorem core_wayReady (l : LineAddr) (tc e : Nat) (s : State) (write : Bool) : core (wayReady l tc e s write).2 = core s := by
  unfold wayReady
  split
  · rfl
  · split
    · exact core_touchWay ..
    · exact (core_allocWay ..).trans (core_renewWay ..)

/-! ### Writes at the home -/

@[simp] theorem core_owe (w : Who) (s : State) : core (owe w s) = core s := rfl

@[simp] theorem core_mbHigh (k : Nat) (s : State) : core (mbHigh k s) = core s := by
  unfold mbHigh
  extract_lets mine
  exact apply_ite_same core rfl rfl

@[simp] theorem core_mbAccept (l : LineAddr) (d : Data) (mask : BitVec 64) (guarded : Option Who) (s : State) (ent : Option Word) (past : Bool) :
    core (mbAccept l d mask guarded s ent past) = core s := by
  unfold mbAccept
  extract_lets g x put isOpen m
  split
  · have written : core x = core s := (core_cellarWrite ..).trans (apply_ite_same core (core_setCacheSt ..) rfl)
    split
    · exact written
    · exact written
  · exact (core_mbHigh ..).trans rfl

theorem core_second_ite {c : Prop} [Decidable c] {a b : Bool × State} (h : core a.2 = core s) (k : core b.2 = core s) :
    core (if c then a else b).2 = core s := apply_ite_same (fun x : Bool × State => core x.2) h k

/-- A way made ready, where one is wanted, and the line placed in it. -/
theorem core_readyPlaced {t : State} {c : Prop} [Decidable c] (h : core t = core s) (l : LineAddr) (tc e : Nat) (write : Bool) (st : St) (d : Data)
    (cells : List Nat) : core (if (if c then wayReady l tc e t write else (false, t)).1 then
      placeLine l st d cells (tc, e) (if c then wayReady l tc e t write else (false, t)).2
      else (if c then wayReady l tc e t write else (false, t)).2) = core s := by
  have ready : core (if c then wayReady l tc e t write else (false, t)).2 = core s := core_second_ite ((core_wayReady ..).trans h) h
  exact apply_ite_same core ((core_placeLine ..).trans ready) ready

/-- What a cached line takes of a write. -/
theorem core_overwritten {t : State} (h : core t = core s) {c : Prop} [Decidable c] (l : LineAddr) (st : St) (d : Data) :
    core (if c then touchWay l (setCacheSt l st (setCacheData l d t)) else t) = core s :=
  apply_ite_same core ((core_touchWay ..).trans ((core_setCacheSt ..).trans ((core_setCacheData ..).trans h))) h

@[simp] theorem core_ownWrite (l : LineAddr) (d : Data) (mask : BitVec 64) (full alloc : Bool) (tc e : Nat) (cells : List Nat) (who : Who) (s : State)
    (ent : Option Word) : core (ownWrite l d mask full alloc tc e cells who s ent).2 = core s := by
  unfold ownWrite
  extract_lets ty present en z y1 x1 w1 x2 y3 x3 w3 v3
  have fresh : core z = core s := apply_ite_same core (core_dirPut ..) rfl
  have placed1 : core w1 = core s := core_readyPlaced (core_overwritten fresh ..) ..
  have placed3 : core w3 = core s := core_readyPlaced (core_overwritten fresh ..) ..
  have ready : core x2.2 = core s := core_second_ite ((core_wayReady ..).trans fresh) fresh
  have written : core v3 = core s := apply_ite_same core ((core_cellarWrite ..).trans ((core_setCacheSt ..).trans placed3)) ((core_cellarWrite ..).trans placed3)
  have accepted (w : Option Who) : core (doneReading cells (mbAccept l d mask w w3 ent)) = core s :=
    (core_doneReading ..).trans ((core_mbAccept ..).trans placed3)
  refine core_second_ite ?guarded (core_second_ite ?hbm ?plain)
  case guarded =>
    exact core_second_ite ((core_owe ..).trans ((core_cellarWrite ..).trans ((core_setCacheSt ..).trans fresh)))
      ((core_owe ..).trans ((core_cellarWrite ..).trans fresh))
  case hbm =>
    refine core_second_ite ((core_owe ..).trans ((core_cellarWrite ..).trans placed1)) (core_second_ite ?_ ?_)
    · exact core_second_ite ((core_placeLine ..).trans ready) ((core_setCacheSt ..).trans ((core_cellarWrite ..).trans ready))
    · exact core_second_ite ((core_touchWay ..).trans ((core_installWay ..).trans fresh)) ((core_cellarWrite ..).trans fresh)
  case plain =>
    exact core_second_ite (core_second_ite ((core_owe ..).trans written) written) (core_second_ite (accepted _) (accepted _))

@[simp] theorem core_atomStore (l : LineAddr) (a : Atom) (new : Data) (tc e : Nat) (who : Who) (s : State) (ent : Option Word) :
    core (atomStore l a new tc e who s ent).2 = core s := by
  unfold atomStore
  extract_lets ty slc x y z w
  have ready : core x.2 = core s := core_second_ite rfl (core_wayReady ..)
  have stored : core y = core s := (core_count ..).trans ((core_cellarWrite ..).trans ((core_setCacheSt ..).trans ready))
  have counted : core z = core s := (core_count ..).trans ready
  have accepted : core w = core s := (core_mbAccept ..).trans ((core_placeLine ..).trans counted)
  exact core_second_ite (core_second_ite stored ((core_owe ..).trans stored))
    (core_second_ite (core_second_ite ((core_placeLine ..).trans counted) ((core_owe ..).trans ((core_cellarWrite ..).trans ((core_placeLine ..).trans counted))))
      accepted)

end Sys2Proof.Machine
end

section
/-! PROOFS. What the transactions of a home leave (R98 to R137): the same parts of the block as the work on lines. -/

namespace Sys2Proof.Machine

variable {s : State}

/-! ### Opening and answering -/

@[simp] theorem core_withHome (x : Home) (s : State) : core { s with home := x } = core s := rfl

@[simp] theorem core_withReq (x : Req) (s : State) : core { s with req := x } = core s := rfl

theorem core_asNow {f : State → State} (keeps : ∀ s, core (f s) = core s) (l : LineAddr) (s : State) : core (asNow l f s) = core s := by
  unfold asNow
  extract_lets n _ x
  exact Eq.trans rfl ((keeps _).trans rfl)

@[simp] theorem core_waitPut (t : Txn) (s : State) : core (waitPut t s) = core s := rfl

@[simp] theorem core_inputPut (t : Txn) (s : State) : core (inputPut t s) = core s := rfl

@[simp] theorem core_setTxn (t : Txn) (s : State) : core (setTxn t s) = core s := rfl

@[simp] theorem core_openTxn (t : Txn) (s : State) : core (openTxn t s).2 = core s := by
  unfold openTxn
  extract_lets k n t' _ x
  exact core_setBusy ..

@[simp] theorem core_sendSnoop (t : Txn) (s : State) (x : SnpOut) : core (sendSnoop t s x) = core s := by
  unfold sendSnoop
  extract_lets y z
  have counted : core z = core s := apply_ite_same core ((core_count ..).trans (core_count ..)) (core_count ..)
  exact (core_send0 ..).trans counted

@[simp] theorem core_sendSnoops (l : List (HubId × Opc × Bool × Bool)) (t : Txn) (s : State) : core (sendSnoops l t s).2 = core s := by
  unfold sendSnoops
  extract_lets xs t'
  exact (core_setTxn ..).trans (foldl_frame core (core_sendSnoop t') xs s)

@[simp] theorem core_poisonLine (l : LineAddr) (cause : Nat) (s : State) : core (poisonLine l cause s) = core s :=
  (core_fire ..).trans ((core_cellarWrite ..).trans (core_setCacheSt ..))

@[simp] theorem core_makeL (l : LineAddr) (s : State) : core (makeL l s) = core s := (core_dirPut ..).trans (core_poisonLine ..)

@[simp] theorem core_reply (t : Txn) (opc : Opc) (fw cached : Bool) (d : Data) (s : State) : core (reply t opc fw cached d s) = core s := by
  unfold reply
  split
  · extract_lets _ h m out x head y z
    have noted : core x = core s := core_setTxn ..
    have celled : core z = core s := apply_ite_same (fun x : List Nat × State => core x.2) ((core_protoCell ..).trans noted) noted
    clear_value z y x out
    split
    · exact (core_fromCache ..).trans celled
    · exact (core_dispatch ..).trans celled
  · exact core_setTxn ..

@[simp] theorem core_askCellar (t : Txn) (s : State) : core (askCellar t s) = core s := apply_ite_same core rfl ((core_cellarRead ..).trans (core_setTxn ..))

@[simp] theorem core_spill (t : Txn) (s : State) : core (spill t s) = core s := by
  unfold spill
  split
  · exact core_cellarWrite ..
  · rfl

@[simp] theorem core_reclaimEntry (h : HubId) (l : LineAddr) (s : State) : core (reclaimEntry h l s) = core s :=
  apply_ite_same core (core_makeL ..) (apply_ite_same core (core_dirPut ..) rfl)

/-! ### The end of a transaction -/

@[simp] theorem core_endTxn (t : Txn) (s : State) : core (endTxn t s) = core s := by
  unfold endTxn
  extract_lets _ x y
  have closed : core x = core s := core_doneReading ..
  refine (core_setBusy ..).trans (show core y = core s from ?_)
  unfold y
  split
  · exact apply_ite_same core closed ((core_reclaimEntry ..).trans closed)
  · exact closed

@[simp] theorem core_checkEnd (l : LineAddr) (s : State) : core (checkEnd l s) = core s := by
  unfold checkEnd
  split
  · rfl
  · exact apply_ite_same core (core_endTxn ..) rfl

/-- One answer to a snoop, applied to the directory (R108 to R114). -/
def applyAnswer (ts : Txn × State) (x : SnpOut) : Txn × State :=
  let t := ts.1
  let s := ts.2
  match x.ans with
  | none => (t, s)
  | some a =>
    if a.e then
      match t.wbs.find? fun w => w.hub = x.hub with
      | none =>
        if ((dirGet s t.line).st = .x ∧ (dirGet s t.line).p0 = x.hub) ∨ t.owner = some x.hub then (t, makeL t.line s)
        else (t, dirPut t.line (dirEvc s x.hub (dirGet s t.line)) s)
      | some w =>
        let s := dirPut t.line (dirEvc s x.hub (dirGet s t.line)) s
        let s := if hubLive s w.hub then send0 .wbAck w.hub (mkHdr s t.line t.tc t.epoch w.hub w.h.rtag.toNat 0) s else s
        ({ t with wbs := t.wbs.filter (fun y => y.hub ≠ w.hub), dirty := if w.dirty then some w.data else t.dirty }, s)
    else if !x.tgt && !a.fw && (x.opc = .snpS || x.opc = .snpX) then
      let s := dirPut t.line (dirEvc s x.hub (dirGet s t.line)) s
      (t, if a.g || a.imputed then s else fire 194 1 (oLine t.line) s)
    else (t, s)

theorem applyAnswers_eq (t : Txn) (s : State) : applyAnswers t s = t.snps.foldl applyAnswer (t, s) := rfl

theorem core_applyAnswer (ts : Txn × State) (x : SnpOut) : core (applyAnswer ts x).2 = core ts.2 := by
  unfold applyAnswer
  extract_lets t u
  split
  · rfl
  · split
    · split
      · exact apply_ite_same (fun x : Txn × State => core x.2) (core_makeL ..) (core_dirPut ..)
      · exact apply_ite_same core ((core_send0 ..).trans (core_dirPut ..)) (core_dirPut ..)
    · split
      · exact apply_ite_same core (core_dirPut ..) ((core_fire ..).trans (core_dirPut ..))
      · rfl

@[simp] theorem core_applyAnswers (t : Txn) (s : State) : core (applyAnswers t s).2 = core s := by
  rw [applyAnswers_eq]
  generalize t.snps = l
  suffices h : ∀ ts : Txn × State, core (l.foldl applyAnswer ts).2 = core ts.2 from h (t, s)
  induction l with
  | nil => exact fun _ => rfl
  | cons x l ih => exact fun ts => (ih (applyAnswer ts x)).trans (core_applyAnswer ts x)

@[simp] theorem core_grantRdS (t : Txn) (h : Hdr) (d : Data) (cached : Bool) (s : State) : core (grantRdS t h d cached s) = core s := by
  unfold grantRdS
  extract_lets e x e'
  have stored : core x = core s := by
    refine apply_ite_same core rfl ?_
    split
    · exact core_cellarWrite ..
    · rfl
  split
  · exact apply_ite_same core ((core_reply ..).trans ((core_dirPut ..).trans stored)) ((core_reply ..).trans ((core_dirPut ..).trans stored))
  · exact (core_reply ..).trans ((core_dirPut ..).trans stored)

@[simp] theorem core_grantX (t : Txn) (h : Hdr) (d : Data) (cached : Bool) (s : State) : core (grantX t h d cached s) = core s :=
  (core_reply ..).trans (core_dirPut ..)

@[simp] theorem core_performWrite (t : Txn) (s : State) : core (performWrite t s) = core s := by
  unfold performWrite
  extract_lets +onlyGivenNames l owner
  split
  · rfl
  · split
    · extract_lets full lost merged x y z w
      have begun : core x = core s := core_setTxn ..
      have written : core y.2 = core s := by
        clear_value merged x
        unfold y
        split
        · exact (core_ownWrite ..).trans begun
        · exact core_second_ite ((core_cellarWrite ..).trans begun) ((core_ownWrite ..).trans begun)
      have noted : core w = core s := apply_ite_same core written ((core_dirPut ..).trans written)
      exact apply_ite_same core ((core_reply ..).trans noted) noted
    · split
      · rfl
      · extract_lets +onlyGivenNames e lost x t'
        have released : core x = core s := core_doneReading ..
        split
        · extract_lets y out
          have stored : core y = core s := by
            unfold y
            split
            · exact (core_cellarWrite ..).trans released
            · exact released
          exact (core_reply ..).trans (apply_ite_same core stored ((core_dirPut ..).trans stored))
        · extract_lets y out t'' z
          have stored : core z.2 = core s := (core_atomStore ..).trans ((core_dirPut ..).trans released)
          exact apply_ite_same core ((core_reply ..).trans stored) ((core_setTxn ..).trans stored)

@[simp] theorem core_completeRemote (t : Txn) (h : Hdr) (s : State) : core (completeRemote t h s) = core s := by
  unfold completeRemote
  extract_lets l x _ t' fwd y e served needData owner _ grant
  have applied : core y = core s := (core_setTxn ..).trans (core_applyAnswers ..)
  have served_ : core served = core s := (core_setTxn ..).trans ((core_doneReading ..).trans ((core_spill ..).trans applied))
  have needs {k : Data → Bool → State} (kept : ∀ d c, core (k d c) = core s) : core (needData k) = core s := by
    refine apply_ite_same core (kept ..) ?_
    split
    · exact kept ..
    · exact (core_askCellar ..).trans applied
  have granted (fw : Bool) : core (grant fw) = core s := (core_reply ..).trans ((core_dirPut ..).trans ((core_spill ..).trans applied))
  have owned : core (if fwd && owner then served else if fwd then grant true else if t'.named then grant false
      else if e.st = .l then reply t' .datE false false Data.poison (dirPut l { dirOwner y h.rqh e with busy := true } y)
      else needData fun d c => grantX t' h d c y) = core s :=
    apply_ite_same core served_ (apply_ite_same core (granted _) (apply_ite_same core (granted _)
      (apply_ite_same core ((core_reply ..).trans ((core_dirPut ..).trans applied)) (needs fun d c => (core_grantX ..).trans applied))))
  have wrote : core (performWrite t' y) = core s := (core_performWrite ..).trans applied
  split
  · exact apply_ite_same core served_ (apply_ite_same core ((core_reply ..).trans applied) (needs fun d c => (core_grantRdS ..).trans applied))
  · exact apply_ite_same core served_ (apply_ite_same core ((core_reply ..).trans applied)
      (needs fun d c => (core_reply ..).trans ((core_spill ..).trans applied)))
  · exact owned
  · exact owned
  · exact apply_ite_same core ((core_askCellar ..).trans applied) wrote
  · exact wrote

/-! ### Transactions that go on -/

@[simp] theorem core_localNext (t : Txn) (d : Demand) (s : State) : core (localNext t d s).2 = core s := by
  unfold localNext
  extract_lets x t' y e read z
  have applied : core y = core s := core_applyAnswers ..
  show core z = core s
  exact apply_ite_same core applied (apply_ite_same core (apply_ite_same core ((core_dirPut ..).trans applied) applied) ((core_dirPut ..).trans applied))

@[simp] theorem core_recallEnd (t : Txn) (s : State) : core (recallEnd t s) = core s := by
  unfold recallEnd
  extract_lets x y e z
  have applied : core y = core s := (core_spill ..).trans (core_applyAnswers ..)
  exact (core_endTxn ..).trans (apply_ite_same core applied (apply_ite_same core ((core_dirPut ..).trans applied) ((core_dirPut ..).trans applied)))

@[simp] theorem core_deadEnd (t : Txn) (h : Hdr) (s : State) : core (deadEnd t h s) = core s := by
  unfold deadEnd
  extract_lets x y e z
  have applied : core y = core s := (core_spill ..).trans (core_applyAnswers ..)
  exact (core_endTxn ..).trans (apply_ite_same core ((core_dirPut ..).trans applied) applied)

@[simp] theorem core_finishStep (l : LineAddr) (dirty : Option Data) (s : State) : core (finishStep l dirty s) = core s := by
  unfold finishStep
  split
  · rfl
  · extract_lets k t'
    split
    · exact (core_setTxn ..).trans (core_dropLine ..)
    · split
      · exact (core_setTxn ..).trans (core_ownWrite ..)
      · exact core_setTxn ..

@[simp] theorem core_tryTxn (l : LineAddr) (s : State) : core (tryTxn l s) = core s := by
  unfold tryTxn
  split
  · rfl
  · refine apply_ite_same core rfl (apply_ite_same core (core_checkEnd ..) ?_)
    split
    · exact apply_ite_same core (core_deadEnd ..) ((core_checkEnd ..).trans (core_completeRemote ..))
    · exact core_recallEnd ..
    · exact core_recallEnd ..
    · rfl

end Sys2Proof.Machine
end

section
/-! PROOFS. What the demands of a line at its own home leave (R152 to R175): the same parts of the block. -/

namespace Sys2Proof.Machine

variable {s : State}

/-! ### Record blocks, rooms and fills -/

@[simp] theorem core_tagUse (set : Nat) (s : State) : core (tagUse set s) = core s := apply_ite_same core rfl rfl

@[simp] theorem core_tagFetch (set : Nat) (s : State) : core (tagFetch set s) = core s := core_count ..

@[simp] theorem core_openLocal (d : Demand) (s : State) : core (openLocal d s) = core s := by
  unfold openLocal
  extract_lets k t
  split
  · exact (core_count ..).trans (core_inputPut ..)
  · exact (core_sendSnoops ..).trans (core_openTxn ..)

@[simp] theorem core_waitLocal (d : Demand) (s : State) : core (waitLocal d s) = core s := by
  unfold waitLocal
  extract_lets k t
  split
  · exact (core_count ..).trans (core_inputPut ..)
  · exact (core_count ..).trans (core_waitPut ..)

@[simp] theorem core_openFill (k : MrKind) (d : Demand) (s : State) : core (openFill k d s) = core s := by
  unfold openFill
  extract_lets pf fresh x way
  have placed : core x.2 = core s := core_allocWay ..
  exact apply_ite_same core (core_openMr ..) (apply_ite_same core ((core_openMr ..).trans placed) (core_wait ..))

@[simp] theorem core_hfMakeRoom (l : LineAddr) (tc e : Nat) (s : State) : core (hfMakeRoom l tc e s).2 = core s := by
  unfold hfMakeRoom
  extract_lets c x k v y z
  have counted : core y = core s := (core_count ..).trans (core_draw ..)
  have freed : core z = core s := apply_ite_same core ((core_withHosts (fun _ => rfl) ..).trans counted) ((core_releaseHosts ..).trans counted)
  exact core_second_ite rfl (core_second_ite rfl (core_second_ite rfl (core_second_ite rfl freed)))

theorem core_afterHosts {k : State → State} (keeps : ∀ s, core (k s) = core s) (d : Demand) (s : State) : core (afterHosts d k s) = core s := by
  unfold afterHosts
  extract_lets x
  exact apply_ite_same core (keeps s) (core_withHosts keeps ..)

theorem core_withRoom {k : State → State} (keeps : ∀ s, core (k s) = core s) (d : Demand) (s : State) : core (withRoom d k s) = core s := by
  unfold withRoom
  extract_lets x
  have made : core x.2 = core s := core_hfMakeRoom ..
  exact apply_ite_same core (keeps s) (apply_ite_same core ((keeps _).trans made) ((core_wait ..).trans made))

@[simp] theorem core_hitOnce (d : Demand) (s : State) : core (hitOnce d s) = core s := (core_answerRead ..).trans (core_touchWay ..)

@[simp] theorem core_hitRead (d : Demand) (s : State) : core (hitRead d s) = core s := (core_answerRead ..).trans (core_touchWay ..)

/-! ### Prefetches -/

@[simp] theorem core_pfOpen (k : MrKind) (d : Demand) (f : MissReg → MissReg) (s : State) : core (pfOpen k d f s) = core s := by
  unfold pfOpen
  split
  · exact core_wait ..
  next cs t took =>
    have celled : core t = core s := by
      split at took
      · exact core_takeCells took
      · cases took
        rfl
    extract_lets n d' x
    have opened : core x = core s := apply_ite_same core ((core_openMr ..).trans celled) ((core_openFill ..).trans celled)
    exact apply_ite_same core ((core_count ..).trans opened) opened

@[simp] theorem core_pfOwned (d : Demand) (s : State) : core (pfOwned d s) = core s := by
  unfold pfOwned
  extract_lets e t
  split
  · exact core_inputPut ..
  · exact (core_sendSnoops ..).trans (core_openTxn ..)

@[simp] theorem core_prefetchNow (d : Demand) (s : State) : core (prefetchNow d s) = core s := by
  unfold prefetchNow
  extract_lets l stash closed reg skip t
  have skipped : core skip = core s := core_doneReading ..
  have behind_ : core (match httEnter s t with
      | none => inputPut t s
      | some sh => waitPut { t with share := sh } s) = core s := by
    split
    · exact core_inputPut ..
    · exact core_waitPut ..
  have own : core (if (refusedOwn s l).isSome || isDevice s l || retiring s l || draining s l || (dirGet s l).st = .l then skip
      else if behind s l then (match httEnter s t with
        | none => inputPut t s
        | some sh => waitPut { t with share := sh } s)
      else if !reg then wait .reg d s
      else if (dirGet s l).st = .x then pfOwned d s
      else pfOpen .own d id s) = core s :=
    apply_ite_same core skipped (apply_ite_same core behind_ (apply_ite_same core (core_wait ..)
      (apply_ite_same core (core_pfOwned ..) (core_pfOpen ..))))
  have away : core (if deadWait s (homeOf l) ≠ 0 && (tkoBuddy s l).isNone || !hasRoute s (homeTarget s l) then skip
      else if !reg then wait .reg d s
      else if standing s l ≠ .i then pfOpen .rdO d (fun m => { m with viaHst := true }) s
      else pfOpen .rdS d id s) = core s :=
    apply_ite_same core skipped (apply_ite_same core (core_wait ..) (apply_ite_same core (core_pfOpen ..) (core_pfOpen ..)))
  exact apply_ite_same core skipped (apply_ite_same core skipped (apply_ite_same core (core_wait ..) (apply_ite_same core own away)))

@[simp] theorem core_prefetch (l : LineAddr) (tc e port : Nat) (stash : Bool) (s : State) : core (prefetch l tc e port stash s) = core s := by
  unfold prefetch
  extract_lets d c
  exact apply_ite_same core ((core_tagFetch ..).trans (core_wait ..)) ((core_prefetchNow ..).trans (core_tagUse ..))

/-! ### Reads, writes and atomics at the home -/

@[simp] theorem core_writeMeta (d : Demand) (s : State) : core (writeMeta d s) = core s := by
  unfold writeMeta
  extract_lets e
  split
  · split
    · exact apply_ite_same core (core_openKeep ..) rfl
    · exact core_hfRecord ..
    · exact core_hfClear ..
  · rfl

@[simp] theorem core_placeAfter (d : Demand) (s : State) : core (placeAfter d s) = core s := by
  unfold placeAfter
  refine apply_ite_same core rfl ?_
  split
  · rfl
  · exact core_prefetch ..
  · exact apply_ite_same core (core_prefetch ..) (core_send0 ..)

@[simp] theorem core_finishWrite (d : Demand) (s : State) : core (finishWrite d s) = core s := by
  unfold finishWrite
  extract_lets x y
  have noted : core x = core s := core_writeMeta ..
  have stood : core y = core s := apply_ite_same core ((core_hfSetSt ..).trans noted) noted
  exact (core_placeAfter ..).trans ((core_answerWrite ..).trans stood)

@[simp] theorem core_ownReadNow (d : Demand) (s : State) : core (ownReadNow d s) = core s := by
  unfold ownReadNow
  extract_lets l
  refine apply_ite_same core (core_answerRead ..) ?_
  split
  · exact core_withRoom (fun s => (core_answerRead ..).trans (apply_ite_same core (core_hfSetSt ..) rfl)) ..
  · exact apply_ite_same core (core_hitOnce ..) (core_openMr ..)
  · exact apply_ite_same core (core_withRoom (core_hitRead d) ..) (core_openFill ..)

@[simp] theorem core_ownWriteNow (d : Demand) (w : HostWr) (s : State) : core (ownWriteNow d w s) = core s := by
  unfold ownWriteNow
  extract_lets alloc lost x
  have written : core x.2 = core s := core_second_ite (core_cellarWrite ..) (core_ownWrite ..)
  exact apply_ite_same core ((core_finishWrite ..).trans written) written

@[simp] theorem core_ownAtomNow (d : Demand) (a : Atom) (data : Data) (dirty : Bool) (s : State) : core (ownAtomNow d a data dirty s) = core s := by
  unfold ownAtomNow
  split
  · exact (core_answerAtom ..).trans (apply_ite_same core (core_cellarWrite ..) rfl)
  · exact apply_ite_same core ((core_answerAtom ..).trans (core_atomStore ..)) (core_atomStore ..)

@[simp] theorem core_sampleStep (d : Demand) (hit : Bool) (s : State) : core (sampleStep d hit s) = core s := by
  unfold sampleStep
  extract_lets c k n rcl ahead x
  exact apply_ite_same core rfl (apply_ite_same core rfl ((core_count ..).trans rfl))

@[simp] theorem core_classify (merged : Bool) (d : Demand) (s : State) : core (classify merged d s).2 = core s := by
  unfold classify
  extract_lets present hit
  exact apply_ite_same (fun x : Demand × State => core x.2) rfl ((core_sampleStep ..).trans (core_count ..))

@[simp] theorem core_ownNow (d : Demand) (s : State) : core (ownNow d s) = core s := by
  unfold ownNow
  split
  · split
    · exact apply_ite_same core ((core_count ..).trans (core_wait ..)) (core_afterHosts (core_ownWriteNow d _) ..)
    · rfl
  · exact apply_ite_same core ((core_count ..).trans (core_wait ..))
      (core_afterHosts (fun s => apply_ite_same core (core_ownAtomNow ..) (core_openMr ..)) ..)
  · exact core_afterHosts (core_ownReadNow d) ..

@[simp] theorem core_openPending (sh : Nat) (d : Demand) (s : State) : core (openPending sh d s) = core s := apply_ite_same core (core_openTxn ..) rfl

@[simp] theorem core_serveGathered (t : Txn) (d : Demand) (data : Data) (s : State) : core (serveGathered t d data s) = core s := by
  unfold serveGathered
  extract_lets l taken stored
  have stores (s : State) : core (stored s) = core s := core_cellarWrite ..
  have takes (s : State) : core (taken s) = core s := core_setTxn ..
  have waits : core (count (aPcSlc (sliceOf l) 30) 1 (wait .mbuf d s)) = core s := (core_count ..).trans (core_wait ..)
  split
  · split
    · exact apply_ite_same core waits (apply_ite_same core ((core_ownNow ..).trans (takes s)) ((core_ownNow ..).trans (takes s)))
    · rfl
  · exact apply_ite_same core waits ((core_ownAtomNow ..).trans (takes s))
  · exact (core_ownNow ..).trans (stores s)
  · exact (core_answerRead ..).trans (stores s)
  · exact stores s
  · exact stores s
  · exact stores s
  · refine core_withRoom (fun s => ?_) ..
    extract_lets y z
    have placed : core y.2 = core s := (core_allocWay ..).trans (stores s)
    exact (core_answerRead ..).trans (apply_ite_same core ((core_placeLine ..).trans placed) ((core_hfSetSt ..).trans placed))

@[simp] theorem core_finishOwn (t : Txn) (d : Demand) (s : State) : core (finishOwn t d s) = core s := by
  unfold finishOwn
  extract_lets x _ t' d'
  have next : core x.2 = core s := core_localNext ..
  refine apply_ite_same core ((core_prefetchNow ..).trans ((core_endTxn ..).trans ((core_spill ..).trans next))) ?_
  split
  · exact (core_ownNow ..).trans ((core_setTxn ..).trans next)
  · exact (core_afterHosts (core_serveGathered t' d' _) ..).trans ((core_setTxn ..).trans next)

@[simp] theorem core_ownDemand (d : Demand) (s : State) : core (ownDemand d s) = core s := by
  unfold ownDemand
  extract_lets +onlyGivenNames l d' now
  split
  · split
    · rfl
    · rfl
    · exact (core_answerDead ..).trans (core_fire ..)
  · split
    · rfl
    · rfl
    · exact apply_ite_same core rfl (core_cellarRead ..)
    · extract_lets first x t
      have opened : core x = core s := core_openLocal ..
      have finished : core (match ownTxn x now with
          | some t => if t.snps.isEmpty then finishOwn t now x else x
          | none => x) = core s := by
        split
        · exact apply_ite_same core ((core_finishOwn ..).trans opened) opened
        · exact opened
      refine apply_ite_same core (core_answerHost ..) (apply_ite_same core (core_wait ..) (apply_ite_same core (core_waitLocal ..)
        (apply_ite_same core ((core_count ..).trans (core_wait ..)) (apply_ite_same core finished ?_))))
      split
      · exact (core_count ..).trans (core_inputPut ..)
      · exact (core_openPending ..).trans ((core_ownNow ..).trans (core_dirKeep ..))

end Sys2Proof.Machine
end

section
/-! PROOFS. What demands, snoops and hosts' answers leave (R115 to R126, R152 to R182): the same parts of the block. -/

namespace Sys2Proof.Machine

variable {s : State}

/-! ### Demands of lines of other hubs -/

@[simp] theorem core_sendWrite (d : Demand) (w : HostWr) (owner : Bool) (s : State) : core (sendWrite d w owner s) = core s := by
  unfold sendWrite
  extract_lets data
  exact core_openMr ..

@[simp] theorem core_sendThrough (d : Demand) (s : State) : core (sendThrough d s) = core s := by
  unfold sendThrough
  split
  · rfl
  · refine apply_ite_same core rfl ?_
    extract_lets x _ y
    have celled : core (if x.1.isEmpty then s else x.2) = core s := apply_ite_same core rfl (core_protoCell ..)
    exact (apply_ite_same core (core_wait ..) ((core_openMr ..).trans ((core_setWay ..).trans celled)))

@[simp] theorem core_writeThrough (l : LineAddr) (d : Demand) (s : State) : core (writeThrough l d s) = core s := by
  unfold writeThrough
  split
  · rfl
  · extract_lets x
    have noted : core x = core s := core_noteSent ..
    exact apply_ite_same core noted ((core_sendThrough ..).trans noted)

@[simp] theorem core_ownerWrite (d : Demand) (w : HostWr) (s : State) : core (ownerWrite d w s) = core s := by
  unfold ownerWrite
  extract_lets l present ready through noalloc owner x
  have owned (s : State) : core (owner s) = core s :=
    apply_ite_same core (core_answerNoRoute ..) (apply_ite_same core ((core_sendWrite ..).trans ((core_hfSetSt ..).trans (core_setCacheSt ..))) (core_sendWrite ..))
  have made : core x.2 = core s := core_wayReady ..
  have lost : core (answerNoRoute d s) = core s := core_answerNoRoute ..
  have hbm : core (if w.full then
      if noalloc then owner s
      else if x.1 then finishWrite d (placeLine l .m w.data d.cells (d.tc, d.epoch) x.2) else owner x.2
    else if present then
      finishWrite d (touchWay l (installWay l .m (mergeData (cacheData s l) w.data w.mask) d.cells (d.tc, d.epoch) s true))
    else if noRoute s d then answerNoRoute d s
    else sendWrite d w true (if ready then hfSetSt l .i s else s)) = core s :=
    apply_ite_same core
      (apply_ite_same core (owned s) (apply_ite_same core ((core_finishWrite ..).trans ((core_placeLine ..).trans made)) ((owned _).trans made)))
      (apply_ite_same core ((core_finishWrite ..).trans ((core_touchWay ..).trans (core_installWay ..)))
        (apply_ite_same core lost ((core_sendWrite ..).trans (apply_ite_same core (core_hfSetSt ..) rfl))))
  refine apply_ite_same core hbm (apply_ite_same core lost (apply_ite_same core (core_wait ..) (apply_ite_same core ?stored (apply_ite_same core ?placed
    (apply_ite_same core (owned s) (apply_ite_same core lost ((core_sendWrite ..).trans (core_hfSetSt ..))))))))
  case stored => exact (core_finishWrite ..).trans ((core_writeThrough ..).trans ((core_touchWay ..).trans (core_installWay ..)))
  case placed =>
    exact apply_ite_same core ((core_finishWrite ..).trans ((core_writeThrough ..).trans ((core_placeLine ..).trans made))) ((owned _).trans made)

@[simp] theorem core_remoteWriteNow (d : Demand) (w : HostWr) (s : State) : core (remoteWriteNow d w s) = core s := by
  unfold remoteWriteNow
  split
  · exact core_sendWrite ..
  · exact core_ownerWrite ..
  · exact core_ownerWrite ..
  · exact apply_ite_same core (core_sendWrite ..) (core_openMr ..)

@[simp] theorem core_remoteReadNow (d : Demand) (s : State) : core (remoteReadNow d s) = core s := by
  unfold remoteReadNow
  extract_lets l st present
  split
  · exact apply_ite_same core (core_hitOnce ..) (core_openMr ..)
  · exact apply_ite_same core (apply_ite_same core (core_withRoom (core_hitRead d) ..) (core_openMr ..))
      (apply_ite_same core (core_openFill ..) (core_openMr ..))
  · exact apply_ite_same core (core_withRoom (fun s => core_answerRead ..) ..) (apply_ite_same core (core_openFill ..) (core_openMr ..))
  · exact apply_ite_same core (core_withRoom (core_hitRead d) ..) (apply_ite_same core (core_openFill ..) (core_openMr ..))

@[simp] theorem core_remoteDemand (d : Demand) (s : State) : core (remoteDemand d s) = core s := by
  unfold remoteDemand
  extract_lets +onlyGivenNames l d' held
  split
  · rfl
  · rfl
  · rfl
  · extract_lets taken
    refine apply_ite_same core (core_sendThrough ..) (apply_ite_same core (core_wait ..) (apply_ite_same core ((core_answerDead ..).trans (core_fire ..))
      (apply_ite_same core (core_answerNoRoute ..) (apply_ite_same core ((core_releaseHosts ..).trans (core_wait ..)) (apply_ite_same core ?_ ?_)))))
    · split
      · exact core_answerHost ..
      · split
        · exact core_sendWrite ..
        · rfl
      · exact core_openMr ..
      · exact core_openMr ..
    · split
      · split
        · exact core_afterHosts (core_remoteWriteNow d' _) ..
        · rfl
      · exact core_openMr ..
      · exact core_afterHosts (core_remoteReadNow d') ..

/-! ### Training, merging and demands -/

@[simp] theorem core_putTracker (k : Nat) (t : Tracker) (s : State) : core (putTracker k t s) = core s := rfl

@[simp] theorem core_sendHandOver (p region : Nat) (d : Int) (s : State) : core (sendHandOver p region d s) = core s := by
  unfold sendHandOver
  extract_lets next _
  exact apply_ite_same core rfl rfl

@[simp] theorem core_train (p : Nat) (l : LineAddr) (s : State) : core (train p l s) = core s := by
  unfold train
  extract_lets +onlyGivenNames region x k
  split
  · exact core_putTracker ..
  · extract_lets t' go degree w y z last
    have fetched : core z = core s := (foldl_frame core (fun _ _ => core_prefetch ..) w y).trans (core_putTracker ..)
    exact apply_ite_same core rfl (apply_ite_same core ((core_sendHandOver ..).trans fetched) fetched)

@[simp] theorem core_thenTrain (d : Demand) (s t : State) : core (thenTrain d s t) = core t := apply_ite_same core (core_train ..) rfl

@[simp] theorem core_cleanEvict (d : Demand) (s : State) : core (cleanEvict d s) = core s := by
  unfold cleanEvict
  extract_lets x y
  have cleared : core x = core s := core_hfClear ..
  exact (core_answerHost ..).trans (apply_ite_same core ((core_release ..).trans cleared) cleared)

@[simp] theorem core_mergeOn (n : Nat) (m : MissReg) (d : Demand) (s : State) : core (mergeOn n m d s) = core s := by
  unfold mergeOn
  extract_lets fills first x y way
  have placed : core x.2 = core s := core_second_ite (core_allocWay ..) rfl
  have read : core y = core s := (core_moreReaders ..).trans (apply_ite_same core ((core_moreReaders ..).trans placed) placed)
  exact apply_ite_same core ((core_wait ..).trans placed) ((core_count ..).trans ((core_mrPut ..).trans read))

@[simp] theorem core_waitLine (d : Demand) (s : State) : core (waitLine d s) = core s := (core_wait ..).trans (core_classify ..)

@[simp] theorem core_demand (d : Demand) (s : State) : core (demand d s) = core s := by
  unfold demand
  extract_lets +onlyGivenNames d' l passive
  refine apply_ite_same core (apply_ite_same core rfl (core_wait ..)) (apply_ite_same core (core_cleanEvict ..) ?_)
  split
  · exact apply_ite_same core (core_finishOwn ..) rfl
  · refine apply_ite_same core ((core_tagFetch ..).trans (core_wait ..)) (apply_ite_same core ((core_prefetchNow ..).trans (core_tagUse ..)) ?_)
    extract_lets +onlyGivenNames x wt
    have used : core x = core s := apply_ite_same core rfl (core_tagUse ..)
    split
    · extract_lets as y
      have classed : core y.2 = core s := (core_classify ..).trans used
      exact apply_ite_same core used (apply_ite_same core ((core_thenTrain ..).trans ((core_mergeOn ..).trans classed)) ((core_waitLine ..).trans used))
    · extract_lets y z
      have classed : core y.2 = core s := apply_ite_same (fun x : Demand × State => core x.2) used ((core_classify ..).trans used)
      have counted : core z = core s := apply_ite_same core classed ((core_count ..).trans classed)
      have own : core (ownDemand y.1 (if passive then z else count (aPcSlc (sliceOf l) 2) 1 z)) = core s :=
        (core_ownDemand ..).trans (apply_ite_same core counted ((core_count ..).trans counted))
      exact apply_ite_same core (apply_ite_same core used ((core_waitLine ..).trans used))
        ((core_thenTrain ..).trans (apply_ite_same core own ((core_remoteDemand ..).trans counted)))

/-! ### Demands taken up again -/

@[simp] theorem core_offFill (fc : List Nat) (d : Demand) (s : State) : core (offFill fc d s) = core s := apply_ite_same core rfl (core_doneReading ..)

theorem core_demandNow (l : LineAddr) (d : Demand) (s : State) : core (asNow l (demand d) s) = core s := core_asNow (core_demand d) ..

@[simp] theorem core_decideMerged (l : LineAddr) (ds : List Demand) (s : State) : core (decideMerged l ds s) = core s := by
  induction ds generalizing s with
  | nil => rfl
  | cons d ds ih =>
    unfold decideMerged
    extract_lets old _ x stuck more _ y
    have decided : core y = core s := (core_withReq ..).trans ((core_demandNow l d _).trans rfl)
    exact apply_ite_same core decided (apply_ite_same core ((foldl_frame core (fun s d => core_demandNow l d s) ds.reverse y).trans decided)
      ((ih y).trans decided))

@[simp] theorem core_again (fc : List Nat) (l : LineAddr) (ds : List Demand) (s : State) : core (again fc l ds s) = core s :=
  (core_decideMerged ..).trans (foldl_frame core (fun s d => core_offFill fc d s) ds s)

@[simp] theorem core_retryAll (p : Why → Demand → Bool) (s : State) : core (retryAll p s) = core s := by
  unfold retryAll
  extract_lets go
  refine (foldl_frame core (fun s x => ?_) _ _).trans (core_withReq ..)
  exact apply_ite_same core rfl (apply_ite_same core rfl (core_demandNow ..))

/-! ### Answers to snoops -/

@[simp] theorem core_sendCached (cached : Bool) (opc : Opc) (dst : HubId) (h : Hdr) (d : Data) (cells : List Nat) (s : State) :
    core (sendCached cached opc dst h d cells s) = core s := by
  unfold sendCached
  extract_lets +onlyGivenNames m
  split
  · exact core_fromCache ..
  · exact core_dispatch ..

@[simp] theorem core_respond (cached : Bool) (opc : Opc) (dst : HubId) (q : Hdr) (d : Data) (fw dd g : Bool) (cells : List Nat) (s : State) :
    core (respond cached opc dst q d fw dd g cells s) = core s := by
  unfold respond
  extract_lets _ h m _ x
  exact (core_sendCached ..).trans (core_withHome ..)

@[simp] theorem core_respondAck (q : Hdr) (fw d g : Bool) (s : State) : core (respondAck q fw d g s) = core s := core_respond ..

@[simp] theorem core_mrFree (n : Nat) (s : State) : core (mrFree n s) = core s := rfl

@[simp] theorem core_loseReg (l : LineAddr) (all : Bool) (s : State) : core (loseReg l all s) = core s := by
  unfold loseReg
  split
  · rfl
  · split
    · exact apply_ite_same core rfl rfl
    · exact apply_ite_same core (apply_ite_same core rfl rfl) (apply_ite_same core rfl rfl)
    · exact apply_ite_same core rfl rfl
    · rfl

@[simp] theorem core_clearWtp (l : LineAddr) (s : State) : core (clearWtp l s) = core s := by
  unfold clearWtp
  extract_lets x
  split
  · exact apply_ite_same core rfl rfl
  · rfl

@[simp] theorem core_loseLine (l : LineAddr) (s : State) : core (loseLine l s) = core s :=
  (core_loseReg ..).trans ((core_dropLine ..).trans (core_clearWtp ..))

@[simp] theorem core_toHstS (l : LineAddr) (tc e : Nat) (s : State) : core (toHstS l tc e s) = core s := by
  unfold toHstS
  split
  · extract_lets x _ _ y
    have made : core x.2 = core s := core_hfMakeRoom ..
    have noted : core y = core s := Eq.trans rfl made
    exact apply_ite_same core ((core_hfSetSt ..).trans made) ((core_count ..).trans ((core_send0 ..).trans noted))
  · extract_lets x
    have made : core x.2 = core s := core_hfMakeRoom ..
    exact apply_ite_same core rfl (apply_ite_same core ((core_hfSetSt ..).trans made) ((core_mrPut ..).trans made))

@[simp] theorem core_toF (l : LineAddr) (st : St) (tc e : Nat) (s : State) : core (toF l st tc e s) = core s := by
  unfold toF
  extract_lets _ x
  have cleared : core x = core s := (core_clearWtp ..).trans (core_withReq ..)
  exact apply_ite_same core rfl (apply_ite_same core ((core_loseReg ..).trans ((core_clearWtp ..).trans (core_setCacheSt ..)))
    ((core_toHstS ..).trans ((core_loseReg ..).trans cleared)))

@[simp] theorem core_answerSnoop (opc : Opc) (q : Hdr) (cells : List Nat) (dirty : Option Data) (s : State) :
    core (answerSnoop opc q cells dirty s) = core s := by
  unfold answerSnoop
  extract_lets +onlyGivenNames l x st cached kept isM data noCopy sm ack toF_
  have entered : core x = core s := by
    unfold x
    split
    · exact apply_ite_same core ((core_setCacheData ..).trans (core_setCacheSt ..)) rfl
    · rfl
  clear_value x
  have acks (fw g : Bool) (s : State) : core (ack fw g s) = core s := (core_doneReading ..).trans (core_respondAck ..)
  have given (s : State) : core (toF_ s) = core s := core_toF ..
  have lost : core (loseLine l x) = core s := (core_loseLine ..).trans entered
  have noCopy_ : core (match dirty with
      | some d => respond false .ackD q.src q d false false true cells (loseLine l x)
      | none => ack false true (loseLine l x)) = core s := by
    split
    · exact (core_respond ..).trans lost
    · exact (acks ..).trans lost
  split
  · extract_lets _ y z w
    have read : core y = core s := apply_ite_same core ((core_moreReaders ..).trans entered) entered
    have sent : core z = core s := (core_respond ..).trans read
    have told : core w = core s := apply_ite_same core ((core_respond ..).trans sent) ((core_respondAck ..).trans sent)
    exact apply_ite_same core ((acks ..).trans entered) (apply_ite_same core noCopy_ (apply_ite_same core
      (apply_ite_same core ((given _).trans ((core_respond ..).trans entered)) ((given _).trans ((acks ..).trans entered))) ((given _).trans told)))
  · extract_lets _ y
    have sent : core y = core s := (core_respond ..).trans entered
    exact apply_ite_same core ((acks ..).trans entered) (apply_ite_same core noCopy_ (apply_ite_same core
      (apply_ite_same core ((core_loseLine ..).trans ((core_respond ..).trans entered)) ((core_loseLine ..).trans ((acks ..).trans entered)))
      ((core_loseLine ..).trans ((core_respondAck ..).trans sent))))
  · exact (acks ..).trans lost

/-! ### The end of a step of snoops -/

@[simp] theorem core_absorbHeld (l : LineAddr) (d : Data) (known : BitVec 64) (tc e : Nat) (s : State) : core (absorbHeld l d known tc e s) = core s := by
  unfold absorbHeld
  split
  · extract_lets new
    exact apply_ite_same core ((core_mrPut ..).trans (core_hfSetSt ..)) ((core_withReq ..).trans (core_hfSetSt ..))
  · exact core_releaseHosts ..

@[simp] theorem core_absorb (l : LineAddr) (dirty : Option Data) (known : BitVec 64) (tc e : Nat) (s : State) :
    core (absorb l dirty known tc e s) = core s := by
  unfold absorb
  split
  · rfl
  next d =>
    extract_lets +onlyGivenNames w dm ready
    refine apply_ite_same core (core_ownWrite ..) (apply_ite_same core ?cached (apply_ite_same core (core_absorbHeld ..) (apply_ite_same core ?part ?whole)))
    case cached =>
      extract_lets x
      have stored : core x = core s := (core_setCacheData ..).trans (core_setCacheSt ..)
      refine apply_ite_same core ((core_writeThrough ..).trans stored) ?_
      split
      · exact apply_ite_same core stored stored
      · exact stored
    case part => exact apply_ite_same core (core_absorbHeld ..) ((core_openMr ..).trans (core_hfSetSt ..))
    case whole =>
      extract_lets x y
      have made : core x.2 = core s := core_wayReady ..
      have placed : core y = core s := (core_placeLine ..).trans made
      exact apply_ite_same core (apply_ite_same core placed ((core_writeThrough ..).trans placed))
        (apply_ite_same core ((core_absorbHeld ..).trans made) ((core_openMr ..).trans ((core_hfSetSt ..).trans made)))

@[simp] theorem core_progress (l : LineAddr) (s : State) : core (progress l s) = core s := by
  unfold progress
  split
  · rfl
  · split
    · exact apply_ite_same core (core_finishOwn ..) rfl
    · exact core_tryTxn ..

@[simp] theorem core_redo (d : Demand) (s : State) : core (redo d s) = core s := by
  unfold redo
  extract_lets l own mine once free
  have again_ : core (asNow l (demand d) s) = core s := core_demandNow ..
  exact apply_ite_same core again_ (apply_ite_same core (core_ownReadNow ..) (apply_ite_same core
    (apply_ite_same core (core_ownReadNow ..) again_) (apply_ite_same core again_ (core_remoteReadNow ..))))

@[simp] theorem core_runStep (x : HostStep) (s : State) : core (runStep x s) = core s := by
  unfold runStep
  extract_lets +onlyGivenNames l _ y whole
  have begun : core y = core s := core_hfPut ..
  clear_value y
  split
  · exact (core_answerSnoop ..).trans begun
  · exact (core_progress ..).trans ((core_finishStep ..).trans begun)
  · exact (core_redo ..).trans ((core_absorb ..).trans begun)
  · extract_lets z
    exact (foldl_frame core (fun s e => core_frameDone e.way s) z.hc.evs z).trans ((core_release ..).trans begun)
  · exact (core_cleanNow ..).trans ((core_absorb ..).trans begun)
  · exact (core_absorb ..).trans begun
  · exact apply_ite_same core ((core_dropLine ..).trans (apply_ite_same core ((core_fire ..).trans begun) begun))
      (apply_ite_same core ((core_absorb ..).trans begun) (apply_ite_same core ((core_release ..).trans begun) ((core_dropLine ..).trans begun)))

@[simp] theorem core_runSteps (l : LineAddr) (n : Nat) (s : State) : core (runSteps l n s) = core s := by
  induction n generalizing s with
  | zero => rfl
  | succ n ih =>
    unfold runSteps
    split
    · rfl
    · extract_lets rest
      exact (ih _).trans ((core_runStep ..).trans rfl)

@[simp] theorem core_snoopAgain (l : LineAddr) (p : Nat) (s : State) : core (snoopAgain l p s) = core s := by
  unfold snoopAgain
  extract_lets +onlyGivenNames mine
  split
  · rfl
  · extract_lets +onlyGivenNames kind strong mark _ x
    split
    · exact (core_sendBi ..).trans rfl
    · rfl

@[simp] theorem core_hostAnswered (p : Nat) (l : LineAddr) (r : BiRsp) (s : State) : core (hostAnswered p l r s) = core s := by
  unfold hostAnswered
  extract_lets +onlyGivenNames _ x _ y z
  have noted : core x = core s := by
    unfold x
    split
    · exact core_hfClear ..
    · exact apply_ite_same core (core_hfPut ..) rfl
    · rfl
  clear_value x
  have asked : core y = core s := (core_snoopAgain ..).trans (Eq.trans rfl noted)
  have ran : core z = core s := (core_runSteps ..).trans asked
  exact apply_ite_same core ran ((core_retryAll ..).trans ran)

end Sys2Proof.Machine
end

section
/-! PROOFS. Events of a host port and its link (R294, R363 to R375, R380 to R382, R528, R565): its state, its lanes and its head. -/

namespace Sys2Proof.Machine

variable {s : State} {p : HPort} {tr : PcieTrain}

/-! ### The state of a port in HP_STAT -/

theorem hst_setHostLink (p ls : Nat) (s : State) : (setHostLink p ls s).hst = s.hst := by
  unfold setHostLink
  extract_lets old x
  exact apply_ite_same State.hst rfl ((fireSeq_hst ..).trans ((rsq_hst ..).trans (wrFld_hst ..)))

@[simp] theorem core_fireSeq (n c : Nat) (o1 o2 : Obj) (q : Nat) (s : State) : core (fireSeq n c o1 o2 q s) = core s := by simp [core]

@[simp] theorem core_rsq (a i : Nat) (s : State) : core (rsq a i s) = core s := core_wr ..

@[simp] theorem core_setHostLink (p ls : Nat) (s : State) : core (setHostLink p ls s) = core s := by
  unfold setHostLink
  extract_lets old x
  exact apply_ite_same core rfl ((core_fireSeq ..).trans ((core_rsq ..).trans (core_wrFld ..)))

/-- HP_STAT shows the state set, and keeps its other fields below the status bits. -/
theorem setHostLink_spec {ls : Nat} (small : ls < 8) (p : Nat) (s : State) : rdFld (setHostLink p ls s) (aHpStat p) 0 3 = ls ∧
    ∀ lo n, 3 ≤ lo → lo + n ≤ 9 → rdFld (setHostLink p ls s) (aHpStat p) lo n = rdFld s (aHpStat p) lo n := by
  unfold setHostLink
  extract_lets old x
  split
  next same => exact ⟨same, fun _ _ _ _ => rfl⟩
  next => 
    refine ⟨?_, fun lo n h3 h9 => ?_⟩
    · rw [rd_congr_fld (rd_fireSeq ..), rdFld_rsq_off _ (by decide) (by decide) (.inl (by decide)), rdFld_wrFld_self _ _ _ _ _ (by decide)]
      exact Nat.mod_eq_of_lt small
    · rw [rd_congr_fld (rd_fireSeq ..), rdFld_rsq_off _ (by decide) (by omega) (.inl h9), rdFld_wrFld_off _ _ _ _ _ _ (by decide) (.inr h3)]

theorem log2_lanesOf_lt (s : State) (p : Nat) : Nat.log2 (lanesOf s p) < 8 := by
  unfold lanesOf
  split
  · decide
  · split <;> decide

/-- A training puts the lanes and the rate in HP_STAT (R365). -/
theorem trainHost_spec (p : Nat) (tr : PcieTrain) (s : State) :
    rdFld (trainHost p tr s) (aHpStat p) 3 3 = min (Nat.log2 (lanesOf s p)) tr.width.toNat ∧ rdFld (trainHost p tr s) (aHpStat p) 6 2 = tr.rate.toNat := by
  have lanes := log2_lanesOf_lt s p
  have rate := tr.rate.isLt
  unfold trainHost
  extract_lets w _ x
  have small : w < 8 := Nat.lt_of_le_of_lt (Nat.min_le_left ..) lanes
  rw [rdFld_wrFld_in x 3 5 _ 3 3 (by decide) (by decide) (by decide), rdFld_wrFld_in x 3 5 _ 6 2 (by decide) (by decide) (by decide)]
  refine ⟨?_, ?_⟩
  · omega
  · omega

theorem lanesOf_congr {t : State} (same : t.hst.setting = s.hst.setting) (p : Nat) : lanesOf t p = lanesOf s p := by
  rw [lanesOf, aggOf, portSetting, same, lanesOf, aggOf, portSetting]

/-! ### A port that has gone -/

theorem hst_answerFence (f : Fence) (s : State) : (answerFence f s).hst = s.hst := hst_of_quiet (quiet_send0 ..)

theorem hst_numberDone (id : Nat) (s : State) (cel : List Nat) : (numberDone id s cel).hst = s.hst := by
  unfold numberDone
  extract_lets watch fs ended _ x
  have same : x.hst = s.hst := rfl
  clear_value x fs
  split
  · rfl
  · exact (foldl_frame State.hst (f := fun s (e : Nat × Fence) => answerFence e.2 s) (fun s e => hst_answerFence e.2 s) (fs.filter ended) x).trans same

theorem gone_kept (i : Instr) (s : State) : (gone i s).hst = s.hst ∧ core (gone i s) = core s := by
  unfold gone
  split
  · exact ⟨(hst_numberDone ..).trans rfl, (core_numberDone ..).trans rfl⟩
  · exact ⟨rfl, rfl⟩

/-- The block with nothing of the port held, and its lanes unset. -/
def portUnheld (p : Nat) (s : State) : State :=
  { s with lar := { s.lar with held := s.lar.held.filter fun x => x.2.1 ≠ p }, hst := { s.hst with narrow := mdel s.hst.narrow p } }

/-- The numbers of the requests held at the port, given up. -/
def heldGone (p : Nat) (s : State) : State := (s.lar.held.filter fun x => x.2.1 = p).foldl (fun s x => gone x.1 s) (portUnheld p s)

theorem linkGone_eq (p ls : Nat) (s : State) : linkGone p ls s = setHostLink p ls (dropToHost p (dropPops p (heldGone p s))) := rfl

theorem setting_dropped (p : Nat) (s : State) : (dropToHost p (dropPops p s)).hst = s.hst := rfl

theorem core_dropped (p : Nat) (s : State) : core (dropToHost p (dropPops p s)) = core s := rfl

theorem heldGone_kept (p : Nat) (s : State) : (heldGone p s).hst = (portUnheld p s).hst ∧ core (heldGone p s) = core (portUnheld p s) :=
  ⟨foldl_frame State.hst (f := fun s (x : Instr × Nat × Nat) => gone x.1 s) (fun s x => (gone_kept x.1 s).1) _ _,
    foldl_frame core (f := fun s (x : Instr × Nat × Nat) => gone x.1 s) (fun s x => (gone_kept x.1 s).2) _ _⟩

theorem setting_linkGone (p ls : Nat) (s : State) : (linkGone p ls s).hst.setting = s.hst.setting := by
  rw [linkGone_eq, hst_setHostLink, setting_dropped, (heldGone_kept p s).1]
  rfl

theorem core_linkGone (p ls : Nat) (s : State) : core (linkGone p ls s) = core s := by
  rw [linkGone_eq, core_setHostLink, core_dropped, (heldGone_kept p s).2]
  rfl

theorem hostLinkDown_agent (on : inService s p = true) (up : linkUp s p = true) (agent : hostMode s p = false) : opHostLinkDown p s = linkGone p 7 s := by
  unfold opHostLinkDown hostLinkDown
  extract_lets x
  rw [if_neg (by simp [on, up]), if_neg (by rw [hostMode_congr (setting_linkGone p 7 s), agent]; decide)]

theorem hostLinkDown_host (on : inService s p = true) (up : linkUp s p = true) (host : hostMode s p = true) :
    opHostLinkDown p s = hostDies p (linkGone p 7 s) := by
  unfold opHostLinkDown hostLinkDown
  extract_lets x
  rw [if_neg (by simp [on, up]), if_pos (by rw [hostMode_congr (setting_linkGone p 7 s), host])]

/-! ### A port's reset -/

/-- The port gone down in its reset, with every unlock lost (R294). -/
def portDown (p : Nat) (s : State) : State := linkGone p 2 { s with ctl := { s.ctl with unlocks := [] } }

/-- The port trained again after its reset. -/
def portUp (p : Nat) (tr : PcieTrain) (s : State) : State := if peerTrains tr then setHostLink p 3 (trainHost p tr (portDown p s)) else portDown p s

theorem setting_portDown (p : Nat) (s : State) : (portDown p s).hst.setting = s.hst.setting := setting_linkGone ..

theorem setting_portUp (p : Nat) (tr : PcieTrain) (s : State) : (portUp p tr s).hst.setting = s.hst.setting := by
  unfold portUp
  split
  · rw [hst_setHostLink]
    exact setting_portDown ..
  · exact setting_portDown ..

theorem unlocks_portUp (p : Nat) (tr : PcieTrain) (s : State) : (portUp p tr s).ctl.unlocks = [] := by
  have down : core (portDown p s) = core { s with ctl := { s.ctl with unlocks := [] } } := core_linkGone ..
  have up : core (portUp p tr s) = core (portDown p s) := apply_ite_same core ((core_setHostLink ..).trans rfl) rfl
  rw [ctl_of_core (up.trans down)]

theorem portReset_agent (on : inService s p = true) (able : peerTrains tr = true ∨ linkUp s p = true) (agent : hostMode s p = false) :
    opPortReset ⟨p, tr⟩ s = portUp p tr s := by
  unfold opPortReset
  extract_lets p' t _ x y
  have turned : ¬(!inService s p' || (!peerTrains t && !linkUp s p')) := by
    rcases able with able | able <;> simp [p', t, on, able]
  rw [if_neg turned]
  have same : hostMode y p' = false := (hostMode_congr (setting_portUp p tr s) p).trans agent
  exact if_pos (by rw [same]; rfl)

theorem portReset_agent_trained (on : inService s p = true) (trains : peerTrains tr = true) (agent : hostMode s p = false) :
    rdFld (opPortReset ⟨p, tr⟩ s) (aHpStat p) 0 3 = 3 ∧
      rdFld (opPortReset ⟨p, tr⟩ s) (aHpStat p) 3 3 = min (Nat.log2 (lanesOf s p)) tr.width.toNat ∧
      rdFld (opPortReset ⟨p, tr⟩ s) (aHpStat p) 6 2 = tr.rate.toNat := by
  rw [portReset_agent on (.inl trains) agent, portUp, if_pos trains]
  obtain ⟨state, kept⟩ := setHostLink_spec (ls := 3) (by decide) p (trainHost p tr (portDown p s))
  obtain ⟨lanes, rate⟩ := trainHost_spec p tr (portDown p s)
  rw [lanesOf_congr (setting_portDown p s)] at lanes
  exact ⟨state, (kept 3 3 (by decide) (by decide)).trans lanes, (kept 6 2 (by decide) (by decide)).trans rate⟩

theorem portReset_agent_down (on : inService s p = true) (fails : peerTrains tr = false) (up : linkUp s p = true) (agent : hostMode s p = false) :
    rdFld (opPortReset ⟨p, tr⟩ s) (aHpStat p) 0 3 = 2 := by
  rw [portReset_agent on (.inr up) agent, portUp, if_neg (by simp [fails]), portDown, linkGone_eq]
  exact (setHostLink_spec (by decide) ..).1

/-- A host's port in its reset, with its function reset and what it held taken back (R294, R182). -/
def hostBack (p : HPort) (tr : PcieTrain) (s : State) : State :=
  let s := endForeground 5 (headReset p (portUp p tr s)) p
  if hostDead s p then s else takeBack p s

theorem core_headReset (p : Nat) (s : State) : core (headReset p s) = core s := by
  unfold headReset
  extract_lets mine e x
  refine apply_ite_same core ?_ rfl
  unfold ideChanged
  exact (core_fireSeq ..).trans ((core_rsq ..).trans ((core_wrFld ..).trans rfl))

theorem core_endForeground (rc : Nat) (s : State) (p : Nat) : core (endForeground rc s p) = core s :=
  apply_ite_same core ((core_wrFld ..).trans (core_wrFld ..)) rfl

theorem ctl_takeBack (p : Nat) (s : State) : (takeBack p s).ctl = s.ctl := by
  unfold takeBack
  extract_lets _ x y ls
  have listed : y.ctl = s.ctl := by
    unfold y
    split
    · rfl
    · rfl
  exact (foldl_frame State.ctl (fun s l => ctl_of_core (core_hostAnswered p l .rspI s)) ls.eraseDups y).trans listed

theorem ctl_hostBack (p : HPort) (tr : PcieTrain) (s : State) : (hostBack p tr s).ctl.unlocks = [] := by
  unfold hostBack
  extract_lets x
  have reset : core x = core (portUp p tr s) := (core_endForeground ..).trans (core_headReset ..)
  have cleared : x.ctl.unlocks = [] := by rw [ctl_of_core reset, unlocks_portUp]
  split
  · exact cleared
  · rw [ctl_takeBack]
    exact cleared

theorem mem_put (l : List Nat) (x : Nat) : x ∈ (if x ∈ l then l else l ++ [x]) := by
  split
  next member => exact member
  next => simp

/-- A host's port in its reset takes the host again. -/
theorem portReset_host (on : inService s p = true) (trains : peerTrains tr = true) (host : hostMode s p = true) :
    ∃ v, opPortReset ⟨p, tr⟩ s = readmit p v ∧ p.val ∈ v.hst.portReset ∧ v.ctl.unlocks = [] := by
  refine ⟨{ hostBack p tr s with hst := { (hostBack p tr s).hst with portReset :=
    if p.val ∈ (hostBack p tr s).hst.portReset then (hostBack p tr s).hst.portReset else (hostBack p tr s).hst.portReset ++ [p.val] } }, ?_, mem_put ..,
    ctl_hostBack p tr s⟩
  unfold opPortReset
  extract_lets p' t _ x y z w pr
  have same : hostMode y p' = true := (hostMode_congr (setting_portUp p tr s) p).trans host
  rw [if_neg (by simp [p', t, on, trains]), if_neg (by rw [same]; decide), if_neg (by simp [t, trains])]
  rfl

/-! ### A function's reset -/

theorem functionLevelReset_spec (on : inService s p = true) (host : hostMode s p = true) (idle : rdBit s (aMbCtl p) 1 = false) :
    mget (opFunctionLevelReset p s).ev.msixMask p = none ∧ (opFunctionLevelReset p s).hf = s.hf ∧ (opFunctionLevelReset p s).regs = s.regs ∧
      (opFunctionLevelReset p s).lar = s.lar := by
  have reset : opFunctionLevelReset p s = msixReset p (setHead p { head s p with vectors := [], config := [] } s) := by
    unfold opFunctionLevelReset
    extract_lets h
    rw [if_neg (by simp [on, host])]
    exact if_neg (show ¬(rdBit s (aMbCtl p) 1 = true) by simp [idle])
  rw [reset]
  exact ⟨mget_mdel_self .., rfl, rfl, rfl⟩

/-! ### Narrowed lanes -/

theorem mget_mput {α : Type} [DecidableEq α] {x d : α} (other : d ≠ x) (m : SMap α) (k : Nat) : mget (mput x m k d) k = some d := by
  rw [mput, if_neg other]
  exact mget_mset_self ..

/-- A port that narrows for a side that has not asked for it before is in state 4. -/
theorem narrowBy_first {side width : Nat} (asked : side ≠ 0) (full : mgetD 0 s.hst.narrow p = 0) :
    rdFld (narrowBy p side width true s) (aHpStat p) 0 3 = 4 ∧ mget (narrowBy p side width true s).hst.narrow p = some side ∧
      (narrowBy p side width true s).free = s.free := by
  unfold narrowBy
  extract_lets v new x
  have new_ : new = side := by simp [new, v, full]
  have was : v = 0 := full
  rw [if_neg (by rw [new_, was]; exact asked), new_]
  have narrowed (y : State) : setNarrow p side y = setHostLink p 4 { y with hst := { y.hst with narrow := mput 0 y.hst.narrow p side } } := by
    simp only [setNarrow, if_neg asked]
  rw [narrowed, hst_setHostLink]
  refine ⟨(setHostLink_spec (by decide) ..).1, mget_mput asked .., ?_⟩
  have counted : x.free = s.free := apply_ite_same State.free (count_free ..) rfl
  have linked (ls : Nat) (y : State) : (setHostLink p ls y).free = y.free := by
    unfold setHostLink
    extract_lets old z
    exact apply_ite_same State.free rfl ((fireSeq_free ..).trans ((rsq_free ..).trans (wrFld_free ..)))
  rw [linked]
  exact counted

theorem l0pRequest_narrows {width : Nat} (may : mayNarrow s p = true) (some_ : 0 < width) (fewer : width < 2 ^ trainedLanes s p) :
    opL0pRequest p width s = narrowBy p 1 width true s := by
  rw [opL0pRequest, if_neg (by simp [may]; omega), decide_eq_true fewer]

theorem l0pIdle_narrows (may : mayNarrow s p = true) (wait : mgetD [] s.brd.wait (76 + p) = []) (run : mget s.brd.run (76 + p) = none) :
    ∃ width, opL0pIdleNarrow p s = narrowBy p 2 width true { s with free := s.free + 1 } := by
  refine ⟨(Config.freeWord s.free).toNat % (2 ^ trainedLanes s p - 1) + 1, ?_⟩
  unfold opL0pIdleNarrow
  extract_lets b x
  exact if_neg (by simp [b, may, wait, run])

/-! ### L1 and recovery -/

theorem activeLs_lt (s : State) (p : Nat) : activeLs s p < 8 := by
  unfold activeLs
  split <;> decide

theorem l1Entry_spec (on : inService s p = true) (up : linkUp s p = true) (able : rdBit s (aHpCtl p) 6 = true) (well : rdFld s (aHpStat p) 0 3 ≠ 6) :
    rdFld (opL1Entry p s) (aHpStat p) 0 3 = 5 := by
  rw [opL1Entry, if_pos (by simp [on, up, able, well])]
  exact (setHostLink_spec (by decide) ..).1

theorem l1Exit_spec (low : rdFld s (aHpStat p) 0 3 = 5) : rdFld (opL1Exit p s) (aHpStat p) 0 3 = activeLs s p := by
  rw [opL1Exit, if_pos low]
  exact (setHostLink_spec (activeLs_lt ..) ..).1

theorem hostRecovery_spec (on : inService s p = true) (up : linkUp s p = true) (well : rdFld s (aHpStat p) 0 3 ≠ 6) :
    rdFld (opPcieLinkRecovery (.host p) s) (aHpStat p) 0 3 = 6 := by
  rw [opPcieLinkRecovery, hostRecovery, if_neg (by simp [on, up, well])]
  exact (setHostLink_spec (by decide) ..).1

theorem hostRecoveryEnd_spec (recovering : rdFld s (aHpStat p) 0 3 = 6) (trains : peerTrains tr = true) :
    rdFld (opHostLinkRecoveryEnd ⟨p, tr⟩ s) (aHpStat p) 0 3 = activeLs s p ∧
      rdFld (opHostLinkRecoveryEnd ⟨p, tr⟩ s) (aHpStat p) 3 3 = min (Nat.log2 (lanesOf s p)) tr.width.toNat ∧
      rdFld (opHostLinkRecoveryEnd ⟨p, tr⟩ s) (aHpStat p) 6 2 = tr.rate.toNat := by
  rw [opHostLinkRecoveryEnd, if_pos (by simp [recovering, trains])]
  obtain ⟨state, kept⟩ := setHostLink_spec (activeLs_lt s p) p (trainHost p tr s)
  obtain ⟨lanes, rate⟩ := trainHost_spec p tr s
  exact ⟨state, (kept 3 3 (by decide) (by decide)).trans lanes, (kept 6 2 (by decide) (by decide)).trans rate⟩

end Sys2Proof.Machine

namespace Sys2Proof
open Machine

/-- Settles O21: a link that goes down, resets, narrows, rests or recovers, and a function's reset, in service. -/
theorem hostLinkEvents : Obligations.HostLinkEvents := by
  unfold Obligations.HostLinkEvents
  intro s p run on
  refine ⟨?_, ?_, ?_, ?_, ?_, ?_, ?_, ?_, ?_, ?_, ?_, ?_⟩
  · exact fun up agent => ⟨_, live_follow run (opHostLinkDown p), hostLinkDown_agent on up agent⟩
  · exact fun up host => ⟨_, live_follow run (opHostLinkDown p), hostLinkDown_host on up host⟩
  · exact fun tr agent trains => ⟨_, live_follow run (opPortReset ⟨p, tr⟩), portReset_agent_trained on trains agent⟩
  · intro tr host trains
    obtain ⟨v, eq, member, cleared⟩ := portReset_host on trains host
    exact ⟨_, v, live_follow run (opPortReset ⟨p, tr⟩), eq, member, cleared⟩
  · exact fun tr agent fails up => ⟨_, live_follow run (opPortReset ⟨p, tr⟩), portReset_agent_down on fails up agent⟩
  · exact fun host idle => ⟨_, live_running run (opFunctionLevelReset p), functionLevelReset_spec on host idle⟩
  · intro width may some_ fewer full
    refine ⟨_, live_running run (opL0pRequest p width), ?_⟩
    rw [l0pRequest_narrows may some_ fewer]
    obtain ⟨state, narrow, -⟩ := narrowBy_first (side := 1) (width := width) (by decide) full
    exact ⟨state, narrow⟩
  · intro may wait none_ full
    obtain ⟨width, eq⟩ := l0pIdle_narrows may wait none_
    refine ⟨_, live_running run (opL0pIdleNarrow p), ?_⟩
    rw [eq]
    exact narrowBy_first (s := { s with free := s.free + 1 }) (by decide) full
  · exact fun up able well => ⟨_, live_running run (opL1Entry p), l1Entry_spec on up able well⟩
  · exact fun low => ⟨_, live_running run (opL1Exit p), l1Exit_spec low⟩
  · exact fun up well => ⟨_, live_running run (opPcieLinkRecovery (.host p)), hostRecovery_spec on up well⟩
  · exact fun tr recovering trains => ⟨_, live_running run (opHostLinkRecoveryEnd ⟨p, tr⟩), hostRecoveryEnd_spec recovering trains⟩

end Sys2Proof
end

section
/-! PROOFS. What a death applied leaves (R319 to R322): the same parts of the block as the work on lines, and the fences that go on after it. -/

namespace Sys2Proof.Machine

variable {s : State}

/-! ### Writes owed and fences -/

@[simp] theorem core_completeWho (w : Who) (s : State) : core (completeWho w s) = core s := by
  unfold completeWho
  split
  · rfl
  · split
    · exact core_answerAtom ..
    · exact core_finishWrite ..
  · split
    · rfl
    · refine apply_ite_same core rfl ((core_checkEnd ..).trans ?_)
      split
      · exact core_reply ..
      · exact core_reply ..

@[simp] theorem core_settleOwed (s : State) : core (settleOwed s) = core s := by
  unfold settleOwed
  extract_lets due _ x
  exact (foldl_frame core (fun s (o : Owed) => core_completeWho o.who s) due x).trans rfl

@[simp] theorem core_persistBlocks (s : State) : core (persistBlocks s) = core s :=
  foldl_frame core (fun s (e : Nat × SealBlk) => core_writeBack_ 0 e.1 s) _ s

@[simp] theorem core_setFence (n : Nat) (f : Fence) (s : State) : core (setFence n f s) = core s := rfl

@[simp] theorem core_sendFnc (n scope : Nat) (p : Bool) (tc : Nat) (h : HubId) (s : State) : core (sendFnc n scope p tc h s) = core s := core_send0 ..

theorem core_cleanLines (op : Nat) (ls : List LineAddr) (s : State) : core (drainAll (ls.foldl (cleanLine op) s)) = core s :=
  (core_drainAll ..).trans (foldl_frame core (core_cleanLine op) ls s)

@[simp] theorem core_homeStep (n : Nat) (f : Fence) (s : State) : core (homeStep n f s) = core s := (core_cleanLines ..).trans (core_setFence ..)

@[simp] theorem core_fenceStep (n : Nat) (f : Fence) (s : State) : core (fenceStep n f s) = core s := by
  unfold fenceStep
  extract_lets ls homes hs x left
  have told : core x = core s := foldl_frame core (fun s h => core_sendFnc n 3 true f.tc h s) hs s
  exact apply_ite_same core (apply_ite_same core rfl ((core_cleanLines ..).trans (core_setFence ..)))
    (apply_ite_same core (apply_ite_same core rfl ((core_homeStep ..).trans told))
      (apply_ite_same core (apply_ite_same core rfl ((core_setFence ..).trans (core_persistBlocks ..)))
        (apply_ite_same core (core_setFence ..) (apply_ite_same core (core_setFence ..) rfl))))

@[simp] theorem core_keepWritten (f : Fence) (s : State) : core (keepWritten f s) = core s :=
  foldl_frame core (f := fun s (e : Nat × List HubId) =>
    { s with ports := { s.ports with written := mupd [] s.ports.written e.1 fun l => (l ++ e.2).eraseDups } }) (fun _ _ => rfl) f.vectors s

@[simp] theorem core_answerFences (s : State) : core (answerFences s) = core s := by
  unfold answerFences
  extract_lets done _ x
  have same : core x = core s := rfl
  clear_value x
  exact (foldl_frame core (fun s (e : Nat × Fence) => (core_answerFence ..).trans (apply_ite_same core rfl (core_keepWritten ..))) done x).trans same

@[simp] theorem core_advanceFences (s : State) : core (advanceFences s) = core s := by
  unfold advanceFences
  extract_lets go round
  have step (s : State) (e : Nat × Fence) : core (go s e) = core s := by
    show core (match mget s.ports.fences e.1 with
      | some f => fenceStep e.1 f s
      | none => s) = core s
    split
    · exact core_fenceStep ..
    · rfl
  have once (s : State) : core (round s) = core s := foldl_frame core step _ s
  rw [core_answerFences, once, once, once, once, once]

/-! ### A hub that is gone -/

@[simp] theorem core_setAcc (h : HubId) (acc : Nat) (s : State) : core (setAcc h acc s) = core s := by
  unfold setAcc
  extract_lets a j x
  exact apply_ite_same core (core_wrFld ..) ((core_wrFld ..).trans (core_wrFld ..))

@[simp] theorem core_reclaimDir (h : HubId) (s : State) : core (reclaimDir h s) = core s :=
  foldl_frame core (fun s _ => core_reclaimEntry h _ s) _ s

@[simp] theorem core_reclaimTxn (h : HubId) (s : State) (l : LineAddr) : core (reclaimTxn h s l) = core s := by
  unfold reclaimTxn
  split
  · rfl
  · extract_lets open_ late held x fix t
    have lost : core x = core s := apply_ite_same core (core_makeL ..) rfl
    exact (core_progress ..).trans ((core_setTxn ..).trans lost)

@[simp] theorem core_dropWaiting (h : HubId) (s : State) : core (dropWaiting h s) = core s := by
  unfold dropWaiting
  extract_lets keep cs
  exact (core_doneReading ..).trans (core_withHome ..)

@[simp] theorem core_giveUp (s : State) (l : LineAddr) : core (giveUp s l) = core s := by
  unfold giveUp
  extract_lets dirty
  exact (core_withHosts (fun s => apply_ite_same core (core_fire ..) rfl) ..).trans (core_dropLine ..)

@[simp] theorem core_dropEvictions (h : HubId) (s : State) : core (dropEvictions h s) = core s := by
  unfold dropEvictions
  extract_lets mine _ x
  have same : core x = core s := rfl
  clear_value x
  exact (foldl_frame core (fun s (e : EvEnt) => (core_retryAll ..).trans (apply_ite_same core (core_fire ..) rfl)) mine x).trans same

@[simp] theorem core_expose (s : State) : core (expose s) = core s := by
  unfold expose
  extract_lets _ x
  have same : core x = core s := (core_wrFld ..).trans rfl
  exact (core_settleOwed ..).trans ((core_fire ..).trans same)

@[simp] theorem core_freeRx (x : RxMsg) (s : State) : core (freeRx x s) = core s := by
  unfold freeRx
  extract_lets k c r own sh
  exact apply_ite_same core rfl rfl

@[simp] theorem core_dropTransitTo (h : HubId) (s : State) : core (dropTransitTo h s) = core s :=
  foldl_frame core (f := fun s (x : RxMsg) => freeRx x { s with rx := s.rx.erase x }) (fun _ _ => (core_freeRx ..).trans rfl) _ s

/-- What stands of a hub's death in the block's own lists: it is noted, and what waits for it or sweeps for it is dropped. -/
theorem core_noteDeath (f : Fab) (w : List (Msg × List Nat)) (sw : List HubId) (joins : f.joins = s.fab.joins) :
    core { s with fab := f, routeWait := w, sweep := sw } = core s := by
  simp [core, joins]

theorem core_fencesOf (f : List (Nat × Fence)) (st : List (Nat × List HubId)) :
    core { s with ports := { s.ports with fences := f, stale := st } } = core s := rfl

@[simp] theorem core_deadRegs (h : HubId) (s : State) : core (deadRegs h s) = core s := rfl

@[simp] theorem core_applyDeath (h : HubId) (s : State) : core (applyDeath h s) = core s := by
  unfold applyDeath
  extract_lets x _ y z w v u left _ t r
  have released : core x = core s := (core_doneReading ..).trans (core_setAcc ..)
  have noted : core y = core s := (core_noteDeath _ _ _ rfl).trans released
  clear_value x y
  have dropped : core z = core s := (core_dropWaiting ..).trans ((core_reclaimDir ..).trans ((core_dropTransitTo ..).trans noted))
  have reclaimed : core w = core s := (foldl_frame core (f := reclaimTxn h) (core_reclaimTxn h) _ z).trans dropped
  clear_value z w
  have regs : core v = core s := (core_deadRegs ..).trans reclaimed
  clear_value v
  have given : core u = core s :=
    (foldl_frame core (f := giveUp) core_giveUp (linesOf h v) (dropEvictions h v)).trans ((core_dropEvictions ..).trans regs)
  clear_value u
  have members : core t = core s := (core_fencesOf _ _).trans given
  clear_value t
  have exposed : core r = core s := apply_ite_same core ((core_expose ..).trans members) members
  clear_value r
  exact apply_ite_same core rfl ((core_advanceFences ..).trans exposed)

@[simp] theorem core_takeAdmit (h : HubId) (inc : Nat) (s : State) : core (takeAdmit h inc s) = core s := by
  unfold takeAdmit
  extract_lets x y _ z
  have applied : core x = core s := apply_ite_same core (core_applyDeath ..) rfl
  clear_value x
  have told : core y = core s := (core_fire ..).trans ((core_setAcc ..).trans applied)
  have noted : core z = core s := Eq.trans rfl told
  exact apply_ite_same core ((core_wrFld ..).trans ((core_wrFld ..).trans noted)) noted

end Sys2Proof.Machine
end

section
/-! PROOFS. Hub IDs and joins (R327, R329, R330). -/

namespace Sys2Proof.Machine

variable {s t : State} {h : Hdr} {d hub : HubId}

/-! ### A join taken by the root -/

/-- The hub that joins no longer waits to join. -/
theorem admitJoin_joins (hub : HubId) (s : State) : hub ∉ (admitJoin hub s).fab.joins := by
  unfold admitJoin
  extract_lets l inc x _ u v w
  have told : core v = core u := foldl_frame core (f := fun s d => sendMgt .jnAdmit d x 0 0 s) (fun _ _ => core_sendMgt ..) _ u
  have taken : core w = core u := (core_takeAdmit ..).trans told
  have left : u.fab.joins = s.fab.joins.filter (· ≠ hub) := rfl
  clear_value u v w
  have all : core (if hub = hubId w then w else (joinTables w).foldl (fun s p => sendMgt .jnAdmit hub x p.1 p.2 s) w) = core u :=
    apply_ite_same core taken
      ((foldl_frame core (f := fun s (p : Nat × BitVec 512) => sendMgt .jnAdmit hub x p.1 p.2 s) (fun _ _ => core_sendMgt ..) _ w).trans taken)
  rw [joins_of_core all, left]
  simp

theorem opJnreq_other (empty : s.rx = []) (other : isRoot s = false) (payload : BitVec 512) : opJnreq h payload s = s := by
  rw [opJnreq, takeRx_empty empty]
  exact if_neg (by simp [other])

theorem opJnreq_root (empty : s.rx = []) (root : isRoot s = true) (payload : BitVec 512) : opJnreq h payload s = askJoin h.src s := by
  rw [opJnreq, takeRx_empty empty]
  exact if_pos root

theorem askJoin_ready (may : mayJoin s hub = true) : askJoin hub s = admitJoin hub s := if_pos may

/-- A hub that waits to join. -/
def joinNoted (hub : HubId) (s : State) : State := { s with fab := { s.fab with joins := s.fab.joins ++ [hub] } }

theorem askJoin_waits (early : mayJoin s hub = false) (new : hub ∉ s.fab.joins) :
    askJoin hub s = if (mget s.fab.deaths hub.toNat).isSome then joinNoted hub s else dropOwing hub (takeNote hub 0 (rootDeclare hub 0 (joinNoted hub s))) := by
  unfold askJoin
  rw [if_neg (by simp [early]), if_neg new]
  rfl

theorem opJoinAdmitDue_ready (root : isRoot s = true) (waits : hub ∈ s.fab.joins) (may : mayJoin s hub = true) :
    opJoinAdmitDue hub s = admitJoin hub s := if_pos (by simp [root, waits, may])

theorem opJoinAdmitDue_early (early : mayJoin s hub = false) : opJoinAdmitDue hub s = s := if_neg (by simp [early])

/-! ### A join taken by a hub -/

/-- The table of incarnations is no register of the hub's own ID or state. -/
theorem aFbInc_apart (w : Nat) : aFbHubid / 8 ≠ aFbInc w / 8 ∧ aFbStat / 8 ≠ aFbInc w / 8 := by
  unfold aFbHubid aFbStat aFbInc
  omega

theorem aFbTko_apart (i k : Nat) : aFbHubid / 8 ≠ (aFbTko i + 8 * k) / 8 := by
  unfold aFbHubid aFbTko
  omega

/-- The incarnation set is the one that stands. -/
theorem incOf_setAcc (d : HubId) (acc : Nat) (s : State) : incOf (setAcc d acc s) d = acc % 2 ^ 8 := by
  have slot : d.toNat % 4 < 4 := Nat.mod_lt _ (by decide)
  unfold setAcc incOf
  extract_lets a j u
  have set : rdFld u a j 8 = acc % 2 ^ 8 := rdFld_wrFld_self s a j 8 acc (by simp only [j]; omega)
  split
  · exact set
  · exact (rdFld_wrFld_off u (j + 8) 8 acc j 8 (by simp only [j]; omega) (.inl (Nat.le_refl _))).trans set

theorem rd_setAcc_ne (d : HubId) (acc : Nat) (s : State) {b : Nat} (apart : b / 8 ≠ aFbInc (d.toNat / 4) / 8) : rd (setAcc d acc s) b = rd s b := by
  unfold setAcc
  extract_lets a j u
  have first : rd u b = rd s b := rd_wrFld_ne _ _ _ _ apart
  exact apply_ite_same (rd · b) first ((rd_wrFld_ne _ _ _ _ apart).trans first)

theorem setAcc_hc (d : HubId) (acc : Nat) (s : State) : (setAcc d acc s).hc = s.hc := apply_ite_same State.hc rfl rfl

/-- A hub's incarnation noted: it is live, and no death of it stands. -/
def joined (d : HubId) (inc : Nat) (s : State) : State :=
  { fire 199 0 (oHub d) (setAcc d inc s) with fab := { (fire 199 0 (oHub d) (setAcc d inc s)).fab with
      dead := mdel (fire 199 0 (oHub d) (setAcc d inc s)).fab.dead d.toNat } }

theorem rd_joined (d : HubId) (inc : Nat) (s : State) (a : Nat) : rd (joined d inc s) a = rd (setAcc d inc s) a := rd_fire ..

theorem incOf_joined (d : HubId) (inc : Nat) (s : State) : incOf (joined d inc s) d = inc % 2 ^ 8 :=
  (rd_congr_fld (rd_joined ..) ..).trans (incOf_setAcc ..)

theorem deadWait_joined (d : HubId) (inc : Nat) (s : State) : deadWait (joined d inc s) d = 0 := by
  show (mget (mdel _ d.toNat) d.toNat).getD 0 = 0
  rw [mget_mdel_self]
  rfl

theorem joined_hc (d : HubId) (inc : Nat) (s : State) : (joined d inc s).hc = s.hc := (fire_hc ..).trans (setAcc_hc ..)

/-- The block's own hub, joined: its incarnation and its state. -/
def selfJoined (inc : Nat) (s : State) : State := wrFld aFbStat 0 2 2 (wrFld aFbHubid 16 8 inc s)

theorem selfJoined_hc (inc : Nat) (s : State) : (selfJoined inc s).hc = s.hc := rfl

theorem incOf_selfJoined (inc : Nat) (s : State) (d : HubId) : incOf (selfJoined inc s) d = incOf s d := by
  obtain ⟨id, stat⟩ := aFbInc_apart (d.toNat / 4)
  exact (rdFld_wrFld_ne _ _ _ _ _ _ (Ne.symm stat)).trans (rdFld_wrFld_ne _ _ _ _ _ _ (Ne.symm id))

theorem takeAdmit_eq (d : HubId) (inc : Nat) (s : State) : ∃ u, u = (if d ≠ hubId s ∧ hubLive s d = true ∧ incOf s d ≠ inc then applyDeath d s else s) ∧
    takeAdmit d inc s = if d = hubId (joined d inc u) then selfJoined inc (joined d inc u) else joined d inc u := by
  unfold takeAdmit
  extract_lets x
  exact ⟨x, rfl, rfl⟩

/-- A hub's incarnation taken: the hub is live with it, and the hub cache stands where no death of it is found. -/
theorem takeAdmit_spec (d : HubId) {inc : Nat} (fits : inc < 256) (s : State) : incOf (takeAdmit d inc s) d = inc ∧ deadWait (takeAdmit d inc s) d = 0 ∧
    ((hubLive s d = false ∨ incOf s d = inc) → (takeAdmit d inc s).hc = s.hc) := by
  obtain ⟨u, applied, eq⟩ := takeAdmit_eq d inc s
  have live : incOf (joined d inc u) d = inc := (incOf_joined ..).trans (Nat.mod_eq_of_lt fits)
  have self : incOf (selfJoined inc (joined d inc u)) d = inc := (incOf_selfJoined ..).trans live
  rw [eq]
  refine ⟨apply_ite_same (incOf · d) self live, apply_ite_same (deadWait · d) (deadWait_joined ..) (deadWait_joined ..), fun spared => ?_⟩
  have same : u = s := applied.trans (if_neg fun ⟨_, lives, differs⟩ =>
    spared.elim (fun gone => Bool.false_ne_true (gone.symm.trans lives)) differs)
  exact (apply_ite_same State.hc (selfJoined_hc ..) rfl).trans ((joined_hc ..).trans (congrArg State.hc same))

/-- The hub's own incarnation taken. -/
theorem takeAdmit_self {inc : Nat} (fits : inc < 256) (own : d = hubId s) :
    rdFld (takeAdmit d inc s) aFbStat 0 2 = 2 ∧ rdFld (takeAdmit d inc s) aFbHubid 16 8 = inc := by
  obtain ⟨u, applied, eq⟩ := takeAdmit_eq d inc s
  have same : u = s := applied.trans (if_neg fun other => other.1 own)
  have id : hubId (joined d inc u) = hubId s := by
    rw [same]
    exact congrArg (BitVec.ofNat 12) (rd_congr_fld ((rd_joined ..).trans (rd_setAcc_ne _ _ _ (aFbInc_apart _).1)) ..)
  rw [eq, if_pos (own.trans id.symm)]
  refine ⟨rdFld_wrFld_self _ _ _ _ _ (by decide), ?_⟩
  exact (rdFld_wrFld_ne _ _ _ _ _ _ (by decide)).trans ((rdFld_wrFld_self _ _ _ _ _ (by decide)).trans (Nat.mod_eq_of_lt fits))

/-- The tables that the root sends do not hold the hub's own ID. -/
theorem rd_takeJoinTable (payload : BitVec 512) (s : State) : rd (takeJoinTable payload s) aFbHubid = rd s aFbHubid := by
  unfold takeJoinTable
  extract_lets n i
  refine apply_ite_same (rd · aFbHubid) ?_ (apply_ite_same (rd · aFbHubid) (rd_wr_ne _ _ (aFbInc_apart _).1) rfl)
  exact foldl_frame (rd · aFbHubid) (f := fun s k => wr (aFbTko i + 8 * k) (BitVec.ofNat 64 (n >>> (64 * k))) s) (fun _ _ => rd_wr_ne _ _ (aFbTko_apart _ _)) _ s

/-- The incarnation that an admission gives. -/
def incIn (h : Hdr) : Nat := h.xtra.toNat / 2 ^ 16 % 256

theorem incIn_lt (h : Hdr) : incIn h < 256 := Nat.mod_lt _ (by decide)

theorem opJnadmit_other (empty : s.rx = []) (other : hubIn h ≠ hubId s) (payload : BitVec 512) :
    opJnadmit h payload s = takeAdmit (hubIn h) (incIn h) s := by
  rw [opJnadmit, takeRx_empty empty]
  exact if_neg other

theorem opJnadmit_self (own : hubIn h = hubId s) (new : rdFld s aFbHubid 16 8 ≠ incIn h) (free : (takeCells h.tc.toNat 1 1 s).isSome = true)
    (payload : BitVec 512) : ∃ v, hubIn h = hubId v ∧ opJnadmit h payload s = takeAdmit (hubIn h) (incIn h) v := by
  obtain ⟨cs, lar, rx, links, eq⟩ := withPayload_taken free (.jnadmit h payload) .jnAdmit (fun cs s =>
      if rdFld (takeJoinTable payload (doneReading cs s)) aFbHubid 16 8 = incIn h then takeJoinTable payload (doneReading cs s)
      else takeAdmit (hubIn h) (incIn h) (takeJoinTable payload (doneReading cs s)))
  have stands : ∀ u : State, u.part = s.part → u.regs = s.regs → rd (takeJoinTable payload (doneReading cs u)) aFbHubid = rd s aFbHubid :=
    fun u part regs => (rd_takeJoinTable ..).trans (rd_congr (s := s) (t := doneReading cs u) part regs _)
  have kept := stands { s with lar := lar, rx := rx, links := links } rfl rfl
  refine ⟨_, own.trans (congrArg (BitVec.ofNat 12) (rd_congr_fld kept ..)).symm, ?_⟩
  rw [opJnadmit, if_pos own]
  exact eq.trans (if_neg (by rw [rd_congr_fld kept]; exact new))

/-! ### Hub IDs -/

theorem opDsreport_full (full : takeCells h.tc.toNat 1 1 s = none) (payload : BitVec 512) :
    opDsreport h payload s = { s with lar := { s.lar with held := s.lar.held ++ [(.dsreport h payload, 60, h.tc.toNat)] } } := withPayload_full full

/-- A report kept in the topology. -/
def reportNoted (r : DsRep) (s : State) : State :=
  { tellAgain r s with fab := { (tellAgain r s).fab with
      reports := (s.fab.reports.filter fun y => !(y.serial = r.serial && y.port = r.port)) ++ [r] } }

/-- What a `DsReport` reports. -/
def reportIn (h : Hdr) (payload : BitVec 512) : DsRep :=
  ⟨BitVec.ofNat 64 payload.toNat, BitVec.ofNat 12 h.xtra.toNat, nfld h.xtra.toNat 13 4, BitVec.ofNat 64 (payload.toNat / 2 ^ 64),
    nfld h.xtra.toNat 17 4, nfld h.xtra.toNat 12 1⟩

theorem opDsreport_taken (free : (takeCells h.tc.toNat 1 1 s).isSome = true) (payload : BitVec 512) : ∃ lar rx links,
    opDsreport h payload s = if isRoot s then assignIds (reportNoted (reportIn h payload) { s with lar := lar, rx := rx, links := links })
      else { s with lar := lar, rx := rx, links := links } := by
  obtain ⟨cs, lar, rx, links, eq⟩ := withPayload_taken free (.dsreport h payload) .dsReport (fun cs s =>
    if !isRoot (doneReading cs s) then doneReading cs s else assignIds (reportNoted (reportIn h payload) (doneReading cs s)))
  refine ⟨{ lar with cells := cs.foldl (cellReaders (· - 1)) lar.cells }, rx, links, ?_⟩
  have root : isRoot (doneReading cs { s with lar := lar, rx := rx, links := links }) = isRoot s := rdBit_congr rfl rfl ..
  refine Eq.trans eq ?_
  rw [root]
  cases isRoot s <;> rfl

theorem opDsreport_other (other : isRoot s = false) (payload : BitVec 512) :
    (opDsreport h payload s).fab = s.fab ∧ (opDsreport h payload s).brd = s.brd ∧ (opDsreport h payload s).hc = s.hc := by
  cases found : takeCells h.tc.toNat 1 1 s with
  | none => rw [opDsreport_full found]; exact ⟨rfl, rfl, rfl⟩
  | some x =>
    obtain ⟨lar, rx, links, eq⟩ := opDsreport_taken (h := h) (by rw [found]; rfl) payload
    rw [eq, other]
    exact ⟨rfl, rfl, rfl⟩

theorem opDsassign_refused (empty : s.rx = []) (refused : h.xtra.toNat.testBit 15 = true) (payload : BitVec 512) :
    opDsassign h payload s = fire 195 2 (oHub (hubIn h)) (wrFld aFbHubid 12 3 0 s) := by
  rw [opDsassign, takeRx_empty empty]
  exact if_pos refused

theorem opDsassign_given (empty : s.rx = []) (given : h.xtra.toNat.testBit 15 = false) (unset : rdBit s aFbHubid 12 = false) (payload : BitVec 512) :
    opDsassign h payload s = wrFld aFbHubid 0 16 (h.xtra.toNat % 2 ^ 12 + 2 ^ 12 + 3 * 2 ^ 13) s := by
  rw [opDsassign, takeRx_empty empty]
  exact (if_neg (by simp [given])).trans (if_neg (by simp [unset]))

/-- An ID given: it is valid and the hub's own. -/
theorem hubId_given (n : Nat) (s : State) : rdBit (wrFld aFbHubid 0 16 (n % 2 ^ 12 + 2 ^ 12 + 3 * 2 ^ 13) s) aFbHubid 12 = true ∧
    hubId (wrFld aFbHubid 0 16 (n % 2 ^ 12 + 2 ^ 12 + 3 * 2 ^ 13) s) = BitVec.ofNat 12 n := by
  have low : n % 2 ^ 12 < 2 ^ 12 := Nat.mod_lt _ (by decide)
  constructor
  · rw [rdBit_wrFld_in _ 0 16 _ 12 (by decide) (by decide) (by decide), Nat.testBit_eq_decide_div_mod_eq, decide_eq_true_eq]
    omega
  · unfold hubId
    rw [rdFld_wrFld_in _ 0 16 _ 0 12 (by decide) (by decide) (by decide)]
    apply BitVec.eq_of_toNat_eq
    simp only [BitVec.toNat_ofNat]
    omega

end Sys2Proof.Machine

namespace Sys2Proof

open Machine

/-- Settles O43: joins asked, waited for and taken, and IDs reported and given, each by what its command does. -/
theorem joining : Obligations.Joining := by
  intro s run empty
  have follows : ∀ (v : State) (f : State → State), f s = v → live s (fun s => followAfter s (f s)) = .next (followAfter s v) :=
    fun v f eq => (live_running run (fun s => followAfter s (f s))).trans (congrArg (fun u => Host.Outcome.next (followAfter s u)) eq)
  refine ⟨fun h payload other => ⟨(follows s (opJnreq h payload) (opJnreq_other empty other payload)).trans ?_,
      _, live_running run (opDsreport h payload), opDsreport_other other payload⟩,
    fun h payload root may => ⟨_, follows _ (opJnreq h payload) ((opJnreq_root empty root payload).trans (askJoin_ready may)), rfl⟩,
    fun h payload v root early new eq => ?_,
    fun hub root waits may => ⟨_, _, follows _ (opJoinAdmitDue hub) (opJoinAdmitDue_ready root waits may), rfl, rfl, admitJoin_joins hub s⟩,
    fun hub early => ⟨_, follows _ (opJoinAdmitDue hub) (opJoinAdmitDue_early early), followAfter_self s⟩,
    fun h payload other => ⟨_, live_follow run (opJnadmit h payload), ?_⟩,
    fun h payload own new free => ⟨_, live_follow run (opJnadmit h payload), ?_⟩,
    fun h payload root full => ⟨_, live_running run (opDsreport h payload), opDsreport_full full payload⟩,
    fun h payload root free => ?_,
    fun h payload given unset => ⟨_, live_running run (opDsassign h payload), ?_⟩,
    fun h payload refused => ⟨_, live_running run (opDsassign h payload), ?_⟩⟩
  · rw [followAfter_self]
  · have asked : opJnreq h payload s = _ := (opJnreq_root empty root payload).trans (askJoin_waits early new)
    subst eq
    refine ⟨fun known => ?_, fun unknown => ?_⟩
    · exact (follows _ (opJnreq h payload) (asked.trans (if_pos known))).trans (congrArg Host.Outcome.next (if_pos ⟨rfl, rfl, rfl, rfl⟩))
    · exact follows _ (opJnreq h payload) (asked.trans (if_neg (by simp [unknown])))
  · rw [opJnadmit_other empty other]
    exact takeAdmit_spec (hubIn h) (incIn_lt h) s
  · obtain ⟨v, own', eq⟩ := opJnadmit_self own new free payload
    rw [eq]
    exact takeAdmit_self (incIn_lt h) own'
  · obtain ⟨lar, rx, links, eq⟩ := opDsreport_taken free payload
    rw [root] at eq
    exact ⟨_, _, reportIn h payload, _, live_running run (opDsreport h payload), eq, rfl, rfl, rfl⟩
  · rw [opDsassign_given empty given unset]
    exact hubId_given ..
  · rw [opDsassign_refused empty refused, rd_congr_bits (rd_fire ..), fire_hc]
    exact ⟨rdBit_wrFld_in _ 12 3 0 12 (by decide) (by decide) (by decide), rfl⟩

end Sys2Proof
end

section
/-! PROOFS. What goes on by itself after a command, where nothing can be cleaned: the stages of `follow` leave the directory as it is, but for a planned
reset and a Global Persistent Flush, and these two leave marks of their own. -/

namespace Sys2Proof.Machine

variable {s t : State}

/-- The directory, the hub cache, the requests and the cellar path. -/
def stores (s : State) : SMap DirEnt × Hc × Req × Cel := (s.dir, s.hc, s.req, s.cel)

theorem stores_of_quiet (h : quiet t = quiet s) : stores t = stores s := by
  rw [stores, dir_of_quiet h, hc_of_quiet h, req_of_quiet h, cel_of_quiet h, stores]

theorem stores_parts (h : stores t = stores s) : t.dir = s.dir ∧ t.hc = s.hc ∧ t.req = s.req ∧ t.cel = s.cel := by
  simpa [stores] using h

/-- No cellar operation, no line and no register to clean, a merging buffer that drains, and no way to retire. -/
structure NothingToClean (s : State) : Prop where
  ops : s.cel.ops = []
  owed : s.cel.owed = []
  ways : s.hc.ways = []
  mrs : s.req.mrs = []
  drains : ∃ e, s.hc.mbuf = [e] ∧ e.draining = true
  retWant : s.hc.retWant = []

theorem NothingToClean.congr (h : stores t = stores s) (none_left : NothingToClean s) : NothingToClean t := by
  obtain ⟨-, hc, req, cel⟩ := stores_parts h
  obtain ⟨ops, owed, ways, mrs, drains, want⟩ := none_left
  constructor <;> simp only [hc, req, cel] <;> assumption

theorem NothingToClean.dirtyLines (none_left : NothingToClean s) : dirtyLines s = [] := by
  rw [Machine.dirtyLines, none_left.ways, none_left.mrs]
  rfl

/-- A buffer that drains already drains no further. -/
theorem NothingToClean.drainAll (none_left : NothingToClean s) : stores (drainAll s) = stores s := by
  obtain ⟨⟨granule, data, mask, pz, draining, guarded, owed⟩, mbuf, drains⟩ := none_left.drains
  obtain rfl : draining = true := drains
  have same : { s.hc with mbuf := s.hc.mbuf.map fun e => { e with draining := true } } = s.hc := by
    rw [mbuf, List.map_singleton, ← mbuf]
  exact congrArg (fun hc => (s.dir, hc, s.req, s.cel)) same

/-- Steps that leave the stores as they are where nothing can be cleaned, one after the other. -/
theorem stores_foldl {β : Type} {f : State → β → State} (step : ∀ s x, NothingToClean s → stores (f s x) = stores s) (l : List β)
    (none_left : NothingToClean s) : stores (l.foldl f s) = stores s := by
  induction l generalizing s with
  | nil => rfl
  | cons x xs ih =>
    have first := step s x none_left
    exact (ih (none_left.congr first)).trans first

/-! ### The cellar path at rest -/

theorem pump_idle (none_ready : nextGranule s = none) (n : Nat) : pump n s = s := by
  cases n with
  | zero => rfl
  | succ n => rw [pump, none_ready]

theorem stores_mirAcks (s : State) : stores (mirAcks s) = stores s := by
  unfold mirAcks
  extract_lets ready
  split
  · rfl
  · extract_lets u
    exact (stores_of_quiet (quiet_send0 ..)).trans rfl

theorem settleOwed_none (owed : s.cel.owed = []) : settleOwed s = s := by
  unfold settleOwed
  rw [owed, List.filter_nil, List.filter_nil, List.foldl_nil, ← owed]

theorem stores_settle (none_left : NothingToClean s) : stores (settle s) = stores s := by
  have none_ready : nextGranule s = none := by rw [nextGranule, none_left.ops]; rfl
  have idle : settleOwed (pump (4 * s.cel.ops.length + 16) s) = s := by rw [pump_idle none_ready, settleOwed_none none_left.owed]
  refine apply_ite_same stores rfl ?_
  rw [idle]
  exact stores_mirAcks s

/-! ### Fences -/

theorem stores_setFence (n : Nat) (f : Fence) (s : State) : stores (setFence n f s) = stores s := rfl

theorem stores_sendFnc (n scope : Nat) (p : Bool) (tc : Nat) (h : HubId) (s : State) : stores (sendFnc n scope p tc h s) = stores s :=
  stores_of_quiet (quiet_send0 ..)

/-- The cleaning of no line at all. -/
theorem stores_clean_none (op n : Nat) (f : Fence) (ls : List LineAddr) (none_dirty : ls = []) (none_left : NothingToClean s) :
    stores (drainAll (ls.foldl (cleanLine op) (setFence n f s))) = stores s := by
  subst none_dirty
  exact (none_left.congr (stores_setFence n f s)).drainAll

theorem stores_homeStep (n : Nat) (f : Fence) (none_left : NothingToClean s) : stores (homeStep n f s) = stores s :=
  stores_clean_none _ _ _ _ (by rw [none_left.dirtyLines]; rfl) none_left

/-- A fence's step cleans nothing, and the blocks of the sealing path wait for the buffer. -/
theorem stores_fenceStep (n : Nat) (f : Fence) (none_left : NothingToClean s) : stores (fenceStep n f s) = stores s := by
  obtain ⟨e, mbuf, drains⟩ := none_left.drains
  have waits : (s.hc.mbuf.any (fun e => e.draining) || cleanBusy s (n + 1)) = true := by simp [mbuf, drains]
  unfold fenceStep
  extract_lets ls homes hs x left
  have none_dirty : ls = [] := none_left.dirtyLines
  have told : stores x = stores s := foldl_frame stores (fun s h => stores_sendFnc n 3 true f.tc h s) hs s
  refine apply_ite_same stores (apply_ite_same stores rfl (stores_clean_none _ _ _ _ none_dirty none_left)) ?_
  refine apply_ite_same stores (apply_ite_same stores rfl ((stores_homeStep _ _ (none_left.congr told)).trans told)) ?_
  rw [if_pos waits]
  exact apply_ite_same stores rfl (apply_ite_same stores rfl (apply_ite_same stores rfl rfl))

theorem stores_answerFence (f : Fence) (s : State) : stores (answerFence f s) = stores s := by
  unfold answerFence
  extract_lets h
  exact stores_of_quiet (quiet_send0 ..)

theorem stores_keepWritten (f : Fence) (s : State) : stores (keepWritten f s) = stores s :=
  foldl_frame stores (f := fun s (e : Nat × List HubId) =>
    { s with ports := { s.ports with written := mupd [] s.ports.written e.1 fun l => (l ++ e.2).eraseDups } }) (fun _ _ => rfl) f.vectors s

theorem stores_answerFences (s : State) : stores (answerFences s) = stores s := by
  unfold answerFences
  extract_lets done _ x
  have same : stores x = stores s := rfl
  clear_value x
  exact (foldl_frame stores (fun s (e : Nat × Fence) =>
    (stores_answerFence ..).trans (apply_ite_same stores rfl (stores_keepWritten ..))) done x).trans same

theorem stores_advanceFences (none_left : NothingToClean s) : stores (advanceFences s) = stores s := by
  unfold advanceFences
  extract_lets go round
  have step (s : State) (e : Nat × Fence) (none_left : NothingToClean s) : stores (go s e) = stores s := by
    show stores (match mget s.ports.fences e.1 with
      | some f => fenceStep e.1 f s
      | none => s) = stores s
    split
    · exact stores_fenceStep _ _ none_left
    · rfl
  have once {s : State} (none_left : NothingToClean s) : stores (round s) = stores s := stores_foldl step _ none_left
  have again {t : State} (same : stores t = stores s) : stores (round t) = stores s := (once (none_left.congr same)).trans same
  exact (stores_answerFences ..).trans (again (again (again (again (again rfl)))))

theorem stores_fencesGo (none_left : NothingToClean s) : stores (fencesGo s) = stores s := by
  have advanced := stores_advanceFences none_left
  exact apply_ite_same stores rfl ((stores_settle (none_left.congr advanced)).trans advanced)

/-! ### Retirement, pairing and joining -/

theorem stores_inWork {f : State → State} (keeps : ∀ lar, stores (f { s with lar := lar }) = stores s) : stores (inWork f s) = stores s := keeps _

theorem stores_retireStep (none_left : NothingToClean s) : stores (retireStep s) = stores s := by
  refine apply_ite_same stores rfl (stores_inWork fun lar => ?_)
  show stores (s.hc.retWant.foldl retireOne _) = _
  rw [none_left.retWant]
  rfl

theorem stores_mirSend (opc : Opc) (l : LineAddr) (d : Data) (more : Nat) (s : State) (cls : Nat × Nat) (cells : List Nat) :
    stores (mirSend opc l d more s cls cells) = stores s := by
  unfold mirSend
  extract_lets m n _ x
  have same : stores x = stores s := rfl
  exact apply_ite_same stores same ((stores_of_quiet (quiet_of_still (still_dispatch ..))).trans same)

theorem stores_startCopy (base last : Nat) (s : State) : stores (startCopy base last s) = stores s :=
  foldl_frame stores (f := fun s (x : Nat × Nat × Nat) =>
    { mirSend .mrCtl 0 Data.zero (x.1 + 16) s with
      bg := (mirSend .mrCtl 0 Data.zero (x.1 + 16) s).bg ++ [⟨.mirrorCopy, x.2.1 * 256, x.2.2 * 256 + 255, x.1, false⟩] })
    (fun _ _ => stores_mirSend ..) _ s

theorem stores_sendMirEntry (n : Nat) (s : State) : stores (sendMirEntry n s) = stores s :=
  apply_ite_same stores rfl (stores_of_quiet (quiet_sendMgt ..))

theorem stores_pairGo (s : State) : stores (pairGo s) = stores s := by
  refine apply_ite_same stores ?_ rfl
  refine (foldl_frame stores (fun s (e : Nat × Word × Nat) => stores_startCopy (fld e.2.1 21 34) e.2.2 s) _ _).trans ?_
  exact (foldl_frame stores (fun s n => stores_sendMirEntry n s) _ _).trans rfl

theorem stores_of_beyond (h : beyondMb t = beyondMb s) : stores t = stores s := by
  have kept := congrArg stores h
  exact kept

theorem stores_joinGo (s : State) : stores (joinGo s) = stores s := by
  refine apply_ite_same stores ?_ rfl
  unfold bgEnd
  split
  · exact stores_of_beyond (beyond_bgEndOn ..)
  · rfl

/-! ### A planned reset -/

theorem planned_rootDeclare (h : HubId) (cause : Nat) (s : State) : (rootDeclare h cause s).mir.planned = s.mir.planned := by
  unfold rootDeclare
  extract_lets live _ u
  exact apply_ite_same (fun u : State => u.mir.planned) rfl (planned_of_core (s := u) (foldl_frame core (fun s x => core_sendMgt ..) _ u))

theorem core_startStep (l : LineAddr) (s : State) : core (startStep l s) = core s := by
  unfold startStep
  split
  · rfl
  · extract_lets hosts kind
    exact core_withHosts (core_finishStep l none) ..

theorem core_recallHome (l : LineAddr) (s : State) : core (recallHome l s).2 = core s := by
  unfold recallHome
  extract_lets t e
  refine apply_ite_same (fun r : Bool × State => core r.2) rfl ?_
  split
  · rfl
  · extract_lets x y z _ w
    have opened : core x.2 = core s := (core_openTxn ..).trans (core_count ..)
    have snooped : core z = core s := (core_setTxn ..).trans ((core_sendSnoops ..).trans opened)
    clear_value z
    exact (core_tryTxn ..).trans (apply_ite_same core snooped ((core_startStep ..).trans snooped))

theorem planned_dropTransit (s : State) : (dropTransit s).mir.planned = s.mir.planned := by
  unfold dropTransit
  refine foldl_frame (fun u : State => u.mir.planned) (fun s q => ?_) _ s
  extract_lets theirs ws
  exact apply_ite_same (fun u : State => u.mir.planned) rfl rfl

theorem planned_reportDeath (h : HubId) (cause : Nat) (s : State) : (reportDeath h cause s).mir.planned = s.mir.planned := by
  refine apply_ite_same (fun u : State => u.mir.planned) (planned_rootDeclare ..) ?_
  split
  · exact planned_of_core (core_sendMgt ..)
  · rfl

theorem planned_reportSelf (s : State) : (reportSelf s).mir.planned = s.mir.planned := by
  have set : ∀ (a lo n v : Nat) (u : State), (wrFld a lo n v u).mir.planned = u.mir.planned := fun _ _ _ _ _ => rfl
  rw [reportSelf, planned_dropTransit, set, planned_reportDeath]

theorem planned_ownReset (s : State) : (reportSelf { s with mir := { s.mir with planned := 2 } }).mir.planned = 2 := by
  rw [planned_reportSelf]

theorem mir_takeNote_self (cause : Nat) (s : State) : (takeNote (hubId s) cause s).mir = s.mir := by
  have kept : ∀ (hub : Bool) (c : Nat) (u : State), (beginReset hub c u).mir = u.mir := fun hub c u => by unfold beginReset; split <;> rfl
  have marked : ∀ u : State, (markDirty u).mir = u.mir := fun _ => rfl
  rw [takeNote_self, kept, selfNoted, marked]
  exact fire_mir ..

/-- A planned reset that is under way stays noted. -/
theorem plannedGo_idle (none_planned : (plannedGo s).mir.planned = 0) : plannedGo s = s := by
  by_cases idle : s.mir.planned = 0 ∨ s.mir.planned = 2
  · exact if_pos idle
  · exfalso
    have begun : s.mir.planned ≠ 0 := fun none => idle (.inl none)
    unfold plannedGo at none_planned
    rw [if_neg idle] at none_planned
    extract_lets g ls u _ v at none_planned
    have recalled : u.mir.planned = s.mir.planned :=
      planned_of_core ((foldl_frame core (f := fun s l => (recallHome l s).2) (fun s l => core_recallHome l s) ls _).trans (core_drainOf ..))
    clear_value u
    have made : v = reportSelf { u with mir := { u.mir with planned := 2 } } := rfl
    clear_value v
    have reported : v.mir.planned = 2 := by rw [made, planned_ownReset]
    split at none_planned
    · have noted : (if isRoot v then takeNote (hubId v) 3 v else v).mir.planned = 2 :=
        apply_ite_same (fun u : State => u.mir.planned) ((congrArg Mir.planned (mir_takeNote_self 3 v)).trans reported) reported
      exact absurd (noted.symm.trans none_planned) (by decide)
    · exact begun (recalled.symm.trans none_planned)

/-! ### A Global Persistent Flush -/

theorem flush_gpfPhase (n : Nat) (s : State) : (gpfPhase n s).pwr.flush = s.pwr.flush := by
  unfold gpfPhase
  extract_lets ds
  have told := foldl_frame core (f := fun s d => cellCmd d 7 (epochNow s) (.gpf n) s) (fun _ _ => core_enqueue ..) ds
  have asked := congrArg Pwr.flush (pwr_of_core (told { s with pwr := { s.pwr with gpfStep := n } }))
  exact asked

theorem gpfEnds_outcome (s : State) : (gpfEnds s).pwr.gpfDone = !(gpfEnds s).pwr.gpfCut := rfl

/-- A flush goes on, or ends with its outcome. -/
def FlushStands (s : State) : Prop := s.pwr.flush = true ∨ s.pwr.gpfDone = !s.pwr.gpfCut

theorem flushStands_gpfPhases (asked : s.pwr.flush = true) : FlushStands (gpfPhases s) := by
  unfold gpfPhases
  extract_lets u
  have open_ : u.pwr.flush = true := apply_ite_same (fun u : State => u.pwr.flush) ((flush_gpfPhase 2 s).trans asked) asked
  clear_value u
  split
  · exact .inr (gpfEnds_outcome u)
  · exact .inl open_

theorem flush_gpfOwnEnds (cut : Bool) (s : State) : (gpfOwnEnds cut s).pwr.flush = s.pwr.flush := by
  unfold gpfOwnEnds
  extract_lets u
  have kept : u.pwr = s.pwr := pwr_of_core (apply_ite_same core (core_markDirty ..) (core_saveRoot ..))
  clear_value u
  have asked : u.pwr.flush = s.pwr.flush := congrArg Pwr.flush kept
  exact (flush_gpfPhase ..).trans asked

theorem flushStands_gpfGo (asked : s.pwr.flush = true) : FlushStands (gpfGo s) := by
  unfold gpfGo
  rw [if_neg (by simp [asked])]
  extract_lets u
  have open_ : u.pwr.flush = true := (congrArg Pwr.flush (pwr_of_core (core_flushGo s))).trans asked
  clear_value u
  split
  · exact flushStands_gpfPhases asked
  · split
    · exact flushStands_gpfPhases ((flush_gpfOwnEnds ..).trans open_)
    · exact .inl open_

theorem gpfGo_idle (none_asked : ¬FlushStands (gpfGo s)) : gpfGo s = s := by
  cases asked : s.pwr.flush with
  | true => exact absurd (flushStands_gpfGo asked) none_asked
  | false => exact if_pos (by rw [asked]; rfl)

/-! ### All that goes on by itself -/

theorem retireStep_none (none_wanted : s.hc.retWant = []) : retireStep s = s := by
  have idle : inWork (fun s => s.hc.retWant.foldl retireOne s) s = s := by
    have held : s.hc.retWant.foldl retireOne { s with lar := { s.lar with work := true } } = { s with lar := { s.lar with work := true } } := by
      rw [none_wanted]
      rfl
    exact congrArg (fun t : State => { t with lar := { t.lar with work := s.lar.work } }) held
  unfold retireStep
  rw [idle, ite_self]

/-- Where nothing waits to go on, nothing does. -/
theorem follow_idle (rest : atRest s = true) (no_fence : s.ports.fences.isEmpty = true) (none_wanted : s.hc.retWant = [])
    (pairs : rdFld s aFbBuddy 0 2 ≠ 1) (joins : rdFld s aFbStat 0 2 ≠ 2) (none_planned : s.mir.planned = 0) (none_asked : s.pwr.flush = false) :
    follow s = s := by
  have settled : settle s = s := if_pos rest
  have fenced : fencesGo s = s := if_pos no_fence
  have paired : pairGo s = s := if_neg fun h => pairs h.1
  have joined : joinGo s = s := if_neg joins
  have planned : plannedGo s = s := if_pos (.inl none_planned)
  have flushed : gpfGo s = s := if_pos (by rw [none_asked]; rfl)
  unfold follow
  rw [settled, fenced, retireStep_none none_wanted, paired, joined, planned, flushed, ite_self]

/-- Where nothing can be cleaned and neither a planned reset nor a flush has left its mark, what went on by itself left the directory. -/
theorem dir_follow (none_left : NothingToClean s) (none_planned : (follow s).mir.planned = 0) (none_asked : ¬FlushStands (follow s)) :
    (follow s).dir = s.dir := by
  cases run : running s with
  | false => rw [follow_stopped run]
  | true =>
    have staged : follow s = gpfGo (plannedGo (joinGo (pairGo (retireStep (fencesGo (settle s)))))) := if_pos run
    have settled := stores_settle none_left
    have fenced := (stores_fencesGo (none_left.congr settled)).trans settled
    have retired := (stores_retireStep (none_left.congr fenced)).trans fenced
    have joined := (stores_joinGo _).trans ((stores_pairGo _).trans retired)
    rw [staged] at none_planned none_asked ⊢
    generalize joinGo (pairGo (retireStep (fencesGo (settle s)))) = u at joined none_planned none_asked ⊢
    have flushed := gpfGo_idle none_asked
    rw [flushed] at none_planned ⊢
    rw [plannedGo_idle none_planned]
    exact (stores_parts joined).1

end Sys2Proof.Machine
end

section
/-! PROOFS. A host's write to a read-only window (R246) that has the tag of a read of the same line that the port has open: the answer that refuses the
write ends the read's transaction, so that its directory entry is busy no more. -/

namespace Sys2Proof.Machine

/-- A read of line 0 by port 0, with tag 5. -/
def readOfLine : Demand := ⟨.host, 0, 5, 0, 0, .rdS, none, false, .noalloc, 4, 0, [], false, 0, 0, none⟩

/-- A block in which the read is open at its home, port 0 has a read-only window of 1 GiB, and a merged granule drains to the cellar. -/
def readPending : State := { State.reset with
  regs := [(aHpCtl 0 / 8, 1), (aHpWin 0 0 / 8, 0x1E13)]
  dir := [(0, { busy := true })]
  hc := { State.reset.hc with mbuf := [⟨1, 0, 0, 0, true, false, []⟩] }
  home := { State.reset.home with opened := [newTxn 0 (.own readOfLine) .rdS 4 0] }
  ports := { State.reset.ports with heads := [(0, { decoder := some (0, 2 ^ 30) })] } }

/-- The write's request: the tag and the address of the read. -/
def sameTag : HostReq := ⟨0, 0, 5⟩

/-- A full line. -/
def fullLine : HostWr := ⟨true, fullMask, Data.zero, .any⟩

/-- The block once the write has been refused. -/
def writeRefused : State := opMemwrOtherHost sameTag fullLine readPending

theorem exec_readPending : exec (.memwrOtherHost sameTag fullLine) readPending = .next (follow writeRefused) :=
  live_follow (s := readPending) (by decide) (opMemwrOtherHost sameTag fullLine)

/-- The answer to the write ended the read's transaction, and its directory entry is free. -/
theorem dir_writeRefused : writeRefused.dir = [] := by decide

theorem follow_writeRefused : follow writeRefused = writeRefused :=
  follow_idle (by decide) (by decide) (by decide) (by decide) (by decide) (by decide) (by decide)

theorem admits_readPending : Admits readPending 0 4 0 0 := by
  refine ⟨by decide, by decide, by decide, by decide, by decide⟩

/-- A block with the hub cache, the requests and the cellar path of `readPending` has nothing to clean. -/
theorem nothingToClean_readPending {u : State} {ssd : SMap Detector} (hc : u.hc = { readPending.hc with ssd := ssd }) (req : u.req = readPending.req)
    (cel : u.cel = readPending.cel) : NothingToClean u := by
  constructor <;> simp only [hc, req, cel]
  case drains => exact ⟨_, rfl, rfl⟩
  all_goals rfl

end Sys2Proof.Machine

namespace Sys2Proof

open Machine

/-- Refutes O47: a write that a read-only window refuses changes the directory where it has the tag of the port's open read of that line. -/
theorem not_hostRequests : ¬ Obligations.HostRequests := by
  intro all
  obtain ⟨-, -, -, refuses, -⟩ := all readPending sameTag 0x1E13 0 (by decide) (by decide) (by decide) (by decide) (by decide) admits_readPending
  obtain ⟨u, done, dir, hc, req, cel, -⟩ := refuses fullLine (by decide) (by decide) (by decide)
  have same : follow u = writeRefused := (Host.Outcome.next.inj (done.symm.trans exec_readPending)).trans follow_writeRefused
  have kept : (follow u).dir = u.dir := dir_follow (nothingToClean_readPending hc req cel) (by rw [same]; decide) (by rw [same]; unfold FlushStands; decide)
  rw [same, dir_writeRefused, dir] at kept
  exact absurd kept (by decide)

end Sys2Proof
end
